-- ==== Sys2Proof/Word.lean ====
section
/-! DEFINITION. Words and slots: the widths of R5, R7, R54 and the four issue slots of R50, and why a slot has no word to issue (R51, R88). -/

namespace Sys2Proof

abbrev Byte := BitVec 8
abbrev W16 := BitVec 16
abbrev W32 := BitVec 32
abbrev W64 := BitVec 64

/-- The four issue slots of a core (R50). -/
inductive Slot where
  | s
  | v
  | m
  | h
deriving DecidableEq, Repr, Inhabited

/-- A value for each slot. -/
structure PerSlot (α : Type) where
  s : α
  v : α
  m : α
  h : α
deriving DecidableEq, Repr, Inhabited

def PerSlot.get {α : Type} (p : PerSlot α) : Slot → α
  | .s => p.s
  | .v => p.v
  | .m => p.m
  | .h => p.h

def PerSlot.set {α : Type} (p : PerSlot α) (a : α) : Slot → PerSlot α
  | .s => { p with s := a }
  | .v => { p with v := a }
  | .m => { p with m := a }
  | .h => { p with h := a }

/-- Slot numbers, in the order of R88; TRAPSLOT holds them (R71). -/
def Slot.num : Slot → Nat
  | .s => 0
  | .v => 1
  | .m => 2
  | .h => 3

/-- Why a word is not an instruction (R88): a reserved code, or a nonzero reserved field. -/
inductive Reject where
  | illegal
  | reservedNonzero
deriving DecidableEq, Repr, Inhabited

/-- Why a slot cannot fetch the word at its PC (R51). -/
inductive FetchFault where
  | fieldMiss
  | fieldPerm
  | misalign
  | poison
  | remoteGated
deriving DecidableEq, Repr, Inhabited

end Sys2Proof
end

