-- ==== Sys2Proof/Machine/Float.lean ====
section
/-! DEFINITION. Number formats and exact arithmetic (R15 to R36, R47). A finite value is an exact dyadic number with a sign;
every operation is computed exactly and rounded once. -/

namespace Sys2Proof.Machine

/-- The sticky flags of one operation: bit 0 NV, bit 1 OF, bit 2 UF, bit 3 NX, bit 4 SA (R47). -/
abbrev FFlags := BitVec 5

def flagNone : FFlags := 0
def flagNV : FFlags := 1
def flagOF : FFlags := 2
def flagUF : FFlags := 4
def flagNX : FFlags := 8
def flagSA : FFlags := 16

/-- Element formats of R15. -/
inductive Fmt where
  | fp32 | bf16 | fp16 | e4m3 | e5m2 | e2m3 | e3m2 | e2m1 | int32 | int16 | int8 | g4 | g3
deriving DecidableEq, Repr, Inhabited

/-- R15: the format that a code names; 0xD to 0xF are reserved. -/
def Fmt.ofCode (c : BitVec 4) : Option Fmt :=
  match c.toNat with
  | 0 => some .fp32 | 1 => some .bf16 | 2 => some .fp16 | 3 => some .e4m3 | 4 => some .e5m2
  | 5 => some .e2m3 | 6 => some .e3m2 | 7 => some .e2m1 | 8 => some .int32 | 9 => some .int16
  | 10 => some .int8 | 11 => some .g4 | 12 => some .g3 | _ => none

/-- R15: element width in bits. -/
def Fmt.width : Fmt → Nat
  | .fp32 | .int32 => 32
  | .bf16 | .fp16 | .int16 => 16
  | .e4m3 | .e5m2 | .int8 => 8
  | .e2m3 | .e3m2 => 6
  | .e2m1 | .g4 => 4
  | .g3 => 3

/-- R25: elements in a 128-bit word. -/
def Fmt.perWord : Fmt → Nat
  | .fp32 | .int32 => 4
  | .bf16 | .fp16 | .int16 => 8
  | .e4m3 | .e5m2 | .int8 => 16
  | .e2m3 | .e3m2 => 21
  | .e2m1 | .g4 | .g3 => 32

def Fmt.isInt : Fmt → Bool
  | .int32 | .int16 | .int8 | .g4 | .g3 => true
  | _ => false

/-- R16: the formats the weight-load path accepts. -/
def Fmt.weightOk : Fmt → Bool
  | .e4m3 | .e5m2 | .e2m3 | .e3m2 | .e2m1 | .g4 | .g3 => true
  | _ => false

/-- R16: the activation formats. -/
def Fmt.activationOk : Fmt → Bool
  | .bf16 | .e4m3 | .e5m2 => true
  | _ => false

/-- R16: the MDRAIN destinations. -/
def Fmt.drainOk : Fmt → Bool
  | .fp32 | .bf16 | .fp16 | .e4m3 | .e5m2 | .int32 | .int16 | .int8 => true
  | _ => false

/-- R16: the VCVT sources and destinations. -/
def Fmt.vcvtOk : Fmt → Bool
  | .g4 | .g3 => false
  | _ => true

/-- What a floating-point format reserves at its top exponent (R17). -/
inductive Specials where
  | ieee
  | nanOnly
  | none
deriving DecidableEq, Repr

/-- The parameters of a floating-point format (R17): exponent bits, mantissa bits, bias, reserved codes. -/
structure FloatFmt where
  ebits : Nat
  mbits : Nat
  bias : Int
  specials : Specials
deriving DecidableEq, Repr

def ffFP32 : FloatFmt := ⟨8, 23, 127, .ieee⟩
def ffBF16 : FloatFmt := ⟨8, 7, 127, .ieee⟩

/-- R17: the parameters of the floating-point element formats. -/
def Fmt.float : Fmt → Option FloatFmt
  | .fp32 => some ffFP32
  | .bf16 => some ffBF16
  | .fp16 => some ⟨5, 10, 15, .ieee⟩
  | .e4m3 => some ⟨4, 3, 7, .nanOnly⟩
  | .e5m2 => some ⟨5, 2, 15, .ieee⟩
  | .e2m3 => some ⟨2, 3, 1, .none⟩
  | .e3m2 => some ⟨3, 2, 3, .none⟩
  | .e2m1 => some ⟨2, 1, 1, .none⟩
  | _ => Option.none

/-- The sign bit of a format, as a code. -/
def FloatFmt.signCode (f : FloatFmt) : Nat := 2 ^ (f.ebits + f.mbits)

/-- R17: the code of the largest finite magnitude. -/
def FloatFmt.maxCode (f : FloatFmt) : Nat :=
  match f.specials with
  | .ieee => (2 ^ f.ebits - 1) * 2 ^ f.mbits - 1
  | .nanOnly => f.signCode - 2
  | .none => f.signCode - 1

/-- R19: the canonical NaN; a format with no NaN has none, and +0 stands in (R35 writes +0 there). -/
def FloatFmt.nanCode (f : FloatFmt) : Nat :=
  match f.specials with
  | .ieee => (2 ^ f.ebits - 1) * 2 ^ f.mbits + 2 ^ (f.mbits - 1)
  | .nanOnly => f.signCode - 1
  | .none => 0

/-- R17: the code of +infinity in a format that has one. -/
def FloatFmt.infCode (f : FloatFmt) : Nat := (2 ^ f.ebits - 1) * 2 ^ f.mbits

/-- A value read from an encoding: a NaN, an infinity, or `(-1)^neg * man * 2^exp` exactly, zeros keeping their sign. -/
inductive Val where
  | nan
  | inf (neg : Bool)
  | fin (neg : Bool) (man : Nat) (exp : Int)
deriving DecidableEq, Repr, Inhabited

def Val.isNan : Val → Bool
  | .nan => true
  | _ => false

def Val.isInf : Val → Bool
  | .inf _ => true
  | _ => false

def Val.isZero : Val → Bool
  | .fin _ 0 _ => true
  | _ => false

def Val.neg? : Val → Bool
  | .nan => false
  | .inf s => s
  | .fin s _ _ => s

def Val.negate : Val → Val
  | .nan => .nan
  | .inf s => .inf (!s)
  | .fin s m e => .fin (!s) m e

/-- R18: the value of an encoding. -/
def FloatFmt.value (f : FloatFmt) (code : Nat) : Val :=
  let s := code / f.signCode % 2 == 1
  let mag := code % f.signCode
  let e := mag / 2 ^ f.mbits
  let m := mag % 2 ^ f.mbits
  let special :=
    match f.specials with
    | .ieee => e == 2 ^ f.ebits - 1
    | .nanOnly => mag == f.signCode - 1
    | .none => false
  if special then
    if f.specials == .ieee && m == 0 then .inf s else .nan
  else if e == 0 then .fin s m (1 - f.bias - f.mbits)
  else .fin s (2 ^ f.mbits + m) (e - f.bias - f.mbits)

/-- The integer that `w` low bits of a container hold in two's complement (R22, R28). -/
def signedOf (w : Nat) (x : Nat) : Int :=
  let v := x % 2 ^ w
  if v < 2 ^ (w - 1) then v else (v : Int) - 2 ^ w

/-- An integer as an exact value; integer zero is +0. -/
def Val.ofInt (i : Int) : Val := .fin (decide (i < 0)) i.natAbs 0

/-- R28: the value that a container holds in a format; the bits above the format's width are ignored. -/
def Fmt.read (f : Fmt) (x : Nat) : Val :=
  match f.float with
  | some ff => ff.value (x % 2 ^ f.width)
  | none => Val.ofInt (signedOf f.width x)

/-- An exact value moved to a lower exponent, as a signed integer multiple of `2^q` (for `q` not above its exponent). -/
def scaledTo (q : Int) (neg : Bool) (man : Nat) (exp : Int) : Int :=
  let v : Int := man * 2 ^ (exp - q).toNat
  if neg then -v else v

/-- Rounding modes of R30. -/
abbrev Rm := BitVec 2

def rmRNE : Rm := 0
def rmRTZ : Rm := 1
def rmRDN : Rm := 2
def rmRUP : Rm := 3

/-- R30: does a magnitude with kept part `kept` and remainder `rem` of `2^sh` units (and a sticky amount below one unit)
round away from zero. -/
def roundsUp (rm : Rm) (neg : Bool) (kept rem sh : Nat) (sticky : Bool) : Bool :=
  let inexact := rem != 0 || sticky
  match rm.toNat with
  | 0 =>
    let half := if sh == 0 then 0 else 2 ^ (sh - 1)
    if sh == 0 then false
    else rem > half || (rem == half && (sticky || kept % 2 == 1))
  | 1 => false
  | 2 => neg && inexact
  | _ => !neg && inexact

/-- R31: the code and flags of a finite result that overflows. -/
def FloatFmt.overflow (f : FloatFmt) (rm : Rm) (sat : Bool) (neg : Bool) : Nat × FFlags :=
  let s := if neg then f.signCode else 0
  let maxC := s + f.maxCode
  match f.specials with
  | .none => (maxC, flagSA ||| flagNX)
  | sp =>
    if sat then (maxC, flagSA ||| flagNX)
    else
      let toInf := match rm.toNat with
        | 0 => true
        | 1 => false
        | 2 => neg
        | _ => !neg
      if toInf then ((if sp == .nanOnly then f.nanCode else s + f.infCode), flagOF ||| flagNX)
      else (maxC, flagOF ||| flagNX)

/-- R30, R31, R33, R34: a nonzero finite magnitude `man * 2^exp` (plus, where `sticky`, an amount above 0 and below `2^exp`)
rounded to a floating-point format. `sat` is already gated by R32. -/
def FloatFmt.round (f : FloatFmt) (rm : Rm) (sat neg : Bool) (man : Nat) (exp : Int) (sticky : Bool) : Nat × FFlags :=
  let s := if neg then f.signCode else 0
  let top : Int := man.log2 + exp
  let qmin : Int := 1 - f.bias - f.mbits
  let q : Int := max (top - f.mbits) qmin
  let tiny : Bool := decide (top < 1 - f.bias)
  let (kept, rem, sh) : Nat × Nat × Nat :=
    if exp ≥ q then (man * 2 ^ (exp - q).toNat, 0, 0)
    else
      let sh := (q - exp).toNat
      (man / 2 ^ sh, man % 2 ^ sh, sh)
  let up := roundsUp rm neg kept rem sh sticky
  let k := if up then kept + 1 else kept
  let code := (q - qmin).toNat * 2 ^ f.mbits + k
  let inexact := rem != 0 || sticky
  if code > f.maxCode then f.overflow rm sat neg
  else (s + code, (if inexact then flagNX else 0) ||| (if inexact && tiny then flagUF else 0))

/-- R32: the saturation bit has effect only for E4M3 and E5M2. -/
def Fmt.satGate (f : Fmt) (sat : Bool) : Bool :=
  sat && (f == .e4m3 || f == .e5m2)

/-- R35, R36: conversion to an integer format of `w` bits, as the two's complement value. -/
def toIntFmt (w : Nat) (rm : Rm) (v : Val) : Int × FFlags :=
  let hi : Int := 2 ^ (w - 1) - 1
  let lo : Int := -(2 ^ (w - 1) : Int)
  match v with
  | .nan => (0, flagNV)
  | .inf neg => (if neg then lo else hi, flagSA)
  | .fin neg man exp =>
    let (kept, rem, sh) : Nat × Nat × Nat :=
      if exp ≥ 0 then (man * 2 ^ exp.toNat, 0, 0)
      else
        let sh := (-exp).toNat
        (man / 2 ^ sh, man % 2 ^ sh, sh)
    let up := roundsUp rm neg kept rem sh false
    let m : Int := if up then kept + 1 else kept
    let i : Int := if neg then -m else m
    if i < lo then (lo, flagSA)
    else if i > hi then (hi, flagSA)
    else (i, if rem != 0 then flagNX else 0)

/-- R28: an integer result in a 32-bit container. -/
def containInt (i : Int) : W32 := BitVec.ofInt 32 i

/-- R34, R35: an exact value converted to a floating-point format, as its code. -/
def Fmt.toFloat (f : Fmt) (ff : FloatFmt) (rm : Rm) (sat : Bool) (v : Val) : Nat × FFlags :=
  match v with
  | .nan => (ff.nanCode, if ff.specials == .none then flagNV else 0)
  | .inf neg =>
    let s := if neg then ff.signCode else 0
    match ff.specials with
    | .none => (s + ff.maxCode, flagSA)
    | .nanOnly => if f.satGate sat then (s + ff.maxCode, flagSA) else (ff.nanCode, flagNV)
    | .ieee => if f.satGate sat then (s + ff.maxCode, flagSA) else (s + ff.infCode, 0)
  | .fin neg 0 _ => (if neg then ff.signCode else 0, 0)
  | .fin neg man exp => ff.round rm (f.satGate sat) neg man exp false

/-- R34: conversion of an exact value to an element format, in its container (R28). -/
def Fmt.convert (f : Fmt) (rm : Rm) (sat : Bool) (v : Val) : W32 × FFlags :=
  match f.float with
  | some ff => let (c, fl) := f.toFloat ff rm sat v; (BitVec.ofNat 32 c, fl)
  | none => let (i, fl) := toIntFmt f.width rm v; (containInt i, fl)

/-- The FP32 value of a container. -/
def f32 (x : W32) : Val := ffFP32.value x.toNat

/-- The canonical FP32 NaN (R19). -/
def nan32 : W32 := 0x7FC00000#32

/-- FP32 result of an exact value under a mode. -/
def toF32 (rm : Rm) (v : Val) : W32 × FFlags := Fmt.fp32.convert rm false v

/-- The exact sum of two finite values; an exact zero sum is +0 unless both are −0 (R48, IEEE 754). -/
def addFin (n1 : Bool) (m1 : Nat) (e1 : Int) (n2 : Bool) (m2 : Nat) (e2 : Int) : Val :=
  let q := min e1 e2
  let t := scaledTo q n1 m1 e1 + scaledTo q n2 m2 e2
  if t = 0 then .fin (n1 && n2 && m1 == 0 && m2 == 0) 0 0
  else .fin (decide (t < 0)) t.natAbs q

/-- The exact sum of two values and whether it creates a NaN (R19, R48). -/
def Val.add (a b : Val) : Val × FFlags :=
  match a, b with
  | .nan, _ => (.nan, 0)
  | _, .nan => (.nan, 0)
  | .inf s, .inf t => if s = t then (.inf s, 0) else (.nan, flagNV)
  | .inf s, _ => (.inf s, 0)
  | _, .inf t => (.inf t, 0)
  | .fin n1 m1 e1, .fin n2 m2 e2 => (addFin n1 m1 e1 n2 m2 e2, 0)

/-- The exact product of two values and whether it creates a NaN (R19, R48). -/
def Val.mul (a b : Val) : Val × FFlags :=
  match a, b with
  | .nan, _ => (.nan, 0)
  | _, .nan => (.nan, 0)
  | .inf s, .inf t => (.inf (s != t), 0)
  | .inf s, .fin t m _ => if m = 0 then (.nan, flagNV) else (.inf (s != t), 0)
  | .fin s m _, .inf t => if m = 0 then (.nan, flagNV) else (.inf (s != t), 0)
  | .fin n1 m1 e1, .fin n2 m2 e2 => (.fin (n1 != n2) (m1 * m2) (e1 + e2), 0)

/-- `a < b` as exact values, for values that are not NaN; zeros of either sign are equal. -/
def Val.lt (a b : Val) : Bool :=
  match a, b with
  | .nan, _ => false
  | _, .nan => false
  | .inf s, .inf t => s && !t
  | .inf s, .fin _ _ _ => s
  | .fin _ _ _, .inf t => !t
  | .fin n1 m1 e1, .fin n2 m2 e2 =>
    let q := min e1 e2
    decide (scaledTo q n1 m1 e1 < scaledTo q n2 m2 e2)

/-- Equality of exact values that are not NaN; zeros of either sign are equal. -/
def Val.same (a b : Val) : Bool :=
  match a, b with
  | .nan, _ => false
  | _, .nan => false
  | a, b => !(a.lt b) && !(b.lt a)

/-- FP32 addition under RNE, with flags. -/
def addF32 (rm : Rm) (a b : W32) : W32 × FFlags :=
  let (v, f1) := (f32 a).add (f32 b)
  let (x, f2) := toF32 rm v
  (x, f1 ||| f2)

/-- FP32 multiplication under RNE, with flags. -/
def mulF32 (rm : Rm) (a b : W32) : W32 × FFlags :=
  let (v, f1) := (f32 a).mul (f32 b)
  let (x, f2) := toF32 rm v
  (x, f1 ||| f2)

/-- `a × b + c` with one rounding, and flags. -/
def fmaF32 (rm : Rm) (a b c : W32) : W32 × FFlags :=
  let (p, f1) := (f32 a).mul (f32 b)
  let (v, f2) := p.add (f32 c)
  let (x, f3) := toF32 rm v
  (x, f1 ||| f2 ||| f3)

end Sys2Proof.Machine
end

