-- ==== Sys2Proof/Machine/Sfu.lean ====
section
/-! DEFINITION. The special functions (R143, R144): the exact mathematical value correctly rounded. Algebraic functions are
computed exactly; the others to 704 fractional bits, far beyond the distance at which any result of the formats could lie from
a rounding boundary, and are never exact outside the inputs of R144. -/

namespace Sys2Proof.Machine

/-- Fractional bits of the fixed-point values below. -/
def fxP : Nat := 704

def fxOne : Nat := 2 ^ fxP

/-- Sum of a power series whose terms follow `term (k+1) = term k × num / (den k)`. -/
def fxSeries (mulBy : Nat) (den : Nat → Nat) (alt : Bool) : Nat → Nat → Nat → Int
  | 0, _, _ => 0
  | fuel + 1, k, term =>
    if term = 0 then 0
    else
      let v : Int := if alt && k % 2 = 1 then -(term : Int) else term
      v + fxSeries mulBy den alt fuel (k + 1) (term * mulBy / fxOne / den k)

/-- `2 × atanh(num/den)`: the sum of `2 z^(2k+1) / (2k+1)`. -/
def fxAtanhFrom (z2 : Nat) : Nat → Nat → Nat → Nat
  | 0, _, _ => 0
  | fuel + 1, k, p => if p = 0 then 0 else 2 * p / (2 * k + 1) + fxAtanhFrom z2 fuel (k + 1) (p * z2 / fxOne)

/-- ln of `(den + num) / (den - num)`. -/
def fxLogRatio (num den : Nat) : Nat :=
  let z := num * fxOne / den
  fxAtanhFrom (z * z / fxOne) 400 0 z

def fxLn2 : Nat := fxLogRatio 1 3

/-- The arc tangent of `1/n`. -/
def fxAtanFrom (n2 : Nat) : Nat → Nat → Nat → Int
  | 0, _, _ => 0
  | fuel + 1, k, p =>
    if p = 0 then 0
    else
      let v : Int := ((p / (2 * k + 1) : Nat) : Int)
      (if k % 2 = 1 then -v else v) + fxAtanFrom n2 fuel (k + 1) (p / n2)

def fxPi : Nat := (16 * fxAtanFrom 25 400 0 (fxOne / 5) - 4 * fxAtanFrom (239 * 239) 400 0 (fxOne / 239)).toNat

/-- `exp t` for fixed-point `t` in [0, 1). -/
def fxExp (t : Nat) : Nat := (fxSeries t (fun k => k + 1) false 400 0 fxOne).toNat

/-- `sin t` for fixed-point `t` in [0, π/2]. -/
def fxSin (t : Nat) : Nat := (fxSeries (t * t / fxOne) (fun k => (2 * k + 2) * (2 * k + 3)) true 400 0 t).toNat

/-- `exp (-y)` for fixed-point `y ≥ 0`. -/
def fxExpNeg (y : Nat) : Nat :=
  let n := y / fxLn2
  let r := y - n * fxLn2
  fxOne * fxOne / fxExp r / 2 ^ n

/-- `man × 2^exp` in fixed point, for exponents not below `-fxP`. -/
def fxOf (man : Nat) (exp : Int) : Nat := man * 2 ^ (exp + fxP).toNat

/-- Special function codes (R143). -/
inductive SfuFn where
  | exp2 | log2 | rcp | rsq | sqrt | sin | cos | tanh | sigm
deriving DecidableEq, Repr, Inhabited

/-- An exact value rounded to a format. -/
def sfuExact (f : Fmt) (v : Val) : W32 × FFlags := f.convert rmRNE false v

/-- A value known to lie strictly above `man × 2^exp` by less than one unit, rounded to a format. -/
def sfuAbove (ff : FloatFmt) (neg : Bool) (man : Nat) (exp : Int) (sticky : Bool) : W32 × FFlags :=
  let (c, fl) := ff.round rmRNE false neg man exp sticky
  (BitVec.ofNat 32 c, fl)

/-- 2^x of a nonzero finite x. -/
def sfuExp2 (ff : FloatFmt) (neg : Bool) (man : Nat) (exp : Int) : W32 × FFlags :=
  let big := decide (10 ≤ (man.log2 : Int) + exp)
  if big then (if neg then sfuAbove ff false 1 (-600) true else sfuAbove ff false 1 600 true)
  else
    let y := fxOf man exp
    let n := y / fxOne
    let fr := y % fxOne
    if fr = 0 then sfuAbove ff false 1 (if neg then -(n : Int) else n) false
    else if neg then sfuAbove ff false (fxExp ((fxOne - fr) * fxLn2 / fxOne)) (-(n : Int) - 1 - fxP) true
    else sfuAbove ff false (fxExp (fr * fxLn2 / fxOne)) ((n : Int) - fxP) true

/-- log2 of a positive finite x. -/
def sfuLog2 (ff : FloatFmt) (man : Nat) (exp : Int) : W32 × FFlags :=
  let l := man.log2
  let e : Int := l + exp
  let one := 2 ^ l
  if man = one then
    if e = 0 then (0, 0) else sfuAbove ff (decide (e < 0)) e.natAbs 0 false
  else
    let lm := fxLogRatio (man - one) (man + one)
    let v : Int := e * fxOne + ((lm * fxOne / fxLn2 : Nat) : Int)
    if v < 0 then sfuAbove ff true (v.natAbs - 1) (-(fxP : Int)) true
    else sfuAbove ff false v.natAbs (-(fxP : Int)) true

/-- 1/x of a nonzero finite x. The overflow of a negative subnormal's reciprocal keeps its sign, as R31 has it under RNE (DEDUCED, log: R143
names +∞ only). -/
def sfuRcp (ff : FloatFmt) (neg : Bool) (man : Nat) (exp : Int) : W32 × FFlags :=
  let k := 64 + man.log2
  sfuAbove ff neg (2 ^ k / man) (-(k : Int) - exp) (2 ^ k % man != 0)

/-- √x of a positive finite x. -/
def sfuSqrt (ff : FloatFmt) (man : Nat) (exp : Int) : W32 × FFlags :=
  let (m, e) : Nat × Int := if exp % 2 = 0 then (man, exp) else (2 * man, exp - 1)
  let n := m * 2 ^ 128
  let q := Nat.sqrt n
  sfuAbove ff false q (e / 2 - 64) (q * q != n)

/-- 1/√x of a positive finite x. -/
def sfuRsq (ff : FloatFmt) (man : Nat) (exp : Int) : W32 × FFlags :=
  let (m, e) : Nat × Int := if exp % 2 = 0 then (man, exp) else (2 * man, exp - 1)
  let n := 2 ^ 256 / m
  let q := Nat.sqrt n
  sfuAbove ff false q (-128 - e / 2) (q * q * m != 2 ^ 256)

/-- sin(π r) for fixed-point r in (0, 1/2), as a value with a sign. -/
def sfuSinPart (ff : FloatFmt) (neg : Bool) (r : Nat) : W32 × FFlags :=
  sfuAbove ff neg (fxSin (r * fxPi / fxOne)) (-(fxP : Int)) true

/-- sin(π x) of a nonzero finite x. -/
def sfuSin (ff : FloatFmt) (neg : Bool) (man : Nat) (exp : Int) : W32 × FFlags :=
  let r2 := fxOf man exp % (2 * fxOne)
  let flip := decide (fxOne ≤ r2)
  let r1 := if flip then r2 - fxOne else r2
  let r := if 2 * r1 > fxOne then fxOne - r1 else r1
  let sgn := neg != flip
  if r1 = 0 then (BitVec.ofNat 32 (if neg then ff.signCode else 0), 0)
  else if 2 * r1 = fxOne then sfuAbove ff sgn 1 0 false
  else sfuSinPart ff sgn r

/-- cos(π x) of a finite x. -/
def sfuCos (ff : FloatFmt) (man : Nat) (exp : Int) : W32 × FFlags :=
  let r2 := fxOf man exp % (2 * fxOne)
  let flip := decide (fxOne ≤ r2)
  let r1 := if flip then r2 - fxOne else r2
  if r1 = 0 then sfuAbove ff flip 1 0 false
  else if 2 * r1 = fxOne then (0, 0)
  else if 2 * r1 > fxOne then sfuSinPart ff (!flip) (r1 - fxOne / 2)
  else sfuSinPart ff flip (fxOne / 2 - r1)

/-- tanh of a nonzero finite x. -/
def sfuTanh (ff : FloatFmt) (neg : Bool) (man : Nat) (exp : Int) : W32 × FFlags :=
  if 8 ≤ (man.log2 : Int) + exp then sfuAbove ff neg (fxOne - 1) (-(fxP : Int)) true
  else
    let u := fxExpNeg (2 * fxOf man exp)
    sfuAbove ff neg ((fxOne - u) * fxOne / (fxOne + u) - 1) (-(fxP : Int)) true

/-- The logistic function of a nonzero finite x. -/
def sfuSigm (ff : FloatFmt) (neg : Bool) (man : Nat) (exp : Int) : W32 × FFlags :=
  if 8 ≤ (man.log2 : Int) + exp then
    if neg then sfuAbove ff false 1 (-600) true else sfuAbove ff false (fxOne - 1) (-(fxP : Int)) true
  else
    let u := fxExpNeg (fxOf man exp)
    if neg then sfuAbove ff false (u * fxOne / (fxOne + u)) (-(fxP : Int)) true
    else sfuAbove ff false (fxOne * fxOne / (fxOne + u)) (-(fxP : Int)) true

/-- Every finite value at a magnitude whose fraction bits end above `2^-fxP`; large values are reduced first (R144: an FP32 of
2^23 or more is an integer, so only its parity matters). -/
def reduceTurns (man : Nat) (exp : Int) : Nat × Int := if exp > 1 then (0, 0) else (man, exp)

/-- R143, R144: a special function of a value, rounded to the element format. -/
def sfu (fn : SfuFn) (f : Fmt) (v : Val) : W32 × FFlags :=
  let ff := match f.float with | some ff => ff | none => ffFP32
  let nanv := BitVec.ofNat 32 ff.nanCode
  let sgn (neg : Bool) (code : Nat) : W32 := BitVec.ofNat 32 ((if neg then ff.signCode else 0) + code)
  match fn, v with
  | _, .nan => (nanv, 0)
  | .exp2, .inf neg => if neg then (0, 0) else (sgn false ff.infCode, 0)
  | .exp2, .fin neg m e => if m = 0 then sfuAbove ff false 1 0 false else sfuExp2 ff neg m e
  | .log2, .inf neg => if neg then (nanv, flagNV) else (sgn false ff.infCode, 0)
  | .log2, .fin neg m e =>
    if m = 0 then (sgn true ff.infCode, 0) else if neg then (nanv, flagNV) else sfuLog2 ff m e
  | .rcp, .inf neg => (sgn neg 0, 0)
  | .rcp, .fin neg m e => if m = 0 then (sgn neg ff.infCode, 0) else sfuRcp ff neg m e
  | .rsq, .inf neg => if neg then (nanv, flagNV) else (0, 0)
  | .rsq, .fin neg m e =>
    if m = 0 then (sgn neg ff.infCode, 0) else if neg then (nanv, flagNV) else sfuRsq ff m e
  | .sqrt, .inf neg => if neg then (nanv, flagNV) else (sgn false ff.infCode, 0)
  | .sqrt, .fin neg m e => if m = 0 then (sgn neg 0, 0) else if neg then (nanv, flagNV) else sfuSqrt ff m e
  | .sin, .inf _ => (nanv, flagNV)
  | .sin, .fin neg m e =>
    if m = 0 then (sgn neg 0, 0) else let (m', e') := reduceTurns m e; if m' = 0 then (sgn neg 0, 0) else sfuSin ff neg m' e'
  | .cos, .inf _ => (nanv, flagNV)
  | .cos, .fin _ m e => let (m', e') := reduceTurns m e; sfuCos ff m' e'
  | .tanh, .inf neg => sfuAbove ff neg 1 0 false
  | .tanh, .fin neg m e => if m = 0 then (sgn neg 0, 0) else sfuTanh ff neg m e
  | .sigm, .inf neg => if neg then (0, 0) else sfuAbove ff false 1 0 false
  | .sigm, .fin neg m e => if m = 0 then sfuAbove ff false 1 (-1) false else sfuSigm ff neg m e

end Sys2Proof.Machine
end

