-- ==== Sys2Proof/Machine/Mx.lean ====
section
/-! DEFINITION. Microscaling blocks (R37 to R40) and the array's summation (R42, R43, R46). -/

namespace Sys2Proof.Machine

/-- R37: emax of an MX element format. -/
def Fmt.emax : Fmt → Option Int
  | .e4m3 => some 8
  | .e5m2 => some 15
  | .e2m3 => some 2
  | .e3m2 => some 4
  | .e2m1 => some 2
  | _ => none

/-- floor(log2 |v|) of a nonzero finite value. -/
def Val.lead : Val → Int
  | .fin _ m e => m.log2 + e
  | _ => 0

/-- |v|, for a value that is finite. -/
def Val.abs : Val → Val
  | .nan => .nan
  | .inf _ => .inf false
  | .fin _ m e => .fin false m e

/-- The larger of two magnitudes. -/
def Val.maxAbs (a b : Val) : Val := if a.abs.lt b.abs then b.abs else a.abs

/-- `v × 2^k`, exactly. -/
def Val.scale (k : Int) : Val → Val
  | .fin s m e => .fin s m (e + k)
  | v => v

/-- R38: a block quantised to element format `f` with emax `em`: the E8M0 scale and flags of the scale, and each element's
container with its flags. -/
def quantise (f : Fmt) (em : Int) (xs : List Val) : Byte × FFlags × List (W32 × FFlags) :=
  if xs.any Val.isNan then (0xFF, 0, xs.map fun _ => (0, 0))
  else if xs.any Val.isInf then (0xFF, flagNV, xs.map fun _ => (0, 0))
  else
    let amax := xs.foldl Val.maxAbs (.fin false 0 0)
    if amax.isZero then (0, 0, xs.map fun x => f.convert rmRNE true x)
    else
      let e := max (amax.lead - em) (-127)
      (BitVec.ofInt 8 (e + 127), 0, xs.map fun x => f.convert rmRNE true (x.scale (-e)))

/-- R39: the exact value of element `q` of a block with scale `s`. -/
def dequantise (f : Fmt) (q : W32) (s : Byte) : Val :=
  if s = 0xFF then .nan
  else (f.read q.toNat).scale (s.toNat - 127)

/-- The scale of a weight group: none, an E8M0 code or a BF16 code (R42). -/
inductive WScale where
  | one
  | e8m0 (s : Byte)
  | bf16 (s : W16)
deriving DecidableEq, Repr, Inhabited

/-- The value of a BF16 group scale, 1 where there is none (R42). -/
def WScale.factor : WScale → Val
  | .bf16 s => ffBF16.value s.toNat
  | _ => .fin false 1 0

/-- The unbiased exponent of an E8M0 scale, 0 where there is none (R42). -/
def WScale.expo : WScale → Int
  | .e8m0 s => s.toNat - 127
  | _ => 0

def WScale.isNanScale : WScale → Bool
  | .e8m0 s => s = 0xFF
  | _ => false

/-- The product of one activation and one weight (R42), with no flag of its own. -/
def prod (p : Val × Val) : Val := (p.1.mul p.2).1

/-- R42: the aligned sum of finite products, as a signed multiple of `2^q`; `trunc` is the leading position `e` of the
BF16 alignment, whose positions below `e − 31` are truncated toward zero. -/
def sumProducts (trunc : Option Int) (ps : List Val) : Int × Int :=
  let q : Int := match trunc with
    | some e => e - 31
    | none => -40
  (ps.foldl (fun t p => match p with
    | .fin neg m e =>
      let mag : Int := if e ≥ q then m * 2 ^ (e - q).toNat else ((m / 2 ^ (q - e).toNat : Nat) : Int)
      t + (if neg then -mag else mag)
    | _ => t) 0, q)

/-- R42: the exact group sum `s` of finite products: BF16 activations keep positions `e` down to `e − 31`. -/
def groupSum (bf16Act : Bool) (ps : List Val) : Val :=
  let nz := ps.filter fun p => !p.isZero
  match nz with
  | [] => .fin false 0 0
  | p :: rest =>
    let e := rest.foldl (fun m x => max m x.lead) p.lead
    let (t, q) := sumProducts (if bf16Act then some e else none) nz
    .fin (decide (t < 0)) t.natAbs q

/-- R42, R43, R46: the FP32 value of one group of products and its flags. `sa` is the E8M0 scale of the activation block. -/
def groupValue (bf16Act : Bool) (sa : Option Byte) (ws : WScale) (aw : List (Val × Val)) : W32 × FFlags :=
  let bs := ws.factor
  if sa = some 0xFF || ws.isNanScale then (nan32, 0)
  else if aw.any (fun p => p.1.isNan || p.2.isNan) || bs.isNan then (nan32, 0)
  else
    let ps := aw.map prod
    if ps.any Val.isNan then (nan32, flagNV)
    else
      let hasPos := ps.any fun p => p == .inf false
      let hasNeg := ps.any fun p => p == .inf true
      if hasPos && hasNeg then (nan32, flagNV)
      else if hasPos || hasNeg then
        if bs.isZero then (nan32, flagNV)
        else toF32 rmRNE (.inf (hasNeg != bs.neg?))
      else
        let s := groupSum bf16Act ps
        if bs.isInf then
          if s.isZero then (nan32, flagNV) else toF32 rmRNE (.inf (s.neg? != bs.neg?))
        else if s.isZero then (0, 0)
        else
          let e := (match sa with | some b => (b.toNat : Int) - 127 | none => 0) + ws.expo
          let v := (prod (s, bs)).scale e
          let (x, fl) := toF32 rmRNE v
          (x, fl &&& flagOF)

/-- R42, R46: a group value enters the accumulator by IEEE addition under RNE; the array sets only NV and OF. -/
def accumulate (acc v : W32) : W32 × FFlags :=
  let (x, fl) := addF32 rmRNE acc v
  (x, fl &&& (flagNV ||| flagOF))

/-- One group of a step: scale of the activation block, scale of the weight group, activations with weights. -/
structure Group where
  sa : Option Byte
  ws : WScale
  aw : List (Val × Val)
deriving DecidableEq, Repr

/-- R42, R44: the four groups of a step enter the accumulator in ascending order. -/
def arrayStep (bf16Act : Bool) (acc : W32) (groups : List Group) : W32 × FFlags :=
  groups.foldl (fun (st : W32 × FFlags) g =>
    let (v, f1) := groupValue bf16Act g.sa g.ws g.aw
    let (x, f2) := accumulate st.1 v
    (x, st.2 ||| f1 ||| f2)) (acc, 0)

end Sys2Proof.Machine
end

