-- ==== Sys2Proof/Syntax.lean ====
section
/-! DEFINITION. Syntax: `Instr`, one constructor for every row of spec/opcode_table.json: the 192 instruction words
of the four slots (R54, R83 to R87), each with the fields that the table draws, and the 114 steps of the package that are no words
(spec/95_what_each_step_holds.md), each with operands that name its target and what the outside brings to it; `errs` and `err`
say which lines a read finds in error, and whether uncorrectably (R391, R392); `refused` is the host's answer through ATS. -/

namespace Sys2Proof

/-- The steps of the package. A word's first operand `r` is its rendezvous bit (R54). -/
inductive Instr where
  /-- ADD (R98). -/
  | add (r : Bool) (d : BitVec 5) (a : BitVec 5) (b : BitVec 5)
  /-- SUB (R98). -/
  | sub (r : Bool) (d : BitVec 5) (a : BitVec 5) (b : BitVec 5)
  /-- MUL (R98). -/
  | mul (r : Bool) (d : BitVec 5) (a : BitVec 5) (b : BitVec 5)
  /-- MULH (R98). -/
  | mulh (r : Bool) (d : BitVec 5) (a : BitVec 5) (b : BitVec 5)
  /-- MULHU (R98). -/
  | mulhu (r : Bool) (d : BitVec 5) (a : BitVec 5) (b : BitVec 5)
  /-- DIV (R98). -/
  | div (r : Bool) (d : BitVec 5) (a : BitVec 5) (b : BitVec 5)
  /-- DIVU (R98). -/
  | divu (r : Bool) (d : BitVec 5) (a : BitVec 5) (b : BitVec 5)
  /-- REM (R98). -/
  | rem (r : Bool) (d : BitVec 5) (a : BitVec 5) (b : BitVec 5)
  /-- REMU (R98). -/
  | remu (r : Bool) (d : BitVec 5) (a : BitVec 5) (b : BitVec 5)
  /-- AND (R98). -/
  | and_ (r : Bool) (d : BitVec 5) (a : BitVec 5) (b : BitVec 5)
  /-- OR (R98). -/
  | or_ (r : Bool) (d : BitVec 5) (a : BitVec 5) (b : BitVec 5)
  /-- XOR (R98). -/
  | xor_ (r : Bool) (d : BitVec 5) (a : BitVec 5) (b : BitVec 5)
  /-- ANDN (R98). -/
  | andn (r : Bool) (d : BitVec 5) (a : BitVec 5) (b : BitVec 5)
  /-- SHL (R98). -/
  | shl (r : Bool) (d : BitVec 5) (a : BitVec 5) (b : BitVec 5)
  /-- SHR (R98). -/
  | shr (r : Bool) (d : BitVec 5) (a : BitVec 5) (b : BitVec 5)
  /-- SHRA (R98). -/
  | shra (r : Bool) (d : BitVec 5) (a : BitVec 5) (b : BitVec 5)
  /-- ROR (R98). -/
  | ror (r : Bool) (d : BitVec 5) (a : BitVec 5) (b : BitVec 5)
  /-- MIN (R98). -/
  | min_ (r : Bool) (d : BitVec 5) (a : BitVec 5) (b : BitVec 5)
  /-- MAX (R98). -/
  | max_ (r : Bool) (d : BitVec 5) (a : BitVec 5) (b : BitVec 5)
  /-- MINU (R98). -/
  | minu (r : Bool) (d : BitVec 5) (a : BitVec 5) (b : BitVec 5)
  /-- MAXU (R98). -/
  | maxu (r : Bool) (d : BitVec 5) (a : BitVec 5) (b : BitVec 5)
  /-- SLT (R98). -/
  | slt (r : Bool) (d : BitVec 5) (a : BitVec 5) (b : BitVec 5)
  /-- SLTU (R98). -/
  | sltu (r : Bool) (d : BitVec 5) (a : BitVec 5) (b : BitVec 5)
  /-- SEQ (R98). -/
  | seq (r : Bool) (d : BitVec 5) (a : BitVec 5) (b : BitVec 5)
  /-- SNE (R98). -/
  | sne (r : Bool) (d : BitVec 5) (a : BitVec 5) (b : BitVec 5)
  /-- CLZ (R98). -/
  | clz (r : Bool) (d : BitVec 5) (a : BitVec 5)
  /-- CTZ (R98). -/
  | ctz (r : Bool) (d : BitVec 5) (a : BitVec 5)
  /-- POPC (R98). -/
  | popc (r : Bool) (d : BitVec 5) (a : BitVec 5)
  /-- SEXT (R98). -/
  | sext (r : Bool) (d : BitVec 5) (a : BitVec 5) (w : BitVec 5)
  /-- ZEXT (R98). -/
  | zext (r : Bool) (d : BitVec 5) (a : BitVec 5) (w : BitVec 5)
  /-- CMOV (R98). -/
  | cmov (r : Bool) (d : BitVec 5) (a : BitVec 5) (b : BitVec 5)
  /-- ADDI (R99). -/
  | addi (r : Bool) (d : BitVec 5) (a : BitVec 5) (i : BitVec 15)
  /-- ANDI (R99). -/
  | andi (r : Bool) (d : BitVec 5) (a : BitVec 5) (i : BitVec 15)
  /-- ORI (R99). -/
  | ori (r : Bool) (d : BitVec 5) (a : BitVec 5) (i : BitVec 15)
  /-- XORI (R99). -/
  | xori (r : Bool) (d : BitVec 5) (a : BitVec 5) (i : BitVec 15)
  /-- SHLI (R99). -/
  | shli (r : Bool) (d : BitVec 5) (a : BitVec 5) (n : BitVec 6)
  /-- SHRI (R99). -/
  | shri (r : Bool) (d : BitVec 5) (a : BitVec 5) (n : BitVec 6)
  /-- SHRAI (R99). -/
  | shrai (r : Bool) (d : BitVec 5) (a : BitVec 5) (n : BitVec 6)
  /-- SLTI (R99). -/
  | slti (r : Bool) (d : BitVec 5) (a : BitVec 5) (i : BitVec 15)
  /-- SLTIU (R99). -/
  | sltiu (r : Bool) (d : BitVec 5) (a : BitVec 5) (i : BitVec 15)
  /-- MOVH (R100). -/
  | movh (r : Bool) (d : BitVec 5) (h : BitVec 2) (z : BitVec 1) (i : BitVec 16)
  /-- MULI (R99). -/
  | muli (r : Bool) (d : BitVec 5) (a : BitVec 5) (i : BitVec 15)
  /-- BEQ (R101). -/
  | beq (r : Bool) (a : BitVec 5) (b : BitVec 5) (o : BitVec 15)
  /-- BNE (R101). -/
  | bne (r : Bool) (a : BitVec 5) (b : BitVec 5) (o : BitVec 15)
  /-- BLT (R101). -/
  | blt (r : Bool) (a : BitVec 5) (b : BitVec 5) (o : BitVec 15)
  /-- BGE (R101). -/
  | bge (r : Bool) (a : BitVec 5) (b : BitVec 5) (o : BitVec 15)
  /-- BLTU (R101). -/
  | bltu (r : Bool) (a : BitVec 5) (b : BitVec 5) (o : BitVec 15)
  /-- BGEU (R101). -/
  | bgeu (r : Bool) (a : BitVec 5) (b : BitVec 5) (o : BitVec 15)
  /-- BPANY (R102). -/
  | bpany (r : Bool) (n : BitVec 4) (o : BitVec 15)
  /-- BPALL (R102). -/
  | bpall (r : Bool) (n : BitVec 4) (o : BitVec 15)
  /-- JMP (R103). -/
  | jmp (r : Bool) (o : BitVec 25)
  /-- CALL (R103). -/
  | call (r : Bool) (o : BitVec 25)
  /-- JR (R103). -/
  | jr (r : Bool) (d : BitVec 5) (a : BitVec 5) (i : BitVec 15)
  /-- LOOP (R104). -/
  | loop (r : Bool) (a : BitVec 5) (o : BitVec 15)
  /-- LBUF (R105). -/
  | lbuf (r : Bool) (a : BitVec 5) (l : BitVec 6)
  /-- LD (R106). -/
  | ld (r : Bool) (d : BitVec 5) (a : BitVec 5) (s : BitVec 2) (p : BitVec 3) (o : BitVec 10)
  /-- LDU (R106). -/
  | ldu (r : Bool) (d : BitVec 5) (a : BitVec 5) (s : BitVec 2) (p : BitVec 3) (o : BitVec 10)
  /-- ST (R106). -/
  | st (r : Bool) (s : BitVec 5) (a : BitVec 5) (z : BitVec 2) (p : BitVec 3) (o : BitVec 10)
  /-- LDK (R110). -/
  | ldk (r : Bool) (d : BitVec 5) (a : BitVec 5) (s : BitVec 2) (o : BitVec 10)
  /-- AMOADD (R111). -/
  | amoadd (r : Bool) (d : BitVec 5) (a : BitVec 5) (b : BitVec 5) (q : BitVec 1) (l : BitVec 1) (c : BitVec 2) (z : BitVec 1) (p : BitVec 1)
  /-- AMOAND (R111). -/
  | amoand (r : Bool) (d : BitVec 5) (a : BitVec 5) (b : BitVec 5) (q : BitVec 1) (l : BitVec 1) (c : BitVec 2) (z : BitVec 1) (p : BitVec 1)
  /-- AMOOR (R111). -/
  | amoor (r : Bool) (d : BitVec 5) (a : BitVec 5) (b : BitVec 5) (q : BitVec 1) (l : BitVec 1) (c : BitVec 2) (z : BitVec 1) (p : BitVec 1)
  /-- AMOXOR (R111). -/
  | amoxor (r : Bool) (d : BitVec 5) (a : BitVec 5) (b : BitVec 5) (q : BitVec 1) (l : BitVec 1) (c : BitVec 2) (z : BitVec 1) (p : BitVec 1)
  /-- AMOMIN (R111). -/
  | amomin (r : Bool) (d : BitVec 5) (a : BitVec 5) (b : BitVec 5) (q : BitVec 1) (l : BitVec 1) (c : BitVec 2) (z : BitVec 1) (p : BitVec 1)
  /-- AMOMAX (R111). -/
  | amomax (r : Bool) (d : BitVec 5) (a : BitVec 5) (b : BitVec 5) (q : BitVec 1) (l : BitVec 1) (c : BitVec 2) (z : BitVec 1) (p : BitVec 1)
  /-- AMOMINU (R111). -/
  | amominu (r : Bool) (d : BitVec 5) (a : BitVec 5) (b : BitVec 5) (q : BitVec 1) (l : BitVec 1) (c : BitVec 2) (z : BitVec 1) (p : BitVec 1)
  /-- AMOMAXU (R111). -/
  | amomaxu (r : Bool) (d : BitVec 5) (a : BitVec 5) (b : BitVec 5) (q : BitVec 1) (l : BitVec 1) (c : BitVec 2) (z : BitVec 1) (p : BitVec 1)
  /-- AMOSWAP (R111). -/
  | amoswap (r : Bool) (d : BitVec 5) (a : BitVec 5) (b : BitVec 5) (q : BitVec 1) (l : BitVec 1) (c : BitVec 2) (z : BitVec 1) (p : BitVec 1)
  /-- CAS (R112). -/
  | cas (r : Bool) (d : BitVec 5) (a : BitVec 5) (b : BitVec 5) (q : BitVec 1) (l : BitVec 1) (c : BitVec 2) (z : BitVec 1) (p : BitVec 1)
  /-- FENCE (R115). -/
  | fence (r : Bool) (c : BitVec 2)
  /-- FENCEX (R116). -/
  | fencex (r : Bool) (b : BitVec 7) (a : BitVec 7) (c : BitVec 2)
  /-- FENCEK (R118). -/
  | fencek (r : Bool)
  /-- WATCH (R119). -/
  | watch (r : Bool) (a : BitVec 5)
  /-- WAITA (R120). -/
  | waita (r : Bool) (d : BitVec 5) (a : BitVec 5)
  /-- SIG (R121). -/
  | sig (r : Bool) (f : BitVec 4)
  /-- WAITF (R121). -/
  | waitf (r : Bool) (f : BitVec 4) (n : BitVec 8)
  /-- SEND (R122). -/
  | send (r : Bool) (a : BitVec 5) (b : BitVec 5) (q : BitVec 2)
  /-- RECV (R123). -/
  | recv (r : Bool) (d : BitVec 5)
  /-- CSRR (R124). -/
  | csrr (r : Bool) (d : BitVec 5) (c : BitVec 10)
  /-- CSRW (R124). -/
  | csrw (r : Bool) (a : BitVec 5) (c : BitVec 10)
  /-- SOW (R125). -/
  | sow (r : Bool) (a : BitVec 5) (p : BitVec 3)
  /-- JOIN (R126). -/
  | join (r : Bool) (a : BitVec 5)
  /-- DONE (R127). -/
  | done_ (r : Bool)
  /-- YIELD (R128). -/
  | yield (r : Bool)
  /-- TRAP (R129). -/
  | trap (r : Bool) (i : BitVec 10)
  /-- TRET (R130). -/
  | tret (r : Bool)
  /-- LOCQ (R131). -/
  | locq (r : Bool) (d : BitVec 5) (a : BitVec 5) (m : BitVec 1)
  /-- MTS (R132). -/
  | mts (r : Bool) (a : BitVec 5) (t : BitVec 2)
  /-- NOP (R133). -/
  | nop (r : Bool)
  /-- VADD (R139). -/
  | vadd (r : Bool) (d : BitVec 4) (a : BitVec 4) (b : BitVec 4) (p : BitVec 4)
  /-- VSUB (R139). -/
  | vsub (r : Bool) (d : BitVec 4) (a : BitVec 4) (b : BitVec 4) (p : BitVec 4)
  /-- VMUL (R139). -/
  | vmul (r : Bool) (d : BitVec 4) (a : BitVec 4) (b : BitVec 4) (p : BitVec 4)
  /-- VFMA (R139). -/
  | vfma (r : Bool) (d : BitVec 4) (a : BitVec 4) (b : BitVec 4) (p : BitVec 4)
  /-- VFMS (R139). -/
  | vfms (r : Bool) (d : BitVec 4) (a : BitVec 4) (b : BitVec 4) (p : BitVec 4)
  /-- VMIN (R139). -/
  | vmin (r : Bool) (d : BitVec 4) (a : BitVec 4) (b : BitVec 4) (p : BitVec 4)
  /-- VMAX (R139). -/
  | vmax (r : Bool) (d : BitVec 4) (a : BitVec 4) (b : BitVec 4) (p : BitVec 4)
  /-- VABS (R139). -/
  | vabs (r : Bool) (d : BitVec 4) (a : BitVec 4) (p : BitVec 4)
  /-- VNEG (R139). -/
  | vneg (r : Bool) (d : BitVec 4) (a : BitVec 4) (p : BitVec 4)
  /-- VIADD (R140). -/
  | viadd (r : Bool) (d : BitVec 4) (a : BitVec 4) (b : BitVec 4) (p : BitVec 4)
  /-- VISUB (R140). -/
  | visub (r : Bool) (d : BitVec 4) (a : BitVec 4) (b : BitVec 4) (p : BitVec 4)
  /-- VIMUL (R140). -/
  | vimul (r : Bool) (d : BitVec 4) (a : BitVec 4) (b : BitVec 4) (p : BitVec 4)
  /-- VIMULH (R140). -/
  | vimulh (r : Bool) (d : BitVec 4) (a : BitVec 4) (b : BitVec 4) (p : BitVec 4)
  /-- VAND (R140). -/
  | vand (r : Bool) (d : BitVec 4) (a : BitVec 4) (b : BitVec 4) (p : BitVec 4)
  /-- VOR (R140). -/
  | vor (r : Bool) (d : BitVec 4) (a : BitVec 4) (b : BitVec 4) (p : BitVec 4)
  /-- VXOR (R140). -/
  | vxor (r : Bool) (d : BitVec 4) (a : BitVec 4) (b : BitVec 4) (p : BitVec 4)
  /-- VANDN (R140). -/
  | vandn (r : Bool) (d : BitVec 4) (a : BitVec 4) (b : BitVec 4) (p : BitVec 4)
  /-- VSHL (R140). -/
  | vshl (r : Bool) (d : BitVec 4) (a : BitVec 4) (b : BitVec 4) (p : BitVec 4)
  /-- VSHR (R140). -/
  | vshr (r : Bool) (d : BitVec 4) (a : BitVec 4) (b : BitVec 4) (p : BitVec 4)
  /-- VSHRA (R140). -/
  | vshra (r : Bool) (d : BitVec 4) (a : BitVec 4) (b : BitVec 4) (p : BitVec 4)
  /-- VIMIN (R140). -/
  | vimin (r : Bool) (d : BitVec 4) (a : BitVec 4) (b : BitVec 4) (p : BitVec 4)
  /-- VIMAX (R140). -/
  | vimax (r : Bool) (d : BitVec 4) (a : BitVec 4) (b : BitVec 4) (p : BitVec 4)
  /-- VIMINU (R140). -/
  | viminu (r : Bool) (d : BitVec 4) (a : BitVec 4) (b : BitVec 4) (p : BitVec 4)
  /-- VIMAXU (R140). -/
  | vimaxu (r : Bool) (d : BitVec 4) (a : BitVec 4) (b : BitVec 4) (p : BitVec 4)
  /-- VIADDS (R140). -/
  | viadds (r : Bool) (d : BitVec 4) (a : BitVec 4) (b : BitVec 4) (p : BitVec 4)
  /-- VISUBS (R140). -/
  | visubs (r : Bool) (d : BitVec 4) (a : BitVec 4) (b : BitVec 4) (p : BitVec 4)
  /-- VCMP (R141). -/
  | vcmp (r : Bool) (d : BitVec 4) (a : BitVec 4) (b : BitVec 4) (p : BitVec 4) (c : BitVec 4)
  /-- VSEL (R142). -/
  | vsel (r : Bool) (d : BitVec 4) (a : BitVec 4) (b : BitVec 4) (s : BitVec 4)
  /-- VEXP2 (R143). -/
  | vexp2 (r : Bool) (d : BitVec 4) (a : BitVec 4) (p : BitVec 4)
  /-- VLOG2 (R143). -/
  | vlog2 (r : Bool) (d : BitVec 4) (a : BitVec 4) (p : BitVec 4)
  /-- VRCP (R143). -/
  | vrcp (r : Bool) (d : BitVec 4) (a : BitVec 4) (p : BitVec 4)
  /-- VRSQ (R143). -/
  | vrsq (r : Bool) (d : BitVec 4) (a : BitVec 4) (p : BitVec 4)
  /-- VSQRT (R143). -/
  | vsqrt (r : Bool) (d : BitVec 4) (a : BitVec 4) (p : BitVec 4)
  /-- VSIN (R143). -/
  | vsin (r : Bool) (d : BitVec 4) (a : BitVec 4) (p : BitVec 4)
  /-- VCOS (R143). -/
  | vcos (r : Bool) (d : BitVec 4) (a : BitVec 4) (p : BitVec 4)
  /-- VTANH (R143). -/
  | vtanh (r : Bool) (d : BitVec 4) (a : BitVec 4) (p : BitVec 4)
  /-- VSIGM (R143). -/
  | vsigm (r : Bool) (d : BitVec 4) (a : BitVec 4) (p : BitVec 4)
  /-- VCVT (R145). -/
  | vcvt (r : Bool) (d : BitVec 4) (a : BitVec 4) (t : BitVec 4) (p : BitVec 4) (f : BitVec 4) (m : BitVec 2) (s : BitVec 1)
  /-- VQMX (R146). -/
  | vqmx (r : Bool) (d : BitVec 4) (a : BitVec 4) (s : BitVec 4) (p : BitVec 4) (f : BitVec 4)
  /-- VDQMX (R147). -/
  | vdqmx (r : Bool) (d : BitVec 4) (a : BitVec 4) (s : BitVec 4) (p : BitVec 4) (f : BitVec 4) (m : BitVec 2) (x : BitVec 1)
  /-- VROTR (R148). -/
  | vrotr (r : Bool) (d : BitVec 4) (a : BitVec 4) (p : BitVec 4) (n : BitVec 6)
  /-- VROTC (R148). -/
  | vrotc (r : Bool) (d : BitVec 4) (a : BitVec 4) (p : BitVec 4) (n : BitVec 4)
  /-- VBCR (R148). -/
  | vbcr (r : Bool) (d : BitVec 4) (a : BitVec 4) (p : BitVec 4) (n : BitVec 6)
  /-- VBCC (R148). -/
  | vbcc (r : Bool) (d : BitVec 4) (a : BitVec 4) (p : BitVec 4) (n : BitVec 4)
  /-- VREDR (R149). -/
  | vredr (r : Bool) (d : BitVec 4) (a : BitVec 4) (p : BitVec 4) (o : BitVec 3)
  /-- VREDC (R149). -/
  | vredc (r : Bool) (d : BitVec 4) (a : BitVec 4) (p : BitVec 4) (o : BitVec 3)
  /-- VSCANR (R150). -/
  | vscanr (r : Bool) (d : BitVec 4) (a : BitVec 4) (p : BitVec 4) (o : BitVec 3)
  /-- VSCANC (R150). -/
  | vscanc (r : Bool) (d : BitVec 4) (a : BitVec 4) (p : BitVec 4) (o : BitVec 3)
  /-- VTRN (R151). -/
  | vtrn (r : Bool) (d : BitVec 4) (a : BitVec 4) (p : BitVec 4)
  /-- VLD (R152). -/
  | vld (r : Bool) (v : BitVec 4) (a : BitVec 5) (s : BitVec 3) (p : BitVec 4) (o : BitVec 9)
  /-- VST (R152). -/
  | vst (r : Bool) (v : BitVec 4) (a : BitVec 5) (s : BitVec 3) (p : BitVec 4) (o : BitVec 9)
  /-- VLDK (R156). -/
  | vldk (r : Bool) (v : BitVec 4) (a : BitVec 5) (p : BitVec 4) (o : BitVec 9)
  /-- VMOVQ (R157). -/
  | vmovq (r : Bool) (v : BitVec 4) (p : BitVec 4)
  /-- VRET (R158). -/
  | vret (r : Bool) (a : BitVec 4) (w : BitVec 4) (c : BitVec 6)
  /-- VIMM (R159). -/
  | vimm (r : Bool) (d : BitVec 4) (h : BitVec 8) (p : BitVec 4) (l : BitVec 8)
  /-- VIMM_HI (R159). -/
  | vimmHi (r : Bool) (d : BitVec 4) (h : BitVec 8) (p : BitVec 4) (l : BitVec 8)
  /-- PAND (R160). -/
  | pand (r : Bool) (d : BitVec 4) (a : BitVec 4) (b : BitVec 4)
  /-- POR (R160). -/
  | por (r : Bool) (d : BitVec 4) (a : BitVec 4) (b : BitVec 4)
  /-- PXOR (R160). -/
  | pxor (r : Bool) (d : BitVec 4) (a : BitVec 4) (b : BitVec 4)
  /-- PANDN (R160). -/
  | pandn (r : Bool) (d : BitVec 4) (a : BitVec 4) (b : BitVec 4)
  /-- PNOT (R160). -/
  | pnot (r : Bool) (d : BitVec 4) (a : BitVec 4)
  /-- PSET (R160). -/
  | pset (r : Bool) (d : BitVec 4)
  /-- PCLR (R160). -/
  | pclr (r : Bool) (d : BitVec 4)
  /-- VSETSH (R161). -/
  | vsetsh (r : Bool) (v : BitVec 13)
  /-- VSETSH_REG (R161). -/
  | vsetshReg (r : Bool) (a : BitVec 5)
  /-- VSIG (R162). -/
  | vsig (r : Bool) (f : BitVec 4)
  /-- VWAITF (R162). -/
  | vwaitf (r : Bool) (f : BitVec 4) (n : BitVec 8)
  /-- VLBUF (R163). -/
  | vlbuf (r : Bool) (a : BitVec 5) (l : BitVec 6)
  /-- VNOP (R164). -/
  | vnop (r : Bool)
  /-- END (R89). -/
  | end_ (r : Bool)
  /-- MWL (R177). -/
  | mwl (r : Bool) (w : BitVec 4) (s : BitVec 4) (m : BitVec 3) (p : BitVec 1)
  /-- MSWAP (R179). -/
  | mswap (r : Bool) (w : BitVec 4) (s : BitVec 4)
  /-- MSCL (R178). -/
  | mscl (r : Bool) (w : BitVec 4) (s : BitVec 4) (m : BitVec 3)
  /-- MMA (R180). -/
  | mma (r : Bool) (w : BitVec 4) (s : BitVec 4) (a : BitVec 3) (t : BitVec 2) (c : BitVec 3)
  /-- MMAS (R180). -/
  | mmas (r : Bool) (w : BitVec 4) (s : BitVec 4) (a : BitVec 3) (t : BitVec 2) (c : BitVec 3)
  /-- MZERO (R181). -/
  | mzero (r : Bool) (w : BitVec 4) (s : BitVec 4) (t : BitVec 2) (c : BitVec 3)
  /-- MDRAIN (R182). -/
  | mdrain (r : Bool) (w : BitVec 4) (s : BitVec 4) (a : BitVec 3) (t : BitVec 2) (c : BitVec 3) (f : BitVec 4)
  /-- MREP (R183). -/
  | mrep (r : Bool) (k : BitVec 8) (n : BitVec 9)
  /-- MSETA (R185). -/
  | mseta (r : Bool) (w : BitVec 4) (s : BitVec 4) (m : BitVec 3)
  /-- MSETA_IMM (R185). -/
  | msetaImm (r : Bool) (w : BitVec 4) (s : BitVec 4) (m : BitVec 3) (i : BitVec 13)
  /-- MADDA (R186). -/
  | madda (r : Bool) (w : BitVec 4) (s : BitVec 4) (m : BitVec 3) (i : BitVec 14)
  /-- MNOP (R186). -/
  | mnop (r : Bool) (w : BitVec 4) (s : BitVec 4)
  /-- ACOPY (R200). -/
  | acopy (r : Bool) (d : BitVec 5) (a : BitVec 5) (b : BitVec 5) (k : BitVec 3) (e : BitVec 3) (s : BitVec 3)
  /-- ACOPY2 (R202). -/
  | acopy2 (r : Bool) (d : BitVec 5) (a : BitVec 5) (b : BitVec 5) (k : BitVec 3) (e : BitVec 3) (s : BitVec 3)
  /-- AGATH (R203). -/
  | agath (r : Bool) (d : BitVec 5) (a : BitVec 5) (b : BitVec 5) (k : BitVec 3) (e : BitVec 3) (s : BitVec 3)
  /-- ASCAT (R203). -/
  | ascat (r : Bool) (d : BitVec 5) (a : BitVec 5) (b : BitVec 5) (k : BitVec 3) (e : BitVec 3) (s : BitVec 3)
  /-- AMCAST (R204). -/
  | amcast (r : Bool) (d : BitVec 5) (a : BitVec 5) (b : BitVec 5) (k : BitVec 3) (e : BitVec 3) (s : BitVec 3)
  /-- AMCAST_SET (R205). -/
  | amcastSet (r : Bool) (d : BitVec 5) (a : BitVec 5) (b : BitVec 5) (k : BitVec 3) (e : BitVec 3) (s : BitVec 3)
  /-- ANOTE (R206). -/
  | anote (r : Bool) (a : BitVec 5) (b : BitVec 5) (k : BitVec 3)
  /-- TWAIT (R196). -/
  | twait (r : Bool) (k : BitVec 8)
  /-- TPEND (R197). -/
  | tpend (r : Bool) (d : BitVec 5) (k : BitVec 3)
  /-- HAULGO (R207). -/
  | haulgo (r : Bool) (a : BitVec 5) (b : BitVec 5)
  /-- QPOST (R213). -/
  | qpost (r : Bool) (a : BitVec 5) (b : BitVec 5)
  /-- HADD (R217). -/
  | hadd (r : Bool) (d : BitVec 5) (a : BitVec 5) (b : BitVec 5)
  /-- HADD_QUEUE (R217). -/
  | haddQueue (r : Bool) (d : BitVec 5) (a : BitVec 5) (h : BitVec 1) (p : BitVec 1)
  /-- HADDI (R217). -/
  | haddi (r : Bool) (d : BitVec 5) (a : BitVec 5) (i : BitVec 15)
  /-- HMOVH (R217). -/
  | hmovh (r : Bool) (d : BitVec 5) (h : BitVec 2) (z : BitVec 1) (i : BitVec 16)
  /-- HSEND (R218). -/
  | hsend (r : Bool) (q : BitVec 2) (a : BitVec 5) (b : BitVec 5)
  /-- HSIG (R219). -/
  | hsig (r : Bool) (f : BitVec 4)
  /-- HWAITF (R219). -/
  | hwaitf (r : Bool) (f : BitVec 4) (n : BitVec 8)
  /-- HLBUF (R219). -/
  | hlbuf (r : Bool) (a : BitVec 5) (l : BitVec 6)
  /-- ABFMT (R216). -/
  | abfmt (r : Bool) (a : BitVec 5) (u : BitVec 1) (k : BitVec 5)
  /-- HNOP (R219). -/
  | hnop (r : Bool)
  /-- WORD_NOT_INSTRUCTION (R88). -/
  | wordNotInstruction (why : Reject)
  /-- INSTRUCTION_FETCH (R51). -/
  | instructionFetch (why : FetchFault)
  /-- V_RESULT_LAND (R77). -/
  | vResultLand (core : Fin 192) (i : Nat)
  /-- M_WORD_COMPLETE (R174). -/
  | mWordComplete (core : Fin 192) (i : Nat)
  /-- REQUEST_ENQUEUE (R230). -/
  | requestEnqueue (core : Fin 192) (stack : Fin 16)
  /-- CALENDAR_SLOT_START (R230). -/
  | calendarSlotStart (stack : Fin 16) (errs : List (Nat × Bool))
  /-- HBM_READ_LAND (R231). -/
  | hbmReadLand (stack : Fin 16) (i : Nat)
  /-- HBM_WRITE_PERFORMED (R231). -/
  | hbmWritePerformed (stack : Fin 16)
  /-- ATOMIC_RESPONSE (R114). -/
  | atomicResponse (core : Fin 192)
  /-- CONST_FILL (R156). -/
  | constFill (core : Fin 192) (i : Nat)
  /-- COPY_BYTES_LAND (R194). -/
  | copyBytesLand (core : Fin 192) (i j : Nat)
  /-- ANOTE_WRITE (R206). -/
  | anoteWrite (core : Fin 192) (i : Nat)
  /-- WAITA_TIMEOUT (R120). -/
  | waitaTimeout (core : Fin 192)
  /-- HANDLER_ENTRY (R338). -/
  | handlerEntry (core : Fin 192)
  /-- ENGINE_FAULT (R342). -/
  | engineFault (core : Fin 192)
  /-- PREEMPTION_REQUEST (R321). -/
  | preemptionRequest (core : Fin 192)
  /-- COPY_ABORT (R325). -/
  | copyAbort (core : Fin 192)
  /-- GRANARY_SWAP (R328). -/
  | granarySwap (core : Fin 192)
  /-- SAVE_AREA_MOVE (R328). -/
  | saveAreaMove (sid launch slot : Nat)
  /-- STRAND_RESUME (R335). -/
  | strandResume (i : Nat)
  /-- STRAND_START (R286). -/
  | strandStart (i : Nat)
  /-- SCHEDULE_DECISION (R287). -/
  | scheduleDecision
  /-- PSLICE_EXPIRY (R290). -/
  | psliceExpiry (cluster : Fin 48)
  /-- VT_UPDATE (R288). -/
  | vtUpdate
  /-- HAUL_RECORD_READ (R209). -/
  | haulRecordRead (chan : Fin 192)
  /-- COPY (R210). -/
  | copy (chan : Fin 192) (i : Nat)
  /-- COPY2D (R210). -/
  | copy2d (chan : Fin 192) (i : Nat)
  /-- FILL (R210). -/
  | fill (chan : Fin 192) (i : Nat)
  /-- PACK (R382). -/
  | pack (chan : Fin 192) (i : Nat)
  /-- UNPACK (R383). -/
  | unpack (chan : Fin 192) (i : Nat)
  /-- REDUCE (R210). -/
  | reduce (chan : Fin 192) (i : Nat)
  /-- REDUCE_ARRIVAL (R224). -/
  | reduceArrival (cluster : Fin 48) (i : Nat)
  /-- MIGRATE (R386). -/
  | migrate (chan : Fin 192) (i : Nat)
  /-- STOW (R385). -/
  | stow (chan : Fin 192) (i : Nat)
  /-- NOTE (R210). -/
  | note (chan : Fin 192) (i : Nat)
  /-- SCOUT_PASS (R345). -/
  | scoutPass (chan : Fin 192) (refused : Bool)
  /-- TABLE_WALK (R344). -/
  | tableWalk (engine : Fin 25) (part : Fin 64) (addr : Nat) (wr refused : Bool)
  /-- SLAB_SEND (R215). -/
  | slabSend (core : Fin 192) (stack : Fin 16)
  /-- SLAB_ARRIVAL (R246). -/
  | slabArrival (stack : Fin 16)
  /-- GSUM (R253). -/
  | gsum (stack : Fin 16)
  /-- GSEARCH (R257). -/
  | gsearch (stack : Fin 16)
  /-- SUBQUERY (R254). -/
  | subquery (stack : Fin 16)
  /-- GSEARCH_MERGE (R258). -/
  | gsearchMerge (stack : Fin 16) (i : Nat)
  /-- SUBMIT (R264). -/
  | submit (part : Fin 64)
  /-- CANCEL (R361). -/
  | cancel (part : Fin 64)
  /-- VERDICT (R346). -/
  | verdict (part : Fin 64)
  /-- INVALIDATE (R347). -/
  | invalidate (part : Fin 64)
  /-- SET_PTROOT (R343). -/
  | setPtroot (part : Fin 64)
  /-- SET_SHARE (R288). -/
  | setShare (part : Fin 64)
  /-- SET_PSLICE (R288). -/
  | setPslice (part : Fin 64)
  /-- SET_SEED_QUEUES (R284). -/
  | setSeedQueues (part : Fin 64)
  /-- SET_STAGING_POOL (R276). -/
  | setStagingPool (part : Fin 64)
  /-- SET_SAVE_AREA (R329). -/
  | setSaveArea (part : Fin 64)
  /-- SET_PARK_AREA (R384). -/
  | setParkArea (part : Fin 64)
  /-- CURVE (R308). -/
  | curve (part : Fin 64)
  /-- KEYINST (R354). -/
  | keyinst (part : Fin 64)
  /-- EXTEND (R353). -/
  | extend (part : Fin 64)
  /-- PARTITION_CREATE (R355). -/
  | partitionCreate (part : Fin 64)
  /-- PARTITION_DESTROY (R355). -/
  | partitionDestroy (part : Fin 64)
  /-- FABRIC_PACKAGE_NUMBER (R367). -/
  | fabricPackageNumber (part : Fin 64)
  /-- FABRIC_ROUTE (R367). -/
  | fabricRoute (part : Fin 64)
  /-- FABRIC_IMPORT (R368). -/
  | fabricImport (part : Fin 64)
  /-- NODE_STAGING (R276). -/
  | nodeStaging (graph node : Nat) (refused : Bool)
  /-- LAUNCH (R278). -/
  | launch (graph node : Nat)
  /-- LAUNCH_END (R279). -/
  | launchEnd (launch : Nat)
  /-- STAGED_COPY_BACK (R277). -/
  | stagedCopyBack (launch : Nat)
  /-- COMPLETION_EVENT (R362). -/
  | completionEvent (part : Fin 64)
  /-- COMMAND_EVENT (R362). -/
  | commandEvent (part : Fin 64)
  /-- STRAND_FAULT_EVENT (R362). -/
  | strandFaultEvent (part : Fin 64)
  /-- STALL_EVENT (R362). -/
  | stallEvent (part : Fin 64)
  /-- PAGEFAULT_EVENT (R362). -/
  | pagefaultEvent (part : Fin 64)
  /-- NOTICE_EVENT (R362). -/
  | noticeEvent (part : Fin 64)
  /-- HOST_REGISTER_WRITE (R358). -/
  | hostRegisterWrite (fn : Fin 64) (off : Nat) (val : BitVec 64)
  /-- HOST_WINDOW_READ (R359). -/
  | hostWindowRead (fn : Fin 64) (off len : Nat)
  /-- HOST_WINDOW_WRITE (R359). -/
  | hostWindowWrite (fn : Fin 64) (off : Nat) (bytes : List (BitVec 8))
  /-- ATS_INVALIDATION (R359). -/
  | atsInvalidation (fn : Fin 64) (base len : Nat)
  /-- FLR (R364). -/
  | flr (fn : Fin 64)
  /-- PACKAGE_RESET (R351). -/
  | packageReset (powerOn : Bool) (bad : Option Nat)
  /-- GET_VERSION (R356). -/
  | getVersion (fn : Fin 64)
  /-- GET_CAPABILITIES (R356). -/
  | getCapabilities (fn : Fin 64)
  /-- NEGOTIATE_ALGORITHMS (R356). -/
  | negotiateAlgorithms (fn : Fin 64)
  /-- GET_DIGESTS (R356). -/
  | getDigests (fn : Fin 64)
  /-- GET_CERTIFICATE (R356). -/
  | getCertificate (fn : Fin 64) (slot off len : Nat)
  /-- CHALLENGE (R356). -/
  | challenge (fn : Fin 64) (nonce : BitVec 256)
  /-- GET_MEASUREMENTS (R356). -/
  | getMeasurements (fn : Fin 64) (index : Nat) (nonce : BitVec 256)
  /-- SPDM_UNSUPPORTED_REQUEST (R356). -/
  | spdmUnsupportedRequest (fn : Fin 64) (code : BitVec 8)
  /-- SYNDROME_READ (R402). -/
  | syndromeRead (fn : Fin 64) (dw0 dw1 : BitVec 32)
  /-- SYNDROME_CLEAR (R402). -/
  | syndromeClear (fn : Fin 64) (dw0 dw1 : BitVec 32)
  /-- FLIT_RECEIVE (R366). -/
  | flitReceive (port : Fin 48) (flit : List (BitVec 8))
  /-- LINK_TRAINING (R367). -/
  | linkTraining (port : Fin 48) (peerPkg peerPort : Nat) (lanes : BitVec 5)
  /-- LANE_RETIRE (R367). -/
  | laneRetire (port : Fin 48) (lane : Fin 5)
  /-- PEER_ACCESS (R368). -/
  | peerAccess (srcPkg : Nat) (srcPart : Fin 64) (addr : Nat) (bytes : Option (List (BitVec 8))) (len : Nat)
  /-- MARKET_CLEAR (R305). -/
  | marketClear (pmeas outside : Nat) (temps : List Nat)
  /-- CURVE_SLOW_EVENT (R315). -/
  | curveSlowEvent (seq ev : Nat)
  /-- CURVE_PARK_EVENT (R315). -/
  | curveParkEvent (seq ev : Nat)
  /-- CURVE_SHED_EVENT (R315). -/
  | curveShedEvent (seq ev : Nat)
  /-- DROOP_STRETCH (R297). -/
  | droopStretch (cluster : Fin 48) (cycles : Nat)
  /-- GUARD_BREACH (R299). -/
  | guardBreach (cluster : Fin 48) (cycles : Nat)
  /-- STALL_HOLD_END (R299). -/
  | stallHoldEnd (core : Fin 192)
  /-- CLUSTER_GATE (R317). -/
  | clusterGate (cluster : Fin 48)
  /-- DIE_GATE (R318). -/
  | dieGate (die : Fin 8)
  /-- DIE_POWER_UP (R318). -/
  | diePowerUp (die : Fin 8)
  /-- HOT_MIGRATION (R320). -/
  | hotMigration
  /-- BANK_RETIRE (R377). -/
  | bankRetire (stack : Fin 16) (pc : Fin 64) (bank : Fin 64)
  /-- SILO_SCRUB (R395). -/
  | siloScrub (line : Nat) (err : Option Bool)
  /-- SRAM_SCRUB (R395). -/
  | sramScrub (unit : BitVec 4) (core : Fin 192) (index : Nat) (err : Option Bool)
  /-- ECC_WRITEBACK (R391). -/
  | eccWriteback (line : Nat)
  /-- HEARTBEAT_TIMEOUT (R404). -/
  | heartbeatTimeout (die : Fin 11) (bad : Option Nat)
  /-- FATAL_DIE_ERROR (R404). -/
  | fatalDieError (die : Fin 11) (cause : BitVec 7) (bad : Option Nat)
  /-- ACCESS_RESPONSE (R109). -/
  | accessResponse (core : Fin 192) (i : Nat)
  /-- PRE_ISSUE_READ (R190). -/
  | preIssueRead (core : Fin 192)
  /-- CONSTANT_PATH_DISCARD (R118). -/
  | constantPathDiscard (core : Fin 192)
  /-- CLUSTER_POWER_UP (R317). -/
  | clusterPowerUp (cluster : Fin 48)
  /-- BAD_COMMAND (R361). -/
  | badCommand (part : Fin 64)
deriving DecidableEq, Repr

end Sys2Proof
end

