-- ==== Sys2Proof/WellFormed.lean ====
section
/-! DEFINITION. Well-formedness: the operand codes that an encoding admits. A code that one of these predicates rejects is
a reserved code of an enumerated field, which R88 answers with ILLEGAL; the operand widths themselves are in the types. -/

namespace Sys2Proof

/-- Governing predicate field: 0 to 11 or 15 (R67). -/
def govOk (p : BitVec 4) : Bool := p.toNat < 12 || p.toNat == 15

/-- Predicate register field: 0 to 11 (R67, R79). -/
def predOk (p : BitVec 4) : Bool := p.toNat < 12

/-- Space code 000 to 100 (R78). -/
def spaceOk (p : BitVec 3) : Bool := p.toNat < 5

/-- Space of VLD and VST: YARD, ABUF or CBUF (R85). -/
def vspaceOk (s : BitVec 3) : Bool := s.toNat == 1 || s.toNat == 3 || s.toNat == 4

/-- Width code of SEXT and ZEXT (R84). -/
def widthOk (w : BitVec 5) : Bool := w.toNat < 3

/-- Queue code of SEND: 01, 10 or 11 (R83). -/
def queueOk (q : BitVec 2) : Bool := q.toNat != 0

/-- Queue code of HSEND: 01 or 10 (R82). -/
def hqueueOk (q : BitVec 2) : Bool := q.toNat == 1 || q.toNat == 2

/-- Condition code of VCMP (R85). -/
def condOk (c : BitVec 4) : Bool := c.toNat < 9

/-- Operation code of the reductions and scans (R85). -/
def axisOpOk (o : BitVec 3) : Bool := o.toNat < 3

/-- The register form of VSETSH names a register other than X0 (R80). -/
def regNonzero (a : BitVec 5) : Bool := a.toNat != 0

/-- The control register numbers of R71. -/
def csrOk (c : BitVec 10) : Bool :=
  let n := c.toNat
  n <= 0xB || (0x10 <= n && n <= 0x14) || (0x20 <= n && n <= 0x22) || (0x40 <= n && n <= 0x7F)

/-- Every operand code of the instruction is one that its encoding admits. -/
def Instr.wf : Instr → Bool
  | .add _ _ _ _ => true
  | .sub _ _ _ _ => true
  | .mul _ _ _ _ => true
  | .mulh _ _ _ _ => true
  | .mulhu _ _ _ _ => true
  | .div _ _ _ _ => true
  | .divu _ _ _ _ => true
  | .rem _ _ _ _ => true
  | .remu _ _ _ _ => true
  | .and_ _ _ _ _ => true
  | .or_ _ _ _ _ => true
  | .xor_ _ _ _ _ => true
  | .andn _ _ _ _ => true
  | .shl _ _ _ _ => true
  | .shr _ _ _ _ => true
  | .shra _ _ _ _ => true
  | .ror _ _ _ _ => true
  | .min_ _ _ _ _ => true
  | .max_ _ _ _ _ => true
  | .minu _ _ _ _ => true
  | .maxu _ _ _ _ => true
  | .slt _ _ _ _ => true
  | .sltu _ _ _ _ => true
  | .seq _ _ _ _ => true
  | .sne _ _ _ _ => true
  | .clz _ _ _ => true
  | .ctz _ _ _ => true
  | .popc _ _ _ => true
  | .sext _ _ _ w => widthOk w
  | .zext _ _ _ w => widthOk w
  | .cmov _ _ _ _ => true
  | .addi _ _ _ _ => true
  | .andi _ _ _ _ => true
  | .ori _ _ _ _ => true
  | .xori _ _ _ _ => true
  | .shli _ _ _ _ => true
  | .shri _ _ _ _ => true
  | .shrai _ _ _ _ => true
  | .slti _ _ _ _ => true
  | .sltiu _ _ _ _ => true
  | .movh _ _ _ _ _ => true
  | .muli _ _ _ _ => true
  | .beq _ _ _ _ => true
  | .bne _ _ _ _ => true
  | .blt _ _ _ _ => true
  | .bge _ _ _ _ => true
  | .bltu _ _ _ _ => true
  | .bgeu _ _ _ _ => true
  | .bpany _ n _ => predOk n
  | .bpall _ n _ => predOk n
  | .jmp _ _ => true
  | .call _ _ => true
  | .jr _ _ _ _ => true
  | .loop _ _ _ => true
  | .lbuf _ _ _ => true
  | .ld _ _ _ _ p _ => spaceOk p
  | .ldu _ _ _ _ p _ => spaceOk p
  | .st _ _ _ _ p _ => spaceOk p
  | .ldk _ _ _ _ _ => true
  | .amoadd _ _ _ _ _ _ _ _ _ => true
  | .amoand _ _ _ _ _ _ _ _ _ => true
  | .amoor _ _ _ _ _ _ _ _ _ => true
  | .amoxor _ _ _ _ _ _ _ _ _ => true
  | .amomin _ _ _ _ _ _ _ _ _ => true
  | .amomax _ _ _ _ _ _ _ _ _ => true
  | .amominu _ _ _ _ _ _ _ _ _ => true
  | .amomaxu _ _ _ _ _ _ _ _ _ => true
  | .amoswap _ _ _ _ _ _ _ _ _ => true
  | .cas _ _ _ _ _ _ _ _ _ => true
  | .fence _ _ => true
  | .fencex _ _ _ _ => true
  | .fencek _ => true
  | .watch _ _ => true
  | .waita _ _ _ => true
  | .sig _ _ => true
  | .waitf _ _ _ => true
  | .send _ _ _ q => queueOk q
  | .recv _ _ => true
  | .csrr _ _ c => csrOk c
  | .csrw _ _ c => csrOk c
  | .sow _ _ _ => true
  | .join _ _ => true
  | .done_ _ => true
  | .yield _ => true
  | .trap _ _ => true
  | .tret _ => true
  | .locq _ _ _ _ => true
  | .mts _ _ _ => true
  | .nop _ => true
  | .vadd _ _ _ _ p => govOk p
  | .vsub _ _ _ _ p => govOk p
  | .vmul _ _ _ _ p => govOk p
  | .vfma _ _ _ _ p => govOk p
  | .vfms _ _ _ _ p => govOk p
  | .vmin _ _ _ _ p => govOk p
  | .vmax _ _ _ _ p => govOk p
  | .vabs _ _ _ p => govOk p
  | .vneg _ _ _ p => govOk p
  | .viadd _ _ _ _ p => govOk p
  | .visub _ _ _ _ p => govOk p
  | .vimul _ _ _ _ p => govOk p
  | .vimulh _ _ _ _ p => govOk p
  | .vand _ _ _ _ p => govOk p
  | .vor _ _ _ _ p => govOk p
  | .vxor _ _ _ _ p => govOk p
  | .vandn _ _ _ _ p => govOk p
  | .vshl _ _ _ _ p => govOk p
  | .vshr _ _ _ _ p => govOk p
  | .vshra _ _ _ _ p => govOk p
  | .vimin _ _ _ _ p => govOk p
  | .vimax _ _ _ _ p => govOk p
  | .viminu _ _ _ _ p => govOk p
  | .vimaxu _ _ _ _ p => govOk p
  | .viadds _ _ _ _ p => govOk p
  | .visubs _ _ _ _ p => govOk p
  | .vcmp _ d _ _ p c => predOk d && govOk p && condOk c
  | .vsel _ _ _ _ s => govOk s
  | .vexp2 _ _ _ p => govOk p
  | .vlog2 _ _ _ p => govOk p
  | .vrcp _ _ _ p => govOk p
  | .vrsq _ _ _ p => govOk p
  | .vsqrt _ _ _ p => govOk p
  | .vsin _ _ _ p => govOk p
  | .vcos _ _ _ p => govOk p
  | .vtanh _ _ _ p => govOk p
  | .vsigm _ _ _ p => govOk p
  | .vcvt _ _ _ _ p _ _ _ => govOk p
  | .vqmx _ _ _ _ p _ => govOk p
  | .vdqmx _ _ _ _ p _ _ _ => govOk p
  | .vrotr _ _ _ p _ => govOk p
  | .vrotc _ _ _ p _ => govOk p
  | .vbcr _ _ _ p _ => govOk p
  | .vbcc _ _ _ p _ => govOk p
  | .vredr _ _ _ p o => govOk p && axisOpOk o
  | .vredc _ _ _ p o => govOk p && axisOpOk o
  | .vscanr _ _ _ p o => govOk p && axisOpOk o
  | .vscanc _ _ _ p o => govOk p && axisOpOk o
  | .vtrn _ _ _ p => govOk p
  | .vld _ _ _ s p _ => vspaceOk s && govOk p
  | .vst _ _ _ s p _ => vspaceOk s && govOk p
  | .vldk _ _ _ p _ => govOk p
  | .vmovq _ _ p => govOk p
  | .vret _ _ _ _ => true
  | .vimm _ _ _ p _ => govOk p
  | .vimmHi _ _ _ p _ => govOk p
  | .pand _ d a b => predOk d && predOk a && predOk b
  | .por _ d a b => predOk d && predOk a && predOk b
  | .pxor _ d a b => predOk d && predOk a && predOk b
  | .pandn _ d a b => predOk d && predOk a && predOk b
  | .pnot _ d a => predOk d && predOk a
  | .pset _ d => predOk d
  | .pclr _ d => predOk d
  | .vsetsh _ _ => true
  | .vsetshReg _ a => regNonzero a
  | .vsig _ _ => true
  | .vwaitf _ _ _ => true
  | .vlbuf _ _ _ => true
  | .vnop _ => true
  | .end_ _ => true
  | .mwl _ _ _ _ _ => true
  | .mswap _ _ _ => true
  | .mscl _ _ _ _ => true
  | .mma _ _ _ _ _ _ => true
  | .mmas _ _ _ _ _ _ => true
  | .mzero _ _ _ _ _ => true
  | .mdrain _ _ _ _ _ _ _ => true
  | .mrep _ _ _ => true
  | .mseta _ _ _ _ => true
  | .msetaImm _ _ _ _ _ => true
  | .madda _ _ _ _ _ => true
  | .mnop _ _ _ => true
  | .acopy _ _ _ _ _ e s => spaceOk e && spaceOk s
  | .acopy2 _ _ _ _ _ e s => spaceOk e && spaceOk s
  | .agath _ _ _ _ _ e s => spaceOk e && spaceOk s
  | .ascat _ _ _ _ _ e s => spaceOk e && spaceOk s
  | .amcast _ _ _ _ _ e s => spaceOk e && spaceOk s
  | .amcastSet _ _ _ _ _ e s => spaceOk e && spaceOk s
  | .anote _ _ _ _ => true
  | .twait _ _ => true
  | .tpend _ _ _ => true
  | .haulgo _ _ _ => true
  | .qpost _ _ _ => true
  | .hadd _ _ _ _ => true
  | .haddQueue _ _ _ _ _ => true
  | .haddi _ _ _ _ => true
  | .hmovh _ _ _ _ _ => true
  | .hsend _ q _ _ => hqueueOk q
  | .hsig _ _ => true
  | .hwaitf _ _ _ => true
  | .hlbuf _ _ _ => true
  | .abfmt _ _ _ _ => true
  | .hnop _ => true
  | .vResultLand _ _ => true
  | .mWordComplete _ _ => true
  | .requestEnqueue _ _ => true
  | .calendarSlotStart _ _ => true
  | .hbmReadLand _ _ => true
  | .hbmWritePerformed _ => true
  | .atomicResponse _ => true
  | .constFill _ _ => true
  | .copyBytesLand _ _ _ => true
  | .anoteWrite _ _ => true
  | .waitaTimeout _ => true
  | .handlerEntry _ => true
  | .engineFault _ => true
  | .preemptionRequest _ => true
  | .copyAbort _ => true
  | .granarySwap _ => true
  | .saveAreaMove _ _ _ => true
  | .strandResume _ => true
  | .strandStart _ => true
  | .scheduleDecision => true
  | .psliceExpiry _ => true
  | .vtUpdate => true
  | .haulRecordRead _ => true
  | .copy _ _ => true
  | .copy2d _ _ => true
  | .fill _ _ => true
  | .pack _ _ => true
  | .unpack _ _ => true
  | .reduce _ _ => true
  | .reduceArrival _ _ => true
  | .migrate _ _ => true
  | .stow _ _ => true
  | .note _ _ => true
  | .scoutPass _ _ => true
  | .tableWalk _ _ _ _ _ => true
  | .slabSend _ _ => true
  | .slabArrival _ => true
  | .gsum _ => true
  | .gsearch _ => true
  | .subquery _ => true
  | .gsearchMerge _ _ => true
  | .submit _ => true
  | .cancel _ => true
  | .verdict _ => true
  | .invalidate _ => true
  | .setPtroot _ => true
  | .setShare _ => true
  | .setPslice _ => true
  | .setSeedQueues _ => true
  | .setStagingPool _ => true
  | .setSaveArea _ => true
  | .setParkArea _ => true
  | .curve _ => true
  | .keyinst _ => true
  | .extend _ => true
  | .partitionCreate _ => true
  | .partitionDestroy _ => true
  | .fabricPackageNumber _ => true
  | .fabricRoute _ => true
  | .fabricImport _ => true
  | .nodeStaging _ _ _ => true
  | .launch _ _ => true
  | .launchEnd _ => true
  | .stagedCopyBack _ => true
  | .completionEvent _ => true
  | .commandEvent _ => true
  | .strandFaultEvent _ => true
  | .stallEvent _ => true
  | .pagefaultEvent _ => true
  | .noticeEvent _ => true
  | .hostRegisterWrite _ _ _ => true
  | .hostWindowRead _ _ _ => true
  | .hostWindowWrite _ _ _ => true
  | .atsInvalidation _ _ _ => true
  | .flr _ => true
  | .packageReset _ _ => true
  | .getVersion _ => true
  | .getCapabilities _ => true
  | .negotiateAlgorithms _ => true
  | .getDigests _ => true
  | .getCertificate _ _ _ _ => true
  | .challenge _ _ => true
  | .getMeasurements _ _ _ => true
  | .spdmUnsupportedRequest _ _ => true
  | .syndromeRead _ _ _ => true
  | .syndromeClear _ _ _ => true
  | .flitReceive _ _ => true
  | .linkTraining _ _ _ _ => true
  | .laneRetire _ _ => true
  | .peerAccess _ _ _ _ _ => true
  | .marketClear _ _ _ => true
  | .curveSlowEvent _ _ => true
  | .curveParkEvent _ _ => true
  | .curveShedEvent _ _ => true
  | .droopStretch _ _ => true
  | .guardBreach _ _ => true
  | .stallHoldEnd _ => true
  | .clusterGate _ => true
  | .dieGate _ => true
  | .diePowerUp _ => true
  | .hotMigration => true
  | .bankRetire _ _ _ => true
  | .siloScrub _ _ => true
  | .sramScrub _ _ _ _ => true
  | .eccWriteback _ => true
  | .heartbeatTimeout _ _ => true
  | .fatalDieError _ _ _ => true
  | .wordNotInstruction _ => true
  | .instructionFetch _ => true
  | .accessResponse _ _ => true
  | .preIssueRead _ => true
  | .constantPathDiscard _ => true
  | .clusterPowerUp _ => true
  | .badCommand _ => true

end Sys2Proof
end

