-- ==== Sys2Proof/Decode.lean ====
section
/-! DEFINITION. Decode and encode: the word skeleton of R54, the formats of R78 to R82, the opcode maps of R83 to R87 and the
order of checks of R88. A word is read by the format of the slot that fetches it (R50), so decoding takes the slot.
Decoding is total: a word that is no instruction is rejected by name, ILLEGAL before RESERVED_NONZERO. -/

namespace Sys2Proof

/-- The field of `len` bits of a word whose lowest bit is `lo`. -/
def fld (w : BitVec 32) (lo len : Nat) : BitVec len := w.extractLsb' lo len

/-- The rendezvous bit, bit 31 (R54). -/
def rvBit (w : BitVec 32) : Bool := w.getLsbD 31

/-- R88: a reserved code is ILLEGAL; then a nonzero reserved field is RESERVED_NONZERO; else the word is the instruction. -/
def checked (legal reservedZero : Bool) (i : Instr) : Except Reject Instr :=
  if legal then if reservedZero then .ok i else .error .reservedNonzero else .error .illegal

/-- Function codes of major 1 of the S slot. -/
def decodeSfn1 (w : BitVec 32) : Except Reject Instr :=
  match (fld w 0 10).toNat with
  | 0 => checked (true) (true) (.add (rvBit w) (fld w 20 5) (fld w 15 5) (fld w 10 5))
  | 1 => checked (true) (true) (.sub (rvBit w) (fld w 20 5) (fld w 15 5) (fld w 10 5))
  | 2 => checked (true) (true) (.mul (rvBit w) (fld w 20 5) (fld w 15 5) (fld w 10 5))
  | 3 => checked (true) (true) (.mulh (rvBit w) (fld w 20 5) (fld w 15 5) (fld w 10 5))
  | 4 => checked (true) (true) (.mulhu (rvBit w) (fld w 20 5) (fld w 15 5) (fld w 10 5))
  | 5 => checked (true) (true) (.div (rvBit w) (fld w 20 5) (fld w 15 5) (fld w 10 5))
  | 6 => checked (true) (true) (.divu (rvBit w) (fld w 20 5) (fld w 15 5) (fld w 10 5))
  | 7 => checked (true) (true) (.rem (rvBit w) (fld w 20 5) (fld w 15 5) (fld w 10 5))
  | 8 => checked (true) (true) (.remu (rvBit w) (fld w 20 5) (fld w 15 5) (fld w 10 5))
  | 9 => checked (true) (true) (.and_ (rvBit w) (fld w 20 5) (fld w 15 5) (fld w 10 5))
  | 10 => checked (true) (true) (.or_ (rvBit w) (fld w 20 5) (fld w 15 5) (fld w 10 5))
  | 11 => checked (true) (true) (.xor_ (rvBit w) (fld w 20 5) (fld w 15 5) (fld w 10 5))
  | 12 => checked (true) (true) (.andn (rvBit w) (fld w 20 5) (fld w 15 5) (fld w 10 5))
  | 13 => checked (true) (true) (.shl (rvBit w) (fld w 20 5) (fld w 15 5) (fld w 10 5))
  | 14 => checked (true) (true) (.shr (rvBit w) (fld w 20 5) (fld w 15 5) (fld w 10 5))
  | 15 => checked (true) (true) (.shra (rvBit w) (fld w 20 5) (fld w 15 5) (fld w 10 5))
  | 16 => checked (true) (true) (.ror (rvBit w) (fld w 20 5) (fld w 15 5) (fld w 10 5))
  | 17 => checked (true) (true) (.min_ (rvBit w) (fld w 20 5) (fld w 15 5) (fld w 10 5))
  | 18 => checked (true) (true) (.max_ (rvBit w) (fld w 20 5) (fld w 15 5) (fld w 10 5))
  | 19 => checked (true) (true) (.minu (rvBit w) (fld w 20 5) (fld w 15 5) (fld w 10 5))
  | 20 => checked (true) (true) (.maxu (rvBit w) (fld w 20 5) (fld w 15 5) (fld w 10 5))
  | 21 => checked (true) (true) (.slt (rvBit w) (fld w 20 5) (fld w 15 5) (fld w 10 5))
  | 22 => checked (true) (true) (.sltu (rvBit w) (fld w 20 5) (fld w 15 5) (fld w 10 5))
  | 23 => checked (true) (true) (.seq (rvBit w) (fld w 20 5) (fld w 15 5) (fld w 10 5))
  | 24 => checked (true) (true) (.sne (rvBit w) (fld w 20 5) (fld w 15 5) (fld w 10 5))
  | 25 => checked (true) (fld w 10 5 == 0) (.clz (rvBit w) (fld w 20 5) (fld w 15 5))
  | 26 => checked (true) (fld w 10 5 == 0) (.ctz (rvBit w) (fld w 20 5) (fld w 15 5))
  | 27 => checked (true) (fld w 10 5 == 0) (.popc (rvBit w) (fld w 20 5) (fld w 15 5))
  | 28 => checked (widthOk (fld w 10 5)) (true) (.sext (rvBit w) (fld w 20 5) (fld w 15 5) (fld w 10 5))
  | 29 => checked (widthOk (fld w 10 5)) (true) (.zext (rvBit w) (fld w 20 5) (fld w 15 5) (fld w 10 5))
  | 30 => checked (true) (true) (.cmov (rvBit w) (fld w 20 5) (fld w 15 5) (fld w 10 5))
  | _ => .error .illegal

/-- Function codes of major 6 of the S slot. -/
def decodeSfn6 (w : BitVec 32) : Except Reject Instr :=
  match (fld w 13 2).toNat with
  | 0 => checked (true) (fld w 6 7 == 0) (.shli (rvBit w) (fld w 20 5) (fld w 15 5) (fld w 0 6))
  | 1 => checked (true) (fld w 6 7 == 0) (.shri (rvBit w) (fld w 20 5) (fld w 15 5) (fld w 0 6))
  | 2 => checked (true) (fld w 6 7 == 0) (.shrai (rvBit w) (fld w 20 5) (fld w 15 5) (fld w 0 6))
  | _ => .error .illegal

/-- Function codes of major 36 of the S slot. -/
def decodeSfn36 (w : BitVec 32) : Except Reject Instr :=
  match (fld w 6 4).toNat with
  | 0 => checked (true) (true) (.amoadd (rvBit w) (fld w 20 5) (fld w 15 5) (fld w 10 5) (fld w 5 1) (fld w 4 1) (fld w 2 2) (fld w 1 1) (fld w 0 1))
  | 1 => checked (true) (true) (.amoand (rvBit w) (fld w 20 5) (fld w 15 5) (fld w 10 5) (fld w 5 1) (fld w 4 1) (fld w 2 2) (fld w 1 1) (fld w 0 1))
  | 2 => checked (true) (true) (.amoor (rvBit w) (fld w 20 5) (fld w 15 5) (fld w 10 5) (fld w 5 1) (fld w 4 1) (fld w 2 2) (fld w 1 1) (fld w 0 1))
  | 3 => checked (true) (true) (.amoxor (rvBit w) (fld w 20 5) (fld w 15 5) (fld w 10 5) (fld w 5 1) (fld w 4 1) (fld w 2 2) (fld w 1 1) (fld w 0 1))
  | 4 => checked (true) (true) (.amomin (rvBit w) (fld w 20 5) (fld w 15 5) (fld w 10 5) (fld w 5 1) (fld w 4 1) (fld w 2 2) (fld w 1 1) (fld w 0 1))
  | 5 => checked (true) (true) (.amomax (rvBit w) (fld w 20 5) (fld w 15 5) (fld w 10 5) (fld w 5 1) (fld w 4 1) (fld w 2 2) (fld w 1 1) (fld w 0 1))
  | 6 => checked (true) (true) (.amominu (rvBit w) (fld w 20 5) (fld w 15 5) (fld w 10 5) (fld w 5 1) (fld w 4 1) (fld w 2 2) (fld w 1 1) (fld w 0 1))
  | 7 => checked (true) (true) (.amomaxu (rvBit w) (fld w 20 5) (fld w 15 5) (fld w 10 5) (fld w 5 1) (fld w 4 1) (fld w 2 2) (fld w 1 1) (fld w 0 1))
  | 8 => checked (true) (true) (.amoswap (rvBit w) (fld w 20 5) (fld w 15 5) (fld w 10 5) (fld w 5 1) (fld w 4 1) (fld w 2 2) (fld w 1 1) (fld w 0 1))
  | _ => .error .illegal

/-- The opcode map of the S slot. -/
def decodeS (w : BitVec 32) : Except Reject Instr :=
  match (fld w 25 6).toNat with
  | 1 => decodeSfn1 w
  | 2 => checked (true) (true) (.addi (rvBit w) (fld w 20 5) (fld w 15 5) (fld w 0 15))
  | 3 => checked (true) (true) (.andi (rvBit w) (fld w 20 5) (fld w 15 5) (fld w 0 15))
  | 4 => checked (true) (true) (.ori (rvBit w) (fld w 20 5) (fld w 15 5) (fld w 0 15))
  | 5 => checked (true) (true) (.xori (rvBit w) (fld w 20 5) (fld w 15 5) (fld w 0 15))
  | 6 => decodeSfn6 w
  | 7 => checked (true) (true) (.slti (rvBit w) (fld w 20 5) (fld w 15 5) (fld w 0 15))
  | 8 => checked (true) (true) (.sltiu (rvBit w) (fld w 20 5) (fld w 15 5) (fld w 0 15))
  | 9 => checked (true) (fld w 16 1 == 0) (.movh (rvBit w) (fld w 20 5) (fld w 18 2) (fld w 17 1) (fld w 0 16))
  | 10 => checked (true) (true) (.muli (rvBit w) (fld w 20 5) (fld w 15 5) (fld w 0 15))
  | 16 => checked (true) (true) (.beq (rvBit w) (fld w 20 5) (fld w 15 5) (fld w 0 15))
  | 17 => checked (true) (true) (.bne (rvBit w) (fld w 20 5) (fld w 15 5) (fld w 0 15))
  | 18 => checked (true) (true) (.blt (rvBit w) (fld w 20 5) (fld w 15 5) (fld w 0 15))
  | 19 => checked (true) (true) (.bge (rvBit w) (fld w 20 5) (fld w 15 5) (fld w 0 15))
  | 20 => checked (true) (true) (.bltu (rvBit w) (fld w 20 5) (fld w 15 5) (fld w 0 15))
  | 21 => checked (true) (true) (.bgeu (rvBit w) (fld w 20 5) (fld w 15 5) (fld w 0 15))
  | 22 => checked (predOk (fld w 21 4)) (fld w 15 6 == 0) (.bpany (rvBit w) (fld w 21 4) (fld w 0 15))
  | 23 => checked (predOk (fld w 21 4)) (fld w 15 6 == 0) (.bpall (rvBit w) (fld w 21 4) (fld w 0 15))
  | 24 => checked (true) (true) (.jmp (rvBit w) (fld w 0 25))
  | 25 => checked (true) (true) (.call (rvBit w) (fld w 0 25))
  | 26 => checked (true) (true) (.jr (rvBit w) (fld w 20 5) (fld w 15 5) (fld w 0 15))
  | 27 => checked (true) (fld w 15 5 == 0) (.loop (rvBit w) (fld w 20 5) (fld w 0 15))
  | 28 => checked (true) (fld w 0 14 == 0) (.lbuf (rvBit w) (fld w 20 5) (fld w 14 6))
  | 32 => checked (spaceOk (fld w 10 3)) (true) (.ld (rvBit w) (fld w 20 5) (fld w 15 5) (fld w 13 2) (fld w 10 3) (fld w 0 10))
  | 33 => checked (spaceOk (fld w 10 3)) (true) (.ldu (rvBit w) (fld w 20 5) (fld w 15 5) (fld w 13 2) (fld w 10 3) (fld w 0 10))
  | 34 => checked (spaceOk (fld w 10 3)) (true) (.st (rvBit w) (fld w 20 5) (fld w 15 5) (fld w 13 2) (fld w 10 3) (fld w 0 10))
  | 35 => checked (fld w 10 3 == 0) (true) (.ldk (rvBit w) (fld w 20 5) (fld w 15 5) (fld w 13 2) (fld w 0 10))
  | 36 => decodeSfn36 w
  | 37 => checked (true) (fld w 6 4 == 0) (.cas (rvBit w) (fld w 20 5) (fld w 15 5) (fld w 10 5) (fld w 5 1) (fld w 4 1) (fld w 2 2) (fld w 1 1) (fld w 0 1))
  | 38 => checked (true) (fld w 11 14 == 0 && fld w 0 9 == 0) (.fence (rvBit w) (fld w 9 2))
  | 39 => checked (true) (fld w 0 9 == 0) (.fencex (rvBit w) (fld w 18 7) (fld w 11 7) (fld w 9 2))
  | 40 => checked (true) (fld w 0 25 == 0) (.fencek (rvBit w))
  | 41 => checked (true) (fld w 20 5 == 0 && fld w 0 15 == 0) (.watch (rvBit w) (fld w 15 5))
  | 42 => checked (true) (fld w 0 15 == 0) (.waita (rvBit w) (fld w 20 5) (fld w 15 5))
  | 48 => checked (true) (fld w 0 21 == 0) (.sig (rvBit w) (fld w 21 4))
  | 49 => checked (true) (fld w 0 13 == 0) (.waitf (rvBit w) (fld w 21 4) (fld w 13 8))
  | 50 => checked (queueOk (fld w 0 2)) (fld w 20 5 == 0 && fld w 2 8 == 0) (.send (rvBit w) (fld w 15 5) (fld w 10 5) (fld w 0 2))
  | 51 => checked (true) (fld w 0 20 == 0) (.recv (rvBit w) (fld w 20 5))
  | 52 => checked (csrOk (fld w 0 10)) (fld w 10 10 == 0) (.csrr (rvBit w) (fld w 20 5) (fld w 0 10))
  | 53 => checked (csrOk (fld w 0 10)) (fld w 20 5 == 0 && fld w 10 5 == 0) (.csrw (rvBit w) (fld w 15 5) (fld w 0 10))
  | 54 => checked (true) (fld w 20 5 == 0 && fld w 3 12 == 0) (.sow (rvBit w) (fld w 15 5) (fld w 0 3))
  | 55 => checked (true) (fld w 20 5 == 0 && fld w 0 15 == 0) (.join (rvBit w) (fld w 15 5))
  | 56 => checked (true) (fld w 0 25 == 0) (.done_ (rvBit w))
  | 57 => checked (true) (fld w 0 25 == 0) (.yield (rvBit w))
  | 58 => checked (true) (fld w 10 15 == 0) (.trap (rvBit w) (fld w 0 10))
  | 59 => checked (true) (fld w 0 25 == 0) (.tret (rvBit w))
  | 60 => checked (true) (fld w 1 14 == 0) (.locq (rvBit w) (fld w 20 5) (fld w 15 5) (fld w 0 1))
  | 61 => checked (true) (fld w 20 5 == 0 && fld w 2 13 == 0) (.mts (rvBit w) (fld w 15 5) (fld w 0 2))
  | 62 => checked (true) (fld w 0 25 == 0) (.nop (rvBit w))
  | _ => .error .illegal

/-- Function codes of major 1 of the V slot. -/
def decodeVfn1 (w : BitVec 32) : Except Reject Instr :=
  match (fld w 0 9).toNat with
  | 0 => checked (govOk (fld w 9 4)) (true) (.vadd (rvBit w) (fld w 21 4) (fld w 17 4) (fld w 13 4) (fld w 9 4))
  | 1 => checked (govOk (fld w 9 4)) (true) (.vsub (rvBit w) (fld w 21 4) (fld w 17 4) (fld w 13 4) (fld w 9 4))
  | 2 => checked (govOk (fld w 9 4)) (true) (.vmul (rvBit w) (fld w 21 4) (fld w 17 4) (fld w 13 4) (fld w 9 4))
  | 3 => checked (govOk (fld w 9 4)) (true) (.vfma (rvBit w) (fld w 21 4) (fld w 17 4) (fld w 13 4) (fld w 9 4))
  | 4 => checked (govOk (fld w 9 4)) (true) (.vfms (rvBit w) (fld w 21 4) (fld w 17 4) (fld w 13 4) (fld w 9 4))
  | 5 => checked (govOk (fld w 9 4)) (true) (.vmin (rvBit w) (fld w 21 4) (fld w 17 4) (fld w 13 4) (fld w 9 4))
  | 6 => checked (govOk (fld w 9 4)) (true) (.vmax (rvBit w) (fld w 21 4) (fld w 17 4) (fld w 13 4) (fld w 9 4))
  | 7 => checked (govOk (fld w 9 4)) (fld w 13 4 == 0) (.vabs (rvBit w) (fld w 21 4) (fld w 17 4) (fld w 9 4))
  | 8 => checked (govOk (fld w 9 4)) (fld w 13 4 == 0) (.vneg (rvBit w) (fld w 21 4) (fld w 17 4) (fld w 9 4))
  | _ => .error .illegal

/-- Function codes of major 2 of the V slot. -/
def decodeVfn2 (w : BitVec 32) : Except Reject Instr :=
  match (fld w 0 9).toNat with
  | 0 => checked (govOk (fld w 9 4)) (true) (.viadd (rvBit w) (fld w 21 4) (fld w 17 4) (fld w 13 4) (fld w 9 4))
  | 1 => checked (govOk (fld w 9 4)) (true) (.visub (rvBit w) (fld w 21 4) (fld w 17 4) (fld w 13 4) (fld w 9 4))
  | 2 => checked (govOk (fld w 9 4)) (true) (.vimul (rvBit w) (fld w 21 4) (fld w 17 4) (fld w 13 4) (fld w 9 4))
  | 3 => checked (govOk (fld w 9 4)) (true) (.vimulh (rvBit w) (fld w 21 4) (fld w 17 4) (fld w 13 4) (fld w 9 4))
  | 4 => checked (govOk (fld w 9 4)) (true) (.vand (rvBit w) (fld w 21 4) (fld w 17 4) (fld w 13 4) (fld w 9 4))
  | 5 => checked (govOk (fld w 9 4)) (true) (.vor (rvBit w) (fld w 21 4) (fld w 17 4) (fld w 13 4) (fld w 9 4))
  | 6 => checked (govOk (fld w 9 4)) (true) (.vxor (rvBit w) (fld w 21 4) (fld w 17 4) (fld w 13 4) (fld w 9 4))
  | 7 => checked (govOk (fld w 9 4)) (true) (.vandn (rvBit w) (fld w 21 4) (fld w 17 4) (fld w 13 4) (fld w 9 4))
  | 8 => checked (govOk (fld w 9 4)) (true) (.vshl (rvBit w) (fld w 21 4) (fld w 17 4) (fld w 13 4) (fld w 9 4))
  | 9 => checked (govOk (fld w 9 4)) (true) (.vshr (rvBit w) (fld w 21 4) (fld w 17 4) (fld w 13 4) (fld w 9 4))
  | 10 => checked (govOk (fld w 9 4)) (true) (.vshra (rvBit w) (fld w 21 4) (fld w 17 4) (fld w 13 4) (fld w 9 4))
  | 11 => checked (govOk (fld w 9 4)) (true) (.vimin (rvBit w) (fld w 21 4) (fld w 17 4) (fld w 13 4) (fld w 9 4))
  | 12 => checked (govOk (fld w 9 4)) (true) (.vimax (rvBit w) (fld w 21 4) (fld w 17 4) (fld w 13 4) (fld w 9 4))
  | 13 => checked (govOk (fld w 9 4)) (true) (.viminu (rvBit w) (fld w 21 4) (fld w 17 4) (fld w 13 4) (fld w 9 4))
  | 14 => checked (govOk (fld w 9 4)) (true) (.vimaxu (rvBit w) (fld w 21 4) (fld w 17 4) (fld w 13 4) (fld w 9 4))
  | 15 => checked (govOk (fld w 9 4)) (true) (.viadds (rvBit w) (fld w 21 4) (fld w 17 4) (fld w 13 4) (fld w 9 4))
  | 16 => checked (govOk (fld w 9 4)) (true) (.visubs (rvBit w) (fld w 21 4) (fld w 17 4) (fld w 13 4) (fld w 9 4))
  | _ => .error .illegal

/-- Function codes of major 5 of the V slot. -/
def decodeVfn5 (w : BitVec 32) : Except Reject Instr :=
  match (fld w 0 9).toNat with
  | 0 => checked (govOk (fld w 9 4)) (fld w 13 4 == 0) (.vexp2 (rvBit w) (fld w 21 4) (fld w 17 4) (fld w 9 4))
  | 1 => checked (govOk (fld w 9 4)) (fld w 13 4 == 0) (.vlog2 (rvBit w) (fld w 21 4) (fld w 17 4) (fld w 9 4))
  | 2 => checked (govOk (fld w 9 4)) (fld w 13 4 == 0) (.vrcp (rvBit w) (fld w 21 4) (fld w 17 4) (fld w 9 4))
  | 3 => checked (govOk (fld w 9 4)) (fld w 13 4 == 0) (.vrsq (rvBit w) (fld w 21 4) (fld w 17 4) (fld w 9 4))
  | 4 => checked (govOk (fld w 9 4)) (fld w 13 4 == 0) (.vsqrt (rvBit w) (fld w 21 4) (fld w 17 4) (fld w 9 4))
  | 5 => checked (govOk (fld w 9 4)) (fld w 13 4 == 0) (.vsin (rvBit w) (fld w 21 4) (fld w 17 4) (fld w 9 4))
  | 6 => checked (govOk (fld w 9 4)) (fld w 13 4 == 0) (.vcos (rvBit w) (fld w 21 4) (fld w 17 4) (fld w 9 4))
  | 7 => checked (govOk (fld w 9 4)) (fld w 13 4 == 0) (.vtanh (rvBit w) (fld w 21 4) (fld w 17 4) (fld w 9 4))
  | 8 => checked (govOk (fld w 9 4)) (fld w 13 4 == 0) (.vsigm (rvBit w) (fld w 21 4) (fld w 17 4) (fld w 9 4))
  | _ => .error .illegal

/-- Function codes of major 23 of the V slot. -/
def decodeVfn23 (w : BitVec 32) : Except Reject Instr :=
  match (fld w 0 1).toNat with
  | 0 => checked (govOk (fld w 9 4)) (true) (.vimm (rvBit w) (fld w 21 4) (fld w 13 8) (fld w 9 4) (fld w 1 8))
  | 1 => checked (govOk (fld w 9 4)) (true) (.vimmHi (rvBit w) (fld w 21 4) (fld w 13 8) (fld w 9 4) (fld w 1 8))
  | _ => .error .illegal

/-- Function codes of major 24 of the V slot. -/
def decodeVfn24 (w : BitVec 32) : Except Reject Instr :=
  match (fld w 0 3).toNat with
  | 0 => checked (predOk (fld w 21 4) && predOk (fld w 17 4) && predOk (fld w 13 4)) (fld w 3 10 == 0) (.pand (rvBit w) (fld w 21 4) (fld w 17 4) (fld w 13 4))
  | 1 => checked (predOk (fld w 21 4) && predOk (fld w 17 4) && predOk (fld w 13 4)) (fld w 3 10 == 0) (.por (rvBit w) (fld w 21 4) (fld w 17 4) (fld w 13 4))
  | 2 => checked (predOk (fld w 21 4) && predOk (fld w 17 4) && predOk (fld w 13 4)) (fld w 3 10 == 0) (.pxor (rvBit w) (fld w 21 4) (fld w 17 4) (fld w 13 4))
  | 3 => checked (predOk (fld w 21 4) && predOk (fld w 17 4) && predOk (fld w 13 4)) (fld w 3 10 == 0) (.pandn (rvBit w) (fld w 21 4) (fld w 17 4) (fld w 13 4))
  | 4 => checked (predOk (fld w 21 4) && predOk (fld w 17 4)) (fld w 3 14 == 0) (.pnot (rvBit w) (fld w 21 4) (fld w 17 4))
  | 5 => checked (predOk (fld w 21 4)) (fld w 3 18 == 0) (.pset (rvBit w) (fld w 21 4))
  | 6 => checked (predOk (fld w 21 4)) (fld w 3 18 == 0) (.pclr (rvBit w) (fld w 21 4))
  | _ => .error .illegal

/-- The opcode map of the V slot. -/
def decodeV (w : BitVec 32) : Except Reject Instr :=
  match (fld w 25 6).toNat with
  | 1 => decodeVfn1 w
  | 2 => decodeVfn2 w
  | 3 => checked (predOk (fld w 21 4) && govOk (fld w 9 4) && condOk (fld w 0 4)) (fld w 4 5 == 0) (.vcmp (rvBit w) (fld w 21 4) (fld w 17 4) (fld w 13 4) (fld w 9 4) (fld w 0 4))
  | 4 => checked (govOk (fld w 9 4)) (fld w 0 9 == 0) (.vsel (rvBit w) (fld w 21 4) (fld w 17 4) (fld w 13 4) (fld w 9 4))
  | 5 => decodeVfn5 w
  | 6 => checked (govOk (fld w 9 4)) (fld w 0 2 == 0) (.vcvt (rvBit w) (fld w 21 4) (fld w 17 4) (fld w 13 4) (fld w 9 4) (fld w 5 4) (fld w 3 2) (fld w 2 1))
  | 7 => checked (govOk (fld w 9 4)) (fld w 0 5 == 0) (.vqmx (rvBit w) (fld w 21 4) (fld w 17 4) (fld w 13 4) (fld w 9 4) (fld w 5 4))
  | 8 => checked (govOk (fld w 9 4)) (fld w 0 2 == 0) (.vdqmx (rvBit w) (fld w 21 4) (fld w 17 4) (fld w 13 4) (fld w 9 4) (fld w 5 4) (fld w 3 2) (fld w 2 1))
  | 9 => checked (govOk (fld w 9 4)) (fld w 13 4 == 0 && fld w 6 3 == 0) (.vrotr (rvBit w) (fld w 21 4) (fld w 17 4) (fld w 9 4) (fld w 0 6))
  | 10 => checked (govOk (fld w 9 4)) (fld w 13 4 == 0 && fld w 4 5 == 0) (.vrotc (rvBit w) (fld w 21 4) (fld w 17 4) (fld w 9 4) (fld w 0 4))
  | 11 => checked (govOk (fld w 9 4)) (fld w 13 4 == 0 && fld w 6 3 == 0) (.vbcr (rvBit w) (fld w 21 4) (fld w 17 4) (fld w 9 4) (fld w 0 6))
  | 12 => checked (govOk (fld w 9 4)) (fld w 13 4 == 0 && fld w 4 5 == 0) (.vbcc (rvBit w) (fld w 21 4) (fld w 17 4) (fld w 9 4) (fld w 0 4))
  | 13 => checked (govOk (fld w 9 4) && axisOpOk (fld w 6 3)) (fld w 13 4 == 0 && fld w 0 6 == 0) (.vredr (rvBit w) (fld w 21 4) (fld w 17 4) (fld w 9 4) (fld w 6 3))
  | 14 => checked (govOk (fld w 9 4) && axisOpOk (fld w 6 3)) (fld w 13 4 == 0 && fld w 0 6 == 0) (.vredc (rvBit w) (fld w 21 4) (fld w 17 4) (fld w 9 4) (fld w 6 3))
  | 15 => checked (govOk (fld w 9 4) && axisOpOk (fld w 6 3)) (fld w 13 4 == 0 && fld w 0 6 == 0) (.vscanr (rvBit w) (fld w 21 4) (fld w 17 4) (fld w 9 4) (fld w 6 3))
  | 16 => checked (govOk (fld w 9 4) && axisOpOk (fld w 6 3)) (fld w 13 4 == 0 && fld w 0 6 == 0) (.vscanc (rvBit w) (fld w 21 4) (fld w 17 4) (fld w 9 4) (fld w 6 3))
  | 17 => checked (govOk (fld w 9 4)) (fld w 13 4 == 0 && fld w 0 9 == 0) (.vtrn (rvBit w) (fld w 21 4) (fld w 17 4) (fld w 9 4))
  | 18 => checked (vspaceOk (fld w 13 3) && govOk (fld w 9 4)) (true) (.vld (rvBit w) (fld w 21 4) (fld w 16 5) (fld w 13 3) (fld w 9 4) (fld w 0 9))
  | 19 => checked (vspaceOk (fld w 13 3) && govOk (fld w 9 4)) (true) (.vst (rvBit w) (fld w 21 4) (fld w 16 5) (fld w 13 3) (fld w 9 4) (fld w 0 9))
  | 20 => checked (govOk (fld w 9 4) && fld w 13 3 == 0) (true) (.vldk (rvBit w) (fld w 21 4) (fld w 16 5) (fld w 9 4) (fld w 0 9))
  | 21 => checked (govOk (fld w 9 4)) (fld w 13 8 == 0 && fld w 0 9 == 0) (.vmovq (rvBit w) (fld w 21 4) (fld w 9 4))
  | 22 => checked (true) (fld w 9 8 == 0 && fld w 0 3 == 0) (.vret (rvBit w) (fld w 21 4) (fld w 17 4) (fld w 3 6))
  | 23 => decodeVfn23 w
  | 24 => decodeVfn24 w
  | 26 => if fld w 20 5 == 0 then checked (true) (fld w 13 12 == 0) (.vsetsh (rvBit w) (fld w 0 13))
      else checked (regNonzero (fld w 20 5)) (fld w 0 20 == 0) (.vsetshReg (rvBit w) (fld w 20 5))
  | 27 => checked (true) (fld w 0 21 == 0) (.vsig (rvBit w) (fld w 21 4))
  | 28 => checked (true) (fld w 0 13 == 0) (.vwaitf (rvBit w) (fld w 21 4) (fld w 13 8))
  | 29 => checked (true) (fld w 0 14 == 0) (.vlbuf (rvBit w) (fld w 20 5) (fld w 14 6))
  | 30 => checked (true) (fld w 0 25 == 0) (.vnop (rvBit w))
  | 63 => checked (true) (fld w 0 25 == 0) (.end_ (rvBit w))
  | _ => .error .illegal

/-- Function codes of major 9 of the M slot. -/
def decodeMfn9 (w : BitVec 32) : Except Reject Instr :=
  match (fld w 13 1).toNat with
  | 0 => checked (true) (fld w 0 13 == 0) (.mseta (rvBit w) (fld w 21 4) (fld w 17 4) (fld w 14 3))
  | 1 => checked (true) (true) (.msetaImm (rvBit w) (fld w 21 4) (fld w 17 4) (fld w 14 3) (fld w 0 13))
  | _ => .error .illegal

/-- The opcode map of the M slot. -/
def decodeM (w : BitVec 32) : Except Reject Instr :=
  match (fld w 25 6).toNat with
  | 1 => checked (true) (fld w 0 13 == 0) (.mwl (rvBit w) (fld w 21 4) (fld w 17 4) (fld w 14 3) (fld w 13 1))
  | 2 => checked (true) (fld w 0 17 == 0) (.mswap (rvBit w) (fld w 21 4) (fld w 17 4))
  | 3 => checked (true) (fld w 0 14 == 0) (.mscl (rvBit w) (fld w 21 4) (fld w 17 4) (fld w 14 3))
  | 4 => checked (true) (fld w 0 9 == 0) (.mma (rvBit w) (fld w 21 4) (fld w 17 4) (fld w 14 3) (fld w 12 2) (fld w 9 3))
  | 5 => checked (true) (fld w 0 9 == 0) (.mmas (rvBit w) (fld w 21 4) (fld w 17 4) (fld w 14 3) (fld w 12 2) (fld w 9 3))
  | 6 => checked (true) (fld w 14 3 == 0 && fld w 0 9 == 0) (.mzero (rvBit w) (fld w 21 4) (fld w 17 4) (fld w 12 2) (fld w 9 3))
  | 7 => checked (true) (fld w 0 5 == 0) (.mdrain (rvBit w) (fld w 21 4) (fld w 17 4) (fld w 14 3) (fld w 12 2) (fld w 9 3) (fld w 5 4))
  | 8 => checked (true) (fld w 17 8 == 0) (.mrep (rvBit w) (fld w 9 8) (fld w 0 9))
  | 9 => decodeMfn9 w
  | 10 => checked (true) (true) (.madda (rvBit w) (fld w 21 4) (fld w 17 4) (fld w 14 3) (fld w 0 14))
  | 11 => checked (true) (fld w 0 17 == 0) (.mnop (rvBit w) (fld w 21 4) (fld w 17 4))
  | 63 => checked (true) (fld w 0 25 == 0) (.end_ (rvBit w))
  | _ => .error .illegal

/-- Function codes of major 11 of the H slot. -/
def decodeHfn11 (w : BitVec 32) : Except Reject Instr :=
  match (fld w 9 1).toNat with
  | 0 => checked (true) (fld w 0 9 == 0) (.hadd (rvBit w) (fld w 20 5) (fld w 15 5) (fld w 10 5))
  | 1 => checked (true) (fld w 10 5 == 0 && fld w 0 7 == 0) (.haddQueue (rvBit w) (fld w 20 5) (fld w 15 5) (fld w 8 1) (fld w 7 1))
  | _ => .error .illegal

/-- The opcode map of the H slot. -/
def decodeH (w : BitVec 32) : Except Reject Instr :=
  match (fld w 25 6).toNat with
  | 1 => checked (spaceOk (fld w 4 3) && spaceOk (fld w 1 3)) (fld w 0 1 == 0) (.acopy (rvBit w) (fld w 20 5) (fld w 15 5) (fld w 10 5) (fld w 7 3) (fld w 4 3) (fld w 1 3))
  | 2 => checked (spaceOk (fld w 4 3) && spaceOk (fld w 1 3)) (fld w 0 1 == 0) (.acopy2 (rvBit w) (fld w 20 5) (fld w 15 5) (fld w 10 5) (fld w 7 3) (fld w 4 3) (fld w 1 3))
  | 3 => checked (spaceOk (fld w 4 3) && spaceOk (fld w 1 3)) (fld w 0 1 == 0) (.agath (rvBit w) (fld w 20 5) (fld w 15 5) (fld w 10 5) (fld w 7 3) (fld w 4 3) (fld w 1 3))
  | 4 => checked (spaceOk (fld w 4 3) && spaceOk (fld w 1 3)) (fld w 0 1 == 0) (.ascat (rvBit w) (fld w 20 5) (fld w 15 5) (fld w 10 5) (fld w 7 3) (fld w 4 3) (fld w 1 3))
  | 5 => checked (spaceOk (fld w 4 3) && spaceOk (fld w 1 3)) (fld w 0 1 == 0) (.amcast (rvBit w) (fld w 20 5) (fld w 15 5) (fld w 10 5) (fld w 7 3) (fld w 4 3) (fld w 1 3))
  | 6 => checked (true) (fld w 20 5 == 0 && fld w 0 7 == 0) (.anote (rvBit w) (fld w 15 5) (fld w 10 5) (fld w 7 3))
  | 7 => checked (true) (fld w 0 17 == 0) (.twait (rvBit w) (fld w 17 8))
  | 8 => checked (true) (fld w 10 10 == 0 && fld w 0 7 == 0) (.tpend (rvBit w) (fld w 20 5) (fld w 7 3))
  | 9 => checked (true) (fld w 20 5 == 0 && fld w 0 10 == 0) (.haulgo (rvBit w) (fld w 15 5) (fld w 10 5))
  | 10 => checked (true) (fld w 20 5 == 0 && fld w 0 10 == 0) (.qpost (rvBit w) (fld w 15 5) (fld w 10 5))
  | 11 => decodeHfn11 w
  | 12 => checked (true) (true) (.haddi (rvBit w) (fld w 20 5) (fld w 15 5) (fld w 0 15))
  | 13 => checked (true) (fld w 16 1 == 0) (.hmovh (rvBit w) (fld w 20 5) (fld w 18 2) (fld w 17 1) (fld w 0 16))
  | 14 => checked (hqueueOk (fld w 23 2)) (fld w 20 3 == 0 && fld w 0 10 == 0) (.hsend (rvBit w) (fld w 23 2) (fld w 15 5) (fld w 10 5))
  | 15 => checked (true) (fld w 0 21 == 0) (.hsig (rvBit w) (fld w 21 4))
  | 16 => checked (true) (fld w 0 13 == 0) (.hwaitf (rvBit w) (fld w 21 4) (fld w 13 8))
  | 17 => checked (true) (fld w 0 14 == 0) (.hlbuf (rvBit w) (fld w 20 5) (fld w 14 6))
  | 18 => checked (true) (fld w 0 14 == 0) (.abfmt (rvBit w) (fld w 20 5) (fld w 19 1) (fld w 14 5))
  | 19 => checked (true) (fld w 0 25 == 0) (.hnop (rvBit w))
  | 63 => checked (true) (fld w 0 25 == 0) (.end_ (rvBit w))
  | _ => .error .illegal

/-- The instruction that a word is in a slot, or why it is none (R50, R88). -/
def decodeWord : Slot → BitVec 32 → Except Reject Instr
  | .s, w => decodeS w
  | .v, w => decodeV w
  | .m, w => decodeM w
  | .h, w => decodeH w

/-- The slots whose words an instruction belongs to: one slot, or V, M and H for END (R89); none for a step that is no word. -/
def Instr.inSlot : Instr → Slot → Bool
  | .add .., k => k == .s
  | .sub .., k => k == .s
  | .mul .., k => k == .s
  | .mulh .., k => k == .s
  | .mulhu .., k => k == .s
  | .div .., k => k == .s
  | .divu .., k => k == .s
  | .rem .., k => k == .s
  | .remu .., k => k == .s
  | .and_ .., k => k == .s
  | .or_ .., k => k == .s
  | .xor_ .., k => k == .s
  | .andn .., k => k == .s
  | .shl .., k => k == .s
  | .shr .., k => k == .s
  | .shra .., k => k == .s
  | .ror .., k => k == .s
  | .min_ .., k => k == .s
  | .max_ .., k => k == .s
  | .minu .., k => k == .s
  | .maxu .., k => k == .s
  | .slt .., k => k == .s
  | .sltu .., k => k == .s
  | .seq .., k => k == .s
  | .sne .., k => k == .s
  | .clz .., k => k == .s
  | .ctz .., k => k == .s
  | .popc .., k => k == .s
  | .sext .., k => k == .s
  | .zext .., k => k == .s
  | .cmov .., k => k == .s
  | .addi .., k => k == .s
  | .andi .., k => k == .s
  | .ori .., k => k == .s
  | .xori .., k => k == .s
  | .shli .., k => k == .s
  | .shri .., k => k == .s
  | .shrai .., k => k == .s
  | .slti .., k => k == .s
  | .sltiu .., k => k == .s
  | .movh .., k => k == .s
  | .muli .., k => k == .s
  | .beq .., k => k == .s
  | .bne .., k => k == .s
  | .blt .., k => k == .s
  | .bge .., k => k == .s
  | .bltu .., k => k == .s
  | .bgeu .., k => k == .s
  | .bpany .., k => k == .s
  | .bpall .., k => k == .s
  | .jmp .., k => k == .s
  | .call .., k => k == .s
  | .jr .., k => k == .s
  | .loop .., k => k == .s
  | .lbuf .., k => k == .s
  | .ld .., k => k == .s
  | .ldu .., k => k == .s
  | .st .., k => k == .s
  | .ldk .., k => k == .s
  | .amoadd .., k => k == .s
  | .amoand .., k => k == .s
  | .amoor .., k => k == .s
  | .amoxor .., k => k == .s
  | .amomin .., k => k == .s
  | .amomax .., k => k == .s
  | .amominu .., k => k == .s
  | .amomaxu .., k => k == .s
  | .amoswap .., k => k == .s
  | .cas .., k => k == .s
  | .fence .., k => k == .s
  | .fencex .., k => k == .s
  | .fencek .., k => k == .s
  | .watch .., k => k == .s
  | .waita .., k => k == .s
  | .sig .., k => k == .s
  | .waitf .., k => k == .s
  | .send .., k => k == .s
  | .recv .., k => k == .s
  | .csrr .., k => k == .s
  | .csrw .., k => k == .s
  | .sow .., k => k == .s
  | .join .., k => k == .s
  | .done_ .., k => k == .s
  | .yield .., k => k == .s
  | .trap .., k => k == .s
  | .tret .., k => k == .s
  | .locq .., k => k == .s
  | .mts .., k => k == .s
  | .nop .., k => k == .s
  | .vadd .., k => k == .v
  | .vsub .., k => k == .v
  | .vmul .., k => k == .v
  | .vfma .., k => k == .v
  | .vfms .., k => k == .v
  | .vmin .., k => k == .v
  | .vmax .., k => k == .v
  | .vabs .., k => k == .v
  | .vneg .., k => k == .v
  | .viadd .., k => k == .v
  | .visub .., k => k == .v
  | .vimul .., k => k == .v
  | .vimulh .., k => k == .v
  | .vand .., k => k == .v
  | .vor .., k => k == .v
  | .vxor .., k => k == .v
  | .vandn .., k => k == .v
  | .vshl .., k => k == .v
  | .vshr .., k => k == .v
  | .vshra .., k => k == .v
  | .vimin .., k => k == .v
  | .vimax .., k => k == .v
  | .viminu .., k => k == .v
  | .vimaxu .., k => k == .v
  | .viadds .., k => k == .v
  | .visubs .., k => k == .v
  | .vcmp .., k => k == .v
  | .vsel .., k => k == .v
  | .vexp2 .., k => k == .v
  | .vlog2 .., k => k == .v
  | .vrcp .., k => k == .v
  | .vrsq .., k => k == .v
  | .vsqrt .., k => k == .v
  | .vsin .., k => k == .v
  | .vcos .., k => k == .v
  | .vtanh .., k => k == .v
  | .vsigm .., k => k == .v
  | .vcvt .., k => k == .v
  | .vqmx .., k => k == .v
  | .vdqmx .., k => k == .v
  | .vrotr .., k => k == .v
  | .vrotc .., k => k == .v
  | .vbcr .., k => k == .v
  | .vbcc .., k => k == .v
  | .vredr .., k => k == .v
  | .vredc .., k => k == .v
  | .vscanr .., k => k == .v
  | .vscanc .., k => k == .v
  | .vtrn .., k => k == .v
  | .vld .., k => k == .v
  | .vst .., k => k == .v
  | .vldk .., k => k == .v
  | .vmovq .., k => k == .v
  | .vret .., k => k == .v
  | .vimm .., k => k == .v
  | .vimmHi .., k => k == .v
  | .pand .., k => k == .v
  | .por .., k => k == .v
  | .pxor .., k => k == .v
  | .pandn .., k => k == .v
  | .pnot .., k => k == .v
  | .pset .., k => k == .v
  | .pclr .., k => k == .v
  | .vsetsh .., k => k == .v
  | .vsetshReg .., k => k == .v
  | .vsig .., k => k == .v
  | .vwaitf .., k => k == .v
  | .vlbuf .., k => k == .v
  | .vnop .., k => k == .v
  | .end_ .., k => k != .s
  | .mwl .., k => k == .m
  | .mswap .., k => k == .m
  | .mscl .., k => k == .m
  | .mma .., k => k == .m
  | .mmas .., k => k == .m
  | .mzero .., k => k == .m
  | .mdrain .., k => k == .m
  | .mrep .., k => k == .m
  | .mseta .., k => k == .m
  | .msetaImm .., k => k == .m
  | .madda .., k => k == .m
  | .mnop .., k => k == .m
  | .acopy .., k => k == .h
  | .acopy2 .., k => k == .h
  | .agath .., k => k == .h
  | .ascat .., k => k == .h
  | .amcast .., k => k == .h
  | .amcastSet .., k => k == .h
  | .anote .., k => k == .h
  | .twait .., k => k == .h
  | .tpend .., k => k == .h
  | .haulgo .., k => k == .h
  | .qpost .., k => k == .h
  | .hadd .., k => k == .h
  | .haddQueue .., k => k == .h
  | .haddi .., k => k == .h
  | .hmovh .., k => k == .h
  | .hsend .., k => k == .h
  | .hsig .., k => k == .h
  | .hwaitf .., k => k == .h
  | .hlbuf .., k => k == .h
  | .abfmt .., k => k == .h
  | .hnop .., k => k == .h
  | .vResultLand .., _ => false
  | .mWordComplete .., _ => false
  | .requestEnqueue .., _ => false
  | .calendarSlotStart .., _ => false
  | .hbmReadLand .., _ => false
  | .hbmWritePerformed .., _ => false
  | .atomicResponse .., _ => false
  | .constFill .., _ => false
  | .copyBytesLand .., _ => false
  | .anoteWrite .., _ => false
  | .waitaTimeout .., _ => false
  | .handlerEntry .., _ => false
  | .engineFault .., _ => false
  | .preemptionRequest .., _ => false
  | .copyAbort .., _ => false
  | .granarySwap .., _ => false
  | .saveAreaMove .., _ => false
  | .strandResume .., _ => false
  | .strandStart .., _ => false
  | .scheduleDecision .., _ => false
  | .psliceExpiry .., _ => false
  | .vtUpdate .., _ => false
  | .haulRecordRead .., _ => false
  | .copy .., _ => false
  | .copy2d .., _ => false
  | .fill .., _ => false
  | .pack .., _ => false
  | .unpack .., _ => false
  | .reduce .., _ => false
  | .reduceArrival .., _ => false
  | .migrate .., _ => false
  | .stow .., _ => false
  | .note .., _ => false
  | .scoutPass .., _ => false
  | .tableWalk .., _ => false
  | .slabSend .., _ => false
  | .slabArrival .., _ => false
  | .gsum .., _ => false
  | .gsearch .., _ => false
  | .subquery .., _ => false
  | .gsearchMerge .., _ => false
  | .submit .., _ => false
  | .cancel .., _ => false
  | .verdict .., _ => false
  | .invalidate .., _ => false
  | .setPtroot .., _ => false
  | .setShare .., _ => false
  | .setPslice .., _ => false
  | .setSeedQueues .., _ => false
  | .setStagingPool .., _ => false
  | .setSaveArea .., _ => false
  | .setParkArea .., _ => false
  | .curve .., _ => false
  | .keyinst .., _ => false
  | .extend .., _ => false
  | .partitionCreate .., _ => false
  | .partitionDestroy .., _ => false
  | .fabricPackageNumber .., _ => false
  | .fabricRoute .., _ => false
  | .fabricImport .., _ => false
  | .nodeStaging .., _ => false
  | .launch .., _ => false
  | .launchEnd .., _ => false
  | .stagedCopyBack .., _ => false
  | .completionEvent .., _ => false
  | .commandEvent .., _ => false
  | .strandFaultEvent .., _ => false
  | .stallEvent .., _ => false
  | .pagefaultEvent .., _ => false
  | .noticeEvent .., _ => false
  | .hostRegisterWrite .., _ => false
  | .hostWindowRead .., _ => false
  | .hostWindowWrite .., _ => false
  | .atsInvalidation .., _ => false
  | .flr .., _ => false
  | .packageReset .., _ => false
  | .getVersion .., _ => false
  | .getCapabilities .., _ => false
  | .negotiateAlgorithms .., _ => false
  | .getDigests .., _ => false
  | .getCertificate .., _ => false
  | .challenge .., _ => false
  | .getMeasurements .., _ => false
  | .spdmUnsupportedRequest .., _ => false
  | .syndromeRead .., _ => false
  | .syndromeClear .., _ => false
  | .flitReceive .., _ => false
  | .linkTraining .., _ => false
  | .laneRetire .., _ => false
  | .peerAccess .., _ => false
  | .marketClear .., _ => false
  | .curveSlowEvent .., _ => false
  | .curveParkEvent .., _ => false
  | .curveShedEvent .., _ => false
  | .droopStretch .., _ => false
  | .guardBreach .., _ => false
  | .stallHoldEnd .., _ => false
  | .clusterGate .., _ => false
  | .dieGate .., _ => false
  | .diePowerUp .., _ => false
  | .hotMigration .., _ => false
  | .bankRetire .., _ => false
  | .siloScrub .., _ => false
  | .sramScrub .., _ => false
  | .eccWriteback .., _ => false
  | .heartbeatTimeout .., _ => false
  | .fatalDieError .., _ => false
  | .wordNotInstruction .., _ => false
  | .instructionFetch .., _ => false
  | .accessResponse .., _ => false
  | .preIssueRead .., _ => false
  | .constantPathDiscard .., _ => false
  | .clusterPowerUp .., _ => false
  | .badCommand .., _ => false

/-- The word of an instruction, from the encoding tables of R54 and R78 to R87; none for a step that is no word. -/
def Instr.encode : Instr → Option (BitVec 32)
  | .add r d a b => some (BitVec.ofBool r ++ 1#6 ++ d ++ a ++ b ++ 0#10)
  | .sub r d a b => some (BitVec.ofBool r ++ 1#6 ++ d ++ a ++ b ++ 1#10)
  | .mul r d a b => some (BitVec.ofBool r ++ 1#6 ++ d ++ a ++ b ++ 2#10)
  | .mulh r d a b => some (BitVec.ofBool r ++ 1#6 ++ d ++ a ++ b ++ 3#10)
  | .mulhu r d a b => some (BitVec.ofBool r ++ 1#6 ++ d ++ a ++ b ++ 4#10)
  | .div r d a b => some (BitVec.ofBool r ++ 1#6 ++ d ++ a ++ b ++ 5#10)
  | .divu r d a b => some (BitVec.ofBool r ++ 1#6 ++ d ++ a ++ b ++ 6#10)
  | .rem r d a b => some (BitVec.ofBool r ++ 1#6 ++ d ++ a ++ b ++ 7#10)
  | .remu r d a b => some (BitVec.ofBool r ++ 1#6 ++ d ++ a ++ b ++ 8#10)
  | .and_ r d a b => some (BitVec.ofBool r ++ 1#6 ++ d ++ a ++ b ++ 9#10)
  | .or_ r d a b => some (BitVec.ofBool r ++ 1#6 ++ d ++ a ++ b ++ 10#10)
  | .xor_ r d a b => some (BitVec.ofBool r ++ 1#6 ++ d ++ a ++ b ++ 11#10)
  | .andn r d a b => some (BitVec.ofBool r ++ 1#6 ++ d ++ a ++ b ++ 12#10)
  | .shl r d a b => some (BitVec.ofBool r ++ 1#6 ++ d ++ a ++ b ++ 13#10)
  | .shr r d a b => some (BitVec.ofBool r ++ 1#6 ++ d ++ a ++ b ++ 14#10)
  | .shra r d a b => some (BitVec.ofBool r ++ 1#6 ++ d ++ a ++ b ++ 15#10)
  | .ror r d a b => some (BitVec.ofBool r ++ 1#6 ++ d ++ a ++ b ++ 16#10)
  | .min_ r d a b => some (BitVec.ofBool r ++ 1#6 ++ d ++ a ++ b ++ 17#10)
  | .max_ r d a b => some (BitVec.ofBool r ++ 1#6 ++ d ++ a ++ b ++ 18#10)
  | .minu r d a b => some (BitVec.ofBool r ++ 1#6 ++ d ++ a ++ b ++ 19#10)
  | .maxu r d a b => some (BitVec.ofBool r ++ 1#6 ++ d ++ a ++ b ++ 20#10)
  | .slt r d a b => some (BitVec.ofBool r ++ 1#6 ++ d ++ a ++ b ++ 21#10)
  | .sltu r d a b => some (BitVec.ofBool r ++ 1#6 ++ d ++ a ++ b ++ 22#10)
  | .seq r d a b => some (BitVec.ofBool r ++ 1#6 ++ d ++ a ++ b ++ 23#10)
  | .sne r d a b => some (BitVec.ofBool r ++ 1#6 ++ d ++ a ++ b ++ 24#10)
  | .clz r d a => some (BitVec.ofBool r ++ 1#6 ++ d ++ a ++ 0#5 ++ 25#10)
  | .ctz r d a => some (BitVec.ofBool r ++ 1#6 ++ d ++ a ++ 0#5 ++ 26#10)
  | .popc r d a => some (BitVec.ofBool r ++ 1#6 ++ d ++ a ++ 0#5 ++ 27#10)
  | .sext r d a w => some (BitVec.ofBool r ++ 1#6 ++ d ++ a ++ w ++ 28#10)
  | .zext r d a w => some (BitVec.ofBool r ++ 1#6 ++ d ++ a ++ w ++ 29#10)
  | .cmov r d a b => some (BitVec.ofBool r ++ 1#6 ++ d ++ a ++ b ++ 30#10)
  | .addi r d a i => some (BitVec.ofBool r ++ 2#6 ++ d ++ a ++ i)
  | .andi r d a i => some (BitVec.ofBool r ++ 3#6 ++ d ++ a ++ i)
  | .ori r d a i => some (BitVec.ofBool r ++ 4#6 ++ d ++ a ++ i)
  | .xori r d a i => some (BitVec.ofBool r ++ 5#6 ++ d ++ a ++ i)
  | .shli r d a n => some (BitVec.ofBool r ++ 6#6 ++ d ++ a ++ 0#2 ++ 0#7 ++ n)
  | .shri r d a n => some (BitVec.ofBool r ++ 6#6 ++ d ++ a ++ 1#2 ++ 0#7 ++ n)
  | .shrai r d a n => some (BitVec.ofBool r ++ 6#6 ++ d ++ a ++ 2#2 ++ 0#7 ++ n)
  | .slti r d a i => some (BitVec.ofBool r ++ 7#6 ++ d ++ a ++ i)
  | .sltiu r d a i => some (BitVec.ofBool r ++ 8#6 ++ d ++ a ++ i)
  | .movh r d h z i => some (BitVec.ofBool r ++ 9#6 ++ d ++ h ++ z ++ 0#1 ++ i)
  | .muli r d a i => some (BitVec.ofBool r ++ 10#6 ++ d ++ a ++ i)
  | .beq r a b o => some (BitVec.ofBool r ++ 16#6 ++ a ++ b ++ o)
  | .bne r a b o => some (BitVec.ofBool r ++ 17#6 ++ a ++ b ++ o)
  | .blt r a b o => some (BitVec.ofBool r ++ 18#6 ++ a ++ b ++ o)
  | .bge r a b o => some (BitVec.ofBool r ++ 19#6 ++ a ++ b ++ o)
  | .bltu r a b o => some (BitVec.ofBool r ++ 20#6 ++ a ++ b ++ o)
  | .bgeu r a b o => some (BitVec.ofBool r ++ 21#6 ++ a ++ b ++ o)
  | .bpany r n o => some (BitVec.ofBool r ++ 22#6 ++ n ++ 0#6 ++ o)
  | .bpall r n o => some (BitVec.ofBool r ++ 23#6 ++ n ++ 0#6 ++ o)
  | .jmp r o => some (BitVec.ofBool r ++ 24#6 ++ o)
  | .call r o => some (BitVec.ofBool r ++ 25#6 ++ o)
  | .jr r d a i => some (BitVec.ofBool r ++ 26#6 ++ d ++ a ++ i)
  | .loop r a o => some (BitVec.ofBool r ++ 27#6 ++ a ++ 0#5 ++ o)
  | .lbuf r a l => some (BitVec.ofBool r ++ 28#6 ++ a ++ l ++ 0#14)
  | .ld r d a s p o => some (BitVec.ofBool r ++ 32#6 ++ d ++ a ++ s ++ p ++ o)
  | .ldu r d a s p o => some (BitVec.ofBool r ++ 33#6 ++ d ++ a ++ s ++ p ++ o)
  | .st r s a z p o => some (BitVec.ofBool r ++ 34#6 ++ s ++ a ++ z ++ p ++ o)
  | .ldk r d a s o => some (BitVec.ofBool r ++ 35#6 ++ d ++ a ++ s ++ 0#3 ++ o)
  | .amoadd r d a b q l c z p => some (BitVec.ofBool r ++ 36#6 ++ d ++ a ++ b ++ 0#4 ++ q ++ l ++ c ++ z ++ p)
  | .amoand r d a b q l c z p => some (BitVec.ofBool r ++ 36#6 ++ d ++ a ++ b ++ 1#4 ++ q ++ l ++ c ++ z ++ p)
  | .amoor r d a b q l c z p => some (BitVec.ofBool r ++ 36#6 ++ d ++ a ++ b ++ 2#4 ++ q ++ l ++ c ++ z ++ p)
  | .amoxor r d a b q l c z p => some (BitVec.ofBool r ++ 36#6 ++ d ++ a ++ b ++ 3#4 ++ q ++ l ++ c ++ z ++ p)
  | .amomin r d a b q l c z p => some (BitVec.ofBool r ++ 36#6 ++ d ++ a ++ b ++ 4#4 ++ q ++ l ++ c ++ z ++ p)
  | .amomax r d a b q l c z p => some (BitVec.ofBool r ++ 36#6 ++ d ++ a ++ b ++ 5#4 ++ q ++ l ++ c ++ z ++ p)
  | .amominu r d a b q l c z p => some (BitVec.ofBool r ++ 36#6 ++ d ++ a ++ b ++ 6#4 ++ q ++ l ++ c ++ z ++ p)
  | .amomaxu r d a b q l c z p => some (BitVec.ofBool r ++ 36#6 ++ d ++ a ++ b ++ 7#4 ++ q ++ l ++ c ++ z ++ p)
  | .amoswap r d a b q l c z p => some (BitVec.ofBool r ++ 36#6 ++ d ++ a ++ b ++ 8#4 ++ q ++ l ++ c ++ z ++ p)
  | .cas r d a b q l c z p => some (BitVec.ofBool r ++ 37#6 ++ d ++ a ++ b ++ 0#4 ++ q ++ l ++ c ++ z ++ p)
  | .fence r c => some (BitVec.ofBool r ++ 38#6 ++ 0#14 ++ c ++ 0#9)
  | .fencex r b a c => some (BitVec.ofBool r ++ 39#6 ++ b ++ a ++ c ++ 0#9)
  | .fencek r => some (BitVec.ofBool r ++ 40#6 ++ 0#25)
  | .watch r a => some (BitVec.ofBool r ++ 41#6 ++ 0#5 ++ a ++ 0#15)
  | .waita r d a => some (BitVec.ofBool r ++ 42#6 ++ d ++ a ++ 0#15)
  | .sig r f => some (BitVec.ofBool r ++ 48#6 ++ f ++ 0#21)
  | .waitf r f n => some (BitVec.ofBool r ++ 49#6 ++ f ++ n ++ 0#13)
  | .send r a b q => some (BitVec.ofBool r ++ 50#6 ++ 0#5 ++ a ++ b ++ 0#8 ++ q)
  | .recv r d => some (BitVec.ofBool r ++ 51#6 ++ d ++ 0#20)
  | .csrr r d c => some (BitVec.ofBool r ++ 52#6 ++ d ++ 0#10 ++ c)
  | .csrw r a c => some (BitVec.ofBool r ++ 53#6 ++ 0#5 ++ a ++ 0#5 ++ c)
  | .sow r a p => some (BitVec.ofBool r ++ 54#6 ++ 0#5 ++ a ++ 0#12 ++ p)
  | .join r a => some (BitVec.ofBool r ++ 55#6 ++ 0#5 ++ a ++ 0#15)
  | .done_ r => some (BitVec.ofBool r ++ 56#6 ++ 0#25)
  | .yield r => some (BitVec.ofBool r ++ 57#6 ++ 0#25)
  | .trap r i => some (BitVec.ofBool r ++ 58#6 ++ 0#15 ++ i)
  | .tret r => some (BitVec.ofBool r ++ 59#6 ++ 0#25)
  | .locq r d a m => some (BitVec.ofBool r ++ 60#6 ++ d ++ a ++ 0#14 ++ m)
  | .mts r a t => some (BitVec.ofBool r ++ 61#6 ++ 0#5 ++ a ++ 0#13 ++ t)
  | .nop r => some (BitVec.ofBool r ++ 62#6 ++ 0#25)
  | .vadd r d a b p => some (BitVec.ofBool r ++ 1#6 ++ d ++ a ++ b ++ p ++ 0#9)
  | .vsub r d a b p => some (BitVec.ofBool r ++ 1#6 ++ d ++ a ++ b ++ p ++ 1#9)
  | .vmul r d a b p => some (BitVec.ofBool r ++ 1#6 ++ d ++ a ++ b ++ p ++ 2#9)
  | .vfma r d a b p => some (BitVec.ofBool r ++ 1#6 ++ d ++ a ++ b ++ p ++ 3#9)
  | .vfms r d a b p => some (BitVec.ofBool r ++ 1#6 ++ d ++ a ++ b ++ p ++ 4#9)
  | .vmin r d a b p => some (BitVec.ofBool r ++ 1#6 ++ d ++ a ++ b ++ p ++ 5#9)
  | .vmax r d a b p => some (BitVec.ofBool r ++ 1#6 ++ d ++ a ++ b ++ p ++ 6#9)
  | .vabs r d a p => some (BitVec.ofBool r ++ 1#6 ++ d ++ a ++ 0#4 ++ p ++ 7#9)
  | .vneg r d a p => some (BitVec.ofBool r ++ 1#6 ++ d ++ a ++ 0#4 ++ p ++ 8#9)
  | .viadd r d a b p => some (BitVec.ofBool r ++ 2#6 ++ d ++ a ++ b ++ p ++ 0#9)
  | .visub r d a b p => some (BitVec.ofBool r ++ 2#6 ++ d ++ a ++ b ++ p ++ 1#9)
  | .vimul r d a b p => some (BitVec.ofBool r ++ 2#6 ++ d ++ a ++ b ++ p ++ 2#9)
  | .vimulh r d a b p => some (BitVec.ofBool r ++ 2#6 ++ d ++ a ++ b ++ p ++ 3#9)
  | .vand r d a b p => some (BitVec.ofBool r ++ 2#6 ++ d ++ a ++ b ++ p ++ 4#9)
  | .vor r d a b p => some (BitVec.ofBool r ++ 2#6 ++ d ++ a ++ b ++ p ++ 5#9)
  | .vxor r d a b p => some (BitVec.ofBool r ++ 2#6 ++ d ++ a ++ b ++ p ++ 6#9)
  | .vandn r d a b p => some (BitVec.ofBool r ++ 2#6 ++ d ++ a ++ b ++ p ++ 7#9)
  | .vshl r d a b p => some (BitVec.ofBool r ++ 2#6 ++ d ++ a ++ b ++ p ++ 8#9)
  | .vshr r d a b p => some (BitVec.ofBool r ++ 2#6 ++ d ++ a ++ b ++ p ++ 9#9)
  | .vshra r d a b p => some (BitVec.ofBool r ++ 2#6 ++ d ++ a ++ b ++ p ++ 10#9)
  | .vimin r d a b p => some (BitVec.ofBool r ++ 2#6 ++ d ++ a ++ b ++ p ++ 11#9)
  | .vimax r d a b p => some (BitVec.ofBool r ++ 2#6 ++ d ++ a ++ b ++ p ++ 12#9)
  | .viminu r d a b p => some (BitVec.ofBool r ++ 2#6 ++ d ++ a ++ b ++ p ++ 13#9)
  | .vimaxu r d a b p => some (BitVec.ofBool r ++ 2#6 ++ d ++ a ++ b ++ p ++ 14#9)
  | .viadds r d a b p => some (BitVec.ofBool r ++ 2#6 ++ d ++ a ++ b ++ p ++ 15#9)
  | .visubs r d a b p => some (BitVec.ofBool r ++ 2#6 ++ d ++ a ++ b ++ p ++ 16#9)
  | .vcmp r d a b p c => some (BitVec.ofBool r ++ 3#6 ++ d ++ a ++ b ++ p ++ 0#5 ++ c)
  | .vsel r d a b s => some (BitVec.ofBool r ++ 4#6 ++ d ++ a ++ b ++ s ++ 0#9)
  | .vexp2 r d a p => some (BitVec.ofBool r ++ 5#6 ++ d ++ a ++ 0#4 ++ p ++ 0#9)
  | .vlog2 r d a p => some (BitVec.ofBool r ++ 5#6 ++ d ++ a ++ 0#4 ++ p ++ 1#9)
  | .vrcp r d a p => some (BitVec.ofBool r ++ 5#6 ++ d ++ a ++ 0#4 ++ p ++ 2#9)
  | .vrsq r d a p => some (BitVec.ofBool r ++ 5#6 ++ d ++ a ++ 0#4 ++ p ++ 3#9)
  | .vsqrt r d a p => some (BitVec.ofBool r ++ 5#6 ++ d ++ a ++ 0#4 ++ p ++ 4#9)
  | .vsin r d a p => some (BitVec.ofBool r ++ 5#6 ++ d ++ a ++ 0#4 ++ p ++ 5#9)
  | .vcos r d a p => some (BitVec.ofBool r ++ 5#6 ++ d ++ a ++ 0#4 ++ p ++ 6#9)
  | .vtanh r d a p => some (BitVec.ofBool r ++ 5#6 ++ d ++ a ++ 0#4 ++ p ++ 7#9)
  | .vsigm r d a p => some (BitVec.ofBool r ++ 5#6 ++ d ++ a ++ 0#4 ++ p ++ 8#9)
  | .vcvt r d a t p f m s => some (BitVec.ofBool r ++ 6#6 ++ d ++ a ++ t ++ p ++ f ++ m ++ s ++ 0#2)
  | .vqmx r d a s p f => some (BitVec.ofBool r ++ 7#6 ++ d ++ a ++ s ++ p ++ f ++ 0#5)
  | .vdqmx r d a s p f m x => some (BitVec.ofBool r ++ 8#6 ++ d ++ a ++ s ++ p ++ f ++ m ++ x ++ 0#2)
  | .vrotr r d a p n => some (BitVec.ofBool r ++ 9#6 ++ d ++ a ++ 0#4 ++ p ++ 0#3 ++ n)
  | .vrotc r d a p n => some (BitVec.ofBool r ++ 10#6 ++ d ++ a ++ 0#4 ++ p ++ 0#5 ++ n)
  | .vbcr r d a p n => some (BitVec.ofBool r ++ 11#6 ++ d ++ a ++ 0#4 ++ p ++ 0#3 ++ n)
  | .vbcc r d a p n => some (BitVec.ofBool r ++ 12#6 ++ d ++ a ++ 0#4 ++ p ++ 0#5 ++ n)
  | .vredr r d a p o => some (BitVec.ofBool r ++ 13#6 ++ d ++ a ++ 0#4 ++ p ++ o ++ 0#6)
  | .vredc r d a p o => some (BitVec.ofBool r ++ 14#6 ++ d ++ a ++ 0#4 ++ p ++ o ++ 0#6)
  | .vscanr r d a p o => some (BitVec.ofBool r ++ 15#6 ++ d ++ a ++ 0#4 ++ p ++ o ++ 0#6)
  | .vscanc r d a p o => some (BitVec.ofBool r ++ 16#6 ++ d ++ a ++ 0#4 ++ p ++ o ++ 0#6)
  | .vtrn r d a p => some (BitVec.ofBool r ++ 17#6 ++ d ++ a ++ 0#4 ++ p ++ 0#9)
  | .vld r v a s p o => some (BitVec.ofBool r ++ 18#6 ++ v ++ a ++ s ++ p ++ o)
  | .vst r v a s p o => some (BitVec.ofBool r ++ 19#6 ++ v ++ a ++ s ++ p ++ o)
  | .vldk r v a p o => some (BitVec.ofBool r ++ 20#6 ++ v ++ a ++ 0#3 ++ p ++ o)
  | .vmovq r v p => some (BitVec.ofBool r ++ 21#6 ++ v ++ 0#8 ++ p ++ 0#9)
  | .vret r a w c => some (BitVec.ofBool r ++ 22#6 ++ a ++ w ++ 0#8 ++ c ++ 0#3)
  | .vimm r d h p l => some (BitVec.ofBool r ++ 23#6 ++ d ++ h ++ p ++ l ++ 0#1)
  | .vimmHi r d h p l => some (BitVec.ofBool r ++ 23#6 ++ d ++ h ++ p ++ l ++ 1#1)
  | .pand r d a b => some (BitVec.ofBool r ++ 24#6 ++ d ++ a ++ b ++ 0#10 ++ 0#3)
  | .por r d a b => some (BitVec.ofBool r ++ 24#6 ++ d ++ a ++ b ++ 0#10 ++ 1#3)
  | .pxor r d a b => some (BitVec.ofBool r ++ 24#6 ++ d ++ a ++ b ++ 0#10 ++ 2#3)
  | .pandn r d a b => some (BitVec.ofBool r ++ 24#6 ++ d ++ a ++ b ++ 0#10 ++ 3#3)
  | .pnot r d a => some (BitVec.ofBool r ++ 24#6 ++ d ++ a ++ 0#14 ++ 4#3)
  | .pset r d => some (BitVec.ofBool r ++ 24#6 ++ d ++ 0#18 ++ 5#3)
  | .pclr r d => some (BitVec.ofBool r ++ 24#6 ++ d ++ 0#18 ++ 6#3)
  | .vsetsh r v => some (BitVec.ofBool r ++ 26#6 ++ 0#12 ++ v)
  | .vsetshReg r a => some (BitVec.ofBool r ++ 26#6 ++ a ++ 0#20)
  | .vsig r f => some (BitVec.ofBool r ++ 27#6 ++ f ++ 0#21)
  | .vwaitf r f n => some (BitVec.ofBool r ++ 28#6 ++ f ++ n ++ 0#13)
  | .vlbuf r a l => some (BitVec.ofBool r ++ 29#6 ++ a ++ l ++ 0#14)
  | .vnop r => some (BitVec.ofBool r ++ 30#6 ++ 0#25)
  | .end_ r => some (BitVec.ofBool r ++ 63#6 ++ 0#25)
  | .mwl r w s m p => some (BitVec.ofBool r ++ 1#6 ++ w ++ s ++ m ++ p ++ 0#13)
  | .mswap r w s => some (BitVec.ofBool r ++ 2#6 ++ w ++ s ++ 0#17)
  | .mscl r w s m => some (BitVec.ofBool r ++ 3#6 ++ w ++ s ++ m ++ 0#14)
  | .mma r w s a t c => some (BitVec.ofBool r ++ 4#6 ++ w ++ s ++ a ++ t ++ c ++ 0#9)
  | .mmas r w s a t c => some (BitVec.ofBool r ++ 5#6 ++ w ++ s ++ a ++ t ++ c ++ 0#9)
  | .mzero r w s t c => some (BitVec.ofBool r ++ 6#6 ++ w ++ s ++ 0#3 ++ t ++ c ++ 0#9)
  | .mdrain r w s a t c f => some (BitVec.ofBool r ++ 7#6 ++ w ++ s ++ a ++ t ++ c ++ f ++ 0#5)
  | .mrep r k n => some (BitVec.ofBool r ++ 8#6 ++ 0#8 ++ k ++ n)
  | .mseta r w s m => some (BitVec.ofBool r ++ 9#6 ++ w ++ s ++ m ++ 0#1 ++ 0#13)
  | .msetaImm r w s m i => some (BitVec.ofBool r ++ 9#6 ++ w ++ s ++ m ++ 1#1 ++ i)
  | .madda r w s m i => some (BitVec.ofBool r ++ 10#6 ++ w ++ s ++ m ++ i)
  | .mnop r w s => some (BitVec.ofBool r ++ 11#6 ++ w ++ s ++ 0#17)
  | .acopy r d a b k e s => some (BitVec.ofBool r ++ 1#6 ++ d ++ a ++ b ++ k ++ e ++ s ++ 0#1)
  | .acopy2 r d a b k e s => some (BitVec.ofBool r ++ 2#6 ++ d ++ a ++ b ++ k ++ e ++ s ++ 0#1)
  | .agath r d a b k e s => some (BitVec.ofBool r ++ 3#6 ++ d ++ a ++ b ++ k ++ e ++ s ++ 0#1)
  | .ascat r d a b k e s => some (BitVec.ofBool r ++ 4#6 ++ d ++ a ++ b ++ k ++ e ++ s ++ 0#1)
  | .amcast r d a b k e s => some (BitVec.ofBool r ++ 5#6 ++ d ++ a ++ b ++ k ++ e ++ s ++ 0#1)
  | .amcastSet r d a b k e s => some (BitVec.ofBool r ++ 5#6 ++ d ++ a ++ b ++ k ++ e ++ s ++ 0#1)
  | .anote r a b k => some (BitVec.ofBool r ++ 6#6 ++ 0#5 ++ a ++ b ++ k ++ 0#7)
  | .twait r k => some (BitVec.ofBool r ++ 7#6 ++ k ++ 0#17)
  | .tpend r d k => some (BitVec.ofBool r ++ 8#6 ++ d ++ 0#10 ++ k ++ 0#7)
  | .haulgo r a b => some (BitVec.ofBool r ++ 9#6 ++ 0#5 ++ a ++ b ++ 0#10)
  | .qpost r a b => some (BitVec.ofBool r ++ 10#6 ++ 0#5 ++ a ++ b ++ 0#10)
  | .hadd r d a b => some (BitVec.ofBool r ++ 11#6 ++ d ++ a ++ b ++ 0#1 ++ 0#9)
  | .haddQueue r d a h p => some (BitVec.ofBool r ++ 11#6 ++ d ++ a ++ 0#5 ++ 1#1 ++ h ++ p ++ 0#7)
  | .haddi r d a i => some (BitVec.ofBool r ++ 12#6 ++ d ++ a ++ i)
  | .hmovh r d h z i => some (BitVec.ofBool r ++ 13#6 ++ d ++ h ++ z ++ 0#1 ++ i)
  | .hsend r q a b => some (BitVec.ofBool r ++ 14#6 ++ q ++ 0#3 ++ a ++ b ++ 0#10)
  | .hsig r f => some (BitVec.ofBool r ++ 15#6 ++ f ++ 0#21)
  | .hwaitf r f n => some (BitVec.ofBool r ++ 16#6 ++ f ++ n ++ 0#13)
  | .hlbuf r a l => some (BitVec.ofBool r ++ 17#6 ++ a ++ l ++ 0#14)
  | .abfmt r a u k => some (BitVec.ofBool r ++ 18#6 ++ a ++ u ++ k ++ 0#14)
  | .hnop r => some (BitVec.ofBool r ++ 19#6 ++ 0#25)
  | .vResultLand .. => none
  | .mWordComplete .. => none
  | .requestEnqueue .. => none
  | .calendarSlotStart .. => none
  | .hbmReadLand .. => none
  | .hbmWritePerformed .. => none
  | .atomicResponse .. => none
  | .constFill .. => none
  | .copyBytesLand .. => none
  | .anoteWrite .. => none
  | .waitaTimeout .. => none
  | .handlerEntry .. => none
  | .engineFault .. => none
  | .preemptionRequest .. => none
  | .copyAbort .. => none
  | .granarySwap .. => none
  | .saveAreaMove .. => none
  | .strandResume .. => none
  | .strandStart .. => none
  | .scheduleDecision .. => none
  | .psliceExpiry .. => none
  | .vtUpdate .. => none
  | .haulRecordRead .. => none
  | .copy .. => none
  | .copy2d .. => none
  | .fill .. => none
  | .pack .. => none
  | .unpack .. => none
  | .reduce .. => none
  | .reduceArrival .. => none
  | .migrate .. => none
  | .stow .. => none
  | .note .. => none
  | .scoutPass .. => none
  | .tableWalk .. => none
  | .slabSend .. => none
  | .slabArrival .. => none
  | .gsum .. => none
  | .gsearch .. => none
  | .subquery .. => none
  | .gsearchMerge .. => none
  | .submit .. => none
  | .cancel .. => none
  | .verdict .. => none
  | .invalidate .. => none
  | .setPtroot .. => none
  | .setShare .. => none
  | .setPslice .. => none
  | .setSeedQueues .. => none
  | .setStagingPool .. => none
  | .setSaveArea .. => none
  | .setParkArea .. => none
  | .curve .. => none
  | .keyinst .. => none
  | .extend .. => none
  | .partitionCreate .. => none
  | .partitionDestroy .. => none
  | .fabricPackageNumber .. => none
  | .fabricRoute .. => none
  | .fabricImport .. => none
  | .nodeStaging .. => none
  | .launch .. => none
  | .launchEnd .. => none
  | .stagedCopyBack .. => none
  | .completionEvent .. => none
  | .commandEvent .. => none
  | .strandFaultEvent .. => none
  | .stallEvent .. => none
  | .pagefaultEvent .. => none
  | .noticeEvent .. => none
  | .hostRegisterWrite .. => none
  | .hostWindowRead .. => none
  | .hostWindowWrite .. => none
  | .atsInvalidation .. => none
  | .flr .. => none
  | .packageReset .. => none
  | .getVersion .. => none
  | .getCapabilities .. => none
  | .negotiateAlgorithms .. => none
  | .getDigests .. => none
  | .getCertificate .. => none
  | .challenge .. => none
  | .getMeasurements .. => none
  | .spdmUnsupportedRequest .. => none
  | .syndromeRead .. => none
  | .syndromeClear .. => none
  | .flitReceive .. => none
  | .linkTraining .. => none
  | .laneRetire .. => none
  | .peerAccess .. => none
  | .marketClear .. => none
  | .curveSlowEvent .. => none
  | .curveParkEvent .. => none
  | .curveShedEvent .. => none
  | .droopStretch .. => none
  | .guardBreach .. => none
  | .stallHoldEnd .. => none
  | .clusterGate .. => none
  | .dieGate .. => none
  | .diePowerUp .. => none
  | .hotMigration .. => none
  | .bankRetire .. => none
  | .siloScrub .. => none
  | .sramScrub .. => none
  | .eccWriteback .. => none
  | .heartbeatTimeout .. => none
  | .fatalDieError .. => none
  | .wordNotInstruction .. => none
  | .instructionFetch .. => none
  | .accessResponse .. => none
  | .preIssueRead .. => none
  | .constantPathDiscard .. => none
  | .clusterPowerUp .. => none
  | .badCommand .. => none

/-- The instruction that the decoder reads from the word of one: AMCAST and AMCAST_SET share their word (R204, R205), and
decoding, which sees no register, reads it as AMCAST. -/
def Instr.asDecoded : Instr → Instr
  | .amcastSet r d a b k e s => .amcast r d a b k e s
  | i => i

/-- The instruction that the decoder reads from a 32-bit word that names no slot: the first slot in the order S, V, M, H whose
map holds the word. (The four slots share the word space, R50; the opcode table gives a row's bits but no slot.) -/
def decodeAny (w : BitVec 32) : Option (Slot × Instr) :=
  match decodeWord .s w with
  | .ok i => some (.s, i)
  | .error _ =>
    match decodeWord .v w with
    | .ok i => some (.v, i)
    | .error _ =>
      match decodeWord .m w with
      | .ok i => some (.m, i)
      | .error _ =>
        match decodeWord .h w with
        | .ok i => some (.h, i)
        | .error _ => none

/-- A word numbered as the opcode table numbers it; a row is one 32-bit word, so the first 32 bits are laid out little-endian
(R7) as the word that the slot fetches. -/
def decodeTableWord (_nbits w : Nat) : Option Instr :=
  (decodeAny (BitVec.ofNat 32 w)).map Prod.snd

end Sys2Proof
end

