-- ==== Sys2Proof/Config.lean ====
section
/-! DEFINITION. Config: what the spec leaves to the implementation or leaves open, as constants without a body, so that no
proof can rest on a value of them. -/

namespace Sys2Proof

/-- The container that a V or M read of a destination still inside another word's latency window returns (R77): undefined. The
argument is the machine's counter of such reads and the position read. -/
opaque Config.freeWord : Nat → Nat → BitVec 32

/-- The predicate or poison bit that such a read returns (R77). -/
opaque Config.freeBit : Nat → Nat → Bool

/-- A byte of a 16-byte block as its line decrypts under another key than the one it was written with (R355): the ciphertexts
are not in the spec. Arguments: the keys of the block's bytes, the reading key, the block's address, the byte's position, the
bytes written. -/
opaque Config.xtsCross : List Nat → Nat → Nat → Nat → List (BitVec 8) → BitVec 8

/-- A byte that its 16-byte block's last store left, read under the key of that store (R355). Arguments: its key as `staleKey` writes it,
its address, the byte that stood there. -/
opaque Config.xtsStale : Nat → Nat → BitVec 8 → BitVec 8

/- The part. -/

/-- A die's firmware measurement (R351), dies in release order: Torka die, I/O dies 0 and 1, compute dies 0 to 7. -/
opaque Config.firmware : Nat → BitVec 256

/-- A die's configuration measurement (R351, R406), which covers its repair map: its SYNREPAIR and its sparing registers, PPRPEND and PPRLEFT of its
silo devices, the rows and columns of SRAM that have been repaired. -/
opaque Config.configuration : Nat → BitVec 64 → List (BitVec 32) → List (BitVec 16) → List Nat → BitVec 256

/-- The fused root and device keys of the key store (R354), each as X and Y: 0 the root, 1 the device identity. -/
opaque Config.fusedKey : Nat → Nat × Nat

/-- The certificate chain of SPDM slot 0 (R356). -/
opaque Config.certChain : List (BitVec 8)

/-- A signature of the device identity key (R356) over a digest: r and s. -/
opaque Config.sign : BitVec 256 → Nat × Nat

/-- Has the fallow bank of a pseudo-channel been taken into use before the part is delivered (R376, from the repair map). -/
opaque Config.fallowUsed : Nat → Nat → Bool

/-- The fallow bank of a pseudo-channel of a stack as the repair map names it (R376). -/
opaque Config.fallowBank : Nat → Nat → BitVec 6

/-- A die's repair fields as its non-volatile storage holds them at power-on (R401, R402). -/
opaque Config.repairFields : Nat → BitVec 64

/-- Repairs that a silo device offers at power-on (R398). -/
opaque Config.pprLeft : Nat → BitVec 8

/-- The characterisation table of R304: a cluster's idle and busy draw in watts at a voltage class and a frequency in MHz. -/
opaque Config.idleDraw : Nat → Nat → Nat
opaque Config.busyDraw : Nat → Nat → Nat

/-- The frequency in MHz that an elastic cluster takes for a grant (R306), before its bounds are applied. Arguments: the grant, the
voltage class, the point's frequency, the core-cycles that issued and all of them. -/
opaque Config.grantFreq : Nat → Nat → Nat → Nat → Nat → Nat

/-- R319: the measured energy in 2^-20 J that a held cluster drew in a round, chaff on it among it. Arguments: cluster, round. -/
opaque Config.clusterEnergy : Nat → Nat → Nat

/-- R318: the energy in 2^-20 J of the chaff on a cluster that no launch held, in a round. Arguments: cluster, round. -/
opaque Config.chaffEnergy : Nat → Nat → Nat

/-- SRAMFULL of a die after the SRAM repairs that are pending at its release (R401, R406). Arguments: die, SRAMFULL, SRAMPEND. -/
opaque Config.sramFull : Nat → BitVec 8 → BitVec 8 → BitVec 8

/-- The 240 bytes of a flit that carries the answer to a peer's access (R365, R368); their layout is not in the spec. Arguments: 0 data,
1 done, 2 gated; the bytes; whether they are poisoned. -/
opaque Config.payload : Nat → List (BitVec 8) → Bool → List (BitVec 8)

/-- Does a peer package refuse an access (R368): its import entries and page tables are its own. Arguments: package, address there, tick. -/
opaque Config.peerRefuses : Nat → Nat → Nat → Bool

/-- How many events a device holds for a partition whose event ring has no free slot, before a completion waits (R362). -/
opaque Config.eventHold : Nat → Nat

/-- What an access puts on a channel's data bus (R373): its beats, their transitions under the code in use, and the estimate of those under the
other code. Arguments: stack, channel, tick. -/
opaque Config.busActivity : Nat → Nat → Nat → Nat × Nat × Nat

/-- The column of an SRAM in which an error stands whose row is known (R405). Arguments: the row, the counter of free values. -/
opaque Config.sramColumn : Nat → Nat → Nat

/-- Is the parity of a row counter wrong (R374). Arguments: stack, row, tick. -/
opaque Config.rowParityBad : Nat → Nat → Nat → Bool

end Sys2Proof
end

