-- ==== Sys2Proof/Machine/Crypto.lean ====
section
/-! DEFINITION. The standard functions that the spec names and does not define: SHA-256 (R271, R274, R353), ECDSA on P-256
(R271, R307, R354) and CRC-64 with the parameters of R365. PRESUMED: the two standards are those of FIPS 180-4 and FIPS 186. -/

namespace Sys2Proof.Machine

open Sys2Proof

/- SHA-256. -/

/-- The eight 32-bit words of a 256-bit number, the most significant first. -/
def octet (v : Nat) : List W32 := (List.range 8).map fun i => BitVec.ofNat 32 (v / 2 ^ (224 - 32 * i))

/-- The round constants: of each of the first 64 primes, the first 32 bits of the fraction of its cube root; eight to a number. -/
def shaK : List W32 := [
  0x428a2f9871374491b5c0fbcfe9b5dba53956c25b59f111f1923f82a4ab1c5ed5,
  0xd807aa9812835b01243185be550c7dc372be5d7480deb1fe9bdc06a7c19bf174,
  0xe49b69c1efbe47860fc19dc6240ca1cc2de92c6f4a7484aa5cb0a9dc76f988da,
  0x983e5152a831c66db00327c8bf597fc7c6e00bf3d5a7914706ca635114292967].flatMap octet ++ [
  0x27b70a852e1b21384d2c6dfc53380d13650a7354766a0abb81c2c92e92722c85,
  0xa2bfe8a1a81a664bc24b8b70c76c51a3d192e819d6990624f40e3585106aa070,
  0x19a4c1161e376c082748774c34b0bcb5391c0cb34ed8aa4a5b9cca4f682e6ff3,
  0x748f82ee78a5636f84c878148cc7020890befffaa4506cebbef9a3f7c67178f2].flatMap octet

structure ShaState where
  a : W32
  b : W32
  c : W32
  d : W32
  e : W32
  f : W32
  g : W32
  h : W32
deriving DecidableEq, Repr, Inhabited

def shaInit : ShaState :=
  ⟨0x6a09e667, 0xbb67ae85, 0x3c6ef372, 0xa54ff53a, 0x510e527f, 0x9b05688c, 0x1f83d9ab, 0x5be0cd19⟩

/-- The message schedule, newest word first. -/
def shaExtend : Nat → List W32 → List W32
  | 0, ws => ws
  | n + 1, ws =>
    let w (i : Nat) : W32 := ws.getD (i - 1) 0
    let s0 := (w 15).rotateRight 7 ^^^ (w 15).rotateRight 18 ^^^ ((w 15) >>> 3)
    let s1 := (w 2).rotateRight 17 ^^^ (w 2).rotateRight 19 ^^^ ((w 2) >>> 10)
    shaExtend n ((w 16 + s0 + w 7 + s1) :: ws)

def shaRound (s : ShaState) (kw : W32 × W32) : ShaState :=
  let s1 := s.e.rotateRight 6 ^^^ s.e.rotateRight 11 ^^^ s.e.rotateRight 25
  let ch := (s.e &&& s.f) ^^^ (~~~s.e &&& s.g)
  let t1 := s.h + s1 + ch + kw.1 + kw.2
  let s0 := s.a.rotateRight 2 ^^^ s.a.rotateRight 13 ^^^ s.a.rotateRight 22
  let maj := (s.a &&& s.b) ^^^ (s.a &&& s.c) ^^^ (s.b &&& s.c)
  ⟨t1 + s0 + maj, s.a, s.b, s.c, s.d + t1, s.e, s.f, s.g⟩

/-- Big-endian value of bytes. -/
def beNat (bs : List Byte) : Nat := bs.foldl (fun v b => 256 * v + b.toNat) 0

/-- The `n` bytes of a value, most significant first. -/
def beBytes : Nat → Nat → List Byte
  | 0, _ => []
  | n + 1, v => beBytes n (v / 256) ++ [BitVec.ofNat 8 v]

def shaBlock (s : ShaState) (bs : List Byte) : ShaState :=
  let ws := (List.range 16).map fun i => BitVec.ofNat 32 (beNat ((bs.drop (4 * i)).take 4))
  let sched := (shaExtend 48 ws.reverse).reverse
  let r := (shaK.zip sched).foldl shaRound s
  ⟨s.a + r.a, s.b + r.b, s.c + r.c, s.d + r.d, s.e + r.e, s.f + r.f, s.g + r.g, s.h + r.h⟩

def shaBlocks : Nat → ShaState → List Byte → ShaState
  | 0, s, _ => s
  | n + 1, s, bs => shaBlocks n (shaBlock s (bs.take 64)) (bs.drop 64)

/-- SHA-256 of a byte string; the digest's first byte is the most significant. -/
def sha256 (bs : List Byte) : BitVec 256 :=
  let z := (119 - bs.length % 64) % 64
  let msg := bs ++ [0x80#8] ++ List.replicate z 0 ++ beBytes 8 (8 * bs.length)
  let s := shaBlocks (msg.length / 64) shaInit msg
  s.a ++ s.b ++ s.c ++ s.d ++ s.e ++ s.f ++ s.g ++ s.h

/-- A digest as bytes, in the order in which the digest produces them. -/
def digestBytes (d : BitVec 256) : List Byte := beBytes 32 d.toNat

/-- R274, R353: a slot extended by a digest. -/
def extendMeas (m d : BitVec 256) : BitVec 256 := sha256 (digestBytes m ++ digestBytes d)

/- ECDSA on P-256. -/

def p256P : Nat := 0xffffffff00000001000000000000000000000000ffffffffffffffffffffffff
def p256N : Nat := 0xffffffff00000000ffffffffffffffffbce6faada7179e84f3b9cac2fc632551
def p256B : Nat := 0x5ac635d8aa3a93e7b3ebbd55769886bc651d06b0cc53b0f63bce3c3e27d2604b
def p256G : Nat × Nat :=
  (0x6b17d1f2e12c4247f8bce6e563a440f277037d812deb33a0f4a13945d898c296,
   0x4fe342e2fe1a7f9b8ee7eb4a7c0f9e162bce33576b315ececbb6406837bf51f5)

/-- `b ^ e` modulo `m`, for an exponent below 2 to the number of bits. -/
def powMod (m b e : Nat) : Nat → Nat
  | 0 => 1 % m
  | bits + 1 =>
    let h := powMod m b e bits
    let i := 256 - (bits + 1)
    let sq := h * h % m
    if e.testBit i then sq * b % m else sq

/-- The inverse modulo a prime. -/
def invMod (m a : Nat) : Nat := powMod m (a % m) (m - 2) 256

/-- A point of the curve; `none` is the point at infinity. -/
abbrev Point := Option (Nat × Nat)

def subMod (m a b : Nat) : Nat := (a + (m - b % m)) % m

def Point.add : Point → Point → Point
  | none, q => q
  | p, none => p
  | some (x1, y1), some (x2, y2) =>
    let m := p256P
    if x1 = x2 && (y1 + y2) % m = 0 then none
    else
      let k := if x1 = x2 then (3 * x1 * x1 + (m - 3)) * invMod m (2 * y1) % m
               else subMod m y2 y1 * invMod m (subMod m x2 x1) % m
      let x3 := subMod m (subMod m (k * k) x1) x2
      some (x3, subMod m (k * subMod m x1 x3) y1)

/-- A multiple of a point, by the low `bits` bits of `k`. -/
def Point.mul (k : Nat) (p : Point) : Nat → Point
  | 0 => none
  | bits + 1 =>
    let h := Point.mul k p bits
    let d := h.add h
    if k.testBit (256 - (bits + 1)) then d.add p else d

/-- Does a point lie on the curve. -/
def onCurve (x y : Nat) : Bool :=
  decide (x < p256P) && decide (y < p256P) && y * y % p256P == (x * x * x + (p256P - 3) * x + p256B) % p256P

/-- ECDSA verification of a digest with a public key. -/
def ecdsaVerify (x y : Nat) (digest : BitVec 256) (r s : Nat) : Bool :=
  if !onCurve x y || r = 0 || s = 0 || p256N ≤ r || p256N ≤ s then false
  else
    let w := invMod p256N s
    let u1 := digest.toNat * w % p256N
    let u2 := r * w % p256N
    match (Point.mul u1 (some p256G) 256).add (Point.mul u2 (some (x, y)) 256) with
    | none => false
    | some (px, _) => px % p256N == r

/- CRC-64. -/

def rev64 (x : W64) : W64 := x.reverse

/-- One bit of the reflected CRC. -/
def crcBit (c : W64) : W64 := if c.getLsbD 0 then (c >>> 1) ^^^ rev64 0x42F0E1EBA9EA3693#64 else c >>> 1

def crcByte (c : W64) (b : Byte) : W64 :=
  (List.range 8).foldl (fun c _ => crcBit c) (c ^^^ b.zeroExtend 64)

/-- R365: the CRC of a flit's bytes. -/
def crc64 (bs : List Byte) : W64 := ~~~(bs.foldl crcByte (BitVec.allOnes 64))

end Sys2Proof.Machine
end

