-- ==== Sys2Proof/Machine/Moves.lean ====
section
/-! DEFINITION. The moves of the agenda: a slot that tries its word, an event of the package, a tick. `Event` has one constructor for each
event of spec/opcode_table.json, with the operands of its constructor of `Instr`. -/

namespace Sys2Proof.Machine

open Sys2Proof

/-- An event: a step of the package that is no word of a slot. -/
inductive Event where
  /-- V_RESULT_LAND (R77). -/
  | vResultLand (core : Fin 192) (i : Nat)
  /-- M_WORD_COMPLETE (R174). -/
  | mWordComplete (core : Fin 192) (i : Nat)
  /-- REQUEST_ENQUEUE (R230). -/
  | requestEnqueue (core : Fin 192) (stack : Fin 16)
  /-- CALENDAR_SLOT_START (R230). -/
  | calendarSlotStart (stack : Fin 16) (errs : List (Nat × Bool))
  /-- HBM_READ_LAND (R231). -/
  | hbmReadLand (stack : Fin 16) (i : Nat)
  /-- HBM_WRITE_PERFORMED (R231). -/
  | hbmWritePerformed (stack : Fin 16)
  /-- ATOMIC_RESPONSE (R114). -/
  | atomicResponse (core : Fin 192)
  /-- CONST_FILL (R156). -/
  | constFill (core : Fin 192) (i : Nat)
  /-- COPY_BYTES_LAND (R194). -/
  | copyBytesLand (core : Fin 192) (i j : Nat)
  /-- ANOTE_WRITE (R206). -/
  | anoteWrite (core : Fin 192) (i : Nat)
  /-- WAITA_TIMEOUT (R120). -/
  | waitaTimeout (core : Fin 192)
  /-- HANDLER_ENTRY (R338). -/
  | handlerEntry (core : Fin 192)
  /-- ENGINE_FAULT (R342). -/
  | engineFault (core : Fin 192)
  /-- PREEMPTION_REQUEST (R321). -/
  | preemptionRequest (core : Fin 192)
  /-- COPY_ABORT (R325). -/
  | copyAbort (core : Fin 192)
  /-- GRANARY_SWAP (R328). -/
  | granarySwap (core : Fin 192)
  /-- SAVE_AREA_MOVE (R328). -/
  | saveAreaMove (sid launch slot : Nat)
  /-- STRAND_RESUME (R335). -/
  | strandResume (i : Nat)
  /-- STRAND_START (R286). -/
  | strandStart (i : Nat)
  /-- SCHEDULE_DECISION (R287). -/
  | scheduleDecision
  /-- PSLICE_EXPIRY (R290). -/
  | psliceExpiry (cluster : Fin 48)
  /-- VT_UPDATE (R288). -/
  | vtUpdate
  /-- HAUL_RECORD_READ (R209). -/
  | haulRecordRead (chan : Fin 192)
  /-- COPY (R210). -/
  | copy (chan : Fin 192) (i : Nat)
  /-- COPY2D (R210). -/
  | copy2d (chan : Fin 192) (i : Nat)
  /-- FILL (R210). -/
  | fill (chan : Fin 192) (i : Nat)
  /-- PACK (R382). -/
  | pack (chan : Fin 192) (i : Nat)
  /-- UNPACK (R383). -/
  | unpack (chan : Fin 192) (i : Nat)
  /-- REDUCE (R210). -/
  | reduce (chan : Fin 192) (i : Nat)
  /-- REDUCE_ARRIVAL (R224). -/
  | reduceArrival (cluster : Fin 48) (i : Nat)
  /-- MIGRATE (R386). -/
  | migrate (chan : Fin 192) (i : Nat)
  /-- STOW (R385). -/
  | stow (chan : Fin 192) (i : Nat)
  /-- NOTE (R210). -/
  | note (chan : Fin 192) (i : Nat)
  /-- SCOUT_PASS (R345). -/
  | scoutPass (chan : Fin 192) (refused : Bool)
  /-- TABLE_WALK (R344). -/
  | tableWalk (engine : Fin 25) (part : Fin 64) (addr : Nat) (wr refused : Bool)
  /-- SLAB_SEND (R215). -/
  | slabSend (core : Fin 192) (stack : Fin 16)
  /-- SLAB_ARRIVAL (R246). -/
  | slabArrival (stack : Fin 16)
  /-- GSUM (R253). -/
  | gsum (stack : Fin 16)
  /-- GSEARCH (R257). -/
  | gsearch (stack : Fin 16)
  /-- SUBQUERY (R254). -/
  | subquery (stack : Fin 16)
  /-- GSEARCH_MERGE (R258). -/
  | gsearchMerge (stack : Fin 16) (i : Nat)
  /-- SUBMIT (R264). -/
  | submit (part : Fin 64)
  /-- CANCEL (R361). -/
  | cancel (part : Fin 64)
  /-- VERDICT (R346). -/
  | verdict (part : Fin 64)
  /-- INVALIDATE (R347). -/
  | invalidate (part : Fin 64)
  /-- SET_PTROOT (R343). -/
  | setPtroot (part : Fin 64)
  /-- SET_SHARE (R288). -/
  | setShare (part : Fin 64)
  /-- SET_PSLICE (R288). -/
  | setPslice (part : Fin 64)
  /-- SET_SEED_QUEUES (R284). -/
  | setSeedQueues (part : Fin 64)
  /-- SET_STAGING_POOL (R276). -/
  | setStagingPool (part : Fin 64)
  /-- SET_SAVE_AREA (R329). -/
  | setSaveArea (part : Fin 64)
  /-- SET_PARK_AREA (R384). -/
  | setParkArea (part : Fin 64)
  /-- CURVE (R308). -/
  | curve (part : Fin 64)
  /-- KEYINST (R354). -/
  | keyinst (part : Fin 64)
  /-- EXTEND (R353). -/
  | extend (part : Fin 64)
  /-- PARTITION_CREATE (R355). -/
  | partitionCreate (part : Fin 64)
  /-- PARTITION_DESTROY (R355). -/
  | partitionDestroy (part : Fin 64)
  /-- FABRIC_PACKAGE_NUMBER (R367). -/
  | fabricPackageNumber (part : Fin 64)
  /-- FABRIC_ROUTE (R367). -/
  | fabricRoute (part : Fin 64)
  /-- FABRIC_IMPORT (R368). -/
  | fabricImport (part : Fin 64)
  /-- NODE_STAGING (R276). -/
  | nodeStaging (graph node : Nat) (refused : Bool)
  /-- LAUNCH (R278). -/
  | launch (graph node : Nat)
  /-- LAUNCH_END (R279). -/
  | launchEnd (launch : Nat)
  /-- STAGED_COPY_BACK (R277). -/
  | stagedCopyBack (launch : Nat)
  /-- COMPLETION_EVENT (R362). -/
  | completionEvent (part : Fin 64)
  /-- COMMAND_EVENT (R362). -/
  | commandEvent (part : Fin 64)
  /-- STRAND_FAULT_EVENT (R362). -/
  | strandFaultEvent (part : Fin 64)
  /-- STALL_EVENT (R362). -/
  | stallEvent (part : Fin 64)
  /-- PAGEFAULT_EVENT (R362). -/
  | pagefaultEvent (part : Fin 64)
  /-- NOTICE_EVENT (R362). -/
  | noticeEvent (part : Fin 64)
  /-- HOST_REGISTER_WRITE (R358). -/
  | hostRegisterWrite (fn : Fin 64) (off : Nat) (val : BitVec 64)
  /-- HOST_WINDOW_READ (R359). -/
  | hostWindowRead (fn : Fin 64) (off len : Nat)
  /-- HOST_WINDOW_WRITE (R359). -/
  | hostWindowWrite (fn : Fin 64) (off : Nat) (bytes : List (BitVec 8))
  /-- ATS_INVALIDATION (R359). -/
  | atsInvalidation (fn : Fin 64) (base len : Nat)
  /-- FLR (R364). -/
  | flr (fn : Fin 64)
  /-- PACKAGE_RESET (R351). -/
  | packageReset (powerOn : Bool) (bad : Option Nat)
  /-- GET_VERSION (R356). -/
  | getVersion (fn : Fin 64)
  /-- GET_CAPABILITIES (R356). -/
  | getCapabilities (fn : Fin 64)
  /-- NEGOTIATE_ALGORITHMS (R356). -/
  | negotiateAlgorithms (fn : Fin 64)
  /-- GET_DIGESTS (R356). -/
  | getDigests (fn : Fin 64)
  /-- GET_CERTIFICATE (R356). -/
  | getCertificate (fn : Fin 64) (slot off len : Nat)
  /-- CHALLENGE (R356). -/
  | challenge (fn : Fin 64) (nonce : BitVec 256)
  /-- GET_MEASUREMENTS (R356). -/
  | getMeasurements (fn : Fin 64) (index : Nat) (nonce : BitVec 256)
  /-- SPDM_UNSUPPORTED_REQUEST (R356). -/
  | spdmUnsupportedRequest (fn : Fin 64) (code : BitVec 8)
  /-- SYNDROME_READ (R402). -/
  | syndromeRead (fn : Fin 64) (dw0 dw1 : BitVec 32)
  /-- SYNDROME_CLEAR (R402). -/
  | syndromeClear (fn : Fin 64) (dw0 dw1 : BitVec 32)
  /-- FLIT_RECEIVE (R366). -/
  | flitReceive (port : Fin 48) (flit : List (BitVec 8))
  /-- LINK_TRAINING (R367). -/
  | linkTraining (port : Fin 48) (peerPkg peerPort : Nat) (lanes : BitVec 5)
  /-- LANE_RETIRE (R367). -/
  | laneRetire (port : Fin 48) (lane : Fin 5)
  /-- PEER_ACCESS (R368). -/
  | peerAccess (srcPkg : Nat) (srcPart : Fin 64) (addr : Nat) (bytes : Option (List (BitVec 8))) (len : Nat)
  /-- MARKET_CLEAR (R305). -/
  | marketClear (pmeas outside : Nat) (temps : List Nat)
  /-- CURVE_SLOW_EVENT (R315). -/
  | curveSlowEvent (seq ev : Nat)
  /-- CURVE_PARK_EVENT (R315). -/
  | curveParkEvent (seq ev : Nat)
  /-- CURVE_SHED_EVENT (R315). -/
  | curveShedEvent (seq ev : Nat)
  /-- DROOP_STRETCH (R297). -/
  | droopStretch (cluster : Fin 48) (cycles : Nat)
  /-- GUARD_BREACH (R299). -/
  | guardBreach (cluster : Fin 48) (cycles : Nat)
  /-- STALL_HOLD_END (R299). -/
  | stallHoldEnd (core : Fin 192)
  /-- CLUSTER_GATE (R317). -/
  | clusterGate (cluster : Fin 48)
  /-- DIE_GATE (R318). -/
  | dieGate (die : Fin 8)
  /-- DIE_POWER_UP (R318). -/
  | diePowerUp (die : Fin 8)
  /-- HOT_MIGRATION (R320). -/
  | hotMigration
  /-- BANK_RETIRE (R377). -/
  | bankRetire (stack : Fin 16) (pc : Fin 64) (bank : Fin 64)
  /-- SILO_SCRUB (R395). -/
  | siloScrub (line : Nat) (err : Option Bool)
  /-- SRAM_SCRUB (R395). -/
  | sramScrub (unit : BitVec 4) (core : Fin 192) (index : Nat) (err : Option Bool)
  /-- ECC_WRITEBACK (R391). -/
  | eccWriteback (line : Nat)
  /-- HEARTBEAT_TIMEOUT (R404). -/
  | heartbeatTimeout (die : Fin 11) (bad : Option Nat)
  /-- FATAL_DIE_ERROR (R404). -/
  | fatalDieError (die : Fin 11) (cause : BitVec 7) (bad : Option Nat)
  /-- ACCESS_RESPONSE (R109). -/
  | accessResponse (core : Fin 192) (i : Nat)
  /-- PRE_ISSUE_READ (R190). -/
  | preIssueRead (core : Fin 192)
  /-- CONSTANT_PATH_DISCARD (R118). -/
  | constantPathDiscard (core : Fin 192)
  /-- CLUSTER_POWER_UP (R317). -/
  | clusterPowerUp (cluster : Fin 48)
  /-- BAD_COMMAND (R361). -/
  | badCommand (part : Fin 64)
deriving DecidableEq, Repr

/-- What the machine does next: a slot tries its word, an event happens, the clock passes to the next tick; or what the outside and quarry logic
do beside the events of the opcode table. -/
inductive Move where
  | issue (core : Fin 192) (slot : Slot)
  | event (e : Event)
  | clock
  /-- An access of `bytes` bytes to BAR0 (R358): a write of a value, or a read. -/
  | hostRegister (fn : Fin 64) (off bytes : Nat) (val : Option (BitVec 64))
  /-- A pre-emption that system software asks for (R321, R327, R329): of a gang of a launch, or of the whole launch. -/
  | preempt (launch : Nat) (gang : Option Nat)
  /-- A write of a peer package that brings poison (R245, R368): the offsets of its poisoned bytes. -/
  | peerMarked (srcPkg : Nat) (srcPart : Fin 64) (addr : Nat) (bytes : List (BitVec 8)) (bad : List Nat)
  /-- A stack's temperature passes 85 °C, or falls below it (R371). -/
  | heat (stack : Fin 16) (hot : Bool)
  /-- The next packet of a stack starts (R246, R260). -/
  | sumStart (stack : Fin 16)
  /-- A packet in progress that has its result completes (R246, R251). -/
  | sumDone (stack : Fin 16) (i : Nat)
deriving DecidableEq, Repr

end Sys2Proof.Machine
end

