-- ==== Sys2Proof/Machine/SMap.lean ====
section
/-! DEFINITION. Sparse storage: a list of (key, value) pairs in one canonical form, keys strictly rising and no entry equal
to what an unlisted key reads as. Memory bytes, line poison and encryption tags are held so. -/

namespace Sys2Proof.Machine

/-- A sparse map; what an unlisted key reads as is given to each operation. -/
abbrev SMap (α : Type) := List (Nat × α)

/-- The value at a key. -/
def SMap.get {α : Type} (d : α) : SMap α → Nat → α
  | [], _ => d
  | (k, v) :: rest, a => if a = k then v else if a < k then d else SMap.get d rest a

/-- The map with a key's entry removed. -/
def SMap.erase {α : Type} : SMap α → Nat → SMap α
  | [], _ => []
  | (k, v) :: rest, a => if a = k then rest else if a < k then (k, v) :: rest else (k, v) :: SMap.erase rest a

/-- The map with a key's entry written. -/
def SMap.put {α : Type} (x : α) : SMap α → Nat → SMap α
  | [], a => [(a, x)]
  | (k, v) :: rest, a =>
    if a = k then (k, x) :: rest else if a < k then (a, x) :: (k, v) :: rest else (k, v) :: SMap.put x rest a

/-- A write in canonical form: the value that an unlisted key reads as removes the entry. -/
def SMap.set {α : Type} [DecidableEq α] (d : α) (m : SMap α) (a : Nat) (x : α) : SMap α :=
  if x = d then m.erase a else m.put x a

/-- Keys above a bound strictly rise and no entry holds the default. -/
def SMap.wfFrom {α : Type} [DecidableEq α] (d : α) : Option Nat → SMap α → Bool
  | _, [] => true
  | lo, (k, v) :: rest =>
    (match lo with | some l => decide (l < k) | none => true) && decide (v ≠ d) && SMap.wfFrom d (some k) rest

/-- The canonical form. -/
def SMap.wf {α : Type} [DecidableEq α] (d : α) (m : SMap α) : Bool := SMap.wfFrom d none m

/-- The values at `n` keys from `a` on, in one pass over a map whose keys are `a` or more. -/
def SMap.run {α : Type} (d : α) : Nat → SMap α → Nat → List α
  | 0, _, _ => []
  | n + 1, [], a => d :: SMap.run d n [] (a + 1)
  | n + 1, (k, v) :: rest, a => if k = a then v :: SMap.run d n rest (a + 1) else d :: SMap.run d n ((k, v) :: rest) (a + 1)

/-- The entries of a run of values, without those that equal the default. -/
def SMap.entries {α : Type} [DecidableEq α] (d : α) : Nat → List α → SMap α
  | _, [] => []
  | a, x :: rest => if x = d then SMap.entries d (a + 1) rest else (a, x) :: SMap.entries d (a + 1) rest

/-- Values written at successive keys from `a` on; `none` leaves a key. -/
def SMap.setRun {α : Type} [DecidableEq α] (d : α) (m : SMap α) (a : Nat) (xs : List (Option α)) : SMap α :=
  let old := SMap.run d xs.length (m.dropWhile fun e => decide (e.1 < a)) a
  m.takeWhile (fun e => decide (e.1 < a)) ++ SMap.entries d a (List.zipWith Option.getD xs old) ++
    m.dropWhile fun e => decide (e.1 < a + xs.length)

/-- The entries with keys in `[lo, lo + n)`. -/
def SMap.slice {α : Type} (m : SMap α) (lo n : Nat) : SMap α :=
  m.filter fun e => decide (lo ≤ e.1) && decide (e.1 < lo + n)

end Sys2Proof.Machine
end

