-- ==== Sys2Proof/Machine/StateCore.lean ====
section
/-! DEFINITION. The state of a core and of a strand (R50 to R77, R95, R165, R195, R330 to R333, R409): registers, queues, flags,
tokens, the words whose results are pending, the accesses and copies in flight, and the typed-buffer state. -/

namespace Sys2Proof.Machine

/-- One entry of an operand queue, each half with its poison (R59, R122); it may be popped from cycle `from_` on. -/
structure QEntry where
  lo : W64
  hi : W64
  plo : Bool
  phi : Bool
  from_ : Nat
deriving DecidableEq, Repr, Inhabited

/-- One entry of the return queue (R59, R158). -/
structure REntry where
  val : W64
  bad : Bool
  from_ : Nat
deriving DecidableEq, Repr, Inhabited

/-- A queue of 16 entries; the pops of the current cycle still occupy their entries (R59). -/
structure Fifo (α : Type) where
  items : List α
  popCyc : Nat
  pops : Nat
deriving DecidableEq, Repr, Inhabited

/-- A token (R195); `last` is the cycle in which bytes of it last landed (R233). -/
structure Token where
  pend : Nat
  last : Nat
  cond : BitVec 2
  caddr : W64
deriving DecidableEq, Repr, Inhabited

/-- A live LOOP level (R104). -/
structure Loop where
  start : W64
  last : W64
  remaining : W64
deriving DecidableEq, Repr, Inhabited

/-- A loop buffer (R105, R163, R332): the body's first PC, passes after the current one, the length, the position of the next
word, the words captured. -/
structure LBuf where
  valid : Bool
  start : W64
  remaining : W64
  len : Nat
  pos : Nat
  captured : Bool
  words : List (Option W32)
deriving DecidableEq, Repr, Inhabited

/-- The MREP repeat state (R183, R184). -/
structure MRep where
  valid : Bool
  remaining : Nat
  mask : BitVec 8
deriving DecidableEq, Repr, Inhabited

/-- A register write of S or H that lands in cycle `due` (R63, R95). -/
structure XWrite where
  due : Nat
  reg : BitVec 5
  val : W64
  bad : Bool
  byS : Bool
deriving DecidableEq, Repr, Inhabited

/-- A control-register write, effective from cycle `due` (R55, R66, R124). -/
structure CsrWrite where
  due : Nat
  num : BitVec 10
  val : W64
deriving DecidableEq, Repr, Inhabited

/-- Bytes to be written at a physical address; `none` leaves a byte. `marks` are the lines written poisoned (R245), `tag` the
encryption key of the write (R226, R355). `keep` names bytes, by their place in the data, of which only some bits are written, with the
bits that stay (R153). -/
structure MWrite where
  addr : Nat
  data : List (Option Byte)
  marks : List Nat
  tag : Nat
  keep : List (Nat × Byte) := []
deriving DecidableEq, Repr, Inhabited

/-- A write of elements of a V register when a word lands: rows wholly or partly written take poison by R137. -/
structure VRegW where
  reg : BitVec 4
  mask : BitVec 1024
  vals : Vector W32 1024
  full : BitVec 16
  part : BitVec 16
  bad : BitVec 16
deriving DecidableEq, Repr

/-- A write of bits of a P register when a word lands. -/
structure PRegW where
  reg : BitVec 4
  mask : BitVec 1024
  vals : BitVec 1024
  full : BitVec 16
  part : BitVec 16
  bad : BitVec 16
deriving DecidableEq, Repr

/-- A V word that has issued and not landed (R77, R135). -/
structure VPend where
  seq : Nat
  due : Nat
  regs : List VRegW
  preds : List PRegW
  writes : List MWrite
  rowMarks : List Nat
  flags : BitVec 5
deriving DecidableEq, Repr

/-- A weight plane (R165): LOAD 0 empty, 1 dense, 2 sparse; weights as E5M3 codes (R41), column by column; the G3 scales of
each column's groups. -/
structure WPlane where
  load : BitVec 2
  fmt : BitVec 4
  smode : BitVec 3
  colBad : BitVec 256
  fault : Option Nat
  w : List (List (BitVec 9))
  g3 : List (List W16)
deriving DecidableEq, Repr, Inhabited

/-- A scale plane (R165): KIND 0 empty, 1 E8M0, 2 BF16, its column poison and its 1,024 entries. -/
structure SPlane where
  kind : BitVec 2
  colBad : BitVec 256
  entries : Vector W16 1024
deriving DecidableEq, Repr

/-- What an M word does when it completes (R173, R180, R187). -/
inductive MEff where
  /-- MWL: the shadow weight plane takes this value. -/
  | loadW (p : WPlane)
  /-- MSCL: the shadow scale plane takes this value. -/
  | loadS (p : SPlane)
  /-- MMA, MMAS: group values by accumulator row in ascending i, each a list of the four group values of each column; the
  rows to mark, the columns to mark. -/
  | step (rows : List (Nat × List (List W32))) (rowBad : List Nat) (colBad : BitVec 256) (n : Nat) (flags : BitVec 5)
  /-- MZERO: these accumulator rows, columns below n. -/
  | zero (rows : List Nat) (n : Nat)
  /-- MDRAIN: these writes of A. -/
  | drain (ws : List MWrite) (flags : BitVec 5)
deriving DecidableEq, Repr

/-- An M word that has issued and not completed (R173, R174). -/
structure MPend where
  seq : Nat
  due : Nat
  sig : BitVec 4
  eff : MEff
deriving DecidableEq, Repr

/-- The function of an atomic (R111, R112). -/
inductive AmoFn where
  | add | and | or | xor | min | max | minu | maxu | swap
  | cas (expected : W64)
deriving DecidableEq, Repr, Inhabited

/-- What an S access does where it is performed (R106, R110, R111). -/
inductive SOp where
  | load (xd : BitVec 5) (signed : Bool)
  | ldk (xd : BitVec 5)
  | store (w : MWrite)
  | amo (fn : AmoFn) (xd : BitVec 5) (b : W64)
deriving DecidableEq, Repr, Inhabited

/-- An S access that has issued and whose response is outstanding (R109, R114, R230, R324): the device and physical addresses,
whether it blocks later S words, whether its field is SO, the key, the gated or poisoned outcome found where it was performed.
`pc`, `loops`, `lbuf` are where an access that traps resumes. -/
structure SAcc where
  id : Nat
  op : SOp
  dev : W64
  addr : Nat
  size : Nat
  blocking : Bool
  so : Bool
  tag : Nat
  slot : Option Nat
  performed : Bool
  old : W64
  cause : Option Nat
  inHandler : Bool
  pc : W64
  loops : List Loop
  lbuf : LBuf
deriving DecidableEq, Repr, Inhabited

/-- How far a piece of a copy has come (R194, R230). -/
inductive SegState where
  | idle
  | reading
  | ready (data : List (Option Byte)) (bad : List Nat)
  | writing
  | landed
deriving DecidableEq, Repr, Inhabited

/-- A piece of a copy, contiguous at both ends: the addresses as issued, the physical addresses and the keys. A piece whose data
H read before issue has no source address (R201). -/
structure Seg where
  srcA : W64
  dstA : W64
  src : Option Nat
  dst : Option Nat
  len : Nat
  srcTag : Nat
  dstTag : Nat
  st : SegState
deriving DecidableEq, Repr, Inhabited

/-- A copy or ANOTE in flight (R194, R206, R333): kinds are those of R333; `contrib` is what it added to PEND (R325). The one
piece of an ANOTE holds its value. -/
structure Copy where
  cid : Nat
  dst : W64
  src : W64
  arg : W64
  kind : Nat
  tok : BitVec 3
  dspace : BitVec 3
  sspace : BitVec 3
  mark : Bool
  noteBad : Bool
  conv : Bool
  sfmt : BitVec 4
  dfmt : BitVec 4
  lm1 : BitVec 16
  contrib : Nat
  segs : List Seg
deriving DecidableEq, Repr, Inhabited

/-- A pre-issue read of H under way (R190): the word's PC, and the cycle in which it is done. -/
structure PreRead where
  pc : W64
  ready : Nat
deriving DecidableEq, Repr, Inhabited

/-- A FENCEX that waits (R116): its masks and what had issued before it. -/
structure FenceX where
  before : BitVec 7
  after : BitVec 7
  vseq : Nat
  mseq : Nat
  cid : Nat
  aid : Nat
deriving DecidableEq, Repr, Inhabited

/-- S asleep in WAITA (R120): the word, its destination, the time at which it fell asleep and that at which the timeout elapses. -/
structure Sleep where
  word : W32
  xd : BitVec 5
  since : Nat
  ends : Option Nat
deriving DecidableEq, Repr, Inhabited

/-- A trap raised and not yet delivered: the cycle and the slot (R338); whether TRAPVEC was zero, so that it is a strand fault (R341);
the failed channel of an ENGINE_FAULT (R342); the token, COND and CADDR that raising it cleared (R199), which return where a trap of
the same cycle takes its place (R88). -/
structure TrapPend where
  cyc : Nat
  slot : Slot
  fatal : Bool
  eng : Option Nat
  undo : Option (Fin 8 × BitVec 2 × W64) := none
deriving DecidableEq, Repr, Inhabited

/-- The typed-buffer state (R409). The bytes of W, A and C and their line poison stand in memory under the object `id`. -/
structure TBuf where
  id : Nat
  bfmtW : Vector W32 32
  bfmtA : Vector W32 32
  wp0 : WPlane
  wp1 : WPlane
  sp0 : SPlane
  sp1 : SPlane
  active : Bool
  rowp : BitVec 1024
  colp : Vector (BitVec 256) 16
deriving DecidableEq, Repr

/-- Where a strand stands with respect to halting (R321, R322, R341). -/
inductive Phase where
  | running
  /-- A pre-emption request has reached the core: V and M drain, then the copies are aborted. -/
  | halting (yielded : Bool)
  /-- A shed, cancel or strand fault has reached the core. -/
  | dying
deriving DecidableEq, Repr, Inhabited

/-- A strand: its identity, the voltage class of the point under which it started (R304), its architected context and the work it has
in flight. -/
structure Strand where
  sid : Nat
  launch : Nat
  part : Fin 64
  index : Nat
  member : Nat
  gang : Nat
  prio : BitVec 3
  level : BitVec 2
  volt : Nat
  phase : Phase
  -- program counters and slots
  pc : PerSlot W64
  ended : PerSlot Bool
  next : PerSlot Nat
  -- scalar registers
  x : Vector W64 32
  xbad : BitVec 32
  xpend : List XWrite
  cpend : List CsrWrite
  -- vector registers
  v : Vector (Vector W32 1024) 16
  vbad : Vector (BitVec 16) 16
  p : Vector (BitVec 1024) 16
  pbad : Vector (BitVec 16) 16
  vpend : List VPend
  vseq : Nat
  -- matrix state
  ma : Vector W64 8
  ts : Vector W64 4
  tspend : List (Nat × BitVec 2 × W64)
  bpend : List (Nat × Fin 64 × W32)
  mrep : MRep
  mpend : List MPend
  mseq : Nat
  loadFree : Nat
  arrayFree : Nat
  drainFree : Nat
  -- flags, queues, tokens
  f : Vector (BitVec 8) 16
  qv : Fifo QEntry
  qm : Fifo QEntry
  qh : Fifo QEntry
  qr : Fifo REntry
  tok : Vector Token 8
  copies : List Copy
  nextCid : Nat
  pre : Option PreRead
  -- control registers
  syncmask : BitVec 4
  xown : BitVec 32
  vshape : BitVec 13
  vshapeSet : Nat
  pmark : Bool
  fstatV : BitVec 5
  fstatM : BitVec 5
  fsetCyc : Nat
  fsetV : BitVec 5
  fsetM : BitVec 5
  clkFixed : Bool
  clkFurrow : Bool
  scycBase : Nat
  scycSince : Nat
  trapvec : W64
  trapcause : W64
  trapslot : W64
  trappc : W64
  trapaddr : W64
  seedptr : W64
  frameptr : W64
  -- loops, handler, traps
  loops : List Loop
  lbS : LBuf
  lbV : LBuf
  lbH : LBuf
  handler : Bool
  sresume : W64
  sfrom : W64
  trapAt : Option TrapPend
  efault : BitVec 16
  efaultAddr : List (Nat × W64)
  -- scalar memory
  accs : List SAcc
  nextAid : Nat
  fx : Option FenceX
  fk : Option Nat
  -- the request of a SOW or JOIN at which S stands, and whether its slot has started (R230)
  recReq : Option (Nat × Bool) := none
  sleep : Option Sleep
  mlost : Bool
  slept : Nat
  -- rendezvous completed by a word that has not issued yet, and the cycle in which the last was completed (R55)
  rvGo : PerSlot Bool
  rvCyc : Nat
  -- typed-buffer state
  tb : TBuf
deriving DecidableEq, Repr

/-- Who formed a calendar request (R230). -/
inductive ReqWho where
  | acc (sid aid : Nat)
  | copyRead (sid cid : Nat) (segs : List Nat)
  | copyWrite (sid cid : Nat) (segs : List Nat)
  | fill (id : Nat)
  | slab
  | upkeep
deriving DecidableEq, Repr, Inhabited

/-- A calendar request of a core: in the queue when it is bound to a slot, waiting to enter when it is not (R230). `reach` is the cycle
of the core's cluster in which it reaches the controller. -/
structure Req where
  stack : Nat
  addr : Nat
  len : Nat
  who : ReqWho
  bound : Option Nat
  reach : Nat
deriving DecidableEq, Repr, Inhabited

/-- A 64-byte line of the constant path (R156, R243). -/
structure KLine where
  line : Nat
  data : List Byte
  bad : Bool
deriving DecidableEq, Repr, Inhabited

/-- A constant-path line being filled (R156): its data once read from HBM; `upto` once a FENCEK has discarded the line, so that only
an LDK that issued before it takes the data (R118); the strand that asked and its next S access then, whose earlier ones the line follows
(R118); whether the path keeps the line, as it does not for an LDK of an SO field (R238). -/
structure KFill where
  id : Nat
  line : Nat
  tag : Nat
  disc : Bool
  data : Option (List Byte × Bool)
  upto : Option Nat
  sid : Nat := 0
  since : Nat := 0
  keep : Bool := true
deriving DecidableEq, Repr, Inhabited

/-- A slab posted and not yet started (R215, R246): its bytes, who posted it, the next packet position to start; `go` once its
owned slot has come. -/
structure Slab where
  stack : Nat
  sid : Nat
  part : Fin 64
  launch : Nat
  data : List Byte
  pos : Nat
  go : Bool
deriving DecidableEq, Repr, Inhabited

/-- A core (R50, R76, R215, R230, R243, R299, R304): `issued` is the cycle after the last in which a word issued, `hold` the
cluster cycles after the first and up to the second in which a stall wire holds the core, `lag` the cycles so held, `passed` the stacks
whose queue gives up an entry with the present cycle, `given` the cycle after the last in which an M word's signal was given ahead of the
waits (R58). -/
structure Core where
  strand : Option Strand
  pmcyc : W64
  pmSince : Nat
  pmlocal : W64
  pmremote : W64
  pmxdie : W64
  reqs : List Req
  kcache : List KLine
  kfills : List KFill
  nextFill : Nat
  slabs : List Slab
  issued : Nat
  hold : Option (Nat × Nat)
  lag : Nat
  passed : List Nat
  given : Nat
deriving DecidableEq, Repr

/-- The monitor of the strand on a core (R119, R244): the watched line and whether it is triggered. -/
structure Monitor where
  line : Option Nat
  hit : Bool
deriving DecidableEq, Repr, Inhabited

end Sys2Proof.Machine
end

