-- ==== Sys2Proof/Machine/StateCtl.lean ====
section
/-! DEFINITION. The state of clusters, stacks, launches, gangs, seeds and partitions (R223, R225, R229, R268, R280 to R289,
R328). -/

namespace Sys2Proof.Machine

/-- A field map entry as launched (R225, R226), with its partition base (R228). `slot` is the cluster slot that a yard window
names in the binding table (R275). -/
structure FieldEnt where
  idx : Nat
  vbase : Nat
  lsz : Nat
  permR : Bool
  permW : Bool
  permX : Bool
  ord : BitVec 2
  tier : BitVec 2
  konst : Bool
  staged : Bool
  key : BitVec 2
  ilv : BitVec 2
  pbase : Nat
  peer : Nat
  partbase : Nat
  slot : Option Nat
deriving DecidableEq, Repr, Inhabited

/-- An operating point (R268). -/
structure OpPoint where
  tm1 : Nat
  variant : Nat
  freq : Nat
  volt : Nat
deriving DecidableEq, Repr, Inhabited

/-- A cluster slot of a launch (R289): the cluster on which it is placed, the one it last had, its yard object, the typed-buffer
states left for the cores (R409), where its evicted image lies in the save area and whether it has been written there (R329), the
cluster to which its work is to move (R320). -/
structure LSlot where
  cluster : Option Nat
  prev : Option Nat
  yard : Nat
  img : Option (Nat × Bool)
  goal : Option Nat
  tbs : Vector (Option TBuf) 4
deriving DecidableEq, Repr

/-- A staged field (R276): its entry as bound, the physical place and size of its copy, its discarded pages. -/
structure Staged where
  home : FieldEnt
  stack : Nat
  off : Nat
  size : Nat
  ilv : BitVec 2
deriving DecidableEq, Repr, Inhabited

/-- The packed cluster image of a parked launch (R313): the slot, where it lies in the silo, its length. -/
structure ParkImg where
  slot : Nat
  addr : Nat
  len : Nat
deriving DecidableEq, Repr, Inhabited

/-- An initial seed not yet sown (R278): its device address. -/
structure InitSeed where
  dev : W64
  prio : BitVec 3
deriving DecidableEq, Repr, Inhabited

/-- How a launch is ending (R279, R314, R341): the STATUS its node takes. -/
inductive LaunchEnd where
  | live
  | ending (status : Nat)
deriving DecidableEq, Repr, Inhabited

/-- A launch (R278, R279, R285, R289, R313). `task` is the measurement of variant 0's S segment (R292), `perIndex` the strands of
each started seed that have not ended, `sown` the physical and device addresses of sown records that wait, `disc` the pages of its fields that
read as discarded, by a mark of staging too, `pageDisc` those that the tables discarded when it launched, `kept` the leaves of its fields' pages
as they translate, each with its page number and whether it is large (R389); `resuming` says that a parked launch's images
are on their way back, `given` the cores that the launch's pre-empted strands take first (R294, R349), `asked` that system software has
had every strand of the launch pre-empted (R327). -/
structure Launch where
  id : Nat
  graph : Nat
  node : Nat
  part : Fin 64
  order : Nat
  fields : List FieldEnt
  heads : List W64
  ops : List OpPoint
  opmask : BitVec 8
  point : Nat
  prioceil : BitVec 3
  eclass : BitVec 2
  deadline : Nat
  haulch : BitVec 16
  banksW : Vector W32 32
  banksA : Vector W32 32
  mgroups : List (List Nat)
  task : BitVec 256
  live : Nat
  nextIndex : Nat
  unsown : List InitSeed
  perIndex : List (Nat × Nat)
  sown : List (Nat × W64)
  slots : List LSlot
  staged : List Staged
  disc : List (Nat × Nat)
  kept : List (Nat × Bool × W64)
  pageDisc : List (Nat × Nat) := []
  ending : LaunchEnd
  parked : Bool
  resuming : Bool
  parkHeld : Nat
  parkSeed : Option Nat
  parkImgs : List ParkImg
  given : List Nat
  asked : Bool
  macs : Nat
  bytes : Nat
deriving DecidableEq, Repr

/-- A place in the save area reserved before a pre-emption (R329): of a strand's context, or of the image of a launch's slot. -/
structure Reserved where
  part : Fin 64
  off : Nat
  size : Nat
  sid : Nat
  launch : Nat
  slot : Nat
deriving DecidableEq, Repr, Inhabited

/-- R205: a change of a multicast group: the group, the member that made it, its cluster, that cluster's cycle, and the tick. -/
structure CastSet where
  grp : Nat
  member : Nat
  cluster : Nat
  cyc : Nat
  tick : Nat
deriving DecidableEq, Repr, Inhabited

/-- A gang (R285) with its multicast table, and the late changes of it (R205). -/
structure Gang where
  gid : Nat
  launch : Nat
  level : BitVec 2
  size : Nat
  slots : List Nat
  sids : List Nat
  table : List (List Nat)
  sets : List CastSet := []
deriving DecidableEq, Repr, Inhabited

/-- A placed seed (R282, R284): its record's address, its 32 bytes as four doublewords, the partition address of its
queue entry. -/
structure Seed where
  addr : W64
  entry : W64
  frame : W64
  flags : W64
  place : W64
  phys : Nat
deriving DecidableEq, Repr, Inhabited

/-- An area that system software allots (R276, R329, R384): base, size, and the ranges taken in it. -/
structure Area where
  base : Nat
  size : Nat
  used : List (Nat × Nat)
deriving DecidableEq, Repr, Inhabited

/-- A partition (R276, R284, R288, R329, R343, R353, R355, R384): its key, page-table root, share, slice and service time, its seed
queues, its areas, its attestation record, its energy account in 2^-20 J, its bytes of traffic in the round, its stall count. -/
structure Partition where
  exists_ : Bool
  keyId : Nat
  ptroot : Nat
  share : Nat
  pslice : Nat
  vt : Nat
  active : Bool
  seedBase : Nat
  seedLog2 : Nat
  queues : Vector (List Seed) 8
  pool : Area
  save : Area
  park : Area
  meas : Vector (BitVec 256) 16
  energy : Nat
  traffic : Nat
  pstall : Nat
deriving DecidableEq, Repr

/-- Where a halted context lies (R328). -/
inductive CtxPlace where
  | core (c : Nat)
  | granary (cluster slot : Nat)
  | save (slot : Nat)
  | silo (addr : Nat)
deriving DecidableEq, Repr, Inhabited

/-- A halted strand's context (R321, R330): the strand as it halted, its core, where its image lies, DTIME at the halt, whether its
monitor was lost, the lines of its image that are poisoned (R394). -/
structure Halted where
  st : Strand
  core : Fin 192
  place : CtxPlace
  time : Nat
  badLines : List Nat
deriving DecidableEq, Repr

/-- R221: a write that reached a yard or a typed buffer in a cycle, with its place in the order in which the writes of a cycle are
applied. -/
structure Landed where
  rank : Nat
  w : MWrite
deriving DecidableEq, Repr, Inhabited

/-- A cluster (R223, R296, R297, R304 to R306, R317, R320, R328, R407): its clock in MHz, voltage class and mode; its phase and
cycle count; stretched cycles to come and unstretched ones that must follow; the launch and slot that hold it; the yard object in
it; whether it is gated; when it was acquired and its work placed; its granary; its grant; the core-cycles
that issued, and all of them, in the round; the demand lowering in tenths; its temperature; whether it is withheld, and whether a core of it cannot be replaced;
the partition whose work last left it (R318); the writes that reached its yard and typed buffers in the present cycle. -/
structure Cluster where
  mhz : Nat
  volt : Nat
  fixed : Bool
  phase : Nat
  cyc : Nat
  stretch : Nat
  calm : Nat
  holder : Option (Nat × Nat)
  yard : Option Nat
  gated : Bool
  acquired : Nat
  placed : Nat
  granary : Vector (Option Nat) 8
  grant : Nat
  busy : Nat
  total : Nat
  lower : Nat
  temp : Nat
  withheld : Bool
  dead : Bool
  left : Option (Fin 64)
  recent : List Landed
deriving DecidableEq, Repr

/-- A read in flight from a stack (R231). -/
structure HRead where
  due : Nat
  core : Nat
  who : ReqWho
  data : List Byte
  bad : List Nat
deriving DecidableEq, Repr, Inhabited

/-- A write accepted by a stack's controller and not yet performed for other parties (R231). -/
structure HWrite where
  due : Nat
  sid : Nat
  path : Nat
  who : ReqWho
  core : Nat
  w : MWrite
deriving DecidableEq, Repr, Inhabited

/-- A stack's controller as the cores meet it (R229 to R231). -/
structure Stack where
  started : Nat
  reads : List HRead
  writes : List HWrite
deriving DecidableEq, Repr, Inhabited

/-- The memory of the package: bytes, poisoned lines (R245) and the key under which each byte was written (R355). -/
structure Mem where
  cells : List Host.Cell
  poison : SMap Bool
  tags : SMap Nat
deriving DecidableEq, Repr, Inhabited

end Sys2Proof.Machine
end

