-- ==== Sys2Proof/Machine/StateSys.lean ====
section
/-! DEFINITION. The state of the package outside the cores and clusters: haul engines (R207 to R212, R224, R327, R344 to R346),
quarry logic (R246, R254, R257), graphs and the scheduler (R263 to R265, R287), the power market (R303 to R320), the trust die and
host port (R351 to R364), the fabric (R365 to R368), stacks and silo (R370 to R379) and syndrome registers (R398). -/

namespace Sys2Proof.Machine

/- Haul engines. -/

/-- A haul record in progress (R208 to R212): its address, its fields, the blocks or lines done (R327), the bytes written so far by PACK or
read by UNPACK, or the base of its STOW window, the first poisoned source address, its status once it has completed, the fault it waits
on, 0 where it waits for its launch to run again (R327); whether data of it was lost in its engine (R390); `blind` where the line that
takes its status cannot be written (R346). -/
structure HaulRec where
  addr : Nat
  seq : BitVec 32
  kind : Nat
  furrow : Bool
  next : Nat
  src : Nat
  dst : Nat
  len : Nat
  arg1 : W64
  arg2 : W64
  done : List Nat
  out : Nat
  poison : Option Nat
  status : Option Nat
  report : Nat
  wait : Option Nat
  noted : Bool
  hurt : Bool
  blind : Bool := false
deriving DecidableEq, Repr, Inhabited

/-- A physical haul channel (R207, R209, R327, R342, R345): the launch and logical channel it is allotted to, whether it runs a
chain, the strand that issued it and its gang, the SCOUT count, the next record and the SEQ before it, whether it waits at that
record, the fault that its line waits on, the records in progress; `doomed` the records to come that are the first to meet a fault that
has failed, with its address (R346). -/
structure Chan where
  owner : Option (Nat × Nat)
  part : Fin 64
  busy : Bool
  sid : Nat
  gang : Nat
  scout : Nat
  at_ : Nat
  seq : Option (BitVec 32)
  waiting : Bool
  lineWait : Option Nat
  recs : List HaulRec
  doomed : List (Nat × Nat) := []
deriving DecidableEq, Repr, Inhabited

/-- A page of a translation cache (R344): partition, page number in units of its size, whether it is of 2 MiB, the leaf. -/
structure Xlat where
  part : Fin 64
  page : Nat
  big : Bool
  leaf : W64
deriving DecidableEq, Repr, Inhabited

/-- A queued translation fault (R346). -/
structure PFault where
  fseq : Nat
  part : Fin 64
  kind : Nat
  write : Bool
  scout : Bool
  addr : Nat
  eng : Nat
  chan : Nat
deriving DecidableEq, Repr, Inhabited

/-- A source line of a REDUCE on its way to a yard bank, or held there (R224). -/
structure Arrival where
  chan : Nat
  rec_ : Nat
  off : Nat
  cluster : Nat
  line : Nat
  j : Nat
  n : Nat
  fp : Bool
  data : List Byte
  bad : Bool
deriving DecidableEq, Repr, Inhabited

/-- A reduction of a yard line in progress (R224). -/
structure Reduction where
  line : Nat
  n : Nat
  next : Nat
  held : List Arrival
deriving DecidableEq, Repr, Inhabited

/-- A furrow group's stall wire raised by a furrow-bound chain, and since when (R300, R302). -/
structure Wire where
  gang : Nat
  chan : Nat
  since : Nat
deriving DecidableEq, Repr, Inhabited

/- Quarry logic. -/

/-- What a shard reports (R257): status, result heap as (distance code, GID, local index), hops, visits. -/
structure ShardRep where
  status : Nat
  w : List (W32 × Nat × Nat)
  hops : Nat
  visits : Nat
deriving DecidableEq, Repr, Inhabited

/-- What goes into a completion record besides SEQ (R250). -/
structure QResult where
  status : Nat
  count : Nat
  hops : Nat
  visits : Nat
deriving DecidableEq, Repr, Inhabited

/-- A GSUM in progress (R246, R253): its packet, and what it made of the data it read: its output and its result. -/
structure GSum where
  part : Fin 64
  launch : Nat
  pkt : List Byte
  out : List MWrite
  res : QResult
deriving DecidableEq, Repr, Inhabited

/-- A GSEARCH in progress at its home stack (R257, R258): its packet and the reports of its shards. -/
structure Query where
  qid : Nat
  sid : Nat
  part : Fin 64
  launch : Nat
  pkt : List Byte
  reps : List (Option ShardRep)
deriving DecidableEq, Repr, Inhabited

/-- A sub-query on its way to a shard's stack (R254). -/
structure SubQuery where
  home : Nat
  qid : Nat
  shard : Nat
  part : Fin 64
  launch : Nat
  pkt : List Byte
  q : List W32
deriving DecidableEq, Repr, Inhabited

/-- Quarry logic of a stack (R246): slabs on their way, the arrival queue, sums and searches in progress, sub-queries waiting; whether data was
lost in it (R390). -/
structure Quarry where
  transit : List Slab
  arrived : List Slab
  sums : List GSum
  queries : List Query
  subs : List SubQuery
  nextQid : Nat
  hurt : Bool
deriving DecidableEq, Repr, Inhabited

/- Stacks. -/

/-- The toggle counters of a channel (R373): beats of the present window of 2^20, the transitions in it under the code in use and the estimate
under the other code, and those of the window before. -/
structure BusCount where
  beats : Nat
  used : Nat
  other : Nat
  lastUsed : Nat
  lastOther : Nat
deriving DecidableEq, Repr, Inhabited

/-- Maintenance of a stack (R371 to R377): refreshes and scrubs so far, the refresh that is due in thousandths of an operation, the row
counters, the mitigation queue, the sparing registers of its pseudo-channels, the bus code and toggle counters of its channels, whether it is
hot. -/
structure Upkeep where
  refreshes : Nat
  owed : Nat
  scrubs : Nat
  rows : SMap (BitVec 10)
  queue : List Nat
  sparing : Vector W32 64
  code : BitVec 32
  bus : Vector BusCount 32
  hot : Bool
deriving DecidableEq, Repr

/- Graphs. -/

/-- How a node stands (R265, R276 to R278). -/
inductive NodeState where
  | waiting
  | eligible (order : Nat)
  | staged
  | launched (launch : Nat)
  | completing (status launch : Nat)
  | ended
deriving DecidableEq, Repr, Inhabited

/-- What the loader keeps of a container for its launch (R274, R278). -/
structure Loaded where
  fields : List FieldEnt
  heads : List W64
  ops : List OpPoint
  banksW : Vector W32 32
  banksA : Vector W32 32
  mgroups : List (List Nat)
  dataAt : Nat
  dataLen : Nat
  seeds : List InitSeed
  task : BitVec 256
  staged : List Staged
  disc : List (Nat × Nat)
  device : Nat
  needs : Nat
deriving DecidableEq, Repr

/-- A node of an accepted graph (R263). -/
structure Node where
  image : Nat
  bind : Nat
  deadline : Nat
  haulch : BitVec 16
  npred : Nat
  succ : List Nat
  opmask : BitVec 8
  prioceil : BitVec 3
  eclass : BitVec 2
  met : Nat
  st : NodeState
  loaded : Option Loaded
deriving DecidableEq, Repr

/-- An accepted graph (R264): its partition and node array. -/
structure Graph where
  gid : Nat
  part : Fin 64
  addr : Nat
  nodes : List Node
deriving DecidableEq, Repr

/-- Work that the scheduler has placed and that has not started (R286, R289, R335): its launch and partition, a seed or halted strands,
their cores; the point under which a seed was placed (R269). -/
structure Placing where
  launch : Nat
  part : Fin 64
  seed : Option Seed
  sids : List Nat
  cores : List Nat
  slots : List Nat
  level : BitVec 2
  prio : BitVec 3
  point : OpPoint := default
deriving DecidableEq, Repr, Inhabited

/-- A pre-emption request on its way to a strand (R321); `stops` where its own YIELD made it, so that S goes no further (R128). -/
structure PreReq where
  sid : Nat
  yielded : Bool
  stops : Bool := false
deriving DecidableEq, Repr, Inhabited

/-- A classifier entry (R292): partition, task, intensity, class, when its last launch ended. -/
structure ClassEnt where
  part : Fin 64
  task : BitVec 256
  inten : Nat
  compute : Bool
  order : Nat
deriving DecidableEq, Repr, Inhabited

/- Power. -/

/-- An event of a curve (R307, R315). -/
structure CurveEvent where
  off : Nat
  until_ : Nat
  grade : Nat
  cls : Nat
  acted : Bool
deriving DecidableEq, Repr, Inhabited

/-- An accepted budget curve (R307): breakpoints as (OFFMS, WATTS). -/
structure Curve where
  seq : Nat
  start : Nat
  end_ : Nat
  fallback : Nat
  points : List (Nat × Nat)
  events : List CurveEvent
deriving DecidableEq, Repr, Inhabited

/-- R305: a grant of the last clearing, which takes effect with the next round: the cluster, the launch and slot that held it, the watts,
the clock of an elastic cluster. -/
structure Grant where
  q : Nat
  holder : Nat × Nat
  watts : Nat
  mhz : Option Nat
deriving DecidableEq, Repr, Inhabited

/-- The power arbiter (R303 to R320): accepted curves, the least SEQ that may be accepted, the last draw, HOTTHR, the last outside draw and
pool, the headrooms H and Hf of the last 100 rounds, the device's energy account, when a compute die may next be gated, the rounds
cleared, when work was last migrated from a hot cluster, the grants to come. -/
structure Power where
  curves : List Curve
  nextSeq : Nat
  pmeas : Nat
  hot : Nat
  pool : Nat
  head : List Int
  headf : List Int
  account : Nat
  nextGate : Nat
  round : Nat
  moved : Nat
  grants : List Grant
deriving DecidableEq, Repr, Inhabited

/- Trust die, host port, fabric. -/

/-- A key-store slot (R354): a public key as X and Y, and its partition mask. -/
structure KeySlot where
  x : Nat
  y : Nat
  mask : W64
deriving DecidableEq, Repr, Inhabited

/-- An event awaiting its slot in a ring (R362): its KIND and its bytes 63:8. -/
structure EvRec where
  kind : Nat
  body : List Byte
deriving DecidableEq, Repr, Inhabited

/-- What a function sends to the host (R357 to R359, R356, R402, R404): MSI-X messages, read completions, DOE responses, ERR_FATAL; the status
of a pre-emption that system software asked for (R329); and what it answers a peer package (R368). -/
inductive HostMsg where
  | msix (fn vec : Nat)
  | data (fn : Nat) (bs : List Byte) (bad : Bool)
  | abort (fn : Nat)
  | unsupported (fn : Nat)
  | doe (fn : Nat) (code : Nat) (bs : List Byte)
  | doeError (fn : Nat)
  | atsDone (fn : Nat)
  | preempted (status : Nat)
  | errFatal
  | flit (port : Nat) (bs : List Byte)
  | peerData (pkg : Nat) (bs : List Byte) (bad : Bool)
  | peerDone (pkg : Nat)
  | peerGated (pkg : Nat)
deriving DecidableEq, Repr, Inhabited

/-- A function of the host port (R358, R360, R362): its registers, the events that wait for their slot, whether an algorithm set has
been negotiated by SPDM (R356). -/
structure Func where
  intakeBase : Nat
  intakeSize : Nat
  intakeAcc : BitVec 32
  evBase : Nat
  evSize : Nat
  evWr : BitVec 32
  evvec : W64
  winbase : Nat
  events : List EvRec
  spdm : Nat
deriving DecidableEq, Repr, Inhabited

/-- A fabric port (R365 to R367): up or down, its partner, its good lanes and retired ones, the LSEQ to send and to expect, the
payloads sent and not acknowledged, the input queue, whether the partner showed STOP, whether a NAK's resending waits for its end. -/
structure Port where
  up : Bool
  peer : Nat
  peerPort : Nat
  lanes : BitVec 5
  active : BitVec 5
  txSeq : W16
  rxNext : W16
  unacked : List (List Byte)
  inq : List (List Byte)
  stopped : Bool
  resend : Bool
deriving DecidableEq, Repr, Inhabited

/-- An import entry (R367, R368). -/
structure Import where
  pkg : Nat
  srcPart : Nat
  part : Fin 64
  r : Bool
  w : Bool
deriving DecidableEq, Repr, Inhabited

/-- A die's syndrome registers (R398 to R401): SYNREPAIR and PPR fields of silo devices as words; and what R405 counts: HBM rows with
uncorrectable errors, those with correctable ones and their times, errors of SRAM rows and columns, those repaired at resets (R406), the rows of
silo devices that await repair (R408), the core and time of correctable errors in cores, the TSV and time of retried beats. -/
structure Syndrome where
  fatal : Bool
  fcause : BitVec 7
  ovf : Bool
  uev : Bool
  first : W64
  finfo : W64
  last : W64
  linfo : W64
  ucnt : W32
  ccnt : W32
  repair : W64
  rowpar : W64
  ppr : Vector W16 8
  badRows : List Nat
  corRows : List (Nat × Nat)
  sramRows : List (Nat × Nat)
  mended : List Nat := []
  pprRows : List Nat := []
  coreErrs : List (Nat × Nat)
  retries : List (Nat × Nat)
deriving DecidableEq, Repr, Inhabited

end Sys2Proof.Machine
end

