-- ==== Sys2Proof/Machine/State.lean ====
section
/-! DEFINITION. State: everything the spec gives the package, as plain data, and its value after reset. -/

namespace Sys2Proof.Machine

/-- Why the machine stops with a fault. -/
inductive Fault where
  /-- Raised by TABLE_WALK, SCOUT_PASS, HOST_WINDOW_READ, HOST_WINDOW_WRITE and PEER_ACCESS where a page table names HBM storage at a
  stack offset of 47.25 GiB or above (R227), or silo storage at 2 TiB or above (R379), which does not exist. Safe: the spec gives the access
  no effect. -/
  | noStorage (addr : Nat)
deriving DecidableEq, Repr

/-- Why the machine has no meaning for a step. -/
inductive Refusal where
  /-- Raised by Dispatch for an instruction that has no meaning yet. Safe: nothing can be proved of it. -/
  | notModelled (mnemonic : String)
deriving DecidableEq, Repr

/-- The core and slot whose word is being executed. -/
structure Cur where
  core : Fin 192
  slot : Slot
deriving DecidableEq, Repr

/-- The state of the package. `cur`, `agenda` and `free` are the model's own: whose word is executed, the moves to come, and the
counter that the free values take. -/
structure State where
  cur : Cur
  agenda : List Move
  tick : Nat
  free : Nat
  cores : Vector Core 192
  mons : Vector Monitor 192
  clusters : Vector Cluster 48
  hbm : Vector Stack 16
  quarry : Vector Quarry 16
  upkeep : Vector Upkeep 16
  mem : Mem
  wback : List Nat
  nextObj : Nat
  nextSid : Nat
  -- launches and the scheduler
  graphs : List Graph
  nextGid : Nat
  nextOrder : Nat
  images : List (Nat × Nat × Nat)
  launches : List Launch
  lastLaunch : Nat
  gangs : List Gang
  halted : List Halted
  preqs : List PreReq
  rsvs : List Reserved
  placing : List Placing
  vtUs : Nat
  parts : Vector Partition 64
  classes : List ClassEnt
  -- haul engines and translation
  chans : Vector Chan 192
  xlats : Vector (List Xlat) 25
  pins : List Xlat
  pfaults : List PFault
  nextFseq : Nat
  arrivals : List Arrival
  reductions : List Reduction
  wires : List Wire
  -- power
  power : Power
  diePower : Vector Bool 8
  -- trust die, host port, fabric
  bootstat : W64
  measd : Vector (BitVec 256) 4
  keys : Vector (Option KeySlot) 16
  nextKey : Nat
  funcs : Vector Func 64
  hostOut : List HostMsg
  package : Nat
  routes : List (Nat × BitVec 48)
  imports : List Import
  ports : Vector Port 48
  -- errors
  syn : Vector Syndrome 11
deriving DecidableEq, Repr

/- Reset (R351 to R355, R363). -/

/-- A core at reset: no strand stands on it. -/
def Core.init : Core :=
  { strand := none, pmcyc := 0, pmSince := 0, pmlocal := 0, pmremote := 0, pmxdie := 0, reqs := [], kcache := [], kfills := [],
    nextFill := 0, slabs := [], issued := 0, hold := none, lag := 0, passed := [], given := 0 }

/-- A cluster at reset: free, and so gated (R304). -/
def Cluster.init : Cluster :=
  { mhz := 1400, volt := 2, fixed := false, phase := 0, cyc := 0, stretch := 0, calm := 0, holder := none, yard := none, gated := true,
    acquired := 0, placed := 0, granary := Vector.replicate 8 none, grant := 0, busy := 0, total := 0, lower := 0,
    temp := 0, withheld := false, dead := false, left := none, recent := [] }

def Stack.init : Stack := { started := 0, reads := [], writes := [] }

def Quarry.init : Quarry := { transit := [], arrived := [], sums := [], queries := [], subs := [], nextQid := 0, hurt := false }

/-- R376: a sparing register of the part as delivered. -/
def sparingInit (stack pc : Nat) : W32 :=
  (Config.fallowBank stack pc).zeroExtend 32 <<< 18 ||| (BitVec.ofBool (Config.fallowUsed stack pc)).zeroExtend 32 <<< 30

def Upkeep.init (stack : Nat) : Upkeep :=
  { refreshes := 0, owed := 0, scrubs := 0, rows := [], queue := [], sparing := Vector.ofFn fun i : Fin 64 => sparingInit stack i.val, code := 0,
    bus := Vector.replicate 32 default, hot := false }

def Area.init : Area := { base := 0, size := 0, used := [] }

/-- A partition that does not exist. -/
def Partition.init : Partition :=
  { exists_ := false, keyId := 0, ptroot := 0, share := 1, pslice := 50, vt := 0, active := false, seedBase := 0, seedLog2 := 0,
    queues := Vector.replicate 8 [], pool := Area.init, save := Area.init, park := Area.init, meas := Vector.replicate 16 0,
    energy := 0, traffic := 0, pstall := 0 }

def Chan.init : Chan :=
  { owner := none, part := 0, busy := false, sid := 0, gang := 0, scout := 0, at_ := 0, seq := none, waiting := false, lineWait := none, recs := [] }

/-- R309, R319, R320: the arbiter at reset. -/
def Power.init : Power :=
  { curves := [], nextSeq := 0, pmeas := 0, hot := 95, pool := 2800, head := [], headf := [], account := 0, nextGate := 0, round := 0,
    moved := 0, grants := [] }

def Func.init : Func :=
  { intakeBase := 0, intakeSize := 0, intakeAcc := 0, evBase := 0, evSize := 0, evWr := 0, evvec := 0, winbase := 0, events := [],
    spdm := 0 }

def Port.init : Port :=
  { up := false, peer := 0, peerPort := 0, lanes := 0x1F, active := 0xF, txSeq := 0, rxNext := 0, unacked := [], inq := [],
    stopped := false, resend := false }

/-- R401, R402: a die's syndrome registers at power-on; fields without meaning read as zero. -/
def Syndrome.init (die : Nat) : Syndrome :=
  { fatal := false, fcause := 0, ovf := false, uev := false, first := 0, finfo := 0, last := 0, linfo := 0, ucnt := 0, ccnt := 0,
    repair := Config.repairFields die &&& (if die < 3 then 0x00FFFFFFFF000000 else 0x00FFFFFFFF3FFFE0), rowpar := 0,
    ppr := Vector.ofFn fun v : Fin 8 =>
      if die = 1 then (Config.pprLeft v.val).zeroExtend 16 else if die = 2 then (Config.pprLeft (8 + v.val)).zeroExtend 16 else 0,
    badRows := [], corRows := [], sramRows := [], coreErrs := [], retries := [] }

/-- R351: the sparing registers that a die's configuration covers. -/
def dieSparing (up : Vector Upkeep 16) (die : Nat) : List W32 :=
  if die < 3 then []
  else ((up[2 * (die - 3)]?).map fun u => u.sparing.toList).getD [] ++ ((up[2 * (die - 3) + 1]?).map fun u => u.sparing.toList).getD []

/-- R353: the four device measurements after the release of the first `n` dies. -/
def measureDies (up : Vector Upkeep 16) (syn : Vector Syndrome 11) (n : Nat) : Vector (BitVec 256) 4 :=
  let ext (ds : List (BitVec 256)) : BitVec 256 := ds.foldl extendMeas 0
  #v[ext [Config.firmware 0], ext (([1, 2].filter (· < n)).map Config.firmware),
     ext (((List.range 11).filter fun d => decide (3 ≤ d) && decide (d < n)).map Config.firmware),
     ext ((List.range (min n 11)).map fun d => Config.configuration d (((syn[d]?).map Syndrome.repair).getD 0) (dieSparing up d)
       (((syn[d]?).map fun y => y.ppr.toList).getD []) (((syn[d]?).map Syndrome.mended).getD []))]

/-- R353: the attestation record of a new partition. -/
def newRecord (measd : Vector (BitVec 256) 4) : Vector (BitVec 256) 16 :=
  Vector.ofFn fun i : Fin 16 => if h : i.val < 4 then measd[i.val] else 0

/-- R354: the key store as the part is delivered: only the fused slots are filled. -/
def keysInit : Vector (Option KeySlot) 16 :=
  Vector.ofFn fun i : Fin 16 =>
    if i.val < 2 then some { x := (Config.fusedKey i.val).1, y := (Config.fusedKey i.val).2, mask := 0 } else none

/-- The package once every die has been released (R351 to R353, R363), given what outlasts a reset: memory, the key store, the
syndrome registers and the sparing registers, the clusters with a core
that cannot be replaced, the number of the next encryption key. -/
def State.booted (mem : Mem) (keys : Vector (Option KeySlot) 16) (syn : Vector Syndrome 11) (up : Vector Upkeep 16) (dead : Vector Bool 48)
    (key : Nat) : State :=
  let measd := measureDies up syn 11
  { cur := { core := 0, slot := .s }, agenda := [], tick := 0, free := 0,
    cores := Vector.replicate 192 Core.init, mons := Vector.replicate 192 { line := none, hit := false },
    clusters := dead.map fun d => { Cluster.init with withheld := d, dead := d }, hbm := Vector.replicate 16 Stack.init, quarry := Vector.replicate 16 Quarry.init,
    upkeep := up, mem := mem, wback := [], nextObj := 1, nextSid := 1,
    graphs := [], nextGid := 1, nextOrder := 1, images := [], launches := [], lastLaunch := 0, gangs := [], halted := [], preqs := [], rsvs := [],
    placing := [], vtUs := 0,
    parts := (Vector.replicate 64 Partition.init).set 0 { Partition.init with exists_ := true, keyId := key, meas := newRecord measd },
    classes := [], chans := Vector.replicate 192 Chan.init, xlats := Vector.replicate 25 [], pins := [],
    pfaults := [], nextFseq := 1, arrivals := [], reductions := [], wires := [], power := Power.init,
    diePower := Vector.replicate 8 true, bootstat := 0, measd := measd, keys := keys,
    nextKey := key + 1, funcs := Vector.replicate 64 Func.init, hostOut := [], package := 0, routes := [], imports := [],
    ports := Vector.replicate 48 Port.init, syn := syn }

/-- The package right after a power-on reset in which every signature verified. -/
def State.reset : State :=
  State.booted { cells := [], poison := [], tags := [] } keysInit (Vector.ofFn fun i : Fin 11 => Syndrome.init i.val)
    (Vector.ofFn fun i : Fin 16 => Upkeep.init i.val) (Vector.replicate 48 false) 1

end Sys2Proof.Machine
end

