-- ==== Sys2Proof/Machine/Memory.lean ====
section
/-! DEFINITION. Memory: the physical address space, reads and writes of bytes with line poison and encryption keys (R7, R227,
R245, R355). The address space is flat: each tier, yard and typed buffer has a region of its own. -/

namespace Sys2Proof.Machine

/-- HBM storage: a stack and an offset in it (R227). -/
def hbmAddr (stack off : Nat) : Nat := stack * 2 ^ 36 + off

/-- R379: the silo's bytes. -/
def siloLimit : Nat := 2 ^ 41

/-- A silo address. -/
def siloAddr (a : Nat) : Nat := 2 ^ 44 + a

/-- A host address of a partition's PASID. -/
def hostAddr (part a : Nat) : Nat := 2 ^ 52 + part * 2 ^ 48 + a

/-- A device address of a peer package. -/
def peerAddr (pkg a : Nat) : Nat := 2 ^ 60 + pkg * 2 ^ 48 + a

/-- A byte of a yard image (R222, R223). -/
def yardAddr (yard off : Nat) : Nat := 2 ^ 72 + yard * 2 ^ 25 + off

/-- A byte of the W buffer of a typed-buffer state (R409). -/
def wbufAddr (id off : Nat) : Nat := 2 ^ 96 + id * 2 ^ 24 + off

/-- A byte of the A buffer. -/
def abufAddr (id off : Nat) : Nat := 2 ^ 96 + id * 2 ^ 24 + 2 ^ 22 + off

/-- A byte of the C buffer: row `r`, column `c` at 1,024r + 4c (R153, R192). -/
def cbufAddr (id off : Nat) : Nat := 2 ^ 96 + id * 2 ^ 24 + 2 ^ 23 + off

def isHbm (a : Nat) : Bool := decide (a < 2 ^ 40)
def stackOf (a : Nat) : Nat := a / 2 ^ 36
def isSilo (a : Nat) : Bool := decide (2 ^ 44 ≤ a) && decide (a < 2 ^ 52)
def isYard (a : Nat) : Bool := decide (2 ^ 72 ≤ a) && decide (a < 2 ^ 96)

def yardLimit : Nat := 0x1800000
def bufLimit : Nat := 0x400000
def cbufLimit : Nat := 0x100000

/-- The 64-byte line of an address (R245). -/
def lineOf (a : Nat) : Nat := a / 64

/-- The byte stored at an address; what nothing has written reads as zero. -/
def Mem.byte (m : Mem) (a : Nat) : Byte := SMap.get 0 m.cells a

/-- Whether a line is poisoned. -/
def Mem.bad (m : Mem) (line : Nat) : Bool := SMap.get false m.poison line

/-- The key under which a byte was written; 0 is none. From 2^64 on it is that of a byte that was not written itself: see `staleKey`. -/
def Mem.key (m : Mem) (a : Nat) : Nat := SMap.get 0 m.tags a

/-- The canonical form of memory. -/
def Mem.wf (m : Mem) : Bool := SMap.wf (0 : Byte) m.cells && SMap.wf false m.poison && SMap.wf 0 m.tags

/-- R355: the key of a byte whose 16-byte block was stored under `tag` by a write that did not write the byte, which stood under `old`. -/
def staleKey (tag old : Nat) : Nat := tag + 2 ^ 64 * (1 + old % 2 ^ 64)

/-- R355: the keys of the bytes of a write, and of the rest of their 16-byte blocks: XTS encrypts a block of HBM or silo storage as one,
so a write of part of it stores all of it under the key of the write. The first key is that of byte `a / 16 * 16`. -/
def Mem.blockKeys (m : Mem) (tag a : Nat) (bs : List (Option Byte)) : List (Option Nat) :=
  let a0 := a / 16 * 16
  let n := (a + bs.length + 15) / 16 * 16 - a0
  let wrote (x : Nat) : Bool := decide (a ≤ x) && (bs[x - a]?.join).isSome
  (List.range n).map fun i =>
    let x := a0 + i
    if wrote x then some tag
    else if m.key x % 2 ^ 64 != tag && (List.range 16).any fun k => wrote (x / 16 * 16 + k) then some (staleKey tag (m.key x))
    else none

/-- Bytes stored from an address on under a key; `none` leaves a byte. -/
def Mem.putAll (m : Mem) (tag a : Nat) (bs : List (Option Byte)) : Mem :=
  { m with
    cells := SMap.setRun 0 m.cells a bs,
    tags :=
      if a < 2 ^ 52 then SMap.setRun 0 m.tags (a / 16 * 16) (m.blockKeys tag a bs)
      else SMap.setRun 0 m.tags a (bs.map fun b => b.map fun _ => tag) }

/-- A line's poison set or cleared. -/
def Mem.setBad (m : Mem) (line : Nat) (b : Bool) : Mem := { m with poison := SMap.set false m.poison line b }

/-- The lines that bytes from `a` on touch. -/
def linesFrom (a n : Nat) : List Nat :=
  if n = 0 then [] else (List.range ((a + n - 1) / 64 + 1 - a / 64)).map (a / 64 + ·)

/-- R153: the bytes of a write, with the bits that stay taken from memory. -/
def MWrite.bytesOn (w : MWrite) (m : Mem) : List (Option Byte) :=
  if w.keep.isEmpty then w.data
  else w.data.zipIdx.map fun b =>
    match w.keep.find? fun k => k.1 == b.2 with
    | some (_, k) => b.1.map fun x => (m.byte (w.addr + b.2) &&& k) ||| (x &&& ~~~k)
    | none => b.1

/-- Does a write cover every byte of a line. -/
def MWrite.covers (w : MWrite) (line : Nat) : Bool :=
  w.keep.isEmpty && decide (w.addr ≤ line * 64) &&
    (((w.data.drop (line * 64 - w.addr)).take 64).length == 64) &&
    ((w.data.drop (line * 64 - w.addr)).take 64).all Option.isSome

/-- The lines of which a write stores some byte. -/
def MWrite.lines (w : MWrite) : List Nat := linesFrom w.addr w.data.length

/-- R245: a write stores its bytes; it clears the poison of a line that it covers whole with unpoisoned data, and marks the
lines it writes poisoned. -/
def Mem.apply (m : Mem) (w : MWrite) : Mem :=
  let m1 := m.putAll w.tag w.addr (w.bytesOn m)
  let m2 := w.lines.foldl (fun m l => if w.covers l && !w.marks.contains l then m.setBad l false else m) m1
  w.marks.foldl (fun m l => m.setBad l true) m2

/-- The lines at which a write is seen by a monitor. -/
def MWrite.touched (w : MWrite) : List Nat :=
  (w.lines.filter fun l => ((w.data.drop (l * 64 - w.addr)).take (64 - (w.addr - l * 64))).any Option.isSome) ++ w.marks

/-- R119: a write to the watched line triggers the monitor. -/
def Monitor.see (ls : List Nat) (m : Monitor) : Monitor :=
  match m.line with
  | some l => if ls.contains l then { m with hit := true } else m
  | none => m

/-- A write performed with respect to every party: memory takes it and monitors see it. -/
def State.commit (s : State) (w : MWrite) : State :=
  { s with mem := s.mem.apply w, mons := s.mons.map (Monitor.see w.touched) }

/-- Several writes performed in order. -/
def State.commitAll (s : State) (ws : List MWrite) : State := ws.foldl State.commit s

/-- R355: a byte read under a key. A byte written under another key reads as its decryption under the reading key, and so does one
whose block has since been stored under the reading key by a write that left the byte. -/
def Mem.read (m : Mem) (key a : Nat) : Byte :=
  if m.key a = key then m.byte a
  else if m.key a % 2 ^ 64 = key then Config.xtsStale (m.key a) a (m.byte a)
  else
    let blk := a / 16 * 16
    Config.xtsCross ((List.range 16).map fun i => m.key (blk + i)) key blk (a % 16) ((List.range 16).map fun i => m.byte (blk + i))

/-- Bytes from an address on. -/
def Mem.reads (m : Mem) (key a n : Nat) : List Byte := (List.range n).map fun i => m.read key (a + i)

/-- Is any line of a range poisoned. -/
def Mem.anyBad (m : Mem) (a n : Nat) : Bool := (linesFrom a n).any m.bad

/-- The poisoned lines of a range. -/
def Mem.badLines (m : Mem) (a n : Nat) : List Nat := (linesFrom a n).filter m.bad

/-- The first poisoned line of a range. -/
def Mem.firstBad (m : Mem) (a n : Nat) : Option Nat := (linesFrom a n).find? m.bad

/-- Little-endian value of bytes (R7). -/
def leNat : List Byte → Nat
  | [] => 0
  | b :: rest => b.toNat + 256 * leNat rest

/-- The `n` bytes of a value, little-endian (R7). -/
def leBytes : Nat → Nat → List Byte
  | 0, _ => []
  | n + 1, v => BitVec.ofNat 8 v :: leBytes n (v / 256)

/-- A write of whole bytes with no poison. -/
def MWrite.plain (a tag : Nat) (bs : List Byte) : MWrite := { addr := a, data := bs.map some, marks := [], tag := tag }

/-- A write that only marks lines poisoned. -/
def MWrite.mark (ls : List Nat) : MWrite := { addr := 0, data := [], marks := ls, tag := 0 }

/-- The writes that a party's own path sees before they are performed for others (R231): memory with them applied. -/
def Mem.over (m : Mem) (ws : List MWrite) : Mem := ws.foldl Mem.apply m

/-- Memory as one path of a strand sees it: with the writes of that path that its stacks have accepted. Paths are numbered as
in R78: S 0, V 1, M 2, A 3, H 4, Q 5, E 6. -/
def State.view (s : State) (sid path : Nat) : Mem :=
  s.hbm.foldl (fun m st => st.writes.foldl (fun m h => if h.sid = sid && h.path = path then m.apply h.w else m) m) s.mem

/-- Does a write that a controller has accepted touch a range. -/
def HWrite.touches (a n : Nat) (h : HWrite) : Bool :=
  decide (h.w.addr < a + n) && decide (a < h.w.addr + h.w.data.length)

/-- An accepted write without the bytes of a range. -/
def HWrite.spare (a n : Nat) (h : HWrite) : HWrite :=
  { h with w := { h.w with data := h.w.data.zipIdx.map fun b => if decide (a ≤ h.w.addr + b.2) && decide (h.w.addr + b.2 < a + n) then none else b.1 } }

/-- R111, R237: an atomic that writes a unit follows the writes of its strand's S path to it that a controller has accepted and not yet
performed for others: what they would have stored there is no longer to come. -/
def State.supersede (s : State) (sid a n : Nat) : State :=
  { s with hbm := s.hbm.map fun q => { q with writes := q.writes.map fun h => if h.sid = sid && h.path = 0 && h.touches a n then h.spare a n else h } }

/-- Bytes of an unencrypted region from an address on, in one pass (yards, typed buffers). -/
def Mem.span (m : Mem) (a n : Nat) : List Byte := SMap.run 0 n (m.cells.dropWhile fun e => decide (e.1 < a)) a

/-- Bytes of a region that is not encrypted, or of one that is. -/
def Mem.bytesAt (m : Mem) (tag a n : Nat) : List Byte := if a < 2 ^ 72 then m.reads tag a n else m.span a n

/-- R212: the bytes of a range, zero where a line is poisoned, and the offsets of those. -/
def Mem.readBad (m : Mem) (tag a n : Nat) : List Byte × List Nat :=
  let bs := m.bytesAt tag a n
  let bad := if m.anyBad a n then (List.range n).filter fun i => m.bad (lineOf (a + i)) else []
  (bs.zipIdx.map fun b => if bad.contains b.2 then 0 else b.1, bad)

/-- Bytes written over others from offset `off` on. -/
def overlayAt (off : Nat) (a b : List (Option Byte)) : List (Option Byte) :=
  a.take off ++ (List.range (max (a.length - off) b.length)).map fun i =>
    match b[i]? with
    | some (some x) => some x
    | _ => (a[off + i]?).getD none

/-- Writes in order, those that touch or adjoin the one before joined to it. -/
def joinWrites (ws : List MWrite) : List MWrite :=
  (ws.foldl (fun (acc : List MWrite) w =>
    match acc with
    | [] => [w]
    | p :: rest =>
      if p.addr ≤ w.addr && w.addr ≤ p.addr + p.data.length && p.tag == w.tag && p.keep.isEmpty && w.keep.isEmpty then
        { p with data := overlayAt (w.addr - p.addr) p.data w.data, marks := p.marks ++ w.marks } :: rest
      else w :: acc) []).reverse

/-- R245: the lines that several writes of one request store, each as one write. -/
def lineWrites (ws : List MWrite) : List MWrite :=
  ((ws.flatMap MWrite.lines).dedup.insertionSort fun a b => a ≤ b).map fun l =>
    { addr := 64 * l, marks := if ws.any fun w => w.marks.contains l then [l] else [], tag := (ws.head?.map MWrite.tag).getD 0,
      data := (List.range 64).map fun i => ws.foldl (fun b w =>
        if 64 * l + i < w.addr then b else match w.data[64 * l + i - w.addr]? with | some (some x) => some x | _ => b) none }

/-- R245: the pieces of one request as the write that they are together, so that a line that it covers by several of them is covered. -/
def oneWrite (ws : List MWrite) : List MWrite :=
  if ws.length ≤ 1 || ws.any fun w => !w.keep.isEmpty || w.tag != (ws.head?.map MWrite.tag).getD 0 then ws else joinWrites (lineWrites ws)

end Sys2Proof.Machine
end

