-- ==== Sys2Proof/Machine/FieldMap.lean ====
section
/-! DEFINITION. The field map (R225 to R228): translation of a device address, its permission checks, the gated response of a
yard window (R317), discarded pages (R389), the split of a range at field boundaries (R241), and the walk of page tables (R343). -/

namespace Sys2Proof.Machine

/-- Trap causes (R337). -/
inductive Cause where
  | illegal | reservedNonzero | privilege | fieldMiss | fieldPerm | misalign | format | poison | xown | flagOverflow
  | remoteGated | discarded | engineFault | soft | shed
deriving DecidableEq, Repr, Inhabited

/-- R337: the code of a cause. -/
def Cause.code : Cause → W64
  | .illegal => 1 | .reservedNonzero => 2 | .privilege => 3 | .fieldMiss => 4 | .fieldPerm => 5 | .misalign => 6
  | .format => 7 | .poison => 8 | .xown => 9 | .flagOverflow => 10 | .remoteGated => 11 | .discarded => 12
  | .engineFault => 13 | .soft => 14 | .shed => 15

/-- What an access needs of its field (R226). -/
inductive Perm where
  | none | r | w | rw | x
deriving DecidableEq, Repr, Inhabited

def FieldEnt.allows (f : FieldEnt) : Perm → Bool
  | .none => true
  | .r => f.permR
  | .w => f.permW
  | .rw => f.permR && f.permW
  | .x => f.permX

/-- R226: window size in bytes. -/
def FieldEnt.size (f : FieldEnt) : Nat := 2 ^ (f.lsz + 16)

/-- Does a window hold an address (R225). -/
def FieldEnt.holds (f : FieldEnt) (a : Nat) : Bool := decide (f.vbase ≤ a) && decide (a < f.vbase + f.size)

/-- A translated address: the physical address, the key of its bytes, whether a yard window gives the gated response there,
whether its page is discarded, and its field. -/
structure Tgt where
  addr : Nat
  tag : Nat
  gated : Bool
  disc : Bool
  fld : FieldEnt
deriving DecidableEq, Repr

/-- The launch of an identifier. -/
def State.launch? (s : State) (id : Nat) : Option Launch := s.launches.find? fun l => l.id == id

/-- A launch's record replaced. -/
def State.setLaunch (s : State) (l : Launch) : State :=
  { s with launches := s.launches.map fun m => if m.id == l.id then l else m }

/-- R227: the HBM stack and offset of byte `o` of a field bound at `p`. -/
def ilvAddr (p o : Nat) (ilv : BitVec 2) : Nat :=
  let s0 := p / 2 ^ 36 % 16
  let b0 := p % 2 ^ 36
  let blk := o / 2048
  match ilv.toNat with
  | 0 => hbmAddr s0 (b0 + o)
  | 1 => hbmAddr (s0 + blk % 2) (b0 + blk / 2 * 2048 + o % 2048)
  | _ => hbmAddr ((s0 + blk % 16) % 16) (b0 + blk / 16 * 2048 + o % 2048)

/-- R226, R355: the key of a field's bytes. -/
def State.fieldKey (s : State) (part : Fin 64) (f : FieldEnt) : Nat :=
  if f.key = 1 then 0
  else if f.tier = 0 || f.tier = 1 then s.parts[part].keyId else 0

/-- R289, R317: a slot's yard is reached only while the slot is placed on a cluster that is not gated. -/
def State.slotGated (s : State) (l : Launch) (k : Nat) : Bool :=
  match l.slots[k]? with
  | some sl =>
    match sl.cluster with
    | some c => if h : c < 48 then s.clusters[c].gated else true
    | none => true
  | none => true

/-- The yard object of a slot. -/
def Launch.yardOf (l : Launch) (k : Nat) : Nat :=
  match l.slots[k]? with
  | some sl => sl.yard
  | none => 0

/-- R367, R368: no port by which a peer's traffic leaves is up. -/
def State.peerDown (s : State) (pkg : Nat) : Bool :=
  match s.routes.find? fun r => r.1 == pkg with
  | none => true
  | some (_, m) => (List.finRange 48).all fun i => !(m.getLsbD i.val && (s.ports[i]).up)

/-- R367, R368: does an access to a peer meet the gated response: no port leads there, or the target refuses it, which only the target
knows. -/
def State.peerRefused (s : State) (pkg a : Nat) : Bool := s.peerDown pkg || Config.peerRefuses pkg a s.tick

/-- The package and the address there that an address of a peer names. -/
def peerOf (a : Nat) : Option (Nat × Nat) :=
  if 2 ^ 60 ≤ a && decide (a < 2 ^ 72) then some ((a - 2 ^ 60) / 2 ^ 48, (a - 2 ^ 60) % 2 ^ 48) else none

/-- R368: does an address lie in a peer to which no port leads. -/
def State.peerCut (s : State) (a : Nat) : Bool := (peerOf a).any fun x => s.peerDown x.1

/-- R368: does an access to an address of a peer receive the gated response. -/
def State.peerGated (s : State) (a : Nat) : Bool := (peerOf a).any fun x => s.peerRefused x.1 x.2

/-- R227: the target of byte `o` of a field, where the window has one; none stands beyond the 2 TiB of the silo (R379; DESIGN CHOICE, log). -/
def State.fieldTgt (s : State) (l : Launch) (f : FieldEnt) (o : Nat) : Option Tgt :=
  let p := f.pbase * 2 ^ 16
  let disc := l.disc.contains (f.idx, o / 2 ^ 16)
  match f.tier.toNat with
  | 0 =>
    match f.slot with
    | some k =>
      let off := p % 2 ^ 25 + o
      if off < yardLimit then
        some { addr := yardAddr (l.yardOf k) off, tag := 0, gated := s.slotGated l k, disc := false, fld := f }
      else none
    | none => some { addr := ilvAddr p o f.ilv, tag := s.fieldKey l.part f, gated := false, disc := disc, fld := f }
  | 1 => if p + o < siloLimit then some { addr := siloAddr (p + o), tag := s.fieldKey l.part f, gated := false, disc := disc, fld := f } else none
  | 2 => some { addr := hostAddr l.part (p + o), tag := 0, gated := false, disc := disc, fld := f }
  | _ => some { addr := peerAddr f.peer (p + o), tag := 0, gated := s.peerRefused f.peer (p + o), disc := disc, fld := f }

/-- R225: the one valid entry whose window holds an address. -/
def Launch.field? (l : Launch) (a : Nat) : Option FieldEnt := l.fields.find? fun f => f.holds a

/-- R225, R227: translation of a device address with its permission check; FIELD_MISS before FIELD_PERM. -/
def State.translate (s : State) (l : Launch) (a : W64) (need : Perm) : Except Cause Tgt :=
  match l.field? a.toNat with
  | none => .error .fieldMiss
  | some f =>
    match s.fieldTgt l f (a.toNat - f.vbase) with
    | none => .error .fieldMiss
    | some t => if f.allows need then .ok t else .error .fieldPerm

/-- The gated response, or the discarded page, that a write meets at a target. -/
def Tgt.writeCause (t : Tgt) : Option Cause := if t.disc then some .discarded else none

/-- A piece of a device range that lies in one field and, for HBM storage, in one aligned 2 KiB block. -/
structure Piece where
  dev : W64
  len : Nat
  tgt : Tgt
deriving DecidableEq, Repr

/-- R241: the pieces of a device range, split at field and 2 KiB boundaries; the first byte that fails is named. `fuel` bounds
the number of pieces. -/
def State.pieces (s : State) (l : Launch) (need : Perm) : Nat → W64 → Nat → Except (Cause × W64) (List Piece)
  | 0, _, _ => .ok []
  | fuel + 1, a, n =>
    if n = 0 then .ok []
    else
      match s.translate l a need with
      | .error c => .error (c, a)
      | .ok t =>
        let o := a.toNat - t.fld.vbase
        let toEnd := t.fld.size - o
        let toBlk := 2048 - o % 2048
        let k := min n (min toEnd toBlk)
        match s.pieces l need fuel (a + BitVec.ofNat 64 k) (n - k) with
        | .error e => .error e
        | .ok ps => .ok ({ dev := a, len := k, tgt := t } :: ps)

/- Page tables. -/

/-- R346: fault kinds. -/
inductive FaultKind where
  | notPresent | permission | discarded | badEntry | poisonedTable | refused
deriving DecidableEq, Repr, Inhabited

def FaultKind.code : FaultKind → Nat
  | .notPresent => 0 | .permission => 1 | .discarded => 2 | .badEntry => 3 | .poisonedTable => 4 | .refused => 5

def leafAddr (e : W64) : Nat := (e.extractLsb' 8 40).toNat * 256
def leafTier (e : W64) : Nat := (e.extractLsb' 5 2).toNat
def leafPeer (e : W64) : Nat := (e.extractLsb' 48 12).toNat
def leafDisc (e : W64) : Bool := e.getLsbD 4

/-- R3, R227, R343, R379: a leaf that names HBM storage where there is none, or silo storage beyond its 2 TiB (DESIGN CHOICE, log: the spec
says of neither what an access by it does). -/
def noFrame (leaf : W64) : Bool :=
  (leafTier leaf == 0 && (decide (2 ^ 40 ≤ leafAddr leaf) || decide (0xBD0000000 ≤ leafAddr leaf % 2 ^ 36))) ||
    (leafTier leaf == 1 && decide (siloLimit ≤ leafAddr leaf))

/-- R343: the checks of an entry of a level before its permissions. -/
def entryBad (level : Nat) (e : W64) : Option FaultKind :=
  let leaf := e.getLsbD 1
  let mask := if level = 4 then 2 ^ 16 else if leaf then 2 ^ 21 else if level = 3 then 2 ^ 8 else 2 ^ 12
  if !e.getLsbD 0 then some .notPresent
  else if e.extractLsb' 60 4 != 0 || e.getLsbD 7 then some .badEntry
  else if (leaf && decide (level < 3)) || (!leaf && level == 4) then some .badEntry
  else if leafAddr e % mask != 0 then some .badEntry
  else none

/-- R343: the shift of the address bits that index a level, and how many index it. -/
def levelIndex (level a : Nat) : Nat :=
  match level with
  | 1 => a / 2 ^ 39 % 512
  | 2 => a / 2 ^ 30 % 512
  | 3 => a / 2 ^ 21 % 512
  | _ => a / 2 ^ 16 % 32

/-- R343, R344: the walk from a table of `4 - n` levels down: the leaf with where it stands, whether it maps 2 MiB. A table outside the HBM storage of
R227 is read as whatever stands at its address (DESIGN CHOICE, log: the spec gives no fault for one). -/
def State.walkFrom (s : State) (key a : Nat) : Nat → Nat → Except FaultKind (Nat × W64 × Bool)
  | 0, _ => .error .badEntry
  | n + 1, table =>
    let level := 4 - n
    let at_ := table + 8 * levelIndex level a
    if s.mem.bad (lineOf at_) then .error .poisonedTable
    else
      let e := BitVec.ofNat 64 (leNat (s.mem.reads key at_ 8))
      match entryBad level e with
      | some k => .error k
      | none => if e.getLsbD 1 then .ok (at_, e, level == 3) else s.walkFrom key a n (leafAddr e)

/-- R343: where the entries lie that a walk from a table of `4 - n` levels down reads. -/
def State.tablesFrom (s : State) (key a : Nat) : Nat → Nat → List Nat
  | 0, _ => []
  | n + 1, table =>
    let level := 4 - n
    let at_ := table + 8 * levelIndex level a
    let e := BitVec.ofNat 64 (leNat (s.mem.reads key at_ 8))
    if s.mem.bad (lineOf at_) || (entryBad level e).isSome || e.getLsbD 1 then [at_] else at_ :: s.tablesFrom key a n (leafAddr e)

def State.tableReads (s : State) (p : Fin 64) (a : Nat) : List Nat := s.tablesFrom (s.parts[p]).keyId a 4 (s.parts[p]).ptroot

/-- R343, R355: the leaf of a partition address. -/
def State.walk (s : State) (p : Fin 64) (a : Nat) : Except FaultKind (Nat × W64 × Bool) :=
  s.walkFrom (s.parts[p]).keyId a 4 (s.parts[p]).ptroot

def pageOf (big : Bool) (a : Nat) : Nat := if big then a / 2 ^ 21 else a / 2 ^ 16

def Xlat.holds (x : Xlat) (p : Fin 64) (a : Nat) : Bool := x.part == p && x.page == pageOf x.big a

/-- R343, R389: the leaf of a partition address, by the previous leaf of a page whose INVALIDATE has ended with BUSY. -/
def State.leafOf (s : State) (p : Fin 64) (a : Nat) : Except FaultKind (W64 × Bool) :=
  match s.pins.find? fun x => x.holds p a with
  | some x => if x.leaf.getLsbD 0 then .ok (x.leaf, x.big) else .error .notPresent
  | none => (s.walk p a).map fun r => (r.2.1, r.2.2)

/-- R343: the HBM or silo storage that a partition address names for the command processor, which meets no cache. -/
def State.storeAt (s : State) (p : Fin 64) (a : Nat) : Option Nat :=
  match s.leafOf p a with
  | .ok (e, big) =>
    let b := leafAddr e + (if big then a % 2 ^ 21 else a % 2 ^ 16)
    if noFrame e then none
    else
      match leafTier e with
      | 0 => some b
      | 1 => some (siloAddr b)
      | _ => none
  | .error _ => none

end Sys2Proof.Machine
end

