-- ==== Sys2Proof/Machine/Ops.lean ====
section
/-! DEFINITION. The shared operations of a core: fetching a word (R51), reading and writing registers (R61, R63), flags (R57,
R174), queues (R59), calendar requests (R230), rendezvous (R55), loops and loop buffers (R104, R105, R163), taking a trap
(R338, R341) and returning from one (R339), and the issue of a word around its own effect. -/

namespace Sys2Proof.Machine

open Sys2Proof

/-- The cluster of a core (R131). -/
def clusterOf (c : Fin 192) : Fin 48 := ⟨c.val / 4, by omega⟩

/-- The core's cycle counter: that of its cluster's clock (R296), less the cycles in which a stall wire held the core (R299). -/
def State.cyc (s : State) (c : Fin 192) : Nat := s.clusters[clusterOf c].cyc - s.cores[c].lag

/-- R299: does a stall wire hold the core in the present cycle. -/
def State.held (s : State) (c : Fin 192) : Bool :=
  match s.cores[c].hold with
  | some (f, _) => decide (f < s.clusters[clusterOf c].cyc)
  | none => false

/-- The strand that stands on a core. -/
def State.strand? (s : State) (c : Fin 192) : Option Strand := s.cores[c].strand

/-- A core's strand replaced. -/
def State.setSt (s : State) (c : Fin 192) (st : Strand) : State :=
  { s with cores := s.cores.set c { s.cores[c] with strand := some st } }

/-- A core with no strand. -/
def State.clearSt (s : State) (c : Fin 192) : State :=
  { s with cores := s.cores.set c { s.cores[c] with strand := none } }

/-- A core's record replaced. -/
def State.setCore (s : State) (c : Fin 192) (k : Core) : State := { s with cores := s.cores.set c k }

/-- R223: the yard object of a core's cluster. -/
def State.yardOfCore (s : State) (c : Fin 192) : Nat := (s.clusters[clusterOf c].yard).getD 0

/- Writes of a cycle (R221). -/

/-- The cluster whose yard an address lies in. -/
def State.yardCluster (s : State) (a : Nat) : Option (Fin 48) :=
  (List.finRange 48).find? fun q => (s.clusters[q]).yard == some ((a - 2 ^ 72) / 2 ^ 25)

/-- Is an address in the yard of a core's cluster or in its typed buffers. -/
def State.atHome (s : State) (c : Fin 192) (a : Nat) : Bool :=
  decide (2 ^ 96 ≤ a) || (decide (2 ^ 72 ≤ a) && (s.clusters[clusterOf c]).yard == some ((a - 2 ^ 72) / 2 ^ 25))

/-- R221: where a write of a path of a core to its own yard and buffers stands among those of a cycle: by core, then by path. DEDUCED
(log): the order by core comes before the order by path. -/
def landRank (c : Fin 192) (path : Nat) : Nat := 8 * (c.val % 4) + path

/-- The first byte that a write stores, or marks. -/
def MWrite.at_ (w : MWrite) : Nat := if w.data.isEmpty then 64 * w.marks.head?.getD 0 else w.addr

/-- R221: the writes that reached a cluster's yard and buffers in the present cycle, in the order in which they apply, and one more. -/
def landIn (l : Landed) : List Landed → List Landed
  | [] => [l]
  | o :: rest => if o.rank ≤ l.rank then o :: landIn l rest else l :: o :: rest

/-- R221: a write that takes place `rank` among those of the cycle of a cluster; the writes of later places stand over it. -/
def State.landAt (s : State) (q : Fin 48) (rank : Nat) (w : MWrite) : State :=
  let k := s.clusters[q]
  let s1 := s.commit w
  { s1 with
    mem := s1.mem.over ((k.recent.filter fun o => decide (rank < o.rank)).map Landed.w),
    clusters := s1.clusters.set q { k with recent := landIn { rank := rank, w := w } k.recent } }

/-- A write of a haul engine, the host, or a core through a DEV field, be it a window that names the core's own cluster: through the remote
port where it goes to a yard, the last of its cycle (R221). -/
def State.landFar (s : State) (w : MWrite) : State :=
  match if isYard w.at_ then s.yardCluster w.at_ else none with
  | some q =>
    let k := s.clusters[q]
    { s.commit w with clusters := s.clusters.set q { k with recent := k.recent ++ [{ rank := 64, w := w }] } }
  | none => s.commit w

/-- A write of a path of a core that is performed with respect to every party, in its place in the cycle (R221). -/
def State.land (s : State) (c : Fin 192) (path : Nat) (w : MWrite) : State :=
  if s.atHome c w.at_ then s.landAt (clusterOf c) (landRank c path) w else s.landFar w

/-- The writes of a haul engine, the quarry logic or the host, in order. -/
def State.deliver (s : State) (ws : List MWrite) : State := ws.foldl State.landFar s

def State.landAll (s : State) (c : Fin 192) (path : Nat) (ws : List MWrite) : State := ws.foldl (fun s w => s.land c path w) s

/-- R266: device time in nanoseconds: 5 ns in two periods of the 400 MHz reference, which is four ticks a period. -/
def dtime (tick : Nat) : Nat := tick / 4 * 5 / 2

/-- R362: an event waits for its slot in a partition's event ring; its bytes 15:8 hold DTIME. -/
def State.logEvent (s : State) (p : Fin 64) (kind : Nat) (args : List Byte) : State :=
  let f := s.funcs[p]
  let body := leBytes 8 (dtime s.tick) ++ args ++ List.replicate (48 - args.length) 0
  { s with funcs := s.funcs.set p { f with events := f.events ++ [{ kind := kind, body := body }] } }

/-- R362: a NOTICE with its two arguments. -/
def State.notice (s : State) (p : Fin 64) (code a b : Nat) : State :=
  s.logEvent p 6 (leBytes 8 code ++ leBytes 8 a ++ leBytes 8 b)

/- Registers. -/

/-- R61: X0 reads as zero. -/
def Strand.xv (st : Strand) (r : BitVec 5) : W64 := if r = 0 then 0 else st.x[r.toNat]

/-- R64: the poison bit of a register; X0 carries none. -/
def Strand.xp (st : Strand) (r : BitVec 5) : Bool := r != 0 && st.xbad.getLsbD r.toNat

/-- A landed write of an X register (R61: X0 discards it). -/
def Strand.xput (st : Strand) (r : BitVec 5) (v : W64) (bad : Bool) : Strand :=
  if r = 0 then st
  else { st with x := st.x.set r.toNat v,
                 xbad := if bad then st.xbad ||| (1#32 <<< r.toNat) else st.xbad &&& ~~~(1#32 <<< r.toNat) }

/-- A write of an X register that lands in cycle `due` (R63). -/
def Strand.xlater (st : Strand) (due : Nat) (r : BitVec 5) (v : W64) (bad byS : Bool) : Strand :=
  if r = 0 then st else { st with xpend := st.xpend ++ [{ due := due, reg := r, val := v, bad := bad, byS := byS }] }

/-- R61: may S, or H, write a register. X0 has no owner. -/
def Strand.owns (st : Strand) (byH : Bool) (r : BitVec 5) : Bool := r == 0 || st.xown.getLsbD r.toNat == byH

/-- The destination of an outstanding S access. -/
def SAcc.dest (a : SAcc) : Option (BitVec 5) :=
  match a.op with
  | .load xd _ => some xd
  | .ldk xd => some xd
  | .amo _ xd _ => some xd
  | .store _ => none

/-- R63, R95: has a register an S write that has not landed. -/
def Strand.outstanding (st : Strand) (cyc : Nat) (r : BitVec 5) : Bool :=
  r != 0 && (st.xpend.any (fun w => w.byS && w.reg == r && decide (cyc < w.due)) || st.accs.any fun a => a.dest == some r)

/-- R124, R66, R161: a control-register write takes effect; a VSETSH of the same cycle stands over a CSRW of VSHAPE. -/
def Strand.csrPut (st : Strand) (w : CsrWrite) : Strand :=
  match w.num.toNat with
  | 0 => { st with syncmask := w.val.extractLsb' 0 4 }
  | 1 => { st with xown := w.val.extractLsb' 0 32 &&& ~~~1#32 }
  | 2 => if st.vshapeSet = w.due then st else { st with vshape := w.val.extractLsb' 0 13 }
  | 3 => { st with pmark := w.val.getLsbD 0 }
  | 4 =>
    let keepV := if st.fsetCyc + 1 = w.due then st.fsetV else 0
    let keepM := if st.fsetCyc + 1 = w.due then st.fsetM else 0
    { st with fstatV := st.fstatV &&& (~~~(w.val.extractLsb' 0 5) ||| keepV),
              fstatM := st.fstatM &&& (~~~(w.val.extractLsb' 8 5) ||| keepM) }
  | 16 => { st with trapvec := w.val }
  | 19 => { st with trappc := w.val }
  | _ => st

/-- R166: a BFMT register written: 0 to 31 are those of W, 32 to 63 those of A. -/
def TBuf.setBfmt (t : TBuf) (i : Fin 64) (v : W32) : TBuf :=
  if h : i.val < 32 then { t with bfmtW := t.bfmtW.set i.val v }
  else { t with bfmtA := t.bfmtA.set (i.val - 32) v (by omega) }

/-- Writes whose cycle has come take effect (R63, R124, R216). -/
def Strand.settle (st : Strand) (cyc : Nat) : Strand :=
  let st1 := (st.xpend.filter fun w => decide (w.due ≤ cyc)).foldl (fun t w => t.xput w.reg w.val w.bad) st
  let st2 := (st.cpend.filter fun w => decide (w.due ≤ cyc)).foldl Strand.csrPut st1
  let st3 := (st.tspend.filter fun w => decide (w.1 ≤ cyc)).foldl (fun t w => { t with ts := t.ts.set w.2.1.toNat w.2.2 }) st2
  let st4 := (st3.bpend.filter fun w => decide (w.1 ≤ cyc)).foldl (fun t w => { t with tb := t.tb.setBfmt w.2.1 w.2.2 }) st3
  { st4 with xpend := st.xpend.filter fun w => decide (cyc < w.due),
             cpend := st.cpend.filter fun w => decide (cyc < w.due),
             tspend := st.tspend.filter fun w => decide (cyc < w.1),
             bpend := st.bpend.filter fun w => decide (cyc < w.1) }

/-- R49: flags of words that land in cycle `cyc`; a bit set in the cycle in which a CSRW clears it ends set. -/
def Strand.setFlags (st : Strand) (cyc : Nat) (v m : BitVec 5) : Strand :=
  let same := st.fsetCyc = cyc
  { st with fstatV := st.fstatV ||| v, fstatM := st.fstatM ||| m, fsetCyc := cyc,
            fsetV := (if same then st.fsetV else 0) ||| v, fsetM := (if same then st.fsetM else 0) ||| m }

/- Flags. -/

/-- R174: the counts reserved on a flag by M words in progress. -/
def Strand.reserved (st : Strand) (f : BitVec 4) : Nat := (st.mpend.filter fun p => p.sig == f).length

/-- R57, R174: may a flag take one more signal; F0 takes any. -/
def Strand.canSignal (st : Strand) (f : BitVec 4) : Bool := f == 0 || decide ((st.f[f.toNat]).toNat + st.reserved f < 255)

/-- R57: a signal adds one; F0 discards it. -/
def Strand.signal (st : Strand) (f : BitVec 4) : Strand :=
  if f = 0 then st else { st with f := st.f.set f.toNat (st.f[f.toNat] + 1) }

/-- R57: is a wait for `n` satisfied; a wait on F0 or for 0 is. -/
def Strand.canWait (st : Strand) (f : BitVec 4) (n : Nat) : Bool := f == 0 || decide (n ≤ (st.f[f.toNat]).toNat)

/-- R57: a satisfied wait subtracts its count. -/
def Strand.waited (st : Strand) (f : BitVec 4) (n : Nat) : Strand :=
  if f = 0 then st else { st with f := st.f.set f.toNat (st.f[f.toNat] - BitVec.ofNat 8 n) }

/-- R300: flag waits of a furrow group are held while a furrow-bound fault holds its stall wire. -/
def State.waitsHeld (s : State) (c : Fin 192) : Bool :=
  match s.cores[c].strand with
  | some st => s.wires.any fun w => w.gang == st.gang
  | none => false

/- Queues (R59). -/

def Fifo.empty {α : Type} : Fifo α := { items := [], popCyc := 0, pops := 0 }

/-- Entries still taken in this cycle: those held and those popped in it. -/
def Fifo.taken {α : Type} (q : Fifo α) (cyc : Nat) : Nat := q.items.length + if q.popCyc = cyc then q.pops else 0

def Fifo.full {α : Type} (q : Fifo α) (cyc : Nat) : Bool := decide (16 ≤ q.taken cyc)

def Fifo.push {α : Type} (q : Fifo α) (a : α) : Fifo α := { q with items := q.items ++ [a] }

def Fifo.pop {α : Type} (q : Fifo α) (cyc : Nat) : Fifo α :=
  { items := q.items.drop 1, popCyc := cyc, pops := (if q.popCyc = cyc then q.pops else 0) + 1 }

/-- The head, where it may be popped in this cycle. -/
def qHead (q : Fifo QEntry) (cyc : Nat) : Option QEntry :=
  match q.items with
  | [] => none
  | e :: _ => if e.from_ ≤ cyc then some e else none

def rHead (q : Fifo REntry) (cyc : Nat) : Option REntry :=
  match q.items with
  | [] => none
  | e :: _ => if e.from_ ≤ cyc then some e else none

/- Calendar requests (R229, R230). -/

/-- Cycles from now to the start of tick `t` on a core's clock. -/
def Cluster.cyclesTo (k : Cluster) (now t : Nat) : Nat := (k.phase + (t - now) * k.mhz) / 1600

/-- R230: the first slot of a core on a stack that starts 12 cycles or more from now and is not taken. -/
def bindTick (k : Cluster) (core now : Nat) (taken : List Nat) : Nat :=
  let base := now / 400 * 400
  let cands := (List.range 14).flatMap fun r => [base + r * 400 + core, base + r * 400 + 192 + core]
  match cands.find? fun t => decide (now ≤ t) && decide (12 ≤ k.cyclesTo now t) && !taken.contains t with
  | some t => t
  | none => base + 14 * 400 + core

/-- Requests of a core bound on a stack. -/
def Core.boundOn (k : Core) (stack : Nat) : List Nat :=
  k.reqs.filterMap fun r => if r.stack = stack then r.bound else none

/-- R230: entries of a core's queue for a stack that are taken in the present cycle: an entry is free from the cycle after its slot
starts. -/
def Core.queued (k : Core) (stack : Nat) : Nat := (k.boundOn stack).length + k.passed.count stack

/-- R230: would a request of the core have to wait: its stack's queue is full, or earlier requests still wait to enter it. -/
def Core.reqStalls (k : Core) (stack : Nat) : Bool :=
  decide (16 ≤ k.queued stack) || k.reqs.any fun r => r.stack == stack && r.bound.isNone

/-- A copy of a strand. -/
def Strand.copy? (st : Strand) (cid : Nat) : Option Copy := st.copies.find? fun k => k.cid == cid

def SegState.isReady : SegState → Bool
  | .ready _ _ => true
  | _ => false

/-- R230, R350: may a request enter its queue: the data of a copy's write has landed. -/
def Core.reqReady (k : Core) (r : Req) : Bool :=
  match r.who, k.strand with
  | .copyWrite sid cid segs, some st =>
    st.sid != sid || match st.copy? cid with
      | some cp => segs.all fun j => (cp.segs[j]?).all fun g => g.st.isReady
      | none => true
  | _, _ => true

/-- R76: a request counts at its core by the die of its stack. -/
def Core.count (k : Core) (core : Fin 192) (stack : Nat) : Core :=
  if stack / 2 = core.val / 24 then { k with pmlocal := k.pmlocal + 1 } else { k with pmremote := k.pmremote + 1 }

/-- R292: bytes that a launch has asked of HBM storage. -/
def State.addBytes (s : State) (launch n : Nat) : State :=
  { s with launches := s.launches.map fun l => if l.id == launch then { l with bytes := l.bytes + n } else l }

/-- The launch of the strand on a core. -/
def State.launchOn (s : State) (c : Fin 192) : Nat := ((s.cores[c].strand).map Strand.launch).getD 0

/-- R319: bytes of traffic of a partition's work with HBM, the silo, the fabric or the host, in the present round. -/
def State.addTraffic (s : State) (p : Fin 64) (n : Nat) : State :=
  { s with parts := s.parts.set p { s.parts[p] with traffic := s.parts[p].traffic + n } }

/-- R292, R319: bytes that a launch has moved at a physical address. -/
def State.countBytes (s : State) (p : Fin 64) (launch a n : Nat) : State :=
  if 2 ^ 72 ≤ a then s else if isHbm a then (s.addBytes launch n).addTraffic p n else s.addTraffic p n

/-- The partition of the strand on a core. -/
def State.partOn (s : State) (c : Fin 192) : Fin 64 := ((s.cores[c].strand).map Strand.part).getD 0

/-- R230: a request formed at the core; it enters its queue at once where nothing makes it wait. -/
def State.request (s : State) (c : Fin 192) (stack addr len : Nat) (who : ReqWho) : State :=
  let k := s.cores[c].count c stack
  let r : Req := { stack := stack, addr := addr, len := len, who := who, bound := none, reach := (s.clusters[clusterOf c]).cyc + 12 }
  let b := if k.reqStalls stack || !k.reqReady r then none else some (bindTick s.clusters[clusterOf c] c.val s.tick (k.boundOn stack))
  let s1 := s.setCore c { k with reqs := k.reqs ++ [{ r with bound := b }] }
  if who == .slab then s1 else s1.countBytes (s.partOn c) (s.launchOn c) addr len

/-- The compute die of a physical address as a core meets it: of its stack, of the cluster whose yard it is, the core's own for its
typed buffers. -/
def State.dieOf (s : State) (c : Fin 192) (a : Nat) : Option Nat :=
  if isHbm a then some (stackOf a / 2)
  else if 2 ^ 96 ≤ a then some (c.val / 24)
  else if isYard a then (s.yardCluster a).map fun q => q.val / 6
  else none

/-- R76: 64-byte units that reach a core from another die: the silo, host, peers, other dies' stacks and yards. -/
def State.countXdie (s : State) (c : Fin 192) (fromDie : Option Nat) (bytes : Nat) : State :=
  if fromDie = some (c.val / 24) then s
  else s.setCore c { s.cores[c] with pmxdie := s.cores[c].pmxdie + BitVec.ofNat 64 ((bytes + 63) / 64) }

/- Fetch. -/

/-- A slot's loop buffer; M has none. -/
def Strand.lb (st : Strand) : Slot → LBuf
  | .s => st.lbS
  | .v => st.lbV
  | .h => st.lbH
  | .m => { valid := false, start := 0, remaining := 0, len := 0, pos := 0, captured := false, words := [] }

def Strand.setLb (st : Strand) (b : LBuf) : Slot → Strand
  | .s => { st with lbS := b }
  | .v => { st with lbV := b }
  | .h => { st with lbH := b }
  | .m => st

/-- R104, R339: S's loop buffer is frozen while a handler runs. -/
def Strand.lbLive (st : Strand) (sl : Slot) : Bool := (st.lb sl).valid && !(sl == .s && st.handler)

/-- R51: the word in memory at a slot's PC. Of several checks that fail the first here decides: the field map, the alignment, the gated
response, poison (DESIGN CHOICE, log: R51 gives no order). -/
def State.fetchMem (s : State) (st : Strand) (pc : W64) : Except FetchFault W32 :=
  match s.launch? st.launch with
  | none => .error .fieldMiss
  | some l =>
    match s.translate l pc .x with
    | .error .fieldPerm => .error .fieldPerm
    | .error _ => .error .fieldMiss
    | .ok t =>
      if pc.toNat % 4 != 0 then .error .misalign
      else if t.gated then .error .remoteGated
      else if t.disc then .ok 0
      else if s.mem.bad (lineOf t.addr) then .error .poison
      else .ok (BitVec.ofNat 32 (leNat (s.mem.reads t.tag t.addr 4)))

/-- R120: the WAITA in which S sleeps. -/
def Strand.asleep (st : Strand) : Slot → Option W32
  | .s => st.sleep.map Sleep.word
  | _ => none

/-- R51, R105, R120: the word a slot stands at: the WAITA in which S sleeps, a word replayed from its loop buffer, or one fetched from
memory. A word of the body that was never captured, since a handler moved TRAPPC past it in the first pass, is fetched at each replay, and a flow
word there is carried out (DESIGN CHOICE, log). -/
def State.fetch (s : State) (st : Strand) (sl : Slot) : Except FetchFault W32 :=
  let b := st.lb sl
  match st.asleep sl with
  | some w => .ok w
  | none =>
  if st.lbLive sl && b.captured then
    match b.words[b.pos]? with
    | some (some w) => .ok w
    | _ => s.fetchMem st (st.pc.get sl)
  else s.fetchMem st (st.pc.get sl)

/- Results of a word's own effect. -/

/-- Where a slot goes after a word. -/
inductive Next where
  | seq
  | jump (target : W64) (call : Bool)
  | skip (target : W64)
  | stay
deriving DecidableEq, Repr

/-- The outcome of a word's own effect: it stalls before issue, it raises a trap, or it issues with the slot occupied for
`busy` cycles. -/
inductive Res where
  | stall (s : State)
  | trap (c : Cause) (addr : W64)
  | ok (s : State) (n : Next) (busy : Nat)

/- Loops. -/

/-- R104: a body holds an address. -/
def Loop.holds (l : Loop) (a : W64) : Bool := decide (l.start.toNat ≤ a.toNat) && decide (a.toNat ≤ l.last.toNat)

/-- R104: the word at `pc` issued without transferring control: the innermost loop that ends there counts an iteration. -/
def loopSeq (pc : W64) : List Loop → List Loop × W64
  | [] => ([], pc + 4)
  | l :: rest =>
    if pc = l.last then
      if l.remaining = 1 then loopSeq pc rest
      else ({ l with remaining := l.remaining - 1 } :: rest, l.start)
    else (l :: rest, pc + 4)

/-- R104: a transfer of control out of the innermost bodies that hold `pc` ends those loops. -/
def loopJump (pc target : W64) : List Loop → List Loop
  | [] => []
  | l :: rest => if l.holds pc && !l.holds target then loopJump pc target rest else l :: rest

/-- R105, R163: the loop buffer after the word at its position issued, and the next PC. -/
def LBuf.step (b : LBuf) (w : Option W32) : LBuf × W64 :=
  let b1 := if b.captured then b else { b with words := b.words.set b.pos w }
  if b.pos + 1 < b.len then ({ b1 with pos := b.pos + 1 }, b.start + BitVec.ofNat 64 (4 * (b.pos + 1)))
  else if b.remaining = 0 then
    ({ b1 with valid := false, pos := 0, captured := false, words := [] }, b.start + BitVec.ofNat 64 (4 * b.len))
  else ({ b1 with pos := 0, captured := true, remaining := b.remaining - 1 }, b.start)

/-- The slot moves past a word that issued in cycle `cyc` (R52, R95, R104, R105, R134). `w` is the word, for a capture. A LOOP or an LBUF
transfers control, whether it passes over its body or goes into it, so that one that stands at the last word of an enclosing loop's body
counts no iteration of it; that loop ends, but for a LOOP that pushes a level, beside which it stays (DESIGN CHOICE, log: R104 does not
say). A word of a handler, and the TRET that ends it, leave S's own rendezvous as it stood (R55, R339). -/
def Strand.advance (st : Strand) (sl : Slot) (cyc : Nat) (w : Option W32) (n : Next) (busy : Nat) : Strand :=
  let pc := st.pc.get sl
  let st1 := { st with rvGo := if sl == .s && (st.handler || n == .stay) then st.rvGo else st.rvGo.set false sl,
                       next := st.next.set (cyc + busy) sl }
  match n with
  | .stay => st1
  | .skip t =>
    { st1 with pc := st1.pc.set t sl, loops := if sl == .s && !st.handler then loopJump pc t st.loops else st.loops }
  | .jump t call =>
    let loops := if sl == .s && !st.handler && !call then loopJump pc t st.loops else st.loops
    { st1 with pc := st1.pc.set t sl, loops := loops, next := st.next.set (cyc + 2) sl }
  | .seq =>
    if st.lbLive sl then
      let (b, t) := (st.lb sl).step w
      { st1.setLb b sl with pc := st1.pc.set t sl }
    else if sl == .s && !st.handler then
      let (ls, t) := loopSeq pc st.loops
      { st1 with pc := st1.pc.set t sl, loops := ls }
    else { st1 with pc := st1.pc.set (pc + 4) sl }

/- Syndrome registers. -/

/-- R400: the information word of an error. -/
def synInfo (inst unit kind : Nat) : W64 := BitVec.ofNat 64 (inst % 2 ^ 16 * 2 ^ 24 + unit * 2 ^ 8 + kind)

/-- A count that saturates. -/
def satInc (x : W32) : W32 := if x = BitVec.allOnes 32 then x else x + 1

/-- R403: an uncorrectable error counts and is recorded. -/
def Syndrome.uncorrectable (y : Syndrome) (addr : Nat) (info : W64) : Syndrome :=
  let a := BitVec.ofNat 64 addr
  { y with ucnt := satInc y.ucnt, last := a, linfo := info, first := if y.uev then y.first else a,
           finfo := if y.uev then y.finfo else info, uev := true, ovf := y.ovf || y.uev }

/-- R403: a correctable error counts. -/
def Syndrome.correctable (y : Syndrome) : Syndrome := { y with ccnt := satInc y.ccnt }

def State.setStack (s : State) (k : Fin 16) (q : Stack) : State := { s with hbm := s.hbm.set k q }

def State.setSyn (s : State) (d : Fin 11) (y : Syndrome) : State := { s with syn := s.syn.set d y }

/-- R403: the dies that hold a stack's controller, a silo device's, a core, a cluster. -/
def stackDie (k : Fin 16) : Fin 11 := ⟨3 + k.val / 2, by omega⟩
def siloDie (dev : Nat) : Fin 11 := if dev % 16 < 8 then 1 else 2
def coreDie (c : Fin 192) : Fin 11 := ⟨3 + c.val / 24, by omega⟩

/-- R352: has a die been released: dies from the stage at which a boot stopped stay in reset. -/
def State.dieUp (s : State) (d : Fin 11) : Bool := s.bootstat == 0 || decide (d.val + 1 < s.bootstat.toNat % 16)

/-- R352: does a function answer the host: with a boot that stopped at I/O die 0 none does, with one that stopped later the physical function. -/
def State.answers (s : State) (fn : Fin 64) : Bool := s.bootstat == 0 || (fn.val == 0 && s.dieUp 1)

/-- R352: is the store of an address behind a die that has been released. -/
def State.memUp (s : State) (a : Nat) : Bool :=
  s.bootstat == 0 || (if isHbm a then s.dieUp (stackDie ⟨stackOf a % 16, Nat.mod_lt _ (by omega)⟩)
    else if isSilo a then s.dieUp (siloDie ((a - siloAddr 0) / 4096 % 16)) else true)

/-- An error counted on a die: uncorrectable with its place, or correctable. -/
def State.countError (s : State) (d : Fin 11) (bad : Bool) (addr inst unit kind : Nat) : State :=
  if bad then s.setSyn d ((s.syn[d]).uncorrectable addr (synInfo inst unit kind)) else s.setSyn d (s.syn[d]).correctable

/-- R392, R396, R403: a record that the device reads from a poisoned line is counted on the die of the line's store. -/
def State.countPoison (s : State) (a : Nat) : State :=
  if isHbm a then
    let k : Fin 16 := ⟨stackOf a % 16, Nat.mod_lt _ (by omega)⟩
    s.countError (stackDie k) true a (k.val * 64 + a % 2 ^ 36 / 2048 % 64) 1 1
  else if isSilo a then
    let o := a - siloAddr 0
    s.countError (siloDie (o / 4096 % 16)) true o (o / 4096 % 16) 2 1
  else
    match if isYard a then s.yardCluster a else none with
    | some q => s.countError (coreDie ⟨4 * q.val, by omega⟩) true (a - yardAddr (s.yardOfCore ⟨4 * q.val, by omega⟩) 0) (4 * q.val) 6 1
    | none => s

/-- R314, R325, R387: bytes whose contents are undefined from now on: free values, as if written under a key. -/
def State.undefine (s : State) (a n tag : Nat) : State :=
  let bs := (List.range n).map fun i => (Config.freeWord s.free i).extractLsb' 0 8
  { s with free := s.free + 1, mem := s.mem.putAll tag a (bs.map some) }

/- Traps. -/

/-- R338: the trap record is written. -/
def Strand.record (st : Strand) (sl : Slot) (c : Cause) (pc addr : W64) : Strand :=
  { st with trapcause := c.code, trapslot := BitVec.ofNat 64 sl.num, trappc := pc, trapaddr := addr }

/-- R341: every strand of a launch that runs is to be halted, and the launch ends with the status given. -/
def State.endLaunch (s : State) (id status : Nat) : State :=
  let cores := s.cores.map fun k =>
    match k.strand with
    | some st => if st.launch = id then { k with strand := some { st with phase := .dying } } else k
    | none => k
  { s with
    cores := cores,
    launches := s.launches.map fun l => if l.id == id && l.ending == .live then { l with ending := .ending status } else l }

/-- R341, R362: a strand fault's record: the trap record, and the cause of a trap raised during the handler. -/
def State.logFault (s : State) (st : Strand) (second : Nat) : State :=
  s.logEvent st.part 3 (leBytes 2 st.launch ++ leBytes 4 st.index ++ leBytes 1 st.trapcause.toNat ++ leBytes 1 st.trapslot.toNat ++
    leBytes 8 st.trappc.toNat ++ leBytes 8 st.trapaddr.toNat ++ leBytes 1 second)

/-- R55, R338: a slot traps: a rendezvous that completed in this cycle with its word has not been passed by any slot. -/
def Strand.spoilRv (st : Strand) (sl : Slot) (cyc : Nat) : Strand :=
  if st.rvGo.get sl && st.rvCyc = cyc then { st with rvGo := ⟨false, false, false, false⟩ } else st

/-- R88, R199: a trap of the present cycle gives way to that of an earlier slot: the COND that it raised stands again. -/
def Strand.unraised (st : Strand) (cyc : Nat) : Strand :=
  match st.trapAt with
  | some { cyc := n, undo := some (i, cond, a), .. } =>
    if n = cyc then { st with tok := st.tok.set i { st.tok[i] with cond := cond, caddr := a } } else st
  | _ => st

/-- R338, R341: a slot of the core's strand raises a trap; `eng` is the failed channel of an ENGINE_FAULT (R342). While a handler runs it
is a strand fault and the record keeps the trap that the handler serves; in a cycle in which an earlier slot has trapped nothing is
recorded (R88). Otherwise the record is written and delivery follows; with TRAPVEC zero that is a strand fault. -/
def State.raiseFor (s : State) (c : Fin 192) (st0 : Strand) (sl : Slot) (cause : Cause) (addr : W64) (eng : Option Nat) : State :=
  let cyc := s.cyc c
  let st := st0.spoilRv sl cyc
  let blocked := match st.trapAt with
    | some t => decide (t.cyc = cyc) && decide (t.slot.num < sl.num)
    | none => false
  if st.handler then ((s.setSt c st).logFault st cause.code.toNat).endLaunch st.launch 3
  else if blocked then s.setSt c st
  else
    let st1 := (st.unraised cyc).record sl cause (st.pc.get sl) addr
    s.setSt c { st1 with trapAt := some { cyc := cyc, slot := sl, fatal := decide (st.trapvec = 0), eng := eng },
                         sleep := if sl == .s then st.sleep else none }

/-- R338: a slot of the core's strand raises a trap of a word. -/
def State.raiseTrap (s : State) (c : Fin 192) (st : Strand) (sl : Slot) (cause : Cause) (addr : W64) : State :=
  s.raiseFor c st sl cause addr none

/-- R342: a channel's failure has been raised. -/
def Strand.served (st : Strand) : Option Nat → Strand
  | some k =>
    let rest := st.efaultAddr.eraseP fun e => e.1 == k
    { st with efaultAddr := rest, efault := rest.foldl (fun b x => b ||| (1#16 <<< x.1)) 0 }
  | none => st

/-- R338: the handler begins, two cycles after the trap cycle. S's resumption point is kept where S is not the trapping slot. -/
def Strand.enterHandler (st : Strand) (sl : Slot) (cyc : Nat) : Strand :=
  { st with handler := true, trapAt := none, sresume := if sl == .s then 0 else st.pc.s, sfrom := st.pc.s,
            pc := { st.pc with s := st.trapvec &&& ~~~3#64 }, next := { st.next with s := cyc }, fx := none, fk := none,
            recReq := none, pre := none }

/-- R105, R163: a loop buffer whose slot resumes at another PC. A PC just after the body counts as the end of a pass, so that a pass that
is left goes on; any other PC outside the body ends the replay (DESIGN CHOICE, log). -/
def LBuf.moved (b : LBuf) (pc : W64) : LBuf × W64 :=
  let off := (pc - b.start).toNat
  if !b.valid then (b, pc)
  else if off % 4 = 0 && off / 4 < b.len then ({ b with pos := off / 4 }, pc)
  else if off = 4 * b.len then { b with pos := b.len - 1 }.step none
  else ({ b with valid := false, pos := 0, captured := false, words := [] }, pc)

/-- R55: the rendezvous that a slot's word has completed holds for that word alone: not for one to which a handler has moved TRAPPC. -/
def Strand.keepRv (st : Strand) (sl : Slot) (pc : W64) : PerSlot Bool :=
  if st.trappc = pc then st.rvGo else st.rvGo.set false sl

/-- R130, R339: TRET clears HANDLER and restarts the four slots, each no earlier than its last word lets it (R134): the trapping slot at
TRAPPC, the others where they stopped. A TRAPPC moved out of the interrupted loops ends them (R104). -/
def Strand.returnFromTrap (st : Strand) (cyc : Nat) : Strand :=
  let from_ (n : Nat) : Nat := max n (cyc + 1)
  let st1 := { st with handler := false, sresume := 0, sfrom := 0,
                       next := ⟨cyc + 1, from_ st.next.v, from_ st.next.m, from_ st.next.h⟩ }
  match st.trapslot.toNat with
  | 0 =>
    let (b, pc) := st.lbS.moved st.trappc
    { st1 with pc := { st.pc with s := pc }, lbS := b, loops := loopJump st.sfrom st.trappc st.loops, rvGo := st.keepRv .s st.sfrom }
  | 1 =>
    let (b, pc) := st.lbV.moved st.trappc
    { st1 with pc := { st.pc with s := st.sresume, v := pc }, lbV := b, ended := { st.ended with v := false }, rvGo := st.keepRv .v st.pc.v }
  | 2 =>
    { st1 with pc := { st.pc with s := st.sresume, m := st.trappc }, ended := { st.ended with m := false }, rvGo := st.keepRv .m st.pc.m }
  | _ =>
    let (b, pc) := st.lbH.moved st.trappc
    { st1 with pc := { st.pc with s := st.sresume, h := pc }, lbH := b, ended := { st.ended with h := false }, rvGo := st.keepRv .h st.pc.h }

/- Rendezvous. -/

def Strand.named (st : Strand) : Slot → Bool
  | .s => st.syncmask.getLsbD 0
  | .v => st.syncmask.getLsbD 1
  | .m => st.syncmask.getLsbD 2
  | .h => st.syncmask.getLsbD 3

/-- R55: does a slot stand at a word with RV = 1, free to issue it. -/
def State.arrived (s : State) (st : Strand) (cyc : Nat) (sl : Slot) : Bool :=
  decide (st.next.get sl ≤ cyc) && !st.rvGo.get sl &&
    match s.fetch st sl with
    | .ok w => rvBit w
    | .error _ => false

/-- R55: a slot is no obstacle to the rendezvous: it is not named, it is parked at END since an earlier cycle (R89), or it has arrived. -/
def State.meets (s : State) (st : Strand) (cyc : Nat) (sl : Slot) : Bool :=
  !st.named sl || (st.ended.get sl && decide (st.next.get sl ≤ cyc)) || s.arrived st cyc sl

/-- R55: do all the named slots meet. -/
def State.allMeet (s : State) (st : Strand) (cyc : Nat) : Bool :=
  s.meets st cyc .s && s.meets st cyc .v && s.meets st cyc .m && s.meets st cyc .h

/-- R55: the rendezvous is complete for every named slot that waits. -/
def Strand.rendezvous (st : Strand) (cyc : Nat) : Strand :=
  let go (sl : Slot) : Bool := st.rvGo.get sl || (st.named sl && !st.ended.get sl)
  { st with rvGo := ⟨go .s, go .v, go .m, go .h⟩, rvCyc := cyc }

/- Issue. -/

/-- May a slot of a strand try its word in this cycle: the strand runs, its core is not held (R299), no trap awaits delivery but
one of this very cycle (R338), V, M and H are not stopped by a handler (R339), the slot is not parked (R89), its last word no
longer occupies it (R50, R134), and S waits for no atomic and no remote access (R109, R114) and has not yielded (R128). -/
def State.mayTry (s : State) (c : Fin 192) (st : Strand) (sl : Slot) : Bool :=
  let cyc := s.cyc c
  st.phase == .running && !s.held c &&
    (match st.trapAt with | none => true | some t => decide (t.cyc = cyc) && t.slot != sl) &&
    (!st.handler || sl == .s) && !st.ended.get sl && decide (st.next.get sl ≤ cyc) &&
    !(sl == .s && (st.accs.any SAcc.blocking || s.preqs.any fun r => r.sid == st.sid && r.stops))

/-- R338: has a slot that the rendezvous includes trapped in this cycle. -/
def Strand.rvSpoilt (st : Strand) : Bool :=
  match st.trapAt with
  | some t => st.named t.slot
  | none => false

/-- The strand passes, or completes, the rendezvous of its word; `none` while it must wait (R55, R339). A rendezvous that
includes a slot that trapped in this cycle does not issue (R338). -/
def State.passRv (s : State) (c : Fin 192) (st : Strand) (sl : Slot) (rv : Bool) : Option Strand :=
  if !rv || st.handler || !st.named sl || st.rvGo.get sl then some st
  else if st.rvSpoilt then none
  else if s.allMeet st (s.cyc c) then some (st.rendezvous (s.cyc c))
  else none

/-- What an issued word leaves: its slot moves on. -/
def State.finish (s : State) (c : Fin 192) (sl : Slot) (w : Option W32) (n : Next) (busy : Nat) : State :=
  match s.strand? c with
  | none => s
  | some st =>
    s.setCore c { s.cores[c] with strand := some (st.advance sl (s.cyc c) w n busy), issued := s.cyc c + 1 }

/-- The outcome of a word's own effect made into a step. -/
def State.conclude (s : State) (c : Fin 192) (st : Strand) (sl : Slot) (w : Option W32) : Res → State
  | .stall s' => s'
  | .trap cause addr => s.raiseTrap c st sl cause addr
  | .ok s' n busy => s'.finish c sl w n busy

/-- The word a slot stands at, where it can be fetched. -/
def State.word? (s : State) (st : Strand) (sl : Slot) : Option W32 :=
  match s.fetch st sl with
  | .ok w => some w
  | .error _ => none

/-- A word of slot `sl` is tried: `flow` says that a loop buffer may not capture it (R105, R163), `regs` are the X registers
that S must find landed (R63, R95). A word that may not be tried, or that waits, changes nothing but what its wait records. -/
def issue (sl : Slot) (rv flow : Bool) (regs : List (BitVec 5)) (body : State → Fin 192 → Strand → Res) (s : State) :
    Host.Outcome State Fault Refusal :=
  let c := s.cur.core
  match s.strand? c with
  | none => .next s
  | some st0 =>
    let cyc := s.cyc c
    let st1 := st0.settle cyc
    if !s.mayTry c st1 sl then .next s
    else
      match s.passRv c st1 sl rv with
      | none => .next s
      | some st =>
        let s1 := s.setSt c st
        if flow && st.lbLive sl && !(st.lb sl).captured then .next (s1.raiseTrap c st sl .illegal 0)
        else if sl == .s && regs.any (st.outstanding cyc) then .next s1
        else .next (s1.conclude c st sl (s1.word? st sl) (body s1 c st))

/-- R125, R126, R213, R396: a word that meets a record in a poisoned line traps with POISON, and the case is counted. -/
def State.poisonTrap (s : State) (c : Fin 192) (st : Strand) (sl : Slot) (phys : Nat) (addr : W64) : Res :=
  .stall ((s.countPoison phys).raiseTrap c st sl .poison addr)

end Sys2Proof.Machine
end

