-- ==== Sys2Proof/Machine/SAlu.lean ====
section
/-! DEFINITION. The register ALU, the immediate forms and MOVH of the S slot (R95 to R100). Each meaning is one call of the
shared operation `aluWord`. -/

namespace Sys2Proof.Machine

open Sys2Proof

/-- The outcome of a step. -/
abbrev Out := Host.Outcome State Fault Refusal

/-- R61, R96: a word of S that computes `f` from source registers, readable `lat` cycles after its issue; poisoned sources
poison the result. -/
def aluWord (rv : Bool) (d : BitVec 5) (srcs : List (BitVec 5)) (lat : Nat) (f : Strand → W64) (s : State) : Out :=
  issue .s rv false (d :: srcs) (fun s c st =>
    if !st.owns false d then .trap .xown 0
    else .ok (s.setSt c (st.xlater (s.cyc c + lat) d (f st) (srcs.any st.xp) true)) .seq 1) s

def boolW (b : Bool) : W64 := if b then 1 else 0

/-- R98: bits 127:64 of the signed product. -/
def mulhS (x y : W64) : W64 := ((x.signExtend 128) * (y.signExtend 128)).extractLsb' 64 64

/-- R98: bits 127:64 of the unsigned product. -/
def mulhU (x y : W64) : W64 := ((x.zeroExtend 128) * (y.zeroExtend 128)).extractLsb' 64 64

/-- R98: signed quotient toward zero; all ones for a zero divisor. -/
def divS (x y : W64) : W64 := if y = 0 then BitVec.allOnes 64 else BitVec.ofInt 64 (Int.tdiv x.toInt y.toInt)

def divU (x y : W64) : W64 := if y = 0 then BitVec.allOnes 64 else BitVec.ofNat 64 (x.toNat / y.toNat)

/-- R98: signed remainder with the sign of the dividend; the dividend for a zero divisor. -/
def remS (x y : W64) : W64 := if y = 0 then x else BitVec.ofInt 64 (Int.tmod x.toInt y.toInt)

def remU (x y : W64) : W64 := if y = 0 then x else BitVec.ofNat 64 (x.toNat % y.toNat)

/-- R98: leading zeros, 64 for zero. -/
def clz64 (x : W64) : W64 := if x = 0 then 64 else BitVec.ofNat 64 (63 - x.toNat.log2)

/-- R98: trailing zeros, 64 for zero. -/
def ctz64 (x : W64) : W64 := BitVec.ofNat 64 (((List.range 64).find? fun i => x.getLsbD i).getD 64)

/-- R98: number of ones. -/
def popc64 (x : W64) : W64 := BitVec.ofNat 64 ((List.range 64).countP fun i => x.getLsbD i)

/-- R84: the width that a code of SEXT and ZEXT names. -/
def extWidth (w : BitVec 5) : Nat := 8 * 2 ^ w.toNat

def sextBy (w : BitVec 5) (x : W64) : W64 := (x.truncate (extWidth w)).signExtend 64

def zextBy (w : BitVec 5) (x : W64) : W64 := (x.truncate (extWidth w)).zeroExtend 64

/-- R99: the immediate of an RI word. -/
def imm15 (i : BitVec 15) : W64 := i.signExtend 64

/-- R100: the result of MOVH on the old value of its register. -/
def movhValue (h : BitVec 2) (z : BitVec 1) (i : BitVec 16) (old : W64) : W64 :=
  let base := if z = 1 then 0 else old
  let sh := 16 * h.toNat
  (base &&& ~~~(0xFFFF#64 <<< sh)) ||| (i.zeroExtend 64 <<< sh)

/-- ADD (R98). -/
def execAdd (r : Bool) (d a b : BitVec 5) (s : State) : Out :=
  aluWord r d [a, b] 1 (fun st => st.xv a + st.xv b) s

/-- SUB (R98). -/
def execSub (r : Bool) (d a b : BitVec 5) (s : State) : Out :=
  aluWord r d [a, b] 1 (fun st => st.xv a - st.xv b) s

/-- MUL (R98). -/
def execMul (r : Bool) (d a b : BitVec 5) (s : State) : Out :=
  aluWord r d [a, b] 3 (fun st => st.xv a * st.xv b) s

/-- MULH (R98). -/
def execMulh (r : Bool) (d a b : BitVec 5) (s : State) : Out :=
  aluWord r d [a, b] 3 (fun st => mulhS (st.xv a) (st.xv b)) s

/-- MULHU (R98). -/
def execMulhu (r : Bool) (d a b : BitVec 5) (s : State) : Out :=
  aluWord r d [a, b] 3 (fun st => mulhU (st.xv a) (st.xv b)) s

/-- DIV (R98). -/
def execDiv (r : Bool) (d a b : BitVec 5) (s : State) : Out :=
  aluWord r d [a, b] 20 (fun st => divS (st.xv a) (st.xv b)) s

/-- DIVU (R98). -/
def execDivu (r : Bool) (d a b : BitVec 5) (s : State) : Out :=
  aluWord r d [a, b] 20 (fun st => divU (st.xv a) (st.xv b)) s

/-- REM (R98). -/
def execRem (r : Bool) (d a b : BitVec 5) (s : State) : Out :=
  aluWord r d [a, b] 20 (fun st => remS (st.xv a) (st.xv b)) s

/-- REMU (R98). -/
def execRemu (r : Bool) (d a b : BitVec 5) (s : State) : Out :=
  aluWord r d [a, b] 20 (fun st => remU (st.xv a) (st.xv b)) s

/-- AND (R98). -/
def execAnd (r : Bool) (d a b : BitVec 5) (s : State) : Out :=
  aluWord r d [a, b] 1 (fun st => st.xv a &&& st.xv b) s

/-- OR (R98). -/
def execOr (r : Bool) (d a b : BitVec 5) (s : State) : Out :=
  aluWord r d [a, b] 1 (fun st => st.xv a ||| st.xv b) s

/-- XOR (R98). -/
def execXor (r : Bool) (d a b : BitVec 5) (s : State) : Out :=
  aluWord r d [a, b] 1 (fun st => st.xv a ^^^ st.xv b) s

/-- ANDN (R98). -/
def execAndn (r : Bool) (d a b : BitVec 5) (s : State) : Out :=
  aluWord r d [a, b] 1 (fun st => st.xv a &&& ~~~(st.xv b)) s

/-- SHL (R98). -/
def execShl (r : Bool) (d a b : BitVec 5) (s : State) : Out :=
  aluWord r d [a, b] 1 (fun st => st.xv a <<< ((st.xv b).toNat % 64)) s

/-- SHR (R98). -/
def execShr (r : Bool) (d a b : BitVec 5) (s : State) : Out :=
  aluWord r d [a, b] 1 (fun st => st.xv a >>> ((st.xv b).toNat % 64)) s

/-- SHRA (R98). -/
def execShra (r : Bool) (d a b : BitVec 5) (s : State) : Out :=
  aluWord r d [a, b] 1 (fun st => (st.xv a).sshiftRight ((st.xv b).toNat % 64)) s

/-- ROR (R98). -/
def execRor (r : Bool) (d a b : BitVec 5) (s : State) : Out :=
  aluWord r d [a, b] 1 (fun st => (st.xv a).rotateRight ((st.xv b).toNat % 64)) s

/-- MIN (R98). -/
def execMin (r : Bool) (d a b : BitVec 5) (s : State) : Out :=
  aluWord r d [a, b] 1 (fun st => if (st.xv a).slt (st.xv b) then st.xv a else st.xv b) s

/-- MAX (R98). -/
def execMax (r : Bool) (d a b : BitVec 5) (s : State) : Out :=
  aluWord r d [a, b] 1 (fun st => if (st.xv a).slt (st.xv b) then st.xv b else st.xv a) s

/-- MINU (R98). -/
def execMinu (r : Bool) (d a b : BitVec 5) (s : State) : Out :=
  aluWord r d [a, b] 1 (fun st => if (st.xv a).ult (st.xv b) then st.xv a else st.xv b) s

/-- MAXU (R98). -/
def execMaxu (r : Bool) (d a b : BitVec 5) (s : State) : Out :=
  aluWord r d [a, b] 1 (fun st => if (st.xv a).ult (st.xv b) then st.xv b else st.xv a) s

/-- SLT (R98). -/
def execSlt (r : Bool) (d a b : BitVec 5) (s : State) : Out :=
  aluWord r d [a, b] 1 (fun st => boolW ((st.xv a).slt (st.xv b))) s

/-- SLTU (R98). -/
def execSltu (r : Bool) (d a b : BitVec 5) (s : State) : Out :=
  aluWord r d [a, b] 1 (fun st => boolW ((st.xv a).ult (st.xv b))) s

/-- SEQ (R98). -/
def execSeq (r : Bool) (d a b : BitVec 5) (s : State) : Out :=
  aluWord r d [a, b] 1 (fun st => boolW (st.xv a == st.xv b)) s

/-- SNE (R98). -/
def execSne (r : Bool) (d a b : BitVec 5) (s : State) : Out :=
  aluWord r d [a, b] 1 (fun st => boolW (st.xv a != st.xv b)) s

/-- CLZ (R98). -/
def execClz (r : Bool) (d a : BitVec 5) (s : State) : Out :=
  aluWord r d [a] 1 (fun st => clz64 (st.xv a)) s

/-- CTZ (R98). -/
def execCtz (r : Bool) (d a : BitVec 5) (s : State) : Out :=
  aluWord r d [a] 1 (fun st => ctz64 (st.xv a)) s

/-- POPC (R98). -/
def execPopc (r : Bool) (d a : BitVec 5) (s : State) : Out :=
  aluWord r d [a] 1 (fun st => popc64 (st.xv a)) s

/-- SEXT (R98). -/
def execSext (r : Bool) (d a w : BitVec 5) (s : State) : Out :=
  aluWord r d [a] 1 (fun st => sextBy w (st.xv a)) s

/-- ZEXT (R98). -/
def execZext (r : Bool) (d a w : BitVec 5) (s : State) : Out :=
  aluWord r d [a] 1 (fun st => zextBy w (st.xv a)) s

/-- CMOV (R96, R98): the old value of xd is read, and a poisoned condition raises POISON. -/
def execCmov (r : Bool) (d a b : BitVec 5) (s : State) : Out :=
  issue .s r false [d, a, b] (fun s c st =>
    if !st.owns false d then .trap .xown 0
    else if st.xp b then .trap .poison 0
    else
      let v := if st.xv b = 0 then st.xv d else st.xv a
      .ok (s.setSt c (st.xlater (s.cyc c + 1) d v (st.xp a || st.xp d) true)) .seq 1) s

/-- ADDI (R99). -/
def execAddi (r : Bool) (d a : BitVec 5) (i : BitVec 15) (s : State) : Out :=
  aluWord r d [a] 1 (fun st => st.xv a + imm15 i) s

/-- ANDI (R99). -/
def execAndi (r : Bool) (d a : BitVec 5) (i : BitVec 15) (s : State) : Out :=
  aluWord r d [a] 1 (fun st => st.xv a &&& imm15 i) s

/-- ORI (R99). -/
def execOri (r : Bool) (d a : BitVec 5) (i : BitVec 15) (s : State) : Out :=
  aluWord r d [a] 1 (fun st => st.xv a ||| imm15 i) s

/-- XORI (R99). -/
def execXori (r : Bool) (d a : BitVec 5) (i : BitVec 15) (s : State) : Out :=
  aluWord r d [a] 1 (fun st => st.xv a ^^^ imm15 i) s

/-- SLTI (R99). -/
def execSlti (r : Bool) (d a : BitVec 5) (i : BitVec 15) (s : State) : Out :=
  aluWord r d [a] 1 (fun st => boolW ((st.xv a).slt (imm15 i))) s

/-- SLTIU (R99). -/
def execSltiu (r : Bool) (d a : BitVec 5) (i : BitVec 15) (s : State) : Out :=
  aluWord r d [a] 1 (fun st => boolW ((st.xv a).ult (imm15 i))) s

/-- MULI (R95, R99). -/
def execMuli (r : Bool) (d a : BitVec 5) (i : BitVec 15) (s : State) : Out :=
  aluWord r d [a] 3 (fun st => st.xv a * imm15 i) s

/-- SHLI (R99). -/
def execShli (r : Bool) (d a : BitVec 5) (n : BitVec 6) (s : State) : Out :=
  aluWord r d [a] 1 (fun st => st.xv a <<< n.toNat) s

/-- SHRI (R99). -/
def execShri (r : Bool) (d a : BitVec 5) (n : BitVec 6) (s : State) : Out :=
  aluWord r d [a] 1 (fun st => st.xv a >>> n.toNat) s

/-- SHRAI (R99). -/
def execShrai (r : Bool) (d a : BitVec 5) (n : BitVec 6) (s : State) : Out :=
  aluWord r d [a] 1 (fun st => (st.xv a).sshiftRight n.toNat) s

/-- MOVH (R96, R100): with z = 0 the old value of xd is a source. -/
def execMovh (r : Bool) (d : BitVec 5) (h : BitVec 2) (z : BitVec 1) (i : BitVec 16) (s : State) : Out :=
  aluWord r d (if z = 1 then [] else [d]) 1 (fun st => movhValue h z i (st.xv d)) s

end Sys2Proof.Machine
end

