-- ==== Sys2Proof/Machine/SFlow.lean ====
section
/-! DEFINITION. Control flow of the S slot (R101 to R105), flags, queues and END (R57 to R59, R89, R121 to R123), traps (R129,
R130), tile shapes (R132) and NOP (R133). -/

namespace Sys2Proof.Machine

open Sys2Proof

/-- R52: a branch target. -/
def brTarget (pc : W64) (o : BitVec 15) : W64 := pc + 4 * o.signExtend 64

/-- R101: a compare branch; a poisoned source raises POISON (R96). -/
def branchWord (r : Bool) (a b : BitVec 5) (o : BitVec 15) (cond : W64 → W64 → Bool) (s : State) : Out :=
  issue .s r true [a, b] (fun s _ st =>
    if st.xp a || st.xp b then .trap .poison 0
    else if cond (st.xv a) (st.xv b) then .ok s (.jump (brTarget st.pc.s o) false) 1
    else .ok s .seq 1) s

/-- BEQ (R101). -/
def execBeq (r : Bool) (a b : BitVec 5) (o : BitVec 15) (s : State) : Out := branchWord r a b o (fun x y => x == y) s

/-- BNE (R101). -/
def execBne (r : Bool) (a b : BitVec 5) (o : BitVec 15) (s : State) : Out := branchWord r a b o (fun x y => x != y) s

/-- BLT (R101). -/
def execBlt (r : Bool) (a b : BitVec 5) (o : BitVec 15) (s : State) : Out := branchWord r a b o (fun x y => x.slt y) s

/-- BGE (R101). -/
def execBge (r : Bool) (a b : BitVec 5) (o : BitVec 15) (s : State) : Out := branchWord r a b o (fun x y => !x.slt y) s

/-- BLTU (R101). -/
def execBltu (r : Bool) (a b : BitVec 5) (o : BitVec 15) (s : State) : Out := branchWord r a b o (fun x y => x.ult y) s

/-- BGEU (R101). -/
def execBgeu (r : Bool) (a b : BitVec 5) (o : BitVec 15) (s : State) : Out := branchWord r a b o (fun x y => !x.ult y) s

/-- R66: active rows and columns of a VSHAPE value. -/
def shapeRows (v : BitVec 13) : Nat := (v.extractLsb' 0 4).toNat + 1
def shapeCols (v : BitVec 13) : Nat := (v.extractLsb' 4 6).toNat + 1

/-- R66: is element `i` = 64r + c active. -/
def activeIn (v : BitVec 13) (i : Nat) : Bool := decide (i / 64 < shapeRows v) && decide (i % 64 < shapeCols v)

/-- The elements that VSHAPE makes active, as a mask of 1,024 bits. -/
def activeMask (v : BitVec 13) : BitVec 1024 := BitVec.ofFnLE fun i : Fin 1024 => activeIn v i.val

/-- R77: a bit read from a predicate: undefined while a V word that writes it is within its bound. -/
def Strand.predBit (st : Strand) (cyc free : Nat) (n : BitVec 4) (i : Nat) : Bool :=
  if st.vpend.any fun w => decide (cyc < w.due) && w.preds.any fun p => p.reg == n && p.mask.getLsbD i then
    Config.freeBit free (n.toNat * 1024 + i)
  else (st.p[n.toNat]).getLsbD i

/-- A predicate as it reads, as a mask (R77). -/
def Strand.predMask (st : Strand) (cyc free : Nat) (n : BitVec 4) : BitVec 1024 :=
  if st.vpend.any fun w => decide (cyc < w.due) && w.preds.any fun p => p.reg == n then
    BitVec.ofFnLE fun i : Fin 1024 => st.predBit cyc free n i.val
  else st.p[n.toNat]

/-- R77: the poison bits of a predicate's rows as they read. -/
def Strand.predBad (st : Strand) (cyc free : Nat) (n : BitVec 4) : BitVec 16 :=
  if st.vpend.any fun w => decide (cyc < w.due) && w.preds.any fun p => p.reg == n then
    BitVec.ofFnLE fun r : Fin 16 =>
      if st.vpend.any fun w => decide (cyc < w.due) && w.preds.any fun p => p.reg == n && (p.full ||| p.part).getLsbD r.val then
        Config.freeBit free (0x10000 + n.toNat * 16 + r.val)
      else (st.pbad[n.toNat]).getLsbD r.val
  else st.pbad[n.toNat]

/-- R77: the rows of a predicate that are poisoned and that no V word within its bound writes: a read of the others raises no trap. -/
def Strand.predTrap (st : Strand) (cyc : Nat) (n : BitVec 4) : BitVec 16 :=
  st.vpend.foldl (fun b w =>
    if cyc < w.due then w.preds.foldl (fun b p => if p.reg = n then b &&& ~~~(p.full ||| p.part) else b) b else b) st.pbad[n.toNat]

/-- R102: a predicate branch over the active elements; a poisoned active row raises POISON. -/
def predWord (r : Bool) (n : BitVec 4) (o : BitVec 15) (all : Bool) (s : State) : Out :=
  issue .s r true [] (fun s c st =>
    let cyc := s.cyc c
    let m := activeMask st.vshape
    let p := st.predMask cyc s.free n
    let bad := st.predTrap cyc n
    let s1 := { s with free := s.free + 1 }
    if (List.range (shapeRows st.vshape)).any bad.getLsbD then .trap .poison 0
    else if (if all then p &&& m == m else p &&& m != 0) then .ok s1 (.jump (brTarget st.pc.s o) false) 1
    else .ok s1 .seq 1) s

/-- BPANY (R102). -/
def execBpany (r : Bool) (n : BitVec 4) (o : BitVec 15) (s : State) : Out := predWord r n o false s

/-- BPALL (R102). -/
def execBpall (r : Bool) (n : BitVec 4) (o : BitVec 15) (s : State) : Out := predWord r n o true s

/-- JMP (R103). -/
def execJmp (r : Bool) (o : BitVec 25) (s : State) : Out :=
  issue .s r true [] (fun s _ st => .ok s (.jump (st.pc.s + 4 * o.signExtend 64) false) 1) s

/-- CALL (R103): the link is X1. -/
def execCall (r : Bool) (o : BitVec 25) (s : State) : Out :=
  issue .s r true [1] (fun s c st =>
    if !st.owns false 1 then .trap .xown 0
    else .ok (s.setSt c (st.xlater (s.cyc c + 1) 1 (st.pc.s + 4) false true))
      (.jump (st.pc.s + 4 * o.signExtend 64) true) 1) s

/-- JR (R103): the target is read before the link is written. -/
def execJr (r : Bool) (d a : BitVec 5) (i : BitVec 15) (s : State) : Out :=
  issue .s r true [d, a] (fun s c st =>
    if !st.owns false d then .trap .xown 0
    else if st.xp a then .trap .poison 0
    else .ok (s.setSt c (st.xlater (s.cyc c + 1) d (st.pc.s + 4) false true))
      (.jump (st.xv a + 4 * imm15 i) false) 1) s

/-- LOOP (R104). -/
def execLoop (r : Bool) (a : BitVec 5) (o : BitVec 15) (s : State) : Out :=
  issue .s r true [a] (fun s c st =>
    if st.handler || (o.toInt ≤ 0 : Bool) then .trap .illegal 0
    else if st.xp a then .trap .poison 0
    else if st.xv a = 0 then .ok s (.skip (st.pc.s + 4 * (o.signExtend 64 + 1))) 1
    else if st.loops.length ≥ 4 then .trap .illegal 0
    else
      let l : Loop := { start := st.pc.s + 4, last := st.pc.s + 4 * o.signExtend 64, remaining := st.xv a }
      .ok (s.setSt c { st with loops := l :: st.loops }) (.skip (st.pc.s + 4)) 1) s

/-- The loop buffer that an LBUF word arms (R105, R163). -/
def armLb (pc n : W64) (l : BitVec 6) : LBuf :=
  { valid := true, start := pc + 4, remaining := n - 1, len := l.toNat + 1, pos := 0, captured := false,
    words := List.replicate (l.toNat + 1) none }

/-- R105, R163: what an LBUF word of a slot does: the body is skipped for a zero count, and armed otherwise. -/
def lbufBody (sl : Slot) (a : BitVec 5) (l : BitVec 6) (s : State) (c : Fin 192) (st : Strand) : Res :=
  let pc := st.pc.get sl
  if st.xp a then .trap .poison 0
  else if st.xv a = 0 then .ok s (.skip (pc + 4 * (BitVec.ofNat 64 l.toNat + 2))) 1
  else .ok (s.setSt c (st.setLb (armLb pc (st.xv a) l) sl)) (.skip (pc + 4)) 1

/-- LBUF (R105): refused in a handler, and where its body would hold the last word of a live loop. -/
def execLbuf (r : Bool) (a : BitVec 5) (l : BitVec 6) (s : State) : Out :=
  issue .s r true [a] (fun s c st =>
    let body : Loop := { start := st.pc.s + 4, last := st.pc.s + 4 * (BitVec.ofNat 64 l.toNat + 1), remaining := 0 }
    if st.handler || st.loops.any fun lv => body.holds lv.last then .trap .illegal 0
    else lbufBody .s a l s c st) s

/- Flags and queues. -/

/-- R57: a signal of a slot. -/
def sigBody (f : BitVec 4) (s : State) (c : Fin 192) (st : Strand) : Res :=
  if st.canSignal f then .ok (s.setSt c (st.signal f)) .seq 1 else .trap .flagOverflow 0

/-- R57: a wait of a slot; a furrow group's stall holds it (R300). -/
def waitBody (f : BitVec 4) (n : BitVec 8) (s : State) (c : Fin 192) (st : Strand) : Res :=
  if st.canWait f n.toNat && !s.waitsHeld c then .ok (s.setSt c (st.waited f n.toNat)) .seq 1 else .stall s

/-- SIG (R121). -/
def execSig (r : Bool) (f : BitVec 4) (s : State) : Out := issue .s r false [] (sigBody f) s

/-- WAITF (R121). -/
def execWaitf (r : Bool) (f : BitVec 4) (n : BitVec 8) (s : State) : Out := issue .s r false [] (waitBody f n) s

/-- R59, R122: an entry made from two registers, poppable from the next cycle. -/
def sendEntry (st : Strand) (cyc : Nat) (a b : BitVec 5) : QEntry :=
  { lo := st.xv a, hi := st.xv b, plo := st.xp a, phi := st.xp b, from_ := cyc + 1 }

/-- SEND (R122): queue 1 is V's, 2 M's, 3 H's. -/
def execSend (r : Bool) (a b : BitVec 5) (q : BitVec 2) (s : State) : Out :=
  issue .s r false [a, b] (fun s c st =>
    let cyc := s.cyc c
    let e := sendEntry st cyc a b
    match q.toNat with
    | 1 => if st.qv.full cyc then .stall s else .ok (s.setSt c { st with qv := st.qv.push e }) .seq 1
    | 2 => if st.qm.full cyc then .stall s else .ok (s.setSt c { st with qm := st.qm.push e }) .seq 1
    | 3 => if st.qh.full cyc then .stall s else .ok (s.setSt c { st with qh := st.qh.push e }) .seq 1
    | _ => .trap .illegal 0) s

/-- RECV (R123). -/
def execRecv (r : Bool) (d : BitVec 5) (s : State) : Out :=
  issue .s r false [d] (fun s c st =>
    let cyc := s.cyc c
    if !st.owns false d then .trap .xown 0
    else
      match rHead st.qr cyc with
      | none => .stall s
      | some e => .ok (s.setSt c ({ st with qr := st.qr.pop cyc }.xlater (cyc + 1) d e.val e.bad true)) .seq 1) s

/-- R69: the reserved bits of a tile shape register. -/
def tsReserved (v : W64) : Bool := v.extractLsb' 27 17 != 0 || v.extractLsb' 22 2 != 0

/-- MTS (R132): the register takes its value for M words that issue from the next cycle (R68). -/
def execMts (r : Bool) (a : BitVec 5) (t : BitVec 2) (s : State) : Out :=
  issue .s r false [a] (fun s c st =>
    if st.xp a then .trap .poison 0
    else if tsReserved (st.xv a) then .trap .reservedNonzero 0
    else .ok (s.setSt c { st with tspend := st.tspend ++ [(s.cyc c + 1, t, st.xv a)] }) .seq 1) s

/-- NOP (R133). -/
def execNop (r : Bool) (s : State) : Out := issue .s r false [] (fun s _ _ => .ok s .seq 1) s

/-- TRAP (R129): raises SOFT, whose entry is R338. -/
def execTrap (r : Bool) (i : BitVec 10) (s : State) : Out :=
  issue .s r true [] (fun _ _ _ => .trap .soft (i.zeroExtend 64)) s

/-- TRET (R130, R339): outside a handler it raises ILLEGAL. -/
def execTret (r : Bool) (s : State) : Out :=
  issue .s r true [] (fun s c st =>
    if st.handler then .ok (s.setSt c (st.returnFromTrap (s.cyc c))) .stay 1 else .trap .illegal 0) s

/-- R184: is M's repeat state armed, so that a word that may not be repeated is illegal, before it meets a rendezvous. -/
def State.mArmed (s : State) : Bool := (s.strand? s.cur.core).any fun st => st.mrep.valid

/-- END (R89): parks the V, M or H slot that stands at it. In S its major is reserved. -/
def execEnd (r : Bool) (s : State) : Out :=
  match s.cur.slot with
  | .s => issue .s r false [] (fun _ _ _ => .trap .illegal 0) s
  | sl => issue sl (r && !(sl == .m && s.mArmed)) true [] (fun s c st =>
      if sl == .m && st.mrep.valid then .trap .illegal 0
      else .ok (s.setSt c { st with ended := st.ended.set true sl }) .stay 1) s

end Sys2Proof.Machine
end

