-- ==== Sys2Proof/Machine/SMem.lean ====
section
/-! DEFINITION. Scalar memory (R106 to R112), fences (R115 to R118) and the monitor (R119, R120). -/

namespace Sys2Proof.Machine

open Sys2Proof

/-- Where an S access goes: the physical address, the key, and what R107, R109 and R238 ask of it. -/
structure SPlace where
  addr : Nat
  tag : Nat
  gated : Bool
  disc : Bool
  so : Bool
  konst : Bool
  slot : Option Nat
  ownYard : Bool
deriving DecidableEq, Repr

/-- R78: access size in bytes of a size code. -/
def szBytes (z : BitVec 2) : Nat := 2 ^ z.toNat

/-- R107: where an S access of a space goes, with the space's checks. -/
def State.sPlace (s : State) (c : Fin 192) (st : Strand) (sp : BitVec 3) (a : W64) (need : Perm) : Except Cause SPlace :=
  match sp.toNat with
  | 0 =>
    match s.launch? st.launch with
    | none => .error .fieldMiss
    | some l =>
      match s.translate l a need with
      | .error e => .error e
      | .ok t => .ok { addr := t.addr, tag := t.tag, gated := t.gated, disc := t.disc, so := t.fld.ord == 0,
                       konst := t.fld.konst, slot := t.fld.slot, ownYard := false }
  | 1 =>
    if a.toNat < yardLimit then
      .ok { addr := yardAddr (s.yardOfCore c) a.toNat, tag := 0, gated := false, disc := false, so := false, konst := false,
            slot := none, ownYard := true }
    else .error .fieldMiss
  | _ => .error .fieldPerm

/-- R96, R106: a loaded value: a poisoned unit gives zero and sets the poison bit; a discarded page reads as zero. -/
def loadValue (m : Mem) (tag addr sz : Nat) (signed disc : Bool) : W64 × Bool :=
  if disc then (0, false)
  else if m.bad (lineOf addr) then (0, true)
  else
    let v := leNat (m.reads tag addr sz)
    (if signed then BitVec.ofInt 64 (signedOf (8 * sz) v) else BitVec.ofNat 64 v, false)

/-- R109: does an S access reach the yard of another cluster. -/
def State.remoteYard (s : State) (c : Fin 192) (p : SPlace) : Bool :=
  !p.ownYard && isYard p.addr && !(decide (yardAddr (s.yardOfCore c) 0 ≤ p.addr) && decide (p.addr < yardAddr (s.yardOfCore c + 1) 0))

/-- An S access that has issued and waits for its response. -/
def Strand.addAcc (st : Strand) (op : SOp) (dev : W64) (p : SPlace) (sz : Nat) (blocking : Bool) : Strand :=
  { st with
    accs := st.accs ++ [{ id := st.nextAid, op := op, dev := dev, addr := p.addr, size := sz, blocking := blocking, so := p.so,
                          tag := p.tag, slot := p.slot, performed := false, old := 0, cause := none,
                          inHandler := st.handler, pc := st.pc.s, loops := st.loops, lbuf := st.lbS }],
    nextAid := st.nextAid + 1 }

/-- Do an access and a range share a byte. -/
def SAcc.meets (o : SAcc) (a n : Nat) : Bool := decide (o.addr < a + n) && decide (a < o.addr + o.size)

/-- R221, R230, R238: must an S access of `n` bytes stall before issue: its stack's queue makes it, or its field is SO and an earlier
access to an SO field is not yet performed, or it reaches bytes of the own yard that an earlier access through a window has yet to reach. -/
def State.sStalls (s : State) (c : Fin 192) (st : Strand) (p : SPlace) (n : Nat) : Bool :=
  (isHbm p.addr && s.cores[c].reqStalls (stackOf p.addr)) || (p.so && st.accs.any SAcc.so) ||
    (p.ownYard && st.accs.any fun o => o.meets p.addr n)

/-- An S access handed to its path: a calendar request for HBM storage, an access to be performed at its target otherwise. -/
def State.sStart (s : State) (c : Fin 192) (st : Strand) (op : SOp) (dev : W64) (p : SPlace) (sz : Nat) (blocking : Bool) : State :=
  let s1 := s.setSt c (st.addAcc op dev p sz blocking)
  if isHbm p.addr then s1.request c (stackOf p.addr) p.addr sz (.acc st.sid st.nextAid) else s1

/-- R106: the address of a MEM word. -/
def memAddr (st : Strand) (a : BitVec 5) (z : BitVec 2) (o : BitVec 10) : W64 := st.xv a + (o.signExtend 64 <<< z.toNat)

/-- LD and LDU (R106, R107, R109). A load of a discarded page asks for nothing and gives its zero after the 24 cycles that R95 gives a load
of the own yard (DESIGN CHOICE, log: the spec gives no time for it). -/
def loadBody (signed : Bool) (d a : BitVec 5) (z : BitVec 2) (p : BitVec 3) (o : BitVec 10) (s : State) (c : Fin 192)
    (st : Strand) : Res :=
  let sz := szBytes z
  let adr := memAddr st a z o
  if !st.owns false d then .trap .xown 0
  else if st.xp a then .trap .poison 0
  else if adr.toNat % sz != 0 then .trap .misalign adr
  else
    match s.sPlace c st p adr .r with
    | .error e => .trap e adr
    | .ok pl =>
      if pl.gated then .trap .remoteGated adr
      else if pl.disc then .ok (s.setSt c (st.xlater (s.cyc c + 24) d 0 false true)) .seq 1
      else if s.sStalls c st pl sz then .stall s
      else if pl.ownYard then
        let (v, bad) := loadValue s.mem 0 pl.addr sz signed false
        .ok (s.setSt c (st.xlater (s.cyc c + 24) d v bad true)) .seq 1
      else .ok (s.sStart c st (.load d signed) adr pl sz (s.remoteYard c pl)) .seq 1

/-- LD (R106). -/
def execLd (r : Bool) (d a : BitVec 5) (z : BitVec 2) (p : BitVec 3) (o : BitVec 10) (s : State) : Out :=
  issue .s r false [d, a] (loadBody true d a z p o) s

/-- LDU (R106). -/
def execLdu (r : Bool) (d a : BitVec 5) (z : BitVec 2) (p : BitVec 3) (o : BitVec 10) (s : State) : Out :=
  issue .s r false [d, a] (loadBody false d a z p o) s

/-- R108: what a store of a register writes: its bytes, or, for a poisoned source under policy MARK, poison on the line. -/
def storeWrite (p : SPlace) (sz : Nat) (v : W64) (bad : Bool) : MWrite :=
  if bad then MWrite.mark [lineOf p.addr] else MWrite.plain p.addr p.tag (leBytes sz v.toNat)

/-- ST (R106 to R109): the word's checks, R108's policy, and the store. -/
def execSt (r : Bool) (x a : BitVec 5) (z : BitVec 2) (p : BitVec 3) (o : BitVec 10) (s : State) : Out :=
  issue .s r false [x, a] (fun s c st =>
    let sz := szBytes z
    let adr := memAddr st a z o
    if st.xp a then .trap .poison 0
    else if adr.toNat % sz != 0 then .trap .misalign adr
    else
      match s.sPlace c st p adr .w with
      | .error e => .trap e adr
      | .ok pl =>
        if pl.gated then .trap .remoteGated adr
        else if pl.disc then .trap .discarded adr
        else if st.xp x && !st.pmark then .trap .poison 0
        else
          let w := storeWrite pl sz (st.xv x) (st.xp x)
          if s.sStalls c st pl sz then .stall s
          else if pl.ownYard then .ok (s.land c 0 w) .seq 1
          else .ok (s.sStart c st (.store w) adr pl sz (s.remoteYard c pl)) .seq 1) s

/- The constant path. -/

/-- R243: the line of the constant cache, where it is held. -/
def Core.kline? (k : Core) (line : Nat) : Option KLine := k.kcache.find? fun l => l.line == line

/-- R156: a fill asked for a line that is neither held nor being filled; HBM storage takes a calendar request (R230). `keep` says whether
the path keeps the line (R238). -/
def State.askLine (s : State) (c : Fin 192) (line tag : Nat) (disc keep : Bool) : State :=
  let k := s.cores[c]
  let asker := ((s.strand? c).map fun st => (st.sid, st.nextAid)).getD (0, 0)
  if k.kfills.any fun f => f.line == line && f.upto.isNone then s
  else
    let s1 := s.setCore c { k with kfills := k.kfills ++ [{ id := k.nextFill, line := line, tag := tag, disc := disc, data := none,
                                                             upto := none, sid := asker.1, since := asker.2, keep := keep }],
                                   nextFill := k.nextFill + 1 }
    if isHbm (64 * line) && !disc then s1.request c (stackOf (64 * line)) (64 * line) 64 (.fill k.nextFill) else s1

/-- R110: the value of a unit of a constant line. -/
def klineValue (l : KLine) (addr sz : Nat) : W64 × Bool :=
  if l.bad then (0, true)
  else (BitVec.ofInt 64 (signedOf (8 * sz) (leNat ((l.data.drop (addr % 64)).take sz))), false)

/-- R238: a line that an LDK of an SO field may not take as it stands in the constant path: it, and a fill of it under way, serve
only what was asked before. -/
def Core.dropLine (k : Core) (line upto : Nat) : Core :=
  { k with kcache := k.kcache.filter fun l => l.line != line,
           kfills := k.kfills.map fun f => if f.line == line && f.upto.isNone then { f with upto := some upto } else f }

/-- LDK (R95, R110, R238, R243): six cycles on a hit; a miss waits for its line, and so does an LDK of an SO field, which asks for it
anew once the earlier S accesses to SO fields are performed. -/
def execLdk (r : Bool) (d a : BitVec 5) (z : BitVec 2) (o : BitVec 10) (s : State) : Out :=
  issue .s r false [d, a] (fun s c st =>
    let sz := szBytes z
    let adr := memAddr st a z o
    if !st.owns false d then .trap .xown 0
    else if st.xp a then .trap .poison 0
    else if adr.toNat % sz != 0 then .trap .misalign adr
    else
      match s.sPlace c st 0 adr .r with
      | .error e => .trap e adr
      | .ok pl =>
        if !pl.konst then .trap .fieldPerm adr
        else
          match if pl.so then none else s.cores[c].kline? (lineOf pl.addr) with
          | some l =>
            let (v, bad) := klineValue l pl.addr sz
            .ok (s.setSt c (st.xlater (s.cyc c + 6) d v bad true)) .seq 1
          | none =>
            if pl.gated then .trap .remoteGated adr
            else if s.sStalls c st pl sz then .stall s
            else .ok (((s.setCore c (if pl.so then (s.cores[c]).dropLine (lineOf pl.addr) st.nextAid else s.cores[c])).setSt c
              (st.addAcc (.ldk d) adr pl sz false)).askLine c (lineOf pl.addr) pl.tag pl.disc !pl.so) .seq 1) s

/- Atomics. -/

/-- R111, R112: the new value of a unit of `n` bits, and whether it is written. -/
def AmoFn.apply (f : AmoFn) (n : Nat) (old b : Nat) : Nat × Bool :=
  let m := 2 ^ n
  let sx (x : Nat) : Int := signedOf n x
  match f with
  | .add => ((old + b) % m, true)
  | .and => (old &&& (b % m), true)
  | .or => (old ||| (b % m), true)
  | .xor => (old ^^^ (b % m), true)
  | .min => (if sx old < sx b then old else b % m, true)
  | .max => (if sx old < sx b then b % m else old, true)
  | .minu => (if old < b % m then old else b % m, true)
  | .maxu => (if old < b % m then b % m else old, true)
  | .swap => (b % m, true)
  | .cas e => (b % m, old == e.toNat % m)

/-- R221, R240: has a write of the present cycle reached a unit of a yard. -/
def State.unitBusy (s : State) (a n : Nat) : Bool :=
  match if isYard a then s.yardCluster a else none with
  | some q => (s.clusters[q]).recent.any fun o =>
      (decide (o.w.addr < a + n) && decide (a < o.w.addr + o.w.data.length)) || o.w.marks.contains (lineOf a)
  | none => false

/-- R221, R240: what an atomic writes. One to a yard unit reaches it between two cycles, so that it takes the first place in the order of the
cycle (DEDUCED, log): nothing comes between what it reads and what it writes. -/
def State.landAtomic (s : State) (w : MWrite) : State :=
  match if isYard w.addr then s.yardCluster w.addr else none with
  | some q =>
    let k := s.clusters[q]
    { s.commit w with clusters := s.clusters.set q { k with recent := { rank := 0, w := w } :: k.recent } }
  | none => s.commit w

/-- R111, R114, R231: an atomic of a strand performed at its target, on memory as the strand's S path sees it: the old value; nothing is written where the unit is poisoned or its cluster
gated. -/
def State.perform (s : State) (sid : Nat) (a : SAcc) (fn : AmoFn) (b : W64) (gated : Bool) : State × W64 × Option Nat :=
  if gated then (s, 0, some 11)
  else
    let m := s.view sid 0
    if m.bad (lineOf a.addr) then (s, 0, some 8)
    else
      let old := leNat (m.reads a.tag a.addr a.size)
      let (v, wr) := fn.apply (8 * a.size) old b.toNat
      let s1 := if wr then (s.supersede sid a.addr a.size).landAtomic (MWrite.plain a.addr a.tag (leBytes a.size v)) else s
      (s1, BitVec.ofInt 64 (signedOf (8 * a.size) old), none)

/-- R111 to R114: AMO and CAS: the checks at issue; with rl every earlier S access is performed first. An atomic on a discarded page raises
DISCARDED, as a store there does (DESIGN CHOICE, log: R389 names stores, copies and notes). -/
def amoWord (r : Bool) (fn : W64 → AmoFn) (cas : Bool) (d a b : BitVec 5) (l : BitVec 1) (z p : BitVec 1) (s : State) : Out :=
  issue .s r false [d, a, b] (fun s c st =>
    let sz := if z = 0 then 4 else 8
    let adr := st.xv a
    if !st.owns false d then .trap .xown 0
    else if st.xp a || st.xp b || (cas && st.xp d) then .trap .poison 0
    else if adr.toNat % sz != 0 then .trap .misalign adr
    else
      match s.sPlace c st (p.zeroExtend 3) adr .rw with
      | .error e => .trap e adr
      | .ok pl =>
        if pl.disc then .trap .discarded adr
        else if l = 1 && !st.accs.isEmpty then .stall s
        else if s.sStalls c st pl sz then .stall s
        else .ok (s.sStart c st (.amo (fn (st.xv d)) d (st.xv b)) adr pl sz true) .seq 1) s

/-- AMOADD (R111, R113, R114). -/
def execAmoadd (r : Bool) (d a b : BitVec 5) (_q l : BitVec 1) (_c : BitVec 2) (z p : BitVec 1) (s : State) : Out :=
  amoWord r (fun _ => .add) false d a b l z p s

/-- AMOAND (R111, R113, R114). -/
def execAmoand (r : Bool) (d a b : BitVec 5) (_q l : BitVec 1) (_c : BitVec 2) (z p : BitVec 1) (s : State) : Out :=
  amoWord r (fun _ => .and) false d a b l z p s

/-- AMOOR (R111, R113, R114). -/
def execAmoor (r : Bool) (d a b : BitVec 5) (_q l : BitVec 1) (_c : BitVec 2) (z p : BitVec 1) (s : State) : Out :=
  amoWord r (fun _ => .or) false d a b l z p s

/-- AMOXOR (R111, R113, R114). -/
def execAmoxor (r : Bool) (d a b : BitVec 5) (_q l : BitVec 1) (_c : BitVec 2) (z p : BitVec 1) (s : State) : Out :=
  amoWord r (fun _ => .xor) false d a b l z p s

/-- AMOMIN (R111, R113, R114). -/
def execAmomin (r : Bool) (d a b : BitVec 5) (_q l : BitVec 1) (_c : BitVec 2) (z p : BitVec 1) (s : State) : Out :=
  amoWord r (fun _ => .min) false d a b l z p s

/-- AMOMAX (R111, R113, R114). -/
def execAmomax (r : Bool) (d a b : BitVec 5) (_q l : BitVec 1) (_c : BitVec 2) (z p : BitVec 1) (s : State) : Out :=
  amoWord r (fun _ => .max) false d a b l z p s

/-- AMOMINU (R111, R113, R114). -/
def execAmominu (r : Bool) (d a b : BitVec 5) (_q l : BitVec 1) (_c : BitVec 2) (z p : BitVec 1) (s : State) : Out :=
  amoWord r (fun _ => .minu) false d a b l z p s

/-- AMOMAXU (R111, R113, R114). -/
def execAmomaxu (r : Bool) (d a b : BitVec 5) (_q l : BitVec 1) (_c : BitVec 2) (z p : BitVec 1) (s : State) : Out :=
  amoWord r (fun _ => .maxu) false d a b l z p s

/-- AMOSWAP (R111, R113, R114). -/
def execAmoswap (r : Bool) (d a b : BitVec 5) (_q l : BitVec 1) (_c : BitVec 2) (z p : BitVec 1) (s : State) : Out :=
  amoWord r (fun _ => .swap) false d a b l z p s

/-- CAS (R112 to R114): xd holds the expected value. -/
def execCas (r : Bool) (d a b : BitVec 5) (_q l : BitVec 1) (_c : BitVec 2) (z p : BitVec 1) (s : State) : Out :=
  amoWord r (fun e => .cas e) true d a b l z p s

/- Fences. -/

/-- FENCE (R115): S stalls until its earlier accesses are performed. -/
def execFence (r : Bool) (_sc : BitVec 2) (s : State) : Out :=
  issue .s r false [] (fun s _ st => if st.accs.isEmpty then .ok s .seq 1 else .stall s) s

/-- R117: a FENCEX that names H or Q needs DEVICE or SYSTEM scope, one that names E needs SYSTEM. -/
def fencexLegal (b a : BitVec 7) (sc : BitVec 2) : Bool :=
  let m := b ||| a
  !((m.getLsbD 4 || m.getLsbD 5) && sc.toNat < 2) && !(m.getLsbD 6 && sc.toNat != 3)

/-- Is an M word in progress an access of memory or of the accumulator (R235). -/
def MEff.accesses : MEff → Bool
  | .loadW _ => false
  | .loadS _ => false
  | _ => true

/-- R116: is every access of the earlier set performed. -/
def Strand.fenceDone (st : Strand) (f : FenceX) : Bool :=
  (!f.before.getLsbD 0 || !st.accs.any fun a => decide (a.id < f.aid)) &&
  (!f.before.getLsbD 1 || !st.vpend.any fun w => decide (w.seq < f.vseq) && !w.writes.isEmpty) &&
  (!f.before.getLsbD 2 || !st.mpend.any fun w => decide (w.seq < f.mseq) && w.eff.accesses) &&
  (!f.before.getLsbD 3 || !st.copies.any fun k => decide (k.cid < f.cid) && k.kind != 6)

/-- R196, R199: the lowest-numbered of the named tokens whose COND is set. -/
def Strand.condToken (st : Strand) (mask : BitVec 8) : Option (Fin 8) :=
  (List.finRange 8).find? fun i => mask.getLsbD i.val && (st.tok[i]).cond != 0

/-- R195, R199: the cause of a COND. -/
def condCause (c : BitVec 2) : Cause := if c = 1 then .poison else if c = 2 then .remoteGated else .fieldMiss

/-- R199: raising token `i`'s COND as the trap `t` clears it. -/
def Strand.condRaised (st : Strand) (i : Fin 8) (t : TrapPend) : Strand :=
  let k := st.tok[i]
  { st with tok := st.tok.set i { k with cond := 0 }, trapAt := some { t with undo := some (i, k.cond, k.caddr) } }

/-- R199, R88: a set COND is raised as a trap, and raising clears it; where the trap of an earlier slot is the one of this cycle nothing is
raised, and the COND stays. -/
def State.raiseCond (s : State) (c : Fin 192) (st : Strand) (sl : Slot) (i : Fin 8) : State :=
  let s1 := s.raiseTrap c st sl (condCause (st.tok[i]).cond) (st.tok[i]).caddr
  match s1.strand? c with
  | none => s1
  | some st1 =>
    match st1.trapAt with
    | none => s1
    | some t => if t.slot = sl then s1.setSt c (st1.condRaised i t) else s1

/-- FENCEX (R116, R117, R199). -/
def execFencex (r : Bool) (b a : BitVec 7) (sc : BitVec 2) (s : State) : Out :=
  issue .s r false [] (fun s c st =>
    if !fencexLegal b a sc then .trap .illegal 0
    else if b = 0 || a = 0 then .ok s .seq 1
    else
      let f := st.fx.getD { before := b, after := a, vseq := st.vseq, mseq := st.mseq, cid := st.nextCid, aid := st.nextAid }
      if st.fenceDone f then
        let st1 := { st with fx := none }
        match if b.getLsbD 3 then st1.condToken 0xFF else none with
        | some i => .stall (s.raiseCond c st1 .s i)
        | none => .ok (s.setSt c st1) .seq 1
      else .stall (s.setSt c { st with fx := some f })) s

/-- FENCEK (R118): S stalls until the core's constant path has been discarded (CONSTANT_PATH_DISCARD). -/
def execFencek (r : Bool) (s : State) : Out :=
  issue .s r false [] (fun s c st =>
    match st.fk with
    | none => .stall (s.setSt c { st with fk := some (s.cyc c + 64) })
    | some 0 => .ok (s.setSt c { st with fk := none }) .seq 1
    | some _ => .stall s) s

/- The monitor. -/

def State.setMon (s : State) (c : Fin 192) (m : Monitor) : State := { s with mons := s.mons.set c m }

/-- WATCH (R119): checked like an LD of one byte. -/
def execWatch (r : Bool) (a : BitVec 5) (s : State) : Out :=
  issue .s r false [a] (fun s c st =>
    if st.xp a then .trap .poison 0
    else
      match s.sPlace c st 0 (st.xv a) .r with
      | .error e => .trap e (st.xv a)
      | .ok pl =>
        if pl.gated then .trap .remoteGated (st.xv a)
        else .ok ((s.setSt c { st with mlost := false }).setMon c { line := some (lineOf pl.addr), hit := false }) .seq 1) s

/-- R120: WAITA ends with a code: xd takes it and the monitor is disarmed. -/
def State.wakeWith (s : State) (c : Fin 192) (st : Strand) (d : BitVec 5) (code : W64) : State :=
  (s.setSt c ({ st with sleep := none, mlost := false }.xlater (s.cyc c + 1) d code false true)).setMon c
    { line := none, hit := false }

/-- WAITA (R120). A WAITA that sleeps is not decoded or checked again. A sleep that a write to the watched line ends gives code 0; WAITA_TIMEOUT gives code 1. -/
def execWaita (r : Bool) (d a : BitVec 5) (s : State) : Out :=
  issue .s r false [d, a] (fun s c st =>
    let m := s.mons[c]
    if st.sleep.isSome then
      if m.hit then .ok (s.wakeWith c st d 0) .seq 1 else .stall s
    else if !st.owns false d then .trap .xown 0
    else if st.xp a then .trap .poison 0
    else if st.mlost then .ok (s.wakeWith c st d 2) .seq 1
    else if m.line.isNone then .ok (s.wakeWith c st d 3) .seq 1
    else if m.hit then .ok (s.wakeWith c st d 0) .seq 1
    else if st.xv a = 0 then .ok (s.wakeWith c st d 1) .seq 1
    else
      let now := dtime s.tick
      let ends := if st.xv a = BitVec.allOnes 64 then none else some (now + (st.xv a).toNat)
      .stall (s.setSt c { st with sleep := some { word := (s.word? st .s).getD 0, xd := d, since := now, ends := ends } })) s

end Sys2Proof.Machine
end

