-- ==== Sys2Proof/Machine/SSys.lean ====
section
/-! DEFINITION. Control registers (R71 to R76, R124), LOCQ (R131), and the making and ending of strands: SOW, JOIN, DONE
(R125 to R127, R279 to R284, R409). -/

namespace Sys2Proof.Machine

open Sys2Proof

/-- R74, R300: the schedule counter; a furrow-bound fault freezes it. -/
def State.scyc (s : State) (c : Fin 192) (st : Strand) : W64 :=
  BitVec.ofNat 64 (if s.wires.any fun w => w.gang == st.gang then st.scycBase else st.scycBase + (s.cyc c - st.scycSince))

/-- R75: the rotation count and the slot of the calendar. -/
def sphase (tick : Nat) : W64 := BitVec.ofNat 64 (tick / 400 % 2 ^ 32 * 512 + tick % 400)

/-- R76: cycles of the core's cluster in which a strand has stood on the core, those in which a stall wire held it among them. -/
def Core.pmcycNow (k : Core) (cyc : Nat) : W64 :=
  if k.strand.isSome then k.pmcyc + BitVec.ofNat 64 (cyc - k.pmSince) else k.pmcyc

/-- R47: FSTAT. -/
def Strand.fstat (st : Strand) : W64 := (st.fstatV.zeroExtend 64) ||| (st.fstatM.zeroExtend 64 <<< 8)

/-- R71: the value of a control register. -/
def State.csr (s : State) (c : Fin 192) (st : Strand) (n : BitVec 10) : W64 :=
  let k := s.cores[c]
  match n.toNat with
  | 0x0 => st.syncmask.zeroExtend 64
  | 0x1 => st.xown.zeroExtend 64
  | 0x2 => st.vshape.zeroExtend 64
  | 0x3 => boolW st.pmark
  | 0x4 => st.fstat
  | 0x5 => boolW st.clkFixed ||| (boolW st.clkFurrow <<< 1)
  | 0x6 => s.scyc c st
  | 0x7 => sphase s.tick
  | 0x8 => k.pmcycNow (s.clusters[clusterOf c]).cyc
  | 0x9 => k.pmlocal
  | 0xA => k.pmremote
  | 0xB => k.pmxdie
  | 0x10 => st.trapvec
  | 0x11 => st.trapcause
  | 0x12 => st.trapslot
  | 0x13 => st.trappc
  | 0x14 => st.trapaddr
  | 0x20 => st.seedptr
  | 0x21 => st.frameptr
  | 0x22 => BitVec.ofNat 64 st.launch
  | m =>
    if 0x40 ≤ m && m < 0x60 then (st.tb.bfmtW[(m - 0x40) % 32]'(Nat.mod_lt _ (by omega))).zeroExtend 64
    else if 0x60 ≤ m && m < 0x80 then (st.tb.bfmtA[(m - 0x60) % 32]'(Nat.mod_lt _ (by omega))).zeroExtend 64
    else 0

/-- CSRR (R124). -/
def execCsrr (r : Bool) (d : BitVec 5) (n : BitVec 10) (s : State) : Out :=
  issue .s r false [d] (fun s c st =>
    if !st.owns false d then .trap .xown 0
    else .ok (s.setSt c (st.xlater (s.cyc c + 1) d (s.csr c st n) false true)) .seq 1) s

/-- R66: a VSHAPE value with a reserved ETYPE. -/
def shapeBad (v : W64) : Bool := decide (5 ≤ (v.extractLsb' 10 3).toNat)

/-- CSRW (R124): effective from the next cycle; a CSRW of XOWN waits until no X write is outstanding (R62). -/
def execCsrw (r : Bool) (a : BitVec 5) (n : BitVec 10) (s : State) : Out :=
  issue .s r false [a] (fun s c st =>
    let v := st.xv a
    if st.xp a then .trap .poison 0
    else if n = 2 && shapeBad v then .trap .format 0
    else if n = 1 && (!st.xpend.isEmpty || st.accs.any fun q => q.dest.isSome) then .stall s
    else .ok (s.setSt c { st with cpend := st.cpend ++ [{ due := s.cyc c + 1, num := n, val := v }] }) .seq 1) s

/- LOCQ. -/

/-- R131: the result map. -/
def locqWord (ywin : Bool) (core cluster dist : Nat) : W64 :=
  BitVec.ofNat 64 (2 ^ 63 + (if ywin then 2 ^ 16 else 0) + core * 2 ^ 8 + cluster * 4 + dist)

/-- R131: core mode. -/
def locqCore (c : Fin 192) (x : W64) : W64 :=
  let i := if x = BitVec.allOnes 64 then c.val else x.toNat
  if i < 192 then locqWord false i (i / 4) (i % 4) else 0

/-- R131: address mode, of a target. -/
def State.locqAddr (s : State) (c : Fin 192) (l : Launch) (t : Tgt) : W64 :=
  match t.fld.slot with
  | some k =>
    if s.slotGated l k then locqWord true 0xFF 0 3
    else
      match l.slots[k]? with
      | some sl =>
        let q := sl.cluster.getD 0
        locqWord true q 0 (if q / 6 = c.val / 24 then 0 else 1)
      | none => locqWord true 0xFF 0 3
  | none =>
    match t.fld.tier.toNat with
    | 0 => locqWord false 0 (stackOf t.addr) (if stackOf t.addr / 2 = c.val / 24 then 0 else 1)
    | 1 => locqWord false 0 16 2
    | 2 => locqWord false 0 32 3
    | _ => locqWord false 0 48 3

/-- LOCQ (R95, R131). -/
def execLocq (r : Bool) (d a : BitVec 5) (m : BitVec 1) (s : State) : Out :=
  issue .s r false [d, a] (fun s c st =>
    if !st.owns false d then .trap .xown 0
    else if st.xp a then .trap .poison 0
    else if m = 1 then .ok (s.setSt c (st.xlater (s.cyc c + 4) d (locqCore c (st.xv a)) false true)) .seq 1
    else
      match s.launch? st.launch with
      | none => .trap .fieldMiss (st.xv a)
      | some l =>
        match s.translate l (st.xv a) .none with
        | .error e => .trap e (st.xv a)
        | .ok t => .ok (s.setSt c (st.xlater (s.cyc c + 4) d (s.locqAddr c l t) false true)) .seq 1) s

/- Seeds. -/

/-- A seed record as read (R280). -/
structure SeedRec where
  entry : W64
  frame : W64
  join : BitVec 32
  flags : BitVec 32
  index : BitVec 32
  launch : BitVec 16
  place : BitVec 16
deriving DecidableEq, Repr, Inhabited

def word64 (bs : List Byte) (i : Nat) : W64 := BitVec.ofNat 64 (leNat ((bs.drop (8 * i)).take 8))

/-- R280: a record from its 32 bytes. -/
def SeedRec.ofBytes (bs : List Byte) : SeedRec :=
  let u := word64 bs 2
  let t := word64 bs 3
  { entry := word64 bs 0, frame := word64 bs 1, join := u.extractLsb' 0 32, flags := u.extractLsb' 32 32,
    index := t.extractLsb' 0 32, launch := t.extractLsb' 32 16, place := t.extractLsb' 48 16 }

/-- R280: bytes 23:16 of a record. -/
def SeedRec.unit (r : SeedRec) : W64 := r.flags ++ r.join

/-- R280: bytes 31:24 of a record. -/
def SeedRec.tail (r : SeedRec) : W64 := r.place ++ r.launch ++ r.index

def SeedRec.level (r : SeedRec) : BitVec 2 := r.place.extractLsb' 14 2
def SeedRec.gm1 (r : SeedRec) : Nat := (r.place.extractLsb' 0 6).toNat
def SeedRec.sown (r : SeedRec) : Bool := r.flags.getLsbD 7
def SeedRec.resume (r : SeedRec) : Bool := r.flags.getLsbD 6
def SeedRec.prio (r : SeedRec) : BitVec 3 := r.flags.extractLsb' 0 3

/-- R281: a nonzero reserved bit, RESUME, a reserved LEVEL or a GM1 that the level does not allow. -/
def SeedRec.reservedBad (r : SeedRec) : Bool :=
  r.flags.extractLsb' 8 24 != 0 || r.flags.extractLsb' 3 3 != 0 || r.resume || r.place.extractLsb' 6 8 != 0 ||
    (match r.level.toNat with
      | 0 => r.gm1 != 0
      | 1 => !(r.gm1 == 0 || r.gm1 == 1 || r.gm1 == 3)
      | 2 => decide (48 ≤ r.gm1)
      | _ => true)

/-- The points that a launch's OPMASK permits (R263, R268). -/
def Launch.permitted (l : Launch) : List OpPoint :=
  (l.ops.zipIdx.filter fun p => l.opmask.getLsbD p.2 && p.1.freq != 0).map Prod.fst

/-- The largest TM1 of the permitted points. -/
def Launch.maxTm1 (l : Launch) : Nat := l.permitted.foldl (fun m p => max m p.tm1) 0

/-- R281: a gang of more clusters than every permitted point allows. -/
def SeedRec.gangTooBig (r : SeedRec) (l : Launch) : Bool := r.level == 2 && decide (l.maxTm1 < r.gm1)

/-- R407: clusters in service. -/
def State.inService (s : State) : Nat := (s.clusters.toList.filter fun k => !k.withheld).length

/-- R407: a device-level gang of more clusters than are in service. -/
def SeedRec.overService (r : SeedRec) (s : State) : Bool := r.level == 2 && decide (s.inService ≤ r.gm1)

/-- A seed placed from a record (R282, R284). -/
def SeedRec.seed (r : SeedRec) (addr : W64) : Seed :=
  { addr := addr, entry := r.entry, frame := r.frame, flags := r.unit, place := r.tail, phys := 0 }

def State.setPart (s : State) (p : Fin 64) (q : Partition) : State := { s with parts := s.parts.set p q }

/-- R284: the seeds that take entries of a queue: those in it, and those placed that have not started, which may come back to it (DEDUCED,
log). -/
def State.seedsHeld (s : State) (p : Fin 64) (prio : BitVec 3) : List Seed :=
  (s.parts[p]).queues[prio.toNat] ++ s.placing.filterMap fun x => x.seed.filter fun sd => x.part == p && sd.flags.extractLsb' 32 3 == prio

/-- R284: has a seed queue a free entry; a partition whose queue area has not been set has none. -/
def State.hasRoom (s : State) (p : Fin 64) (prio : BitVec 3) : Bool :=
  (s.parts[p]).seedLog2 != 0 && decide ((s.seedsHeld p prio).length < 2 ^ (s.parts[p]).seedLog2)

/-- R284: the address of entry `i` of the queue of a priority. -/
def Partition.entryAt (p : Partition) (prio i : Nat) : Nat := p.seedBase + prio * 32 * 2 ^ p.seedLog2 + 32 * i

/-- The lowest entry of a queue that no seed takes. -/
def State.freeEntry (s : State) (p : Fin 64) (prio : BitVec 3) : Nat :=
  let q := s.seedsHeld p prio
  let at_ (i : Nat) : Nat := (s.parts[p]).entryAt prio.toNat i
  at_ (((List.range (q.length + 1)).find? fun i => !q.any fun sd => sd.phys == at_ i).getD 0)

/-- R284: a seed placed in a partition's queue: its entry in partition memory is written, where the page tables give it storage, and the
queue holds it. -/
def State.placeSeed (s : State) (p : Fin 64) (prio : BitVec 3) (sd : Seed) : State :=
  let q := s.parts[p]
  let a := s.freeEntry p prio
  let bs := leBytes 8 sd.entry.toNat ++ leBytes 8 sd.frame.toNat ++ leBytes 8 sd.flags.toNat ++ leBytes 8 sd.place.toNat
  let s1 := s.setPart p { q with queues := q.queues.set prio.toNat (q.queues[prio.toNat] ++ [{ sd with phys := a }]) }
  match s.storeAt p a with
  | some x => s1.commit (MWrite.plain x q.keyId bs)
  | none => s1

/-- What SOW does to a record (R282): the record as written, whether it is placed. -/
def SeedRec.sow (r : SeedRec) (l : Launch) (prio : BitVec 3) : SeedRec × Bool :=
  let f0 := (r.flags &&& ~~~7#32) ||| prio.zeroExtend 32
  let r1 := { r with index := BitVec.ofNat 32 l.nextIndex, launch := BitVec.ofNat 16 l.id }
  if r.join = 0 then ({ r1 with flags := f0 }, true) else ({ r1 with flags := f0 ||| 0x80#32 }, false)

/-- The bytes 31:16 of a record written back. -/
def SeedRec.write (r : SeedRec) (addr tag : Nat) : MWrite :=
  MWrite.plain (addr + 16) tag (leBytes 8 r.unit.toNat ++ leBytes 8 r.tail.toNat)

/-- R279, R282: a seed sown by a launch, from the record at a physical address: `none` where its queue has no free entry. A
waiting record is left as it is. -/
def State.sowAt (s : State) (l : Launch) (prio : BitVec 3) (dev : W64) (addr tag : Nat) : Option State :=
  let r := SeedRec.ofBytes (s.mem.reads tag addr 32)
  if r.sown then some s
  else
    let (r1, placed) := r.sow l prio
    if placed && !s.hasRoom l.part prio then none
    else
      let sown := if placed then l.sown else (addr, dev) :: l.sown
      let s1 := (s.commit (r1.write addr tag)).setLaunch { l with nextIndex := l.nextIndex + 1, live := l.live + 1, sown := sown }
      some (if placed then s1.placeSeed l.part prio (r1.seed dev) else s1)

/-- R286: the device address with which a waiting record was sown, and the launch's list without it. -/
def State.sownAt (s : State) (launch addr : Nat) (dev : W64) : State × W64 :=
  match s.launch? launch with
  | none => (s, dev)
  | some l =>
    match l.sown.find? fun e => e.1 == addr with
    | some (_, d) => (s.setLaunch { l with sown := l.sown.filter fun e => e.1 != addr }, d)
    | none => (s, dev)

/-- R282: a JOIN or NOTE on the record at a physical address: the counter falls by one, and at zero a sown record is placed in
the queue of the priority that it names, or wakes the parked launch it resumes; `none` where the queue has no free entry. -/
def State.joinAt (s : State) (p : Fin 64) (dev : W64) (addr tag : Nat) : Option State :=
  let r := SeedRec.ofBytes (s.mem.reads tag addr 32)
  if r.join = 0 then some s
  else
    let r1 : SeedRec := { r with join := r.join - 1 }
    if r1.join == 0 && r.sown then
      let r2 := { r1 with flags := r1.flags &&& ~~~0x80#32 }
      let s1 := s.commit (r2.write addr tag)
      if r.resume then
        let q := s1.parts[p]
        let park := { q.park with used := q.park.used.filter fun u => siloAddr (q.park.base + u.1) != addr }
        some { s1.setPart p { q with park := park } with launches := s1.launches.map fun l => if l.parkSeed = some addr then { l with parked := false, resuming := false, parkSeed := none } else l }
      else if s.hasRoom p r.prio then
        let (s2, d) := s1.sownAt r.launch.toNat addr dev
        some (s2.placeSeed p r.prio (r2.seed d))
      else none
    else some (s.commit (r1.write addr tag))

/-- R125, R126: the checks of a record's address, shared by SOW and JOIN. A record in a discarded page raises DISCARDED, since SOW and JOIN
write it (DESIGN CHOICE, log: the spec does not list it). -/
def State.recordPlace (s : State) (c : Fin 192) (st : Strand) (a : BitVec 5) : Except Cause SPlace :=
  if st.xp a then .error .poison
  else if (st.xv a).toNat % 32 != 0 then .error .misalign
  else
    match s.sPlace c st 0 (st.xv a) .rw with
    | .error e => .error e
    | .ok pl =>
      if pl.gated then .error .remoteGated
      else if pl.disc then .error .discarded
      else .ok pl

/-- TRAPADDR of a record's trap: zero for a poisoned address register (R97). -/
def recordAddr (st : Strand) (a : BitVec 5) : W64 := if st.xp a then 0 else st.xv a

/-- R125, R126, R230: a record in HBM storage takes one calendar request of its own, whose slot a SOW or JOIN awaits; `none` once it may act
(DESIGN CHOICE, log: how long the word takes beyond that is left open). -/
def State.recordAsk (s : State) (c : Fin 192) (st : Strand) (pl : SPlace) : Option State :=
  if !isHbm pl.addr then none
  else
    match st.recReq with
    | some (_, true) => none
    | some (_, false) => some s
    | none =>
      if s.cores[c].reqStalls (stackOf pl.addr) then some s
      else some ((s.setSt c { st with recReq := some (st.nextAid, false), nextAid := st.nextAid + 1 }).request c (stackOf pl.addr) pl.addr 32
        (.acc st.sid st.nextAid))

/-- R292, R319: the bytes of a record that took no request. -/
def State.countRecord (s : State) (st : Strand) (pl : SPlace) : State := if isHbm pl.addr then s else s.countBytes st.part st.launch pl.addr 32

/-- A SOW or JOIN issues: its request has served. -/
def State.recordMet (s : State) (c : Fin 192) (st : Strand) (pl : SPlace) : State :=
  (s.countRecord st pl).setSt c { st with recReq := none }

/-- SOW (R125, R281, R282): the checks of its operands, the release of the S path, then the record as it stands and the checks of what it
holds, in the order here (DESIGN CHOICE, log: R125 gives none). -/
def execSow (r : Bool) (a : BitVec 5) (p : BitVec 3) (s : State) : Out :=
  issue .s r false [a] (fun s c st =>
    match s.recordPlace c st a, s.launch? st.launch with
    | .error e, _ => .trap e (recordAddr st a)
    | .ok _, none => .trap .fieldMiss (st.xv a)
    | .ok pl, some l =>
      if l.prioceil.toNat < p.toNat then .trap .privilege 0
      else if !st.accs.isEmpty then .stall s
      else
        match s.recordAsk c st pl with
        | some s1 => .stall s1
        | none =>
          let rec_ := SeedRec.ofBytes (s.mem.reads pl.tag pl.addr 32)
          if s.mem.bad (lineOf pl.addr) then (s.countRecord st pl).poisonTrap c st .s pl.addr (st.xv a)
          else if rec_.reservedBad then .trap .reservedNonzero (st.xv a)
          else if rec_.gangTooBig l || rec_.overService s || decide (2 ^ 32 - 1 ≤ l.nextIndex) then .trap .privilege 0
          else
            match s.sowAt l p (st.xv a) pl.addr pl.tag with
            | none => .stall s
            | some s1 => .ok (s1.recordMet c st pl) .seq 1) s

/-- JOIN (R126, R282). -/
def execJoin (r : Bool) (a : BitVec 5) (s : State) : Out :=
  issue .s r false [a] (fun s c st =>
    match s.recordPlace c st a with
    | .error e => .trap e (recordAddr st a)
    | .ok pl =>
      if !st.accs.isEmpty then .stall s
      else
        match s.recordAsk c st pl with
        | some s1 => .stall s1
        | none =>
          if s.mem.bad (lineOf pl.addr) then (s.countRecord st pl).poisonTrap c st .s pl.addr (st.xv a)
          else
            match s.joinAt st.part (st.xv a) pl.addr pl.tag with
            | none => .stall s
            | some s1 => .ok (s1.recordMet c st pl) .seq 1) s

/- Areas of system software (R329). -/

/-- Is a range of an area free. -/
def Area.fits (a : Area) (off n : Nat) : Bool :=
  decide (off + n ≤ a.size) && a.used.all fun u => decide (off + n ≤ u.1) || decide (u.1 + u.2 ≤ off)

/-- R329: the lowest offset at which a range fits. -/
def Area.find (a : Area) (n : Nat) : Option Nat :=
  ((0 :: a.used.map fun u => u.1 + u.2).insertionSort fun x y => x ≤ y).find? fun o => a.fits o n

def Area.take (a : Area) (off n : Nat) : Area := { a with used := (off, n) :: a.used }

/-- A range given back. -/
def Area.give (a : Area) (off : Nat) : Area := { a with used := a.used.filter fun u => u.1 != off }

/-- R329: room for contexts and a cluster image in the save area. -/
def Area.free (a : Area) : Nat := a.size - a.used.foldl (fun n u => n + u.2) 0

def ctxSlot : Nat := 0x20000
def imageSlot : Nat := 0x4000000

/-- R329: a place of the save area of a partition reserved: `none` where none is free. -/
def State.reserve (s : State) (p : Fin 64) (size sid launch slot : Nat) : Option State :=
  let x := s.parts[p]
  match x.save.find size with
  | none => none
  | some o => some { s.setPart p { x with save := x.save.take o size } with
      rsvs := { part := p, off := o, size := size, sid := sid, launch := launch, slot := slot } :: s.rsvs }

/-- A reservation that has been used or is needed no more; its place stays taken where `keep`. -/
def State.unreserve (s : State) (r : Reserved) (keep : Bool) : State :=
  let s1 := { s with rsvs := s.rsvs.erase r }
  if keep then s1 else let x := s1.parts[r.part]; s1.setPart r.part { x with save := x.save.give r.off }

/-- R329: the place reserved for a strand's context (slot 0), or, with sid 0, for the image of a launch's slot. -/
def State.rsvOf (s : State) (sid launch slot : Nat) : Option Reserved :=
  s.rsvs.find? fun r => r.sid == sid && (sid != 0 || (r.launch == launch && r.slot == slot))

/-- R329: a place in the save area for a context or an image: the one reserved for it, else the first that fits. -/
def State.savePlace (s : State) (p : Fin 64) (size sid launch slot : Nat) : Option (State × Nat) :=
  match s.rsvOf sid launch slot with
  | some r => some (s.unreserve r true, r.off)
  | none => let x := s.parts[p]; (x.save.find size).map fun o => (s.setPart p { x with save := x.save.take o size }, o)

/-- The reservation of a strand's context given back. -/
def State.unreserveSid (s : State) (sid : Nat) : State :=
  match s.rsvOf sid 0 0 with
  | some r => s.unreserve r false
  | none => s

/- Clusters that a launch gives up. -/

def State.cluster? (s : State) (q : Nat) : Option Cluster := s.clusters[q]?

def State.setCluster (s : State) (q : Nat) (x : Cluster) : State :=
  if h : q < 48 then { s with clusters := s.clusters.set q x } else s

/-- The launch's current point. -/
def Launch.cur (l : Launch) : OpPoint := l.ops.getD l.point default

/-- The partition whose launch holds a cluster. -/
def State.heldPart (s : State) (h : Option (Nat × Nat)) : Option (Fin 64) := (h.bind fun x => s.launch? x.1).map Launch.part

/-- R223, R225, R329: a slot unplaced: its image leaves for a place reserved in the save area. -/
def State.unplace (s : State) (q : Nat) : State :=
  match (s.cluster? q).bind Cluster.holder with
  | none => s
  | some (id, k) =>
    match s.launch? id with
    | none => s
    | some l =>
      let place := if l.ending == .live then s.savePlace l.part imageSlot 0 id k else none
      ((place.map Prod.fst).getD s).setLaunch { l with slots := l.slots.modify k fun sl =>
        { sl with cluster := none, prev := some q, img := place.map fun x => ((s.parts[l.part]).save.base + x.2, false) } }

/-- R269, R312, R407: a cluster on which the launch that holds it may not stay, its slot being above those of the current point or the
cluster withheld, is released once nothing runs on it and its image has somewhere to go. -/
def State.release (s : State) (q : Nat) : State :=
  match s.cluster? q with
  | none => s
  | some x =>
    match x.holder with
    | none => s
    | some (id, k) =>
      match s.launch? id with
      | none => s
      | some l =>
        let empty := !((s.cores.toList.zipIdx.any fun c => c.2 / 4 == q && c.1.strand.isSome) || s.placing.any fun p => p.cores.any fun c => c / 4 == q)
        let room := (s.rsvOf 0 id k).isSome || ((s.parts[l.part]).save.find imageSlot).isSome
        if l.ending == .live && !l.parked && (decide (l.cur.tm1 < k) || x.withheld) && empty && room then
          let s1 := s.unplace q
          match s1.cluster? q with
          | some y => s1.setCluster q { y with holder := none, yard := none, left := some l.part }
          | none => s1
        else s

/- The end of a strand. -/

/-- The slot of a launch that a cluster holds (R289). -/
def Launch.slotOf (l : Launch) (cluster : Nat) : Option Nat :=
  (l.slots.zipIdx.find? fun p => p.1.cluster == some cluster).map Prod.snd

/-- R409: the typed-buffer state of a core passes to the slot that holds it. -/
def Launch.keepTb (l : Launch) (c : Fin 192) (tb : Option TBuf) : Launch :=
  match l.slotOf (c.val / 4) with
  | none => l
  | some k =>
    { l with slots := l.slots.zipIdx.map fun p =>
        if p.2 = k then { p.1 with tbs := p.1.tbs.set (c.val % 4) tb (Nat.mod_lt _ (by omega)) } else p.1 }

/-- R279: the last strand that a seed started has ended: the live count falls. -/
def Launch.strandEnded (l : Launch) (index : Nat) : Launch :=
  match l.perIndex.find? fun e => e.1 == index with
  | some (_, n) =>
    if n ≤ 1 then { l with perIndex := l.perIndex.filter fun e => e.1 != index, live := l.live - 1 }
    else { l with perIndex := l.perIndex.map fun e => if e.1 == index then (e.1, e.2 - 1) else e }
  | none => l

/-- A core that its strand leaves (R76). -/
def Core.vacated (k : Core) (cyc : Nat) : Core := { k with strand := none, pmcyc := k.pmcycNow cyc }

/-- R342: failed chains that a strand has not taken are logged when it ends. -/
def State.dropEfaults (s : State) (st : Strand) : State := st.efaultAddr.foldl (fun s e => s.notice st.part 5 e.2.toNat 0) s

/-- R127, R409: a strand ends: its typed-buffer state passes to the slot, its queues, flags and monitor are discarded. The last on a cluster
that its launch may not keep releases it (R269). -/
def State.endStrand (s : State) (c : Fin 192) (st : Strand) : State :=
  let s1 := ((s.dropEfaults st).setCore c ((s.cores[c]).vacated (s.clusters[clusterOf c]).cyc)).setMon c { line := none, hit := false }
  match s1.launch? st.launch with
  | none => s1
  | some l => (s1.setLaunch ((l.keepTb c (some st.tb)).strandEnded st.index)).release (c.val / 4)

/-- R127, R339: are the waits of DONE met. -/
def Strand.doneReady (st : Strand) : Bool :=
  (st.handler || (st.ended.v && st.ended.m && st.ended.h)) && (List.finRange 8).all (fun i => (st.tok[i]).pend == 0) &&
    st.accs.isEmpty && st.vpend.isEmpty && st.mpend.isEmpty && st.copies.isEmpty

/-- DONE (R127, R199, R339). -/
def execDone (r : Bool) (s : State) : Out :=
  issue .s r true [] (fun s c st =>
    if !st.doneReady then .stall s
    else
      match st.condToken 0xFF with
      | some i => .stall (s.raiseCond c st .s i)
      | none => .ok (s.endStrand c st) .stay 1) s

end Sys2Proof.Machine
end

