-- ==== Sys2Proof/Machine/VOps.lean ====
section
/-! DEFINITION. The shared operations of the V slot (R65 to R67, R77, R134 to R138): reading registers, governed elements,
poison of rows, and the landing of a word. -/

namespace Sys2Proof.Machine

open Sys2Proof

/-- R77: is element `i` of a V register the destination of a word still within its bound. -/
def Strand.vBusy (st : Strand) (cyc : Nat) (n : BitVec 4) (i : Nat) : Bool :=
  st.vpend.any fun w => decide (cyc < w.due) && w.regs.any fun g => g.reg == n && g.mask.getLsbD i

/-- R77: an element as it reads at issue: undefined while a word that writes it is within its bound. -/
def Strand.vElem (st : Strand) (cyc free : Nat) (n : BitVec 4) (i : Fin 1024) : W32 :=
  if st.vBusy cyc n i.val then Config.freeWord free (n.toNat * 1024 + i.val) else (st.v[n.toNat])[i]

/-- A whole register as it reads at issue. -/
def Strand.vReg (st : Strand) (cyc free : Nat) (n : BitVec 4) : Vector W32 1024 :=
  if st.vpend.any fun w => decide (cyc < w.due) && w.regs.any fun g => g.reg == n then
    Vector.ofFn fun i => st.vElem cyc free n i
  else st.v[n.toNat]

/-- The poison bits of a register's rows as they read at issue. -/
def Strand.vBad (st : Strand) (cyc free : Nat) (n : BitVec 4) : BitVec 16 :=
  if st.vpend.any fun w => decide (cyc < w.due) && w.regs.any fun g => g.reg == n then
    BitVec.ofFnLE fun r : Fin 16 =>
      if st.vpend.any fun w => decide (cyc < w.due) && w.regs.any fun g => g.reg == n && (g.full ||| g.part).getLsbD r.val then
        Config.freeBit free (0x20000 + n.toNat * 16 + r.val)
      else (st.vbad[n.toNat]).getLsbD r.val
  else st.vbad[n.toNat]

/-- R77: the rows of a register that are poisoned and that no word within its bound writes: a read of the others raises no trap. -/
def Strand.vTrap (st : Strand) (cyc : Nat) (n : BitVec 4) : BitVec 16 :=
  st.vpend.foldl (fun b w =>
    if cyc < w.due then w.regs.foldl (fun b g => if g.reg = n then b &&& ~~~(g.full ||| g.part) else b) b else b) st.vbad[n.toNat]

/-- R67: the governing bits of a predicate field; 15 is all true. -/
def Strand.govMask (st : Strand) (cyc free : Nat) (pd : BitVec 4) : BitVec 1024 :=
  if pd = 15 then BitVec.allOnes 1024 else st.predMask cyc free pd

def Strand.govBad (st : Strand) (cyc free : Nat) (pd : BitVec 4) : BitVec 16 :=
  if pd = 15 then 0 else st.predBad cyc free pd

/-- R77: the poisoned rows of a governing predicate by which a trap may be raised. -/
def Strand.govTrap (st : Strand) (cyc : Nat) (pd : BitVec 4) : BitVec 16 := if pd = 15 then 0 else st.predTrap cyc pd

/-- R136: the elements that a word writes. -/
def Strand.written (st : Strand) (cyc free : Nat) (pd : BitVec 4) : BitVec 1024 :=
  activeMask st.vshape &&& st.govMask cyc free pd

/-- The 64 bits of a row of a mask. -/
def rowBits (m : BitVec 1024) (r : Nat) : BitVec 64 := m.extractLsb' (64 * r) 64

/-- The rows of which a mask holds every element. -/
def fullRows (m : BitVec 1024) : BitVec 16 := BitVec.ofFnLE fun r : Fin 16 => rowBits m r.val == BitVec.allOnes 64

/-- The rows of which a mask holds some elements but not all. -/
def partRows (m : BitVec 1024) : BitVec 16 :=
  BitVec.ofFnLE fun r : Fin 16 => rowBits m r.val != BitVec.allOnes 64 && rowBits m r.val != 0

/-- A register write of the elements of a mask, whose rows read the poison `bad` (R137). -/
def regW (d : BitVec 4) (mask : BitVec 1024) (vals : Vector W32 1024) (bad : BitVec 16) : VRegW :=
  { reg := d, mask := mask, vals := vals, full := fullRows mask, part := partRows mask, bad := bad }

def predW (d : BitVec 4) (mask vals : BitVec 1024) (bad : BitVec 16) : PRegW :=
  { reg := d, mask := mask, vals := vals, full := fullRows mask, part := partRows mask, bad := bad }

/-- R137: the poison bits of rows after a write. -/
def landBad (old full part bad : BitVec 16) : BitVec 16 :=
  (old &&& ~~~full) ||| (bad &&& (full ||| part))

/-- A register write lands. -/
def Strand.landReg (st : Strand) (g : VRegW) : Strand :=
  let old := st.v[g.reg.toNat]
  { st with v := st.v.set g.reg.toNat (Vector.ofFn fun i => if g.mask.getLsbD i.val then g.vals[i] else old[i]),
            vbad := st.vbad.set g.reg.toNat (landBad (st.vbad[g.reg.toNat]) g.full g.part g.bad) }

/-- A predicate write lands. -/
def Strand.landPred (st : Strand) (g : PRegW) : Strand :=
  let old := st.p[g.reg.toNat]
  { st with p := st.p.set g.reg.toNat ((g.vals &&& g.mask) ||| (old &&& ~~~g.mask)),
            pbad := st.pbad.set g.reg.toNat (landBad (st.pbad[g.reg.toNat]) g.full g.part g.bad) }

/-- R187: rows of the C buffer marked by a poisoned write. -/
def Strand.markRows (st : Strand) (rows : List Nat) : Strand :=
  { st with tb := { st.tb with rowp := rows.foldl (fun m r => m ||| (1#1024 <<< r)) st.tb.rowp } }

/-- R77, R49: a V word lands: its registers, predicates, memory and flags. -/
def State.landV (s : State) (c : Fin 192) (st : Strand) (w : VPend) : State :=
  let st1 := w.preds.foldl Strand.landPred (w.regs.foldl Strand.landReg st)
  let st2 := (st1.setFlags (s.cyc c) w.flags 0).markRows w.rowMarks
  (s.setSt c st2).landAll c 1 w.writes

/-- R77: two writes of one element land in issue order: an older write still pending when a younger one lands will leave the
younger's values. -/
def VRegW.behind (o n : VRegW) : VRegW :=
  if o.reg != n.reg then o
  else
    { o with vals := Vector.ofFn fun i => if n.mask.getLsbD i.val then n.vals[i] else o.vals[i],
             full := o.full ||| (n.full &&& o.part), part := o.part &&& ~~~n.full,
             bad := (o.bad &&& ~~~n.full) ||| (n.bad &&& (n.full ||| n.part)) }

def PRegW.behind (o n : PRegW) : PRegW :=
  if o.reg != n.reg then o
  else
    { o with vals := (n.vals &&& n.mask) ||| (o.vals &&& ~~~n.mask),
             full := o.full ||| (n.full &&& o.part), part := o.part &&& ~~~n.full,
             bad := (o.bad &&& ~~~n.full) ||| (n.bad &&& (n.full ||| n.part)) }

/-- A pending word after a younger word has landed. -/
def VPend.behind (n o : VPend) : VPend :=
  if o.seq < n.seq then
    { o with regs := o.regs.map fun g => n.regs.foldl VRegW.behind g, preds := o.preds.map fun g => n.preds.foldl PRegW.behind g }
  else o

/-- A V word that has issued waits to land `bound` cycles from its issue (R77, R135). -/
def Strand.vLater (st : Strand) (cyc bound : Nat) (regs : List VRegW) (preds : List PRegW) (ws : List MWrite) (marks : List Nat)
    (fl : FFlags) : Strand :=
  { st with vpend := st.vpend ++ [{ seq := st.vseq, due := cyc + bound, regs := regs, preds := preds, writes := ws,
                                    rowMarks := marks, flags := fl }],
            vseq := st.vseq + 1 }

/-- R134: the occupancy of a word that works on the active rows. -/
def rowOcc (st : Strand) : Nat := (shapeRows st.vshape + 3) / 4

/-- A V word: its body sees the undefined-read counter, which each V word advances. -/
def vWord (r flow : Bool) (body : State → Fin 192 → Strand → Res) (s : State) : Out :=
  issue .v r flow [] (fun s c st => body { s with free := s.free + 1 } c st) s

/-- The elements of a mask, in ascending order. -/
def elemsOf (m : BitVec 1024) : List (Fin 1024) := (List.finRange 1024).filter fun i => m.getLsbD i.val

/-- Results for the elements of a mask, and the union of their flags (R48). -/
def mapElems (m : BitVec 1024) (f : Fin 1024 → W32 × FFlags) : Vector W32 1024 × FFlags :=
  let rs := Vector.ofFn fun i : Fin 1024 => if m.getLsbD i.val then f i else (0, 0)
  (rs.map Prod.fst, rs.foldl (fun a x => a ||| x.2) 0)

/-- R66: the element type. -/
def etypeFmt (v : BitVec 13) : Fmt :=
  match (v.extractLsb' 10 3).toNat with
  | 0 => .fp32 | 1 => .bf16 | 2 => .int32 | 3 => .int16 | _ => .int8

/-- R28: the low `w` bits of a container as the element type lays them out: sign-extended for an integer type, zero above for a
floating-point type. -/
def contain (f : Fmt) (x : Nat) : W32 :=
  if f.isInt then containInt (signedOf f.width x) else BitVec.ofNat 32 (x % 2 ^ f.width)

/-- A word that writes each governed element of `d` from the same elements of its sources. `need` refuses an ETYPE (R136). -/
def elemWord (r : Bool) (d : BitVec 4) (srcs : List (BitVec 4)) (pd : BitVec 4) (bound : Nat) (need : Fmt → Bool)
    (f : Fmt → (BitVec 4 → Fin 1024 → W32) → Fin 1024 → W32 × FFlags) (s : State) : Out :=
  vWord r false (fun s c st =>
    let cyc := s.cyc c
    let ty := etypeFmt st.vshape
    if !need ty then .trap .format 0
    else
      let m := st.written cyc s.free pd
      let tab := srcs.map fun n => (n, st.vReg cyc s.free n)
      let rd := fun (n : BitVec 4) (i : Fin 1024) =>
        match tab.find? fun e => e.1 == n with
        | some e => e.2[i]
        | none => 0
      let bad := srcs.foldl (fun b n => b ||| st.vBad cyc s.free n) (st.govBad cyc s.free pd)
      let (vals, fl) := mapElems m (f ty rd)
      .ok (s.setSt c (st.vLater cyc bound [regW d m vals bad] [] [] [] fl)) .seq (rowOcc st)) s

end Sys2Proof.Machine
end

