-- ==== Sys2Proof/Machine/VArith.lean ====
section
/-! DEFINITION. Element words of the V slot: arithmetic (R139, R140), comparison and selection (R141, R142), special functions
(R143, R144), conversion and block quantisation (R145 to R147). -/

namespace Sys2Proof.Machine

open Sys2Proof

/-- The two element types that the floating-point words accept (R136). -/
def Fmt.isVFloat (f : Fmt) : Bool := f == .fp32 || f == .bf16

/-- An exact result rounded to nearest even in the element type, with the flags of the operation that formed it. -/
def roundTo (t : Fmt) (v : Val × FFlags) : W32 × FFlags :=
  let (x, fl) := t.convert rmRNE false v.1
  (x, v.2 ||| fl)

/-- R139: VADD. -/
def fAdd (t : Fmt) (a b : W32) : W32 × FFlags := roundTo t ((t.read a.toNat).add (t.read b.toNat))

/-- R139: VSUB. -/
def fSub (t : Fmt) (a b : W32) : W32 × FFlags := roundTo t ((t.read a.toNat).add (t.read b.toNat).negate)

/-- R139: VMUL. -/
def fMul (t : Fmt) (a b : W32) : W32 × FFlags := roundTo t ((t.read a.toNat).mul (t.read b.toNat))

/-- R139: `a × b + c` with one rounding; a NaN operand sets no flag (R19). -/
def fMulAdd (t : Fmt) (a b c : Val) : W32 × FFlags :=
  if a.isNan || b.isNan || c.isNan then roundTo t (.nan, 0)
  else
    let (p, f1) := a.mul b
    let (v, f2) := p.add c
    roundTo t (v, f1 ||| f2)

/-- R139: is `a` the lesser of two numbers, −0 being less than +0. -/
def fLess (a b : Val) : Bool := a.lt b || (a.isZero && b.isZero && a.neg? && !b.neg?)

/-- R139: VMIN and VMAX. -/
def fMinMax (t : Fmt) (isMax : Bool) (a b : W32) : W32 × FFlags :=
  let x := t.read a.toNat
  let y := t.read b.toNat
  if x.isNan || y.isNan then roundTo t (.nan, 0)
  else (contain t (if (if isMax then fLess y x else fLess x y) then a else b).toNat, 0)

/-- R139: a word of major 0x01. -/
def vfaWord (r : Bool) (d : BitVec 4) (srcs : List (BitVec 4)) (pd : BitVec 4) (bound : Nat)
    (f : Fmt → (BitVec 4 → W32) → W32 × FFlags) (s : State) : Out :=
  elemWord r d srcs pd bound Fmt.isVFloat (fun t rd i => f t fun n => rd n i) s

/-- VADD (R139). -/
def execVadd (r : Bool) (d a b p : BitVec 4) (s : State) : Out :=
  vfaWord r d [a, b] p 8 (fun t v => fAdd t (v a) (v b)) s

/-- VSUB (R139). -/
def execVsub (r : Bool) (d a b p : BitVec 4) (s : State) : Out :=
  vfaWord r d [a, b] p 8 (fun t v => fSub t (v a) (v b)) s

/-- VMUL (R139). -/
def execVmul (r : Bool) (d a b p : BitVec 4) (s : State) : Out :=
  vfaWord r d [a, b] p 8 (fun t v => fMul t (v a) (v b)) s

/-- VFMA (R139): the addend is vd at issue. -/
def execVfma (r : Bool) (d a b p : BitVec 4) (s : State) : Out :=
  vfaWord r d [a, b, d] p 8 (fun t v => fMulAdd t (t.read (v a).toNat) (t.read (v b).toNat) (t.read (v d).toNat)) s

/-- VFMS (R139). -/
def execVfms (r : Bool) (d a b p : BitVec 4) (s : State) : Out :=
  vfaWord r d [a, b, d] p 8
    (fun t v => fMulAdd t (t.read (v a).toNat) (t.read (v b).toNat) (t.read (v d).toNat).negate) s

/-- VMIN (R139). -/
def execVmin (r : Bool) (d a b p : BitVec 4) (s : State) : Out :=
  vfaWord r d [a, b] p 4 (fun t v => fMinMax t false (v a) (v b)) s

/-- VMAX (R139). -/
def execVmax (r : Bool) (d a b p : BitVec 4) (s : State) : Out :=
  vfaWord r d [a, b] p 4 (fun t v => fMinMax t true (v a) (v b)) s

/-- The sign bit of an element type. -/
def signBit (t : Fmt) : W32 := 1#32 <<< (t.width - 1)

/-- VABS (R139): the sign bit cleared. -/
def execVabs (r : Bool) (d a p : BitVec 4) (s : State) : Out :=
  vfaWord r d [a] p 4 (fun t v => (contain t (v a &&& ~~~signBit t).toNat, 0)) s

/-- VNEG (R139): the sign bit inverted. -/
def execVneg (r : Bool) (d a p : BitVec 4) (s : State) : Out :=
  vfaWord r d [a] p 4 (fun t v => (contain t (v a ^^^ signBit t).toNat, 0)) s

/- Integer words. -/

/-- R140: a word of major 0x02, on the raw `w` bits of each element. -/
def viaWord (r : Bool) (d a b p : BitVec 4) (f : Nat → Nat → Nat → Int × FFlags) (s : State) : Out :=
  elemWord r d [a, b] p 4 (fun _ => true) (fun t rd i =>
    let w := t.width
    let (x, fl) := f w ((rd a i).toNat % 2 ^ w) ((rd b i).toNat % 2 ^ w)
    (contain t (x % 2 ^ w).toNat, fl)) s

/-- R140: a signed sum clamped to the type. -/
def clampTo (w : Nat) (x : Int) : Int × FFlags :=
  let hi : Int := 2 ^ (w - 1) - 1
  let lo : Int := -(2 ^ (w - 1) : Int)
  if x > hi then (hi, flagSA) else if x < lo then (lo, flagSA) else (x, 0)

/-- VIADD (R140). -/
def execViadd (r : Bool) (d a b p : BitVec 4) (s : State) : Out := viaWord r d a b p (fun _ x y => ((x : Int) + y, 0)) s

/-- VISUB (R140). -/
def execVisub (r : Bool) (d a b p : BitVec 4) (s : State) : Out := viaWord r d a b p (fun _ x y => ((x : Int) - y, 0)) s

/-- VIMUL (R140). -/
def execVimul (r : Bool) (d a b p : BitVec 4) (s : State) : Out := viaWord r d a b p (fun _ x y => ((x : Int) * y, 0)) s

/-- VIMULH (R140): the upper half of the signed product. -/
def execVimulh (r : Bool) (d a b p : BitVec 4) (s : State) : Out :=
  viaWord r d a b p (fun w x y => ((signedOf w x * signedOf w y) / 2 ^ w, 0)) s

/-- VAND (R140). -/
def execVand (r : Bool) (d a b p : BitVec 4) (s : State) : Out := viaWord r d a b p (fun _ x y => ((x &&& y : Nat), 0)) s

/-- VOR (R140). -/
def execVor (r : Bool) (d a b p : BitVec 4) (s : State) : Out := viaWord r d a b p (fun _ x y => ((x ||| y : Nat), 0)) s

/-- VXOR (R140). -/
def execVxor (r : Bool) (d a b p : BitVec 4) (s : State) : Out := viaWord r d a b p (fun _ x y => ((x ^^^ y : Nat), 0)) s

/-- VANDN (R140). -/
def execVandn (r : Bool) (d a b p : BitVec 4) (s : State) : Out :=
  viaWord r d a b p (fun w x y => ((x &&& (2 ^ w - 1 - y) : Nat), 0)) s

/-- VSHL (R140): the shift amount is the element's low log2(w) bits. -/
def execVshl (r : Bool) (d a b p : BitVec 4) (s : State) : Out :=
  viaWord r d a b p (fun w x y => ((x * 2 ^ (y % w) : Nat), 0)) s

/-- VSHR (R140). -/
def execVshr (r : Bool) (d a b p : BitVec 4) (s : State) : Out :=
  viaWord r d a b p (fun w x y => ((x / 2 ^ (y % w) : Nat), 0)) s

/-- VSHRA (R140). -/
def execVshra (r : Bool) (d a b p : BitVec 4) (s : State) : Out :=
  viaWord r d a b p (fun w x y => (signedOf w x / 2 ^ (y % w), 0)) s

/-- VIMIN (R140). -/
def execVimin (r : Bool) (d a b p : BitVec 4) (s : State) : Out :=
  viaWord r d a b p (fun w x y => (min (signedOf w x) (signedOf w y), 0)) s

/-- VIMAX (R140). -/
def execVimax (r : Bool) (d a b p : BitVec 4) (s : State) : Out :=
  viaWord r d a b p (fun w x y => (max (signedOf w x) (signedOf w y), 0)) s

/-- VIMINU (R140). -/
def execViminu (r : Bool) (d a b p : BitVec 4) (s : State) : Out := viaWord r d a b p (fun _ x y => ((min x y : Nat), 0)) s

/-- VIMAXU (R140). -/
def execVimaxu (r : Bool) (d a b p : BitVec 4) (s : State) : Out := viaWord r d a b p (fun _ x y => ((max x y : Nat), 0)) s

/-- VIADDS (R140). -/
def execViadds (r : Bool) (d a b p : BitVec 4) (s : State) : Out :=
  viaWord r d a b p (fun w x y => clampTo w (signedOf w x + signedOf w y)) s

/-- VISUBS (R140). -/
def execVisubs (r : Bool) (d a b p : BitVec 4) (s : State) : Out :=
  viaWord r d a b p (fun w x y => clampTo w (signedOf w x - signedOf w y)) s

/- Comparison and selection. -/

/-- R141: the truth of a condition on two elements of a type. -/
def vcmpTrue (t : Fmt) (cond : BitVec 4) (a b : W32) : Bool :=
  let w := t.width
  let x := a.toNat % 2 ^ w
  let y := b.toNat % 2 ^ w
  let vx := t.read x
  let vy := t.read y
  let fl := t.isVFloat
  let nan := fl && (vx.isNan || vy.isNan)
  let eq := if fl then vx.same vy else x == y
  let lt := if fl then vx.lt vy else decide (signedOf w x < signedOf w y)
  match cond.toNat with
  | 0 => eq
  | 1 => !eq
  | 2 => lt
  | 3 => !nan && (lt || eq)
  | 4 => !nan && !(lt || eq)
  | 5 => !nan && !lt
  | 6 => nan
  | 7 => decide (x < y)
  | _ => decide (y ≤ x)

/-- VCMP (R141). -/
def execVcmp (r : Bool) (d a b p cond : BitVec 4) (s : State) : Out :=
  vWord r false (fun s c st =>
    let cyc := s.cyc c
    let t := etypeFmt st.vshape
    let m := st.written cyc s.free p
    let va := st.vReg cyc s.free a
    let vb := st.vReg cyc s.free b
    let vals := BitVec.ofFnLE fun i : Fin 1024 => m.getLsbD i.val && vcmpTrue t cond va[i] vb[i]
    let bad := st.vBad cyc s.free a ||| st.vBad cyc s.free b ||| st.govBad cyc s.free p
    .ok (s.setSt c (st.vLater cyc 4 [] [predW d m vals bad] [] [] 0)) .seq (rowOcc st)) s

/-- The rows in which a mask holds some element. -/
def someRows (m : BitVec 1024) : BitVec 16 := BitVec.ofFnLE fun r : Fin 16 => rowBits m r.val != 0

/-- VSEL (R142): every active element is written, from the register that its selector bit names; a row takes the poison of the
rows that its elements were taken from. -/
def execVsel (r : Bool) (d a b ps : BitVec 4) (s : State) : Out :=
  vWord r false (fun s c st =>
    let cyc := s.cyc c
    let m := activeMask st.vshape
    let sel := st.govMask cyc s.free ps
    let va := st.vReg cyc s.free a
    let vb := st.vReg cyc s.free b
    let bad := (st.vBad cyc s.free a &&& someRows (m &&& sel)) ||| (st.vBad cyc s.free b &&& someRows (m &&& ~~~sel)) |||
      st.govBad cyc s.free ps
    let vals := Vector.ofFn fun i : Fin 1024 => if sel.getLsbD i.val then va[i] else vb[i]
    .ok (s.setSt c (st.vLater cyc 4 [regW d m vals bad] [] [] [] 0)) .seq (rowOcc st)) s

/- Special functions. -/

/-- R143: a word of major 0x05. -/
def vsfuWord (fn : SfuFn) (r : Bool) (d a p : BitVec 4) (s : State) : Out :=
  elemWord r d [a] p 16 Fmt.isVFloat (fun t rd i => sfu fn t (t.read (rd a i).toNat)) s

/-- VEXP2 (R143, R144). -/
def execVexp2 (r : Bool) (d a p : BitVec 4) (s : State) : Out := vsfuWord .exp2 r d a p s

/-- VLOG2 (R143, R144). -/
def execVlog2 (r : Bool) (d a p : BitVec 4) (s : State) : Out := vsfuWord .log2 r d a p s

/-- VRCP (R143, R144). -/
def execVrcp (r : Bool) (d a p : BitVec 4) (s : State) : Out := vsfuWord .rcp r d a p s

/-- VRSQ (R143, R144). -/
def execVrsq (r : Bool) (d a p : BitVec 4) (s : State) : Out := vsfuWord .rsq r d a p s

/-- VSQRT (R143, R144). -/
def execVsqrt (r : Bool) (d a p : BitVec 4) (s : State) : Out := vsfuWord .sqrt r d a p s

/-- VSIN (R143, R144). -/
def execVsin (r : Bool) (d a p : BitVec 4) (s : State) : Out := vsfuWord .sin r d a p s

/-- VCOS (R143, R144). -/
def execVcos (r : Bool) (d a p : BitVec 4) (s : State) : Out := vsfuWord .cos r d a p s

/-- VTANH (R143, R144). -/
def execVtanh (r : Bool) (d a p : BitVec 4) (s : State) : Out := vsfuWord .tanh r d a p s

/-- VSIGM (R143, R144). -/
def execVsigm (r : Bool) (d a p : BitVec 4) (s : State) : Out := vsfuWord .sigm r d a p s

/- Conversion and quantisation. -/

/-- R145: a container converted between two formats; the same format copies it unchanged (R20). -/
def vcvtElem (sf df : Fmt) (rm : BitVec 2) (sat : Bool) (x : W32) : W32 × FFlags :=
  if sf = df then (x, 0) else df.convert rm sat (sf.read x.toNat)

/-- VCVT (R145): `f` is the source format, `t` the destination's. -/
def execVcvt (r : Bool) (d a t p f : BitVec 4) (m : BitVec 2) (sa : BitVec 1) (s : State) : Out :=
  match Fmt.ofCode f, Fmt.ofCode t with
  | some sf, some df =>
    if sf.vcvtOk && df.vcvtOk then
      elemWord r d [a] p 8 (fun _ => true) (fun _ rd i => vcvtElem sf df m (sa == 1) (rd a i)) s
    else vWord r false (fun _ _ _ => .trap .format 0) s
  | _, _ => vWord r false (fun _ _ _ => .trap .format 0) s

/-- R146: one block of a row quantised: the element index and value of each active column, the scale, its flags. -/
structure QBlock where
  row : Nat
  blk : Nat
  scale : Byte
  flags : FFlags
  elems : List (Nat × W32 × FFlags)
deriving DecidableEq, Repr, Inhabited

/-- R146: the blocks of the active rows that hold an active column. -/
def qBlocks (t f : Fmt) (em : Int) (sh : BitVec 13) (va : Vector W32 1024) : List QBlock :=
  (List.range (shapeRows sh)).flatMap fun r =>
    (List.range 2).filterMap fun b =>
      let cols := (List.range 32).map (32 * b + ·) |>.filter fun c => decide (c < shapeCols sh)
      if cols.isEmpty then none
      else
        let (sc, fl, es) := quantise f em (cols.map fun c => t.read ((va[64 * r + c]?).getD 0).toNat)
        some { row := r, blk := b, scale := sc, flags := fl, elems := (cols.zip es).map fun e => (64 * r + e.1, e.2) }

/-- A mask of listed elements. -/
def maskOf (is : List Nat) : BitVec 1024 := is.foldl (fun m i => m ||| (1#1024 <<< i)) 0

/-- A register's values from listed elements. -/
def valsOf (es : List (Nat × W32)) : Vector W32 1024 := es.foldl (fun v e => v.set! e.1 e.2) (Vector.replicate 1024 0)

/-- VQMX (R146). -/
def execVqmx (r : Bool) (d a vs p f : BitVec 4) (s : State) : Out :=
  vWord r false (fun s c st =>
    let cyc := s.cyc c
    let t := etypeFmt st.vshape
    if vs = d then .trap .illegal 0
    else
      match Fmt.ofCode f with
      | none => .trap .format 0
      | some fm =>
        match fm.emax with
        | none => .trap .format 0
        | some em =>
          if !t.isVFloat then .trap .format 0
          else
            let g := st.written cyc s.free p
            let bs := qBlocks t fm em st.vshape (st.vReg cyc s.free a)
            let es := (bs.flatMap QBlock.elems).filter fun e => g.getLsbD e.1
            let fl := es.foldl (fun x e => x ||| e.2.2) (bs.foldl (fun x b => x ||| b.flags) 0)
            let bad := st.vBad cyc s.free a
            let sm := maskOf (bs.map fun b => 64 * b.row + b.blk)
            let sv := valsOf (bs.map fun b => (64 * b.row + b.blk, b.scale.zeroExtend 32))
            .ok (s.setSt c (st.vLater cyc 12
              [regW d g (valsOf (es.map fun e => (e.1, e.2.1))) (bad ||| st.govBad cyc s.free p), regW vs sm sv bad]
              [] [] [] fl)) .seq (rowOcc st)) s

/-- VDQMX (R147): `sat` has no effect (R32). -/
def execVdqmx (r : Bool) (d a vs p f : BitVec 4) (m : BitVec 2) (_x : BitVec 1) (s : State) : Out :=
  match Fmt.ofCode f with
  | none => vWord r false (fun _ _ _ => .trap .format 0) s
  | some fm =>
    if fm.emax.isNone then vWord r false (fun _ _ _ => .trap .format 0) s
    else
      elemWord r d [a, vs] p 8 Fmt.isVFloat (fun t rd i =>
        t.convert m false (dequantise fm (rd a i) ((rd vs ⟨i.val / 64 * 64 + i.val % 64 / 32, by omega⟩).extractLsb' 0 8))) s

end Sys2Proof.Machine
end

