-- ==== Sys2Proof/Machine/VAxis.lean ====
section
/-! DEFINITION. Words of the V slot along rows and columns: rotations and broadcasts (R148), reductions (R149), scans (R150) and
the transpose (R151). -/

namespace Sys2Proof.Machine

open Sys2Proof

/-- The poison of destination rows of which each governed element is taken from one source position (R137). -/
def movedBad (bad : BitVec 16) (m : BitVec 1024) (src : Nat → Nat) : BitVec 16 :=
  BitVec.ofFnLE fun r : Fin 16 =>
    (List.range 64).any fun k => m.getLsbD (64 * r.val + k) && bad.getLsbD (src (64 * r.val + k) / 64)

/-- R148, R151: a word that moves bits: element `i` takes source position `src i`. -/
def moveWord (r : Bool) (d a p : BitVec 4) (bound : Nat) (four : Bool) (src : Nat → Nat) (s : State) : Out :=
  vWord r false (fun s c st =>
    let cyc := s.cyc c
    let m := st.written cyc s.free p
    let va := st.vReg cyc s.free a
    let vals := Vector.ofFn fun i : Fin 1024 => (va[src i.val]?).getD 0
    let bad := movedBad (st.vBad cyc s.free a) m src ||| st.govBad cyc s.free p
    .ok (s.setSt c (st.vLater cyc bound [regW d m vals bad] [] [] [] 0)) .seq (if four then 4 else rowOcc st)) s

/-- VROTR (R148). -/
def execVrotr (r : Bool) (d a p : BitVec 4) (n : BitVec 6) (s : State) : Out :=
  moveWord r d a p 4 false (fun i => i / 64 * 64 + (i % 64 + n.toNat) % 64) s

/-- VROTC (R148). -/
def execVrotc (r : Bool) (d a p : BitVec 4) (n : BitVec 4) (s : State) : Out :=
  moveWord r d a p 6 true (fun i => (i / 64 + n.toNat) % 16 * 64 + i % 64) s

/-- VBCR (R148). -/
def execVbcr (r : Bool) (d a p : BitVec 4) (n : BitVec 6) (s : State) : Out :=
  moveWord r d a p 3 false (fun i => i / 64 * 64 + n.toNat) s

/-- VBCC (R148). -/
def execVbcc (r : Bool) (d a p : BitVec 4) (n : BitVec 4) (s : State) : Out :=
  moveWord r d a p 4 true (fun i => n.toNat * 64 + i % 64) s

/-- VTRN (R151): vd(r, 16j + c) takes va(c, 16j + r). -/
def execVtrn (r : Bool) (d a p : BitVec 4) (s : State) : Out :=
  moveWord r d a p 12 true (fun i => i % 16 * 64 + i % 64 / 16 * 16 + i / 64) s

/- Reductions and scans. -/

/-- R149: one operation of a tree on two elements: add, max or min. -/
def redOp (t : Fmt) (op : BitVec 3) (a b : W32) : W32 × FFlags :=
  let w := t.width
  if t.isVFloat then
    match op.toNat with
    | 0 => fAdd t a b
    | 1 => fMinMax t true a b
    | _ => fMinMax t false a b
  else
    let x := signedOf w (a.toNat % 2 ^ w)
    let y := signedOf w (b.toNat % 2 ^ w)
    let z := match op.toNat with
      | 0 => x + y
      | 1 => max x y
      | _ => min x y
    (contain t (z % 2 ^ w).toNat, 0)

/-- R149: one level of the tree: neighbouring pairs are combined, an odd last one is passed up. -/
def treeLevel (f : W32 → W32 → W32 × FFlags) : List W32 → List W32 × FFlags
  | a :: b :: rest =>
    let (x, f1) := f a b
    let (xs, f2) := treeLevel f rest
    (x :: xs, f1 ||| f2)
  | l => (l, 0)

/-- R149: the levels of the tree until one value is left; `fuel` bounds them. -/
def treeReduce (f : W32 → W32 → W32 × FFlags) : Nat → List W32 → FFlags → W32 × FFlags
  | 0, l, fl => (l.headD 0, fl)
  | n + 1, l, fl =>
    match l with
    | [] => (0, fl)
    | [x] => (x, fl)
    | l =>
      let (l1, f1) := treeLevel f l
      treeReduce f n l1 (fl ||| f1)

/-- R150: one stage of the scan at distance `d`: the new values, and the flags of the operation that formed each. -/
def scanStage (f : W32 → W32 → W32 × FFlags) (d : Nat) (l : List W32) : List (W32 × FFlags) :=
  l.zipIdx.map fun e =>
    if e.2 < d then (e.1, 0) else f (l.getD (e.2 - d) 0) e.1

/-- R150: the stages from distance `2^k` on; with the positions still needed read back through later stages, the flags of the
operations that contribute to a written position. `fuel` bounds the stages. -/
def scanAll (f : W32 → W32 → W32 × FFlags) (want : List Nat) : Nat → Nat → List W32 → List W32 × List Nat × FFlags
  | 0, _, l => (l, want, 0)
  | n + 1, d, l =>
    if l.length ≤ d then (l, want, 0)
    else
      let st := scanStage f d l
      let (out, need, fl) := scanAll f want n (2 * d) (st.map Prod.fst)
      let here := need.foldl (fun x i => x ||| ((st[i]?).getD (0, 0)).2) 0
      (out, (need ++ need.filterMap fun i => if d ≤ i then some (i - d) else none).dedup, fl ||| here)

/-- The result of one line of a reduction or a scan: a value for each position, and its flags. `want` are the positions that
the word writes. -/
def lineResult (t : Fmt) (op : BitVec 3) (scan : Bool) (want : List Nat) (xs : List W32) : List W32 × FFlags :=
  if scan then
    let (out, _, fl) := scanAll (redOp t op) want 7 1 xs
    (out, fl)
  else
    let (x, fl) := treeReduce (redOp t op) 7 xs 0
    (xs.map fun _ => x, fl)

/-- R149, R150: the lines of a word: VREDR and VSCANR take rows, VREDC and VSCANC columns. A line of which the word writes
nothing sets no flag. -/
def lineElems (t : Fmt) (op : BitVec 3) (scan col : Bool) (sh : BitVec 13) (m : BitVec 1024) (va : Vector W32 1024) :
    List (Nat × W32) × FFlags :=
  let at_ (k i : Nat) : Nat := if col then 64 * i + k else 64 * k + i
  let n := if col then shapeRows sh else shapeCols sh
  (List.range (if col then shapeCols sh else shapeRows sh)).foldl (fun (acc : List (Nat × W32) × FFlags) k =>
    let want := (List.range n).filter fun i => m.getLsbD (at_ k i)
    if want.isEmpty then acc
    else
      let (out, fl) := lineResult t op scan want ((List.range n).map fun i => (va[at_ k i]?).getD 0)
      (acc.1 ++ want.map fun i => (at_ k i, contain t (out.getD i 0).toNat), acc.2 ||| fl)) ([], 0)

/-- R137: the poison of destination rows: a column scan's row reads the rows up to it, a column reduction every active row. -/
def lineBad (scan col : Bool) (rows : Nat) (bad : BitVec 16) : BitVec 16 :=
  if !col then bad
  else BitVec.ofFnLE fun r : Fin 16 => (List.range (if scan then r.val + 1 else rows)).any bad.getLsbD

/-- R149, R150: a reduction or a scan. -/
def lineWord (r : Bool) (d a p : BitVec 4) (op : BitVec 3) (scan col : Bool) (bound : Nat) (s : State) : Out :=
  vWord r false (fun s c st =>
    let cyc := s.cyc c
    let m := st.written cyc s.free p
    let t := etypeFmt st.vshape
    let (es, fl) := lineElems t op scan col st.vshape m (st.vReg cyc s.free a)
    let bad := lineBad scan col (shapeRows st.vshape) (st.vBad cyc s.free a) ||| st.govBad cyc s.free p
    .ok (s.setSt c (st.vLater cyc bound [regW d m (valsOf es) bad] [] [] [] fl)) .seq (if col then 4 else rowOcc st)) s

/-- VREDR (R149). -/
def execVredr (r : Bool) (d a p : BitVec 4) (o : BitVec 3) (s : State) : Out := lineWord r d a p o false false 10 s

/-- VREDC (R149). -/
def execVredc (r : Bool) (d a p : BitVec 4) (o : BitVec 3) (s : State) : Out := lineWord r d a p o false true 14 s

/-- VSCANR (R150). -/
def execVscanr (r : Bool) (d a p : BitVec 4) (o : BitVec 3) (s : State) : Out := lineWord r d a p o true false 12 s

/-- VSCANC (R150). -/
def execVscanc (r : Bool) (d a p : BitVec 4) (o : BitVec 3) (s : State) : Out := lineWord r d a p o true true 16 s

end Sys2Proof.Machine
end

