-- ==== Sys2Proof/Machine/VMem.lean ====
section
/-! DEFINITION. Memory words of the V slot: VLD and VST of the local spaces (R152 to R155) and VLDK of the constant path
(R156). -/

namespace Sys2Proof.Machine

open Sys2Proof

/-- R116: does a FENCEX of the strand hold back the words of a path. -/
def Strand.fenced (st : Strand) (path : Nat) : Bool :=
  match st.fx with
  | some f => f.after.getLsbD path
  | none => false

/-- R155: memory as the V path sees it: with the writes of its own words that have not landed. -/
def State.vMem (s : State) (st : Strand) : Mem := s.mem.over (st.vpend.flatMap VPend.writes)

/-- R153: bit position of element `c` of a packed row. -/
def Fmt.bitPos (f : Fmt) (c : Nat) : Nat := 128 * (c / f.perWord) + f.width * (c % f.perWord)

/-- R171, R153: the pitch in bytes of packed rows of `n` elements. -/
def Fmt.pitch (f : Fmt) (n : Nat) : Nat :=
  if f.width = 6 then 16 * ((n + 20) / 21) else 16 * ((n * f.width + 127) / 128)

/-- R153: how a register image lies in a space: the physical address of offset 0, the word's address, row pitch, packed format
and row length, the space's end, and whether it is the C buffer. -/
structure VLay where
  base : Nat
  a : Nat
  pitch : Nat
  fmt : Option Fmt
  len : Nat
  limit : Nat
  cb : Bool
deriving DecidableEq, Repr, Inhabited

def VLay.row (l : VLay) (r : Nat) : Nat := l.a + r * l.pitch

/-- Width of an element in bits. -/
def VLay.width (l : VLay) : Nat := match l.fmt with | some f => f.width | none => 32

/-- Bit position of column `c` in its row. -/
def VLay.bit (l : VLay) (c : Nat) : Nat := match l.fmt with | some f => f.bitPos c | none => 32 * c

/-- R152, R153: does an element lie outside the space. -/
def VLay.misses (l : VLay) (r c : Nat) : Bool :=
  decide (l.limit < l.row r + (l.bit c + l.width + 7) / 8) || (l.cb && decide (255 < l.a % 1024 / 4 + c))

/-- R223: a field of a BFMT register (R220): format code, length. -/
def bfmtFmt (b : W32) : Option Fmt := Fmt.ofCode (b.extractLsb' 0 4)
def bfmtLen (b : W32) : Nat := (b.extractLsb' 16 16).toNat + 1

/-- R152, R153: the layout of a VLD or VST: YARD, CBUF, or ABUF under the BFMT of the bank that holds the address; `none` for a
format that the slot does not decode. -/
def State.vLay (s : State) (c : Fin 192) (st : Strand) (sp : BitVec 3) (a : Nat) : VLay × Bool :=
  match sp.toNat with
  | 1 => ({ base := yardAddr (s.yardOfCore c) 0, a := a, pitch := 256, fmt := none, len := 64, limit := yardLimit, cb := false }, true)
  | 4 => ({ base := cbufAddr st.tb.id 0, a := a, pitch := 1024, fmt := none, len := 64, limit := cbufLimit, cb := true }, true)
  | _ =>
    let b := st.tb.bfmtA[a / 2 ^ 17 % 32]'(Nat.mod_lt _ (by omega))
    let f := bfmtFmt b
    ({ base := abufAddr st.tb.id 0, a := a, pitch := (f.getD .fp32).pitch (bfmtLen b), fmt := some (f.getD .fp32),
       len := bfmtLen b, limit := bufLimit, cb := false },
     match f with
     | some .g4 => false
     | some .g3 => false
     | some _ => true
     | none => false)

/-- The columns of a row that a mask holds. -/
def colsOf (m : BitVec 1024) (r : Nat) : List Nat := (List.range 64).filter fun c => m.getLsbD (64 * r + c)

/-- The rows of which a mask holds some element. -/
def rowsOf (m : BitVec 1024) : List Nat := (List.range 16).filter fun r => rowBits m r != 0

/-- R187: is accumulator element (row, col) marked, for the V path: with the marks of its words that have not landed. -/
def Strand.cMarked (st : Strand) (row col : Nat) : Bool :=
  st.tb.rowp.getLsbD row || ((st.tb.colp[row / 64]?).getD 0).getLsbD col || st.vpend.any fun w => w.rowMarks.contains row

/-- Bytes that the columns of a row span, in whole words for a packed format. -/
def VLay.spanLen (l : VLay) (cols : List Nat) : Nat :=
  let n := (l.bit (cols.foldl max 0) + l.width + 7) / 8
  if l.fmt.isSome then (n + 15) / 16 * 16 else n

/-- R154: is the unit of column `c` of row `r` poisoned. -/
def VLay.elemBad (l : VLay) (m : Mem) (st : Strand) (r c : Nat) : Bool :=
  m.bad (lineOf (l.base + l.row r + l.bit c / 8)) || (l.cb && st.cMarked (l.row r / 1024) (l.a % 1024 / 4 + c))

/-- R27: are the reserved bits of a 6-bit word zero: bits 127:126, and the unused positions of the row's last word. -/
def sixOk (len k word : Nat) : Bool :=
  decide (word < 2 ^ (if len > 21 * k then 6 * min 21 (len - 21 * k) else 126))

/-- R27: does a row of a VLD decode only words whose reserved bits are zero; a poisoned word is not looked at. -/
def VLay.rowOk (l : VLay) (m : Mem) (r : Nat) (cols : List Nat) (v : Nat) : Bool :=
  if l.width != 6 then true
  else (cols.map (· / 21)).dedup.all fun k =>
    m.bad (lineOf (l.base + l.row r + 16 * k)) || sixOk l.len k (v / 2 ^ (128 * k) % 2 ^ 128)

/-- An element of a row's value, in its container (R28). -/
def VLay.elem (l : VLay) (v c : Nat) : W32 :=
  match l.fmt with
  | some f => contain f (v / 2 ^ l.bit c % 2 ^ l.width)
  | none => BitVec.ofNat 32 (v / 2 ^ (32 * c))

/-- R152 to R154: what a VLD reads: element values, rows that met poison; `none` where a word breaks R27. -/
def VLay.load (l : VLay) (m : Mem) (st : Strand) (mask : BitVec 1024) : Option (List (Nat × W32) × BitVec 16) :=
  (rowsOf mask).foldl (fun acc r =>
    match acc with
    | none => none
    | some (es, bad) =>
      let cols := colsOf mask r
      let v := leNat (m.span (l.base + l.row r) (l.spanLen cols))
      if !l.rowOk m r cols v then none
      else
        let here := cols.map fun c => (64 * r + c, if l.elemBad m st r c then 0 else l.elem v c)
        some (es ++ here, if cols.any (l.elemBad m st r) then bad ||| (1#16 <<< r) else bad)) (some ([], 0))

/-- Do any written elements of a word lie outside its space (R152). -/
def VLay.anyMiss (l : VLay) (mask : BitVec 1024) : Bool := (rowsOf mask).any fun r => (colsOf mask r).any (l.misses r)

/-- R77, R180: is an accumulator position the destination of an M word that has not completed; it is undefined to a reader until
then. -/
def Strand.cPending (st : Strand) (row col : Nat) : Bool :=
  st.mpend.any fun p =>
    match p.eff with
    | .step rs _ _ n _ => decide (col < n) && rs.any fun r => r.1 == row
    | .zero rs n => decide (col < n) && rs.contains row
    | _ => false

/-- R180: what a load of the C buffer reads where steps are in progress: free values and free poison. -/
def VLay.undefine (l : VLay) (st : Strand) (free : Nat) (es : List (Nat × W32)) (bad : BitVec 16) :
    List (Nat × W32) × BitVec 16 :=
  let und (i : Nat) : Bool := l.cb && st.cPending (l.row (i / 64) / 1024) (l.a % 1024 / 4 + i % 64)
  (es.map fun e => if und e.1 then (e.1, Config.freeWord free (0x100000 + e.1)) else e,
   BitVec.ofFnLE fun r : Fin 16 =>
     if es.any fun e => e.1 / 64 = r.val && und e.1 then Config.freeBit free (0x30000 + r.val) else bad.getLsbD r.val)

/-- R152: the address of a VM word. -/
def vmAddr (st : Strand) (a : BitVec 5) (o : BitVec 9) : W64 := st.xv a + (o.signExtend 64 <<< 6)

/-- VLD (R152 to R155). -/
def execVld (r : Bool) (v : BitVec 4) (a : BitVec 5) (sp : BitVec 3) (p : BitVec 4) (o : BitVec 9) (s : State) : Out :=
  vWord r false (fun s c st =>
    let cyc := s.cyc c
    let adr := vmAddr st a o
    let mask := st.written cyc s.free p
    let (l, fmtOk) := s.vLay c st sp adr.toNat
    if st.fenced 1 then .stall s
    else if st.xp a then .trap .poison 0
    else if adr.toNat % 64 != 0 then .trap .misalign adr
    else if l.anyMiss mask then .trap .fieldMiss adr
    else if !fmtOk then .trap .format 0
    else
      match l.load (s.vMem st) st mask with
      | none => .trap .format 0
      | some (es0, bad0) =>
        let (es, bad) := l.undefine st s.free es0 bad0
        let g := regW v mask (valsOf es) (bad ||| st.govBad cyc s.free p)
        .ok (s.setSt c (st.vLater cyc (if sp = 1 then 32 else 12) [g] [] [] [] 0)) .seq (rowOcc st)) s

/-- One element put into a row's value; a 6-bit word's bits 127:126 become zero (R153). -/
def VLay.putElem (l : VLay) (v c : Nat) (x : W32) : Nat :=
  let bit := l.bit c
  let w := l.width
  let v1 := v - v / 2 ^ bit % 2 ^ w * 2 ^ bit + x.toNat % 2 ^ w * 2 ^ bit
  if w = 6 then
    let top := 128 * (c / 21) + 126
    v1 - v1 / 2 ^ top % 4 * 2 ^ top
  else v1

/-- The bytes of a row that the written columns touch. -/
def VLay.touched (l : VLay) (cols : List Nat) (i : Nat) : Bool :=
  cols.any fun c => (decide (l.bit c / 8 ≤ i) && decide (i ≤ (l.bit c + l.width - 1) / 8)) ||
    (l.width == 6 && i == 16 * (c / 21) + 15)

/-- R153: the bits of byte `i` of a row that a store of columns leaves as they are when it lands. -/
def VLay.stays (l : VLay) (cols : List Nat) (i : Nat) : Byte :=
  BitVec.ofFnLE fun j : Fin 8 =>
    let b := 8 * i + j.val
    !(cols.any fun c => (decide (l.bit c ≤ b) && decide (b < l.bit c + l.width)) || (l.width == 6 && b / 2 == 64 * (c / 21) + 63))

/-- R153, R154: the write of one row; a row from a poisoned source marks the lines that receive its elements, outside the C
buffer, whose rows are marked instead (R187). -/
def VLay.storeRow (l : VLay) (m : Mem) (vals : Vector W32 1024) (mask : BitVec 1024) (bad : BitVec 16) (r : Nat) : MWrite :=
  let cols := colsOf mask r
  let n := l.spanLen cols
  let start := l.base + l.row r
  let v := cols.foldl (fun v c => l.putElem v c ((vals[64 * r + c]?).getD 0)) (leNat (m.span start n))
  { addr := start, tag := 0,
    keep := if l.width % 8 = 0 then [] else (List.range n).filterMap fun i => if l.touched cols i && l.stays cols i != 0 then some (i, l.stays cols i) else none,
    data := (leBytes n v).zipIdx.map fun b => if l.touched cols b.2 then some b.1 else none,
    marks := if bad.getLsbD r && !l.cb then (cols.map fun c => lineOf (start + l.bit c / 8)).dedup else [] }

/-- The writes of a VST, row by row; a later row sees the bytes of an earlier one. -/
def VLay.store (l : VLay) (m : Mem) (vals : Vector W32 1024) (mask : BitVec 1024) (bad : BitVec 16) : List MWrite :=
  joinWrites ((rowsOf mask).foldl (fun (acc : List MWrite × Mem) r =>
    let w := l.storeRow acc.2 vals mask bad r
    (acc.1 ++ [w], acc.2.apply w)) ([], m)).1

/-- VST (R152 to R155). POISON of a row to be stored under policy TRAP comes after the other checks (DESIGN CHOICE, log: R138 orders the
POISON of an X operand alone). A row that a word within its bound writes raises none (R77), and its poison is as undefined as its elements
under policy MARK. -/
def execVst (r : Bool) (v : BitVec 4) (a : BitVec 5) (sp : BitVec 3) (p : BitVec 4) (o : BitVec 9) (s : State) : Out :=
  vWord r false (fun s c st =>
    let cyc := s.cyc c
    let adr := vmAddr st a o
    let mask := st.written cyc s.free p
    let (l, fmtOk) := s.vLay c st sp adr.toNat
    let bad := if st.pmark then st.vBad cyc s.free v ||| st.govBad cyc s.free p else st.vTrap cyc v ||| st.govTrap cyc p
    let badRows := (rowsOf mask).filter bad.getLsbD
    if st.fenced 1 then .stall s
    else if st.xp a then .trap .poison 0
    else if adr.toNat % 64 != 0 then .trap .misalign adr
    else if l.anyMiss mask then .trap .fieldMiss adr
    else if !fmtOk then .trap .format 0
    else if !badRows.isEmpty && !st.pmark then .trap .poison 0
    else
      let ws := l.store (s.vMem st) (st.vReg cyc s.free v) mask bad
      let marks := if l.cb then badRows.map fun r => l.row r / 1024 else []
      .ok (s.setSt c (st.vLater cyc (if sp = 1 then 32 else 12) [] [] ws marks 0)) .seq (rowOcc st)) s

/- The constant path. -/

/-- R156: the lines of device addresses that hold an element to be written. -/
def kLines (a : Nat) (mask : BitVec 1024) : List Nat :=
  ((rowsOf mask).flatMap fun r => (colsOf mask r).map fun c => (a + 256 * r + 4 * c) / 64).dedup

/-- R156: the targets of lines: a miss before a denial. -/
def State.kTargets (s : State) (l : Launch) (lines : List Nat) : Except Cause (List (Nat × Tgt)) :=
  let ts := lines.map fun n => (n, s.translate l (BitVec.ofNat 64 (64 * n)) .r)
  let miss (t : Nat × Except Cause Tgt) : Bool :=
    match t.2 with
    | .error .fieldMiss => true
    | _ => decide (2 ^ 58 ≤ t.1)
  let deny (t : Nat × Except Cause Tgt) : Bool :=
    match t.2 with
    | .ok g => !g.fld.konst
    | .error _ => true
  if ts.any miss then .error .fieldMiss
  else if ts.any deny then .error .fieldPerm
  else .ok (ts.filterMap fun t => match t.2 with | .ok g => some (t.1, g) | .error _ => none)

/-- R156, R230: fills asked for the lines that are not present; a line whose request would have to wait is asked for later. -/
def State.askLines (s : State) (c : Fin 192) (ts : List (Nat × Tgt)) : State :=
  ts.foldl (fun s t =>
    let line := lineOf t.2.addr
    if ((s.cores[c]).kline? line).isSome then s
    else if isHbm t.2.addr && (s.cores[c]).reqStalls (stackOf t.2.addr) then s
    else s.askLine c line t.2.tag t.2.disc true) s

/-- An element of a constant line and its poison. -/
def klineElem (k : Core) (ts : List (Nat × Tgt)) (adr : Nat) : W32 × Bool :=
  match ts.find? fun t => t.1 == adr / 64 with
  | some (_, t) =>
    match k.kline? (lineOf t.addr) with
    | some l => if l.bad then (0, true) else (BitVec.ofNat 32 (leNat ((l.data.drop (adr % 64)).take 4)), false)
    | none => (0, false)
  | none => (0, false)

/-- R238: lines of SO fields serve one VLDK only, so that two reads of such a field are performed in program order. -/
def State.dropSo (s : State) (c : Fin 192) (ts : List (Nat × Tgt)) : State :=
  let so := (ts.filter fun t => t.2.fld.ord == 0).map fun t => lineOf t.2.addr
  if so.isEmpty then s else s.setCore c { s.cores[c] with kcache := (s.cores[c]).kcache.filter fun l => !so.contains l.line }

/-- VLDK (R156): stalls before issue until every line that it needs is present. -/
def execVldk (r : Bool) (v : BitVec 4) (a : BitVec 5) (p : BitVec 4) (o : BitVec 9) (s : State) : Out :=
  vWord r false (fun s c st =>
    let cyc := s.cyc c
    let adr := vmAddr st a o
    let mask := st.written cyc s.free p
    if st.fenced 1 || st.fk.isSome then .stall s
    else if st.xp a then .trap .poison 0
    else if adr.toNat % 64 != 0 then .trap .misalign adr
    else
      match s.launch? st.launch with
      | none => .trap .fieldMiss adr
      | some l =>
        match s.kTargets l (kLines adr.toNat mask) with
        | .error e => .trap e adr
        | .ok ts =>
          if ts.any fun t => ((s.cores[c]).kline? (lineOf t.2.addr)).isNone then .stall (s.askLines c ts)
          else
            let es := (rowsOf mask).flatMap fun r =>
              (colsOf mask r).map fun k => (r, 64 * r + k, klineElem s.cores[c] ts (adr.toNat + 256 * r + 4 * k))
            let bad := es.foldl (fun (b : BitVec 16) e => if e.2.2.2 then b ||| (1#16 <<< e.1) else b) (st.govBad cyc s.free p)
            let g := regW v mask (valsOf (es.map fun e => (e.2.1, e.2.2.1))) bad
            .ok ((s.setSt c (st.vLater cyc 12 [g] [] [] [] 0)).dropSo c ts) .seq (rowOcc st)) s

end Sys2Proof.Machine
end

