-- ==== Sys2Proof/Machine/VCtl.lean ====
section
/-! DEFINITION. Queues, immediates, predicates and control of the V slot (R157 to R164). -/

namespace Sys2Proof.Machine

open Sys2Proof

/-- Word `k` of an operand-queue entry and its poison (R157). -/
def QEntry.word (e : QEntry) (k : Nat) : W32 × Bool :=
  match k with
  | 0 => (e.lo.extractLsb' 0 32, e.plo)
  | 1 => (e.lo.extractLsb' 32 32, e.plo)
  | 2 => (e.hi.extractLsb' 0 32, e.phi)
  | _ => (e.hi.extractLsb' 32 32, e.phi)

/-- VMOVQ (R157): the entry is popped even when no element is governed. -/
def execVmovq (r : Bool) (v p : BitVec 4) (s : State) : Out :=
  vWord r false (fun s c st =>
    let cyc := s.cyc c
    match qHead st.qv cyc with
    | none => .stall s
    | some e =>
      let mask := st.written cyc s.free p
      let vals := Vector.ofFn fun i : Fin 1024 => (e.word (i.val % 4)).1
      let bad := BitVec.ofFnLE fun r : Fin 16 => (colsOf mask r.val).any fun k => (e.word (k % 4)).2
      let st1 := { st with qv := st.qv.pop cyc }
      .ok (s.setSt c (st1.vLater cyc 3 [regW v mask vals (bad ||| st.govBad cyc s.free p)] [] [] [] 0)) .seq 1) s

/-- VRET (R158): the entry can be popped four cycles later. -/
def execVret (r : Bool) (a w : BitVec 4) (k : BitVec 6) (s : State) : Out :=
  vWord r false (fun s c st =>
    let cyc := s.cyc c
    if st.qr.full cyc then .stall s
    else
      let x := st.vElem cyc s.free a (⟨64 * w.toNat + k.toNat, by omega⟩ : Fin 1024)
      let e : REntry := { val := x.zeroExtend 64, bad := (st.vBad cyc s.free a).getLsbD w.toNat, from_ := cyc + 4 }
      .ok (s.setSt c { st with qr := st.qr.push e }) .seq 1) s

/-- R159: an immediate word: `f` gives the new container from the old. -/
def vimmWord (r : Bool) (d p : BitVec 4) (f : W32 → W32) (s : State) : Out :=
  vWord r false (fun s c st =>
    let cyc := s.cyc c
    let mask := st.written cyc s.free p
    let vals := (st.vReg cyc s.free d).map f
    .ok (s.setSt c (st.vLater cyc 3 [regW d mask vals (st.govBad cyc s.free p)] [] [] [] 0)) .seq 1) s

/-- VIMM (R159): the immediate's high byte is `h`, its low byte `l`. -/
def execVimm (r : Bool) (d : BitVec 4) (h : BitVec 8) (p : BitVec 4) (l : BitVec 8) (s : State) : Out :=
  vimmWord r d p (fun _ => (h ++ l).signExtend 32) s

/-- VIMM with hi = 1 (R159): bits 15:0 are kept. -/
def execVimmHi (r : Bool) (d : BitVec 4) (h : BitVec 8) (p : BitVec 4) (l : BitVec 8) (s : State) : Out :=
  vimmWord r d p (fun x => h ++ l ++ x.extractLsb' 0 16) s

/- Predicates. -/

/-- R160: a predicate word over the sources named, each a register or all true. -/
def plogWord (r : Bool) (d : BitVec 4) (srcs : List (BitVec 4)) (f : (BitVec 4 → BitVec 1024) → BitVec 1024) (s : State) : Out :=
  vWord r false (fun s c st =>
    let cyc := s.cyc c
    let v := f (st.govMask cyc s.free)
    let bad := srcs.foldl (fun b n => b ||| st.govBad cyc s.free n) 0
    .ok (s.setSt c (st.vLater cyc 3 [] [predW d (BitVec.allOnes 1024) v bad] [] [] 0)) .seq 1) s

/-- PAND (R160). -/
def execPand (r : Bool) (d a b : BitVec 4) (s : State) : Out := plogWord r d [a, b] (fun v => v a &&& v b) s

/-- POR (R160). -/
def execPor (r : Bool) (d a b : BitVec 4) (s : State) : Out := plogWord r d [a, b] (fun v => v a ||| v b) s

/-- PXOR (R160). -/
def execPxor (r : Bool) (d a b : BitVec 4) (s : State) : Out := plogWord r d [a, b] (fun v => v a ^^^ v b) s

/-- PANDN (R160). -/
def execPandn (r : Bool) (d a b : BitVec 4) (s : State) : Out := plogWord r d [a, b] (fun v => v a &&& ~~~v b) s

/-- PNOT (R160). -/
def execPnot (r : Bool) (d a : BitVec 4) (s : State) : Out := plogWord r d [a] (fun v => ~~~v a) s

/-- PSET (R160). -/
def execPset (r : Bool) (d : BitVec 4) (s : State) : Out := plogWord r d [] (fun _ => BitVec.allOnes 1024) s

/-- PCLR (R160). -/
def execPclr (r : Bool) (d : BitVec 4) (s : State) : Out := plogWord r d [] (fun _ => 0) s

/- Control. -/

/-- R161: VSHAPE takes a value for the next V word; it stands over a CSRW that takes effect in the same cycle. -/
def shapeBody (v : BitVec 13) (s : State) (c : Fin 192) (st : Strand) : Res :=
  if shapeBad (v.zeroExtend 64) then .trap .format 0
  else .ok (s.setSt c { st with vshape := v, vshapeSet := s.cyc c + 1 }) .seq 1

/-- VSETSH, immediate (R161). -/
def execVsetsh (r : Bool) (v : BitVec 13) (s : State) : Out := vWord r false (shapeBody v) s

/-- VSETSH of a register (R161). -/
def execVsetshReg (r : Bool) (a : BitVec 5) (s : State) : Out :=
  vWord r false (fun s c st =>
    if st.xp a then .trap .poison 0 else shapeBody ((st.xv a).extractLsb' 0 13) s c st) s

/-- VSIG (R162). -/
def execVsig (r : Bool) (f : BitVec 4) (s : State) : Out := vWord r false (sigBody f) s

/-- VWAITF (R162). -/
def execVwaitf (r : Bool) (f : BitVec 4) (n : BitVec 8) (s : State) : Out := vWord r false (waitBody f n) s

/-- VLBUF (R163). -/
def execVlbuf (r : Bool) (a : BitVec 5) (l : BitVec 6) (s : State) : Out := vWord r true (lbufBody .v a l) s

/-- VNOP (R164). -/
def execVnop (r : Bool) (s : State) : Out := vWord r false (fun s _ _ => .ok s .seq 1) s

end Sys2Proof.Machine
end

