-- ==== Sys2Proof/Machine/MSlot.lean ====
section
/-! DEFINITION. The M slot (R165 to R189, R411): planes, weight loading, steps, zeroing, draining, repetition and addresses. -/

namespace Sys2Proof.Machine

open Sys2Proof

/-- What an M word's own part does at issue: it stalls, traps, or takes its effect with a bound (R173); an effect that waits for
completion is given apart. -/
inductive MRes where
  | stall
  | trap (c : Cause) (addr : W64)
  | go (st : Strand) (bound : Nat) (eff : Option MEff)

/-- R183: the masked MA registers step after an iteration's issue. -/
def Strand.stepMa (st : Strand) (mask : BitVec 8) : Strand :=
  { st with ma := Vector.ofFn fun i : Fin 8 =>
      if mask.getLsbD i.val then (st.ma[i]).extractLsb' 32 32 ++ ((st.ma[i]).extractLsb' 0 32 + (st.ma[i]).extractLsb' 32 32)
      else st.ma[i] }

/-- R183, R184: the repeat state after an iteration, and where M goes. -/
def Strand.repeated (st : Strand) : Strand × Next :=
  if !st.mrep.valid then (st, .seq)
  else
    let st1 := st.stepMa st.mrep.mask
    if st.mrep.remaining ≤ 1 then ({ st1 with mrep := { valid := false, remaining := 0, mask := 0 } }, .seq)
    else ({ st1 with mrep := { st.mrep with remaining := st.mrep.remaining - 1 } }, .stay)

/-- R58, R174: the word waits on its flag, its checks are made, and on issue it reserves its signal, or gives it; a signal of its issue
cycle that has been given ahead of the cycle's waits is not given again. `accesses` says that a FENCEX that names M holds it back (R116). -/
def mWord (r : Bool) (wf sf : BitVec 4) (repeatable accesses : Bool) (body : State → Fin 192 → Strand → MRes) (s : State) : Out :=
  issue .m (r && (repeatable || !s.mArmed)) false [] (fun s c st =>
    if st.mrep.valid && !repeatable then .trap .illegal 0
    else if !st.canWait wf 1 || (wf != 0 && s.waitsHeld c) then .stall s
    else if accesses && st.fenced 2 then .stall s
    else
      match body s c st with
      | .stall => .stall s
      | .trap e a => .trap e a
      | .go st1 bound eff =>
        let st2 := st1.waited wf 1
        let given := eff.isNone && (s.cores[c]).given == s.cyc c + 1
        if !given && !(if eff.isNone then st1 else st2).canSignal sf then .trap .flagOverflow 0
        else
          let st3 : Strand := match eff with
            | none => if given then st2 else st2.signal sf
            | some e => { st2 with mpend := st2.mpend ++ [{ seq := st2.mseq, due := s.cyc c + bound, sig := sf, eff := e }],
                                   mseq := st2.mseq + 1 }
          let (st4, n) := st3.repeated
          .ok (s.setSt c st4) n 1) s

/- Addresses and shapes. -/

/-- R68: the address of an MA register. -/
def Strand.maAddr (st : Strand) (m : BitVec 3) : Nat := ((st.ma[m.toNat]).extractLsb' 0 32).toNat

/-- R69: a tile shape register, read. -/
structure TShape where
  m : Nat
  n : Nat
  afmt : Option Fmt
  drm : BitVec 2
  dsat : Bool
  cstr : Nat
  cbase : Nat
deriving DecidableEq, Repr, Inhabited

def tshape (v : W64) : TShape :=
  { m := (v.extractLsb' 0 10).toNat + 1, n := (v.extractLsb' 10 8).toNat + 1, afmt := Fmt.ofCode (v.extractLsb' 18 4),
    drm := v.extractLsb' 24 2, dsat := v.getLsbD 26, cstr := (v.extractLsb' 44 10).toNat, cbase := (v.extractLsb' 54 10).toNat }

def Strand.shape (st : Strand) (t : BitVec 2) : TShape := tshape st.ts[t.toNat]

/-- R176: the accumulator rows of a word, or the address at fault: MISALIGN is checked apart. -/
def TShape.rows (t : TShape) (c : Nat) : Except Nat (List Nat) :=
  if 2 ^ 20 ≤ c then .error c
  else
    let rs := (List.range t.m).map fun i => t.cbase + c / 1024 + i * t.cstr
    match rs.find? fun r => decide (1023 < r) with
    | some r => .error (1024 * r)
    | none => .ok rs

/-- R166: the format, row length and scale mode of a bank. -/
def bfmtSmode (b : W32) : BitVec 3 := b.extractLsb' 8 3

def Strand.bankW (st : Strand) (a : Nat) : W32 := st.tb.bfmtW[a / 2 ^ 17 % 32]'(Nat.mod_lt _ (by omega))
def Strand.bankA (st : Strand) (a : Nat) : W32 := st.tb.bfmtA[a / 2 ^ 17 % 32]'(Nat.mod_lt _ (by omega))

/-- R167: the pitch; G3 counts 4 bits. -/
def Fmt.mPitch (f : Fmt) (n : Nat) : Nat := if f = .g3 then 16 * ((n * 4 + 127) / 128) else f.pitch n

/-- R171, R172: the pitch of a weight tile's rows. -/
def Fmt.tilePitch (f : Fmt) (sparse : Bool) : Nat :=
  if sparse && f != .g3 then (if f.width = 6 then 64 else 16 * ((64 * f.width + 127) / 128)) + 16 else f.mPitch 128

/-- The rows that fall outside a buffer: the address of the first (R176). -/
def firstOver (a pitch n bytes limit : Nat) : Option Nat :=
  ((List.range n).map fun i => a + i * pitch).find? fun x => decide (limit < x + bytes)

/-- A typed-buffer address as TRAPADDR holds it (R175). -/
def bufAddr (a : Nat) : W64 := BitVec.ofNat 64 a

/- What the M path sees. -/

/-- R155, R411: memory as the M path sees it: with the drains and zeroings of its own words that have not completed. -/
def zeroWrites (id : Nat) (rows : List Nat) (n : Nat) : List MWrite :=
  rows.dedup.map fun r => MWrite.plain (cbufAddr id (1024 * r)) 0 (List.replicate (4 * n) 0)

/-- R187: MZERO clears the row marks of its rows, and the column marks below n of the blocks that its rows cover whole. -/
def TBuf.zeroMarks (t : TBuf) (rows : List Nat) (n : Nat) : TBuf :=
  let keepCols : BitVec 256 := ~~~(BitVec.allOnes 256 >>> (256 - n))
  { t with
    rowp := rows.foldl (fun m r => m &&& ~~~(1#1024 <<< r)) t.rowp,
    colp := Vector.ofFn fun b : Fin 16 =>
      if (List.range 64).all fun k => rows.contains (64 * b.val + k) then t.colp[b] &&& keepCols else t.colp[b] }

/-- Memory and marks with the effects of pending zeroings and drains. -/
def State.mView (s : State) (st : Strand) : Mem × TBuf :=
  st.mpend.foldl (fun (v : Mem × TBuf) p =>
    match p.eff with
    | .zero rows n => (v.1.over (zeroWrites st.tb.id rows n), v.2.zeroMarks rows n)
    | .drain ws _ => (v.1.over ws, v.2)
    | _ => v) (s.mem, st.tb)

/-- A range of a buffer with the bytes of poisoned lines as zero (R177, R187). -/
def Mem.spanClean (m : Mem) (a n : Nat) : List Byte :=
  if m.anyBad a n then (m.span a n).zipIdx.map fun b => if m.bad (lineOf (a + b.2)) then 0 else b.1 else m.span a n

/- Weights. -/

/-- R41: the expanded form. -/
def ffE5M3 : FloatFmt := ⟨5, 3, 15, .ieee⟩

/-- R41: a weight expanded, exactly. -/
def expand (v : Val) : BitVec 9 :=
  match v with
  | .nan => BitVec.ofNat 9 ffE5M3.nanCode
  | .inf neg => BitVec.ofNat 9 ((if neg then ffE5M3.signCode else 0) + ffE5M3.infCode)
  | .fin neg m e => if m = 0 then (if neg then 0x100 else 0) else BitVec.ofNat 9 (ffE5M3.round rmRNE false neg m e false).1

/-- The value of an expanded weight. -/
def expanded (w : BitVec 9) : Val := ffE5M3.value w.toNat

/-- R24: element `i` of a G3 word. -/
def g3Elem (w i : Nat) : Val :=
  let b (j : Nat) : Int := (w / 2 ^ (32 * j + i) % 2 : Nat)
  Val.ofInt (b 0 + 2 * b 1 - 4 * b 2)

/-- A 128-bit word of a row. -/
def wordOf (bs : List Byte) (k : Nat) : Nat := leNat ((bs.drop (16 * k)).take 16)

/-- Element `i` of a packed row (R25). -/
def rowElem (f : Fmt) (bs : List Byte) (i : Nat) : Val :=
  f.read (wordOf bs (i / f.perWord) / 2 ^ (f.width * (i % f.perWord)) % 2 ^ f.width)

/-- R172: the metadata pair of quartet `j`. -/
def metaPair (w j : Nat) : Nat × Nat := (w / 2 ^ (4 * j) % 4, w / 2 ^ (4 * j + 2) % 4)

/-- R27, R172: the first word of a tile row whose decode fails, as a byte offset in the row. -/
def tileFault (f : Fmt) (sparse : Bool) (bs : List Byte) : Option Nat :=
  let n := if sparse then 64 else 128
  let words := (List.range ((if sparse then f.tilePitch true - 16 else f.mPitch 128) / 16))
  let bad := words.find? fun k =>
    if f = .g3 then decide (2 ^ 112 ≤ wordOf bs k)
    else if f.width = 6 then !sixOk n k (wordOf bs k)
    else false
  match bad with
  | some k => some (16 * k)
  | none =>
    if sparse && (List.range 32).any fun j => let p := metaPair (wordOf bs (words.length)) j; decide (p.2 ≤ p.1) then
      some (16 * words.length)
    else none

/-- R171, R172: the 128 weights of a tile row. -/
def tileWeights (f : Fmt) (sparse : Bool) (bs : List Byte) : List (BitVec 9) :=
  if f = .g3 then (List.range 128).map fun k => expand (g3Elem (wordOf bs (k / 32)) (k % 32))
  else if sparse then
    let mw := wordOf bs (f.tilePitch true / 16 - 1)
    (List.range 128).map fun k =>
      let p := metaPair mw (k / 4)
      if k % 4 = p.1 then expand (rowElem f bs (k / 4 * 2))
      else if k % 4 = p.2 then expand (rowElem f bs (k / 4 * 2 + 1))
      else 0
  else (List.range 128).map fun k => expand (rowElem f bs k)

/-- R168: the pairings of weight format and scale mode. -/
def weightPair (f : Fmt) (sm : BitVec 3) : Bool :=
  match f with
  | .e4m3 | .e5m2 | .e2m3 | .e3m2 | .e2m1 => sm.toNat = 0 || sm.toNat = 1
  | .g4 => sm.toNat = 1 || sm.toNat = 2
  | .g3 => sm.toNat = 3
  | _ => false

/-- Bits of a mask of 256 columns. -/
def colMask (cols : List Nat) : BitVec 256 := cols.foldl (fun m n => m ||| (1#256 <<< n)) 0

/-- R177: the weight plane that an MWL fills. -/
def loadPlane (m : Mem) (id a : Nat) (b : W32) (f : Fmt) (sparse : Bool) : WPlane :=
  let p := f.tilePitch sparse
  let rows := (List.range 256).map fun n => (n, m.spanClean (wbufAddr id (a + n * p)) p)
  { load := if sparse then 2 else 1, fmt := b.extractLsb' 0 4, smode := bfmtSmode b,
    colBad := colMask ((List.range 256).filter fun n => m.anyBad (wbufAddr id (a + n * p)) p),
    fault := rows.findSome? fun r => (tileFault f sparse r.2).map fun o => a + r.1 * p + o,
    w := rows.map fun r => tileWeights f sparse r.2,
    g3 := if f = .g3 then rows.map fun r => (List.range 4).map fun g => BitVec.ofNat 16 (wordOf r.2 g / 2 ^ 96) else [] }

/-- R171 to R173: cycles for which a tile occupies the load path. -/
def tileOcc (f : Fmt) (sparse : Bool) : Nat := 256 * f.tilePitch sparse / 512

/-- MWL (R177). FIELD_MISS looks at the tile that the bank's format has with L = 128, whether or not that format is then refused (DESIGN CHOICE,
log). -/
def execMwl (r : Bool) (w sg : BitVec 4) (m : BitVec 3) (p : BitVec 1) (s : State) : Out :=
  mWord r w sg true true (fun s c st =>
    let cyc := s.cyc c
    let a := st.maAddr m
    let b := st.bankW a
    let sp := p == 1
    let f := (bfmtFmt b).getD .fp32
    if a % 64 != 0 then .trap .misalign (bufAddr a)
    else if bufLimit < a + 256 * f.tilePitch sp then .trap .fieldMiss (bufAddr a)
    else if bfmtLen b != 128 || !weightPair f (bfmtSmode b) || (sp && f == .g3) then .trap .format (bufAddr a)
    else if cyc < st.loadFree then .stall
    else
      let occ := tileOcc f sp
      .go { st with loadFree := cyc + occ } (occ + 16) (some (.loadW (loadPlane (s.mView st).1 st.tb.id a b f sp)))) s

/-- R178: the scale plane that an MSCL fills. -/
def scalePlane (m : Mem) (id a : Nat) (bf16 : Bool) : SPlane :=
  let sz := if bf16 then 2 else 1
  let bs := m.spanClean (wbufAddr id a) (1024 * sz)
  { kind := if bf16 then 2 else 1,
    colBad := colMask ((List.range 256).filter fun n => m.anyBad (wbufAddr id (a + 4 * n * sz)) (4 * sz)),
    entries := Vector.ofFn fun e : Fin 1024 => BitVec.ofNat 16 (leNat ((bs.drop (e.val * sz)).take sz)) }

/-- MSCL (R178). -/
def execMscl (r : Bool) (w sg : BitVec 4) (m : BitVec 3) (s : State) : Out :=
  mWord r w sg true true (fun s c st =>
    let cyc := s.cyc c
    let a := st.maAddr m
    let sm := bfmtSmode (st.bankW a)
    let bf := sm == 2
    if a % 64 != 0 then .trap .misalign (bufAddr a)
    else if bufLimit < a + (if bf then 2048 else 1024) then .trap .fieldMiss (bufAddr a)
    else if sm != 1 && sm != 2 then .trap .format (bufAddr a)
    else if cyc < st.loadFree then .stall
    else
      let occ := if bf then 4 else 2
      .go { st with loadFree := cyc + occ } (occ + 16) (some (.loadS (scalePlane (s.mView st).1 st.tb.id a bf)))) s

/-- Does a load of a plane await completion (R179). -/
def MEff.isLoad : MEff → Bool
  | .loadW _ => true
  | .loadS _ => true
  | _ => false

/-- The shadow weight plane (R165). -/
def TBuf.shadowW (t : TBuf) : WPlane := if t.active then t.wp0 else t.wp1
def TBuf.activeW (t : TBuf) : WPlane := if t.active then t.wp1 else t.wp0
def TBuf.activeS (t : TBuf) : SPlane := if t.active then t.sp1 else t.sp0

/-- MSWAP (R179). -/
def execMswap (r : Bool) (w sg : BitVec 4) (s : State) : Out :=
  mWord r w sg true false (fun s c st =>
    if (st.mpend.any fun p => p.eff.isLoad) || decide (s.cyc c < st.arrayFree) then .stall
    else
      match st.tb.shadowW.fault with
      | some a => .trap .format (bufAddr a)
      | none => .go { st with tb := { st.tb with active := !st.tb.active } } 0 none) s

/- Steps. -/

/-- R170: the paired scale byte of an activation block. -/
def pairAddr (x : Nat) : Nat := 0x200000 + x / 2 ^ 17 % 32 * 0x20000 + x % 2 ^ 17 / 32

/-- R42, R168: the scale of a weight group. -/
def weightScale (wp : WPlane) (sp : SPlane) (n g : Nat) : WScale :=
  match wp.smode.toNat with
  | 1 => .e8m0 (((sp.entries[4 * n + g]?).getD 0).extractLsb' 0 8)
  | 2 => .bf16 ((sp.entries[4 * n + g]?).getD 0)
  | 3 => .bf16 ((wp.g3.getD n []).getD g 0)
  | _ => .one

/-- R180: the group values of one activation row: for each column its four group values; the union of their flags. -/
def rowGroups (wp : WPlane) (sp : SPlane) (f : Fmt) (n : Nat) (act : List Val) (sa : List (Option Byte)) :
    List (List W32) × FFlags :=
  let cols := (List.range n).map fun c =>
    let ws := wp.w.getD c []
    (List.range 4).map fun g =>
      groupValue (f == .bf16) (sa.getD g none) (weightScale wp sp c g)
        ((List.range 32).map fun k => (act.getD (32 * g + k) .nan, expanded (ws.getD (32 * g + k) 0)))
  (cols.map fun c => c.map Prod.fst, cols.foldl (fun x c => c.foldl (fun x v => x ||| v.2) x) 0)

/-- R180, R187: one activation row as a step reads it: its group values, flags, whether it met poison. -/
def stepRow (m : Mem) (tb : TBuf) (f : Fmt) (n x : Nat) (pair : Bool) : List (List W32) × FFlags × Bool :=
  let sz := 128 * f.width / 8
  let bs := m.spanClean (abufAddr tb.id x) sz
  let act := (List.range 128).map fun k => rowElem f bs k
  let pa (g : Nat) : Nat := abufAddr tb.id (pairAddr (x + 32 * g))
  let sa := (List.range 4).map fun g =>
    if pair then some (if m.bad (lineOf (pa g)) then 0 else m.byte (pa g)) else none
  let bad := m.anyBad (abufAddr tb.id x) sz || (pair && (List.range 4).any fun g => m.bad (lineOf (pa g)))
  let (v, fl) := rowGroups tb.activeW tb.activeS f n act sa
  (v, fl, bad)

/-- R180, R187: the effect of a step, computed from what it reads at issue. -/
def stepEff (m : Mem) (tb : TBuf) (f : Fmt) (n a pitch : Nat) (pair : Bool) (rows : List Nat) : MEff :=
  let rs := rows.zipIdx.map fun r => (r.1, stepRow m tb f n (a + r.2 * pitch) pair)
  let wp := tb.activeW
  let cols := wp.colBad ||| (if wp.smode = 1 || wp.smode = 2 then tb.activeS.colBad else 0)
  .step (rs.map fun r => (r.1, r.2.1)) ((rs.filter fun r => r.2.2.2).map Prod.fst)
    (cols &&& (BitVec.allOnes 256 >>> (256 - n))) n (rs.foldl (fun x r => x ||| r.2.2.1) 0)

/-- R169: does a bank feed the array. -/
def feedOk (f : Fmt) (b : W32) (bank : Nat) : Bool :=
  f.activationOk && bfmtFmt b == some f && decide (128 ≤ bfmtLen b) &&
    (bfmtSmode b == 0 || (bfmtSmode b == 4 && (f == .e4m3 || f == .e5m2) && decide (bank < 16)))

/-- R180: does the active plane serve a step. -/
def planeOk (tb : TBuf) (sparse : Bool) : Bool :=
  let wp := tb.activeW
  wp.load == (if sparse then 2 else 1) &&
    !(wp.smode == 1 && tb.activeS.kind != 1) && !(wp.smode == 2 && tb.activeS.kind != 2)

/-- R180: MMA and MMAS. -/
def stepWord (r : Bool) (w sg : BitVec 4) (ma : BitVec 3) (t : BitVec 2) (mc : BitVec 3) (sparse : Bool) (s : State) : Out :=
  mWord r w sg true true (fun s c st =>
    let cyc := s.cyc c
    let a := st.maAddr ma
    let ca := st.maAddr mc
    let T := st.shape t
    let b := st.bankA a
    let pitch := ((bfmtFmt b).getD .fp32).mPitch (bfmtLen b)
    let f := T.afmt.getD .fp32
    let sz := if f == .bf16 then 256 else 128
    let pair := bfmtSmode b == 4
    if a % 64 != 0 then .trap .misalign (bufAddr a)
    else if ca % 1024 != 0 then .trap .misalign (bufAddr ca)
    else
      match firstOver a pitch T.m sz bufLimit with
      | some x => .trap .fieldMiss (bufAddr x)
      | none =>
        let pairOver := ((List.range T.m).flatMap fun i => (List.range 4).map fun g => pairAddr (a + i * pitch + 32 * g)).find?
          fun x => decide (bufLimit ≤ x)
        match if pair then pairOver else none with
        | some x => .trap .fieldMiss (bufAddr x)
        | none =>
          match T.rows ca with
          | .error x => .trap .fieldMiss (bufAddr x)
          | .ok rows =>
            if !feedOk f b (a / 2 ^ 17 % 32) || T.afmt.isNone || !planeOk st.tb sparse then .trap .format (bufAddr a)
            else if cyc < st.arrayFree then .stall
            else
              let full := if f == .bf16 then 2 * T.m else T.m
              let occ := if sparse then (full + 1) / 2 else full
              let (m, _) := s.mView st
              .go { st with arrayFree := cyc + occ } (occ + 400) (some (stepEff m st.tb f T.n a pitch pair rows))) s

/-- MMA (R180). -/
def execMma (r : Bool) (w sg : BitVec 4) (a : BitVec 3) (t : BitVec 2) (c : BitVec 3) (s : State) : Out :=
  stepWord r w sg a t c false s

/-- MMAS (R180, R45). -/
def execMmas (r : Bool) (w sg : BitVec 4) (a : BitVec 3) (t : BitVec 2) (c : BitVec 3) (s : State) : Out :=
  stepWord r w sg a t c true s

/-- R411: does a step in progress write a position of these rows. -/
def Strand.stepOver (st : Strand) (rows : List Nat) : Bool :=
  st.mpend.any fun p =>
    match p.eff with
    | .step rs _ _ _ _ => rs.any fun r => rows.contains r.1
    | _ => false

/-- MZERO (R181, R411). Positions of two words start at column 0, so words that share a row share a position. -/
def execMzero (r : Bool) (w sg : BitVec 4) (t : BitVec 2) (mc : BitVec 3) (s : State) : Out :=
  mWord r w sg true true (fun s c st =>
    let cyc := s.cyc c
    let ca := st.maAddr mc
    let T := st.shape t
    if ca % 1024 != 0 then .trap .misalign (bufAddr ca)
    else
      match T.rows ca with
      | .error x => .trap .fieldMiss (bufAddr x)
      | .ok rows =>
        if cyc < st.drainFree || st.stepOver rows then .stall
        else
          let occ := (T.m + 3) / 4
          .go { st with drainFree := cyc + occ } (occ + 8) (some (.zero rows T.n))) s

/-- R187: is an accumulator element marked. -/
def TBuf.marked (t : TBuf) (row col : Nat) : Bool := t.rowp.getLsbD row || ((t.colp[row / 64]?).getD 0).getLsbD col

/-- R182, R188: the write of one row of a drain, and its flags. -/
def drainRow (m : Mem) (tb : TBuf) (f : Fmt) (T : TShape) (row x : Nat) : MWrite × FFlags :=
  let bs := m.span (cbufAddr tb.id (1024 * row)) (4 * T.n)
  let es := (List.range T.n).map fun n =>
    f.convert T.drm T.dsat (f32 (BitVec.ofNat 32 (leNat ((bs.drop (4 * n)).take 4))))
  let sz := f.width / 8
  let start := abufAddr tb.id x
  ({ addr := start, tag := 0, data := (es.flatMap fun e => leBytes sz e.1.toNat).map some,
     marks := (((List.range T.n).filter fun n => tb.marked row n).map fun n => lineOf (start + n * sz)).dedup },
   es.foldl (fun a e => a ||| e.2) 0)

/-- MDRAIN (R182, R188, R411). -/
def execMdrain (r : Bool) (w sg : BitVec 4) (ma : BitVec 3) (t : BitVec 2) (mc : BitVec 3) (df : BitVec 4) (s : State) : Out :=
  mWord r w sg true true (fun s c st =>
    let cyc := s.cyc c
    let a := st.maAddr ma
    let ca := st.maAddr mc
    let T := st.shape t
    let b := st.bankA a
    let pitch := ((bfmtFmt b).getD .fp32).mPitch (bfmtLen b)
    let f := (Fmt.ofCode df).getD .g3
    if a % 16 != 0 then .trap .misalign (bufAddr a)
    else if ca % 1024 != 0 then .trap .misalign (bufAddr ca)
    else
      match firstOver a pitch T.m (T.n * f.width / 8) bufLimit with
      | some x => .trap .fieldMiss (bufAddr x)
      | none =>
        match T.rows ca with
        | .error x => .trap .fieldMiss (bufAddr x)
        | .ok rows =>
          if !f.drainOk || bfmtFmt b != some f || bfmtSmode b != 0 || decide (bfmtLen b < T.n) then .trap .format (bufAddr a)
          else if cyc < st.drainFree || st.stepOver rows then .stall
          else
            let (m, tb) := s.mView st
            match if st.pmark then none else rows.zipIdx.find? fun r => (List.range T.n).any (tb.marked r.1) with
            | some (_, i) => .trap .poison (bufAddr (a + i * pitch))
            | none =>
              let ws := rows.zipIdx.map fun r => drainRow m tb f T r.1 (a + r.2 * pitch)
              .go { st with drainFree := cyc + T.m } (T.m + 64)
                (some (.drain (joinWrites (ws.map Prod.fst)) (ws.foldl (fun x v => x ||| v.2) 0)))) s

/- Repetition and addresses. -/

/-- MREP (R183, R184): arms the repeat state. -/
def execMrep (r : Bool) (k : BitVec 8) (n : BitVec 9) (s : State) : Out :=
  issue .m (r && !s.mArmed) false [] (fun s c st =>
    if st.mrep.valid then .trap .illegal 0
    else .ok (s.setSt c { st with mrep := { valid := true, remaining := n.toNat + 1, mask := k } }) .seq 1) s

def Strand.setMa (st : Strand) (m : BitVec 3) (v : W64) : Strand := { st with ma := st.ma.set m.toNat v }

/-- MSETA of the operand queue (R185). -/
def execMseta (r : Bool) (w sg : BitVec 4) (m : BitVec 3) (s : State) : Out :=
  mWord r w sg false false (fun s c st =>
    let cyc := s.cyc c
    match qHead st.qm cyc with
    | none => .stall
    | some e =>
      if e.plo then .trap .poison 0
      else .go ({ st with qm := st.qm.pop cyc }.setMa m e.lo) 0 none) s

/-- MSETA, immediate (R185). -/
def execMsetaImm (r : Bool) (w sg : BitVec 4) (m : BitVec 3) (i : BitVec 13) (s : State) : Out :=
  mWord r w sg false false (fun _ _ st =>
    .go (st.setMa m ((st.ma[m.toNat]).extractLsb' 32 32 ++ (i.zeroExtend 32 <<< 9))) 0 none) s

/-- MADDA (R186). -/
def execMadda (r : Bool) (w sg : BitVec 4) (m : BitVec 3) (i : BitVec 14) (s : State) : Out :=
  mWord r w sg false false (fun _ _ st =>
    let v := st.ma[m.toNat]
    .go (st.setMa m (v.extractLsb' 32 32 ++ (v.extractLsb' 0 32 + (i.signExtend 32 <<< 6)))) 0 none) s

/-- MNOP (R186): waits and signals. -/
def execMnop (r : Bool) (w sg : BitVec 4) (s : State) : Out :=
  mWord r w sg true false (fun _ _ st => .go st 0 none) s

/- Completion. -/

/-- R44, R180: one accumulator row after a step's group values entered it, in its bytes, with flags. -/
def accRow (bs : List Byte) (vals : List (List W32)) : List Byte × FFlags :=
  let rs := vals.zipIdx.map fun v =>
    v.1.foldl (fun (x : W32 × FFlags) g => let (y, f) := accumulate x.1 g; (y, x.2 ||| f))
      (BitVec.ofNat 32 (leNat ((bs.drop (4 * v.2)).take 4)), 0)
  (rs.flatMap fun r => leBytes 4 r.1.toNat, rs.foldl (fun a r => a ||| r.2) 0)

/-- R187: the marks of a step, set when it completes. -/
def TBuf.stepMarks (t : TBuf) (rows rowBad : List Nat) (cols : BitVec 256) : TBuf :=
  { t with rowp := rowBad.foldl (fun m r => m ||| (1#1024 <<< r)) t.rowp,
           colp := Vector.ofFn fun b : Fin 16 => if rows.any fun r => r / 64 = b.val then t.colp[b] ||| cols else t.colp[b] }

/-- R165: a plane takes the place of the shadow plane. -/
def TBuf.fillW (t : TBuf) (p : WPlane) : TBuf := if t.active then { t with wp0 := p } else { t with wp1 := p }
def TBuf.fillS (t : TBuf) (p : SPlane) : TBuf := if t.active then { t with sp0 := p } else { t with sp1 := p }

/-- R173, R174: an M word completes: its effect lands and its signal is given; a step counts its products (R292). -/
def State.completeM (s : State) (c : Fin 192) (st : Strand) (p : MPend) : State :=
  let cyc := s.cyc c
  match p.eff with
  | .loadW pl => s.setSt c ({ st with tb := st.tb.fillW pl }.signal p.sig)
  | .loadS pl => s.setSt c ({ st with tb := st.tb.fillS pl }.signal p.sig)
  | .zero rows n =>
    (s.setSt c ({ st with tb := st.tb.zeroMarks rows n }.signal p.sig)).landAll c 2 (zeroWrites st.tb.id rows n)
  | .drain ws fl => (s.setSt c ((st.setFlags cyc 0 fl).signal p.sig)).landAll c 2 ws
  | .step rows rowBad cols n fl =>
    let (s0, f2) := rows.foldl (fun (acc : State × FFlags) r =>
      let a := cbufAddr st.tb.id (1024 * r.1)
      let (bs, f) := accRow (acc.1.mem.span a (4 * n)) r.2
      (acc.1.land c 2 (MWrite.plain a 0 bs), acc.2 ||| f)) (s, fl)
    let st1 := (st.setFlags cyc 0 f2).signal p.sig
    let launches := s.launches.map fun l => if l.id == st.launch then { l with macs := l.macs + 128 * n * rows.length } else l
    { s0.setSt c { st1 with tb := st1.tb.stepMarks (rows.map Prod.fst) rowBad cols } with launches := launches }

end Sys2Proof.Machine
end

