-- ==== Sys2Proof/Machine/HCopy.lean ====
section
/-! DEFINITION. Copies of the H slot (R192 to R203): the ranges that a copy reads and writes, its pieces, reading and landing of
a piece, conditions of tokens, and the calendar requests of a copy (R230). -/

namespace Sys2Proof.Machine

open Sys2Proof

/-- A piece of a range that a copy reads or writes: its address as issued, the physical address and key, whether it reads as zero
(a discarded page, R389). -/
structure Spot where
  dev : Nat
  len : Nat
  phys : Nat
  tag : Nat
  zero : Bool
deriving DecidableEq, Repr, Inhabited

/-- The typed buffers and the yard that local spaces name (R192, R204). -/
structure Local where
  tb : Nat
  yard : Nat
deriving DecidableEq, Repr, Inhabited

/-- R192: the limit of a local space. -/
def spaceLimit (sp : BitVec 3) : Nat :=
  match sp.toNat with
  | 1 => yardLimit
  | 4 => cbufLimit
  | _ => bufLimit

/-- R192: the physical address of byte `a` of a local space. -/
def Local.addr (l : Local) (sp : BitVec 3) (a : Nat) : Nat :=
  match sp.toNat with
  | 1 => yardAddr l.yard a
  | 2 => wbufAddr l.tb a
  | 3 => abufAddr l.tb a
  | _ => cbufAddr l.tb a

/-- An address as TRAPADDR takes it. -/
def adr64 (a : Nat) : W64 := BitVec.ofNat 64 a

/-- R193: the pieces of a range, with the limits, the field map, permissions and discarded destination pages checked over every
byte. -/
def State.spots (s : State) (launch : Nat) (loc : Local) (sp : BitVec 3) (a n : Nat) (write : Bool) :
    Except (Cause × W64) (List Spot) :=
  if n = 0 then .ok []
  else if sp = 0 then
    match s.launch? launch with
    | none => .error (.fieldMiss, adr64 a)
    | some l =>
      if 2 ^ 48 ≤ a then .error (.fieldMiss, adr64 a)
      else
        match s.pieces l (if write then .w else .r) (n / 16 + 2) (adr64 a) n with
        | .error e => .error e
        | .ok ps =>
          match ps.find? fun p => write && p.tgt.disc with
          | some p => .error (.discarded, p.dev)
          | none => .ok (ps.map fun p => { dev := p.dev.toNat, len := p.len, phys := p.tgt.addr, tag := p.tgt.tag, zero := p.tgt.disc })
  else if spaceLimit sp < a + n then .error (.fieldMiss, adr64 (max a (spaceLimit sp)))
  else .ok [{ dev := a, len := n, phys := loc.addr sp a, tag := 0, zero := false }]

/-- The rest of a piece from offset `k`. -/
def Spot.drop (p : Spot) (k : Nat) : Spot := { p with dev := p.dev + k, len := p.len - k, phys := p.phys + k }

/-- Two ranges of equal length cut into pieces contiguous at both ends; `fuel` bounds the pieces. -/
def zipSpots : Nat → List Spot → List Spot → List Seg
  | 0, _, _ => []
  | fuel + 1, a :: as, b :: bs =>
    let k := min a.len b.len
    let seg : Seg := { srcA := adr64 a.dev, dstA := adr64 b.dev, src := some a.phys, dst := some b.phys, len := k, srcTag := a.tag,
                       dstTag := b.tag, st := if a.zero then .ready (List.replicate k (some 0)) [] else .idle }
    seg :: zipSpots fuel (if k < a.len then a.drop k :: as else as) (if k < b.len then b.drop k :: bs else bs)
  | _ + 1, _, _ => []

/-- R193, R202, R203: the pieces of one row of a copy. -/
def State.rowSegs (s : State) (launch : Nat) (own dst : Local) (ssp dsp : BitVec 3) (row : Nat × Nat × Nat) :
    Except (Cause × W64) (List Seg) :=
  match s.spots launch own ssp row.1 row.2.2 false with
  | .error e => .error e
  | .ok a =>
    match s.spots launch dst dsp row.2.1 row.2.2 true with
    | .error e => .error e
    | .ok b => .ok (zipSpots (a.length + b.length) a b)

/-- The rows of a copy in order, up to the first that fails. -/
def State.allSegs (s : State) (launch : Nat) (own dst : Local) (ssp dsp : BitVec 3) :
    List (Nat × Nat × Nat) → Except (Cause × W64) (List Seg)
  | [] => .ok []
  | r :: rs =>
    match s.rowSegs launch own dst ssp dsp r with
    | .error e => .error e
    | .ok a =>
      match s.allSegs launch own dst ssp dsp rs with
      | .error e => .error e
      | .ok b => .ok (a ++ b)

/-- R202: the rows of an ACOPY2: source, destination, bytes. -/
def acopy2Rows (xd xa xb : W64) : List (Nat × Nat × Nat) :=
  let rb := 16 * ((xb.extractLsb' 0 12).toNat + 1)
  let ss := 16 * (xb.extractLsb' 24 20).toNat
  let ds := 16 * (xb.extractLsb' 44 20).toNat
  (List.range ((xb.extractLsb' 12 12).toNat + 1)).map fun i => (xa.toNat + i * ss, xd.toNat + i * ds, rb)

/-- R203: row bytes, index count and list offset of an AGATH or ASCAT. -/
def gathBytes (xb : W64) : Nat := 16 * ((xb.extractLsb' 0 12).toNat + 1)
def gathCount (xb : W64) : Nat := (xb.extractLsb' 12 12).toNat + 1
def gathList (xb : W64) : Nat := (xb.extractLsb' 24 25).toNat

/-- R203: row `j` of an AGATH or ASCAT with index `idx`. -/
def gathRow (scat : Bool) (xd xa xb : W64) (j idx : Nat) : Nat × Nat × Nat :=
  let rb := gathBytes xb
  if scat then (xa.toNat + j * rb, xd.toNat + idx * rb, rb) else (xa.toNat + idx * rb, xd.toNat + j * rb, rb)

/-- R203: an index of a list in a yard. -/
def Mem.index (m : Mem) (yard list j : Nat) : Nat := leNat (m.span (yardAddr yard (list + 4 * j)) 4)

/-- R167: the BFMT of the bank of W or A that holds an address. -/
def Strand.bank (st : Strand) (sp : BitVec 3) (a : Nat) : W32 := if sp = 2 then st.bankW a else st.bankA a

/-- Are both ends banks. -/
def bothBanks (dsp ssp : BitVec 3) : Bool := (dsp == 2 || dsp == 3) && (ssp == 2 || ssp == 3)

/-- R200, R202: do the banks of both ends differ in format. -/
def Strand.banksDiffer (st : Strand) (dsp ssp : BitVec 3) (xd xa : W64) : Bool :=
  bothBanks dsp ssp && (st.bank ssp xa.toNat).extractLsb' 0 4 != (st.bank dsp xd.toNat).extractLsb' 0 4

/- Reading and landing a piece. -/

/-- The typed-buffer state and the offset in the C buffer of an address, where it lies in one. -/
def cbufOf (a : Nat) : Option (Nat × Nat) :=
  if a < 2 ^ 96 then none
  else
    let o := (a - 2 ^ 96) % 2 ^ 24
    if o < 2 ^ 23 then none else some ((a - 2 ^ 96) / 2 ^ 24, o - 2 ^ 23)

/-- R199, R187: is a byte that a copy reads poisoned: by its line, or by the marks of its accumulator element. -/
def Strand.byteBad (st : Strand) (m : Mem) (a : Nat) : Bool :=
  m.bad (lineOf a) ||
    match cbufOf a with
    | some (_, o) => st.tb.marked (o / 1024) (o % 1024 / 4)
    | none => false

/-- R180: a byte of an accumulator position that a step in progress writes is undefined. -/
def Strand.byteUndef (st : Strand) (a : Nat) : Bool :=
  match cbufOf a with
  | some (_, o) => st.cPending (o / 1024) (o % 1024 / 4)
  | none => false

/-- R199: what a copy reads from a range: bytes of poisoned lines are zero under policy MARK and not written under TRAP; the
offsets of those bytes. -/
def readBytes (m : Mem) (st : Strand) (free tag a n : Nat) (mark : Bool) : List (Option Byte) × List Nat :=
  let bs := if a < 2 ^ 72 then m.reads tag a n else m.span a n
  let special := m.anyBad a n || (cbufOf a).isSome
  if !special then (bs.map some, [])
  else
    let bad := (List.range n).filter fun i => st.byteBad m (a + i)
    (bs.zipIdx.map fun b =>
      if bad.contains b.2 then (if mark then some 0 else none)
      else if st.byteUndef (a + b.2) then some ((Config.freeWord free (0x200000 + b.2)).extractLsb' 0 8)
      else some b.1, bad)

/-- R195, R199: a token's condition, set where none is. -/
def Strand.setCond (st : Strand) (t : BitVec 3) (code : BitVec 2) (a : W64) : Strand :=
  let k := st.tok[t.toNat]
  if k.cond = 0 then { st with tok := st.tok.set t.toNat { k with cond := code, caddr := a } } else st

/-- R195: landed bytes leave PEND. -/
def Strand.landed (st : Strand) (t : BitVec 3) (cyc n : Nat) : Strand :=
  let k := st.tok[t.toNat]
  { st with tok := st.tok.set t.toNat { k with pend := k.pend - n, last := cyc } }

def Strand.setCopy (st : Strand) (k : Copy) : Strand :=
  { st with copies := st.copies.map fun o => if o.cid == k.cid then k else o }

/-- R206: have the copies that H issued on a note's token before it landed. -/
def noteCopied (ks : List Copy) (n : Copy) : Bool := !ks.any fun k => k.kind != 6 && k.tok == n.tok && decide (k.cid < n.cid)

/-- R194, R199: a copy all of whose pieces have landed is no longer in flight; a note whose last copy it was is dropped where the token's
COND is set. -/
def Strand.retire (st : Strand) (cid : Nat) : Strand :=
  match st.copies.find? fun k => k.cid == cid && k.segs.all fun g => g.st == .landed with
  | none => st
  | some o =>
    let left := st.copies.filter fun k => k.cid != cid
    if o.kind = 6 || (st.tok[o.tok.toNat]).cond = 0 then { st with copies := left }
    else { st with copies := left.filter fun k => !(k.kind = 6 && k.tok = o.tok && decide (cid < k.cid) && noteCopied left k) }

def Copy.setSeg (k : Copy) (j : Nat) (x : SegState) : Copy :=
  { k with segs := k.segs.zipIdx.map fun g => if g.2 = j then { g.1 with st := x } else g.1 }

/-- Data of a piece that stands ready, with the offsets of its poisoned bytes. -/
def Seg.data (g : Seg) : List (Option Byte) × List Nat :=
  match g.st with
  | .ready d b => (d, b)
  | _ => ([], [])

/-- R202, R203: the bytes of a piece that a later row of the copy has already written stay. -/
def Copy.unmasked (k : Copy) (j : Nat) (g : Seg) (d : List (Option Byte)) : List (Option Byte) :=
  if k.kind = 2 || k.kind = 4 then
    let later := (k.segs.zipIdx.filter fun o => decide (j < o.2) && o.1.st == .landed).filterMap fun o =>
      o.1.dst.map fun a => (a, o.1.len)
    match g.dst with
    | some a => d.zipIdx.map fun b => if later.any fun r => decide (r.1 ≤ a + b.2) && decide (a + b.2 < r.1 + r.2) then none else b.1
    | none => d
  else d

/-- R199, R245: the write of a piece's data; marked lines where policy MARK applies and the destination is not the C buffer. -/
def Copy.writeOf (k : Copy) (j : Nat) (g : Seg) (d : List (Option Byte)) (bad : List Nat) : MWrite :=
  let a := g.dst.getD 0
  { addr := a, data := k.unmasked j g d, tag := g.dstTag,
    marks := if k.mark && (cbufOf a).isNone then (bad.map fun o => lineOf (a + o)).dedup else [] }

/-- R187: a typed-buffer state changed wherever it stands: on a core, in a slot of a launch, with a halted strand. -/
def State.mapTb (s : State) (id : Nat) (f : TBuf → TBuf) : State :=
  let onSt (st : Strand) : Strand := if st.tb.id = id then { st with tb := f st.tb } else st
  { s with
    cores := s.cores.map fun k => { k with strand := k.strand.map onSt },
    halted := s.halted.map fun h => { h with st := onSt h.st },
    launches := s.launches.map fun l =>
      { l with slots := l.slots.map fun sl => { sl with tbs := sl.tbs.map fun t => t.map fun b => if b.id = id then f b else b } } }

/-- R187: rows of a C buffer marked. -/
def TBuf.markRows (t : TBuf) (rows : List Nat) : TBuf :=
  { t with rowp := rows.foldl (fun m r => m ||| (1#1024 <<< r)) t.rowp }

/-- R199, R317, R368: does an address give the gated response: in the yard of a slot of the launch whose port is closed, or in a peer
that is out of reach or refuses the access. The strand's own cluster's yard never does. -/
def State.yardGated (s : State) (own launch a : Nat) : Bool :=
  s.peerGated a || isYard a && !(decide (yardAddr own 0 ≤ a) && decide (a < yardAddr (own + 1) 0)) &&
    match s.launch? launch with
    | none => false
    | some l => l.slots.zipIdx.any fun sl => decide (sl.1.yard = (a - 2 ^ 72) / 2 ^ 25) && s.slotGated l sl.2

/-- R221: a write of a copy of a core: one through a DEV field comes by the remote port. -/
def State.landCopy (s : State) (c : Fin 192) (k : Copy) (w : MWrite) : State := if k.dspace = 0 then s.landFar w else s.land c 3 w

/-- R194, R199: piece `j` of a copy has landed: its token and its marks in a C buffer, and whether it is to be written. -/
def State.segLanded (s : State) (c : Fin 192) (st : Strand) (k : Copy) (j : Nat) (g : Seg) (bad : List Nat) : State × Bool :=
  let own := s.yardOfCore c
  let a := g.dst.getD 0
  let srcGated := match g.src with
    | some x => s.yardGated own st.launch x
    | none => false
  let gated := srcGated || s.yardGated own st.launch a
  let st1 := (st.setCopy (k.setSeg j .landed)).landed k.tok (s.cyc c) g.len
  let st2 :=
    if gated then st1.setCond k.tok 2 (if srcGated then g.srcA else g.dstA)
    else match k.mark, bad with
      | false, o :: _ => st1.setCond k.tok 1 (g.srcA + adr64 o)
      | _, _ => st1
  let s1 := s.setSt c (st2.retire k.cid)
  if gated then (s1, false)
  else
    match cbufOf a with
    | some (id, o) => (if k.mark && !bad.isEmpty then s1.mapTb id fun t => t.markRows (bad.map fun i => (o + i) / 1024).dedup else s1, true)
    | none => (s1, true)

/-- R194, R199: piece `j` of a copy lands with its data. -/
def State.landSeg (s : State) (c : Fin 192) (st : Strand) (k : Copy) (j : Nat) (g : Seg) (d : List (Option Byte))
    (bad : List Nat) : State :=
  let (s1, wr) := s.segLanded c st k j g bad
  if wr then s1.landCopy c k (k.writeOf j g d bad) else s1

/- Calendar requests. -/

/-- The 2 KiB block of an address. -/
def blockOf (a : Nat) : Nat := a / 2048

/-- Groups of pieces by block, each with the lowest address as issued, its first physical address and its byte count. -/
structure BlockReq where
  blk : Nat
  low : Nat
  len : Nat
  segs : List Nat
deriving DecidableEq, Repr, Inhabited

/-- Pieces gathered into one request per block, in ascending address (R230). -/
def groupBlocks (gs : List (Nat × Nat × Nat × Nat)) : List BlockReq :=
  let rs := gs.foldl (fun (acc : List BlockReq) g =>
    let (j, dev, phys, len) := g
    if acc.any fun r => r.blk = blockOf phys then
      acc.map fun r => if r.blk = blockOf phys then { r with low := min r.low dev, len := r.len + len, segs := r.segs ++ [j] } else r
    else acc ++ [{ blk := blockOf phys, low := dev, len := len, segs := [j] }]) []
  rs.insertionSort fun a b => a.low ≤ b.low

/-- Requests formed for blocks. -/
def State.requestAll (s : State) (c : Fin 192) (who : List Nat → ReqWho) (rs : List BlockReq) : State :=
  rs.foldl (fun s r => s.request c (stackOf (2048 * r.blk)) (2048 * r.blk) (min 2048 r.len) (who r.segs)) s

/-- Does a piece read HBM storage. -/
def Seg.fromHbm (g : Seg) : Bool := match g.src with | some a => isHbm a | none => false
def Seg.toHbm (g : Seg) : Bool := match g.dst with | some a => isHbm a | none => false

/-- R230: the read requests of a copy. -/
def Copy.reads (k : Copy) : List BlockReq :=
  groupBlocks ((k.segs.zipIdx.filter fun g => g.1.fromHbm && g.1.st == .idle).map fun g =>
    (g.2, g.1.srcA.toNat, g.1.src.getD 0, g.1.len))

/-- R230: the write requests of a copy whose data is ready: blocks of which no piece still awaits its data. -/
def Copy.readyWrites (k : Copy) : List BlockReq :=
  let ws := k.segs.zipIdx.filter fun g => g.1.toHbm && !(g.1.st == .landed) && !(g.1.st == .writing)
  (groupBlocks (ws.map fun g => (g.2, g.1.dstA.toNat, g.1.dst.getD 0, g.1.len))).filter fun r =>
    ws.all fun g => blockOf (g.1.dst.getD 0) != r.blk || g.1.st.isReady

/-- R350: the write requests of a copy, their data landed or not. -/
def Copy.writes (k : Copy) : List BlockReq :=
  groupBlocks ((k.segs.zipIdx.filter fun g => g.1.toHbm).map fun g => (g.2, g.1.dstA.toNat, g.1.dst.getD 0, g.1.len))

/-- R230: write requests are formed for the blocks of a copy whose data has landed; their pieces keep their data until the slot
starts. -/
def State.formWrites (s : State) (c : Fin 192) (sid : Nat) (k : Copy) (already : List Nat) : State :=
  s.requestAll c (ReqWho.copyWrite sid k.cid) (k.readyWrites.filter fun r => !r.segs.any already.contains)

/-- Pieces of a copy for which a write request stands. -/
def Core.requested (k : Core) (sid cid : Nat) : List Nat :=
  k.reqs.flatMap fun r => match r.who with
    | .copyWrite a b segs => if a = sid && b = cid then segs else []
    | _ => []

/-- Does a piece read a yard window that gives the gated response (R199). -/
def State.segGated (s : State) (c : Fin 192) (st : Strand) (g : Seg) : Bool :=
  match g.src with
  | some a => s.yardGated (s.yardOfCore c) st.launch a
  | none => false

/-- Is a piece's source read when the copy issues: a source outside HBM storage of a piece bound for HBM storage. -/
def Seg.early (g : Seg) : Bool := g.st == .idle && g.toHbm && g.src.isSome && !g.fromHbm

/-- The sources of pieces that are read when the copy issues; nothing is read of a gated yard. -/
def State.readEarly (s : State) (c : Fin 192) (st : Strand) (k : Copy) : Copy :=
  { k with segs := k.segs.map fun g =>
      if !g.early then g
      else if s.segGated c st g then { g with st := .ready (List.replicate g.len none) [] }
      else
        let (d, b) := readBytes s.mem st s.free g.srcTag (g.src.getD 0) g.len k.mark
        { g with st := .ready d b } }

/-- Conditions met in the early reads of a copy (R199): `k0` is the copy before them. -/
def State.condEarly (s : State) (c : Fin 192) (st : Strand) (k0 k : Copy) : Strand :=
  (k0.segs.zip k.segs).foldl (fun t g =>
    if !g.1.early then t
    else if s.segGated c st g.1 then t.setCond k.tok 2 g.1.srcA
    else match g.2.data.2, k.mark with
      | o :: _, false => t.setCond k.tok 1 (g.1.srcA + adr64 o)
      | _, _ => t) st

/-- R76, R319: the early reads of a copy counted. -/
def State.countEarly (s : State) (c : Fin 192) (st : Strand) (k : Copy) : State :=
  k.segs.foldl (fun s g =>
    if !g.early || s.segGated c st g then s
    else (s.countBytes st.part st.launch (g.src.getD 0) g.len).countXdie c (s.dieOf c (g.src.getD 0)) g.len) s

/-- R194, R195, R230: a copy is put in flight: counted on its token unless it is re-issued, its requests formed. Those of a re-issued one are
formed all at once, its writes too, so that they enter their queues in the saved order and before those of later words (R350). -/
def State.startCopy (s : State) (c : Fin 192) (st : Strand) (k0 : Copy) (count : Bool) : State :=
  if k0.segs.isEmpty then s.setSt c st
  else
    let n := k0.segs.foldl (fun t g => t + g.len) 0
    let k2 := { k0 with cid := st.nextCid, contrib := if count then n else k0.contrib }
    let k1 := s.readEarly c st k2
    let t := st.tok[k1.tok.toNat]
    let st1 := { st with copies := st.copies ++ [k1], nextCid := st.nextCid + 1,
                         tok := if count then st.tok.set k1.tok.toNat { t with pend := t.pend + n } else st.tok }
    let s1 := ((s.setSt c (s.condEarly c st1 k2 k1)).countEarly c st1 k2).requestAll c (ReqWho.copyRead st.sid k1.cid) k1.reads
    if count then s1.formWrites c st.sid k1 []
    else s1.requestAll c (ReqWho.copyWrite st.sid k1.cid) k1.writes

end Sys2Proof.Machine
end

