-- ==== Sys2Proof/Machine/HSlot.lean ====
section
/-! DEFINITION. Words of the H slot (R190, R191, R196, R197, R200 to R206, R216 to R219); HAULGO and QPOST stand with the engines
that they reach. -/

namespace Sys2Proof.Machine

open Sys2Proof

/-- An H word: one that issues has no pre-issue read left (R190). -/
def hWord (r flow : Bool) (body : State → Fin 192 → Strand → Res) (s : State) : Out :=
  issue .h r flow [] (fun s c st =>
    match body s c st with
    | .ok s1 n busy =>
      match s1.strand? c with
      | some t => .ok (s1.setSt c { t with pre := none }) n busy
      | none => .ok s1 n busy
    | .stall s1 => .stall s1
    | .trap e a => .trap e a) s

/-- R190: a pre-issue read of `n` cycles stalls its word until it has completed (PRE_ISSUE_READ); `none` once it has. -/
def State.preRead (s : State) (c : Fin 192) (st : Strand) (n : Nat) : Option State :=
  match st.pre with
  | some p =>
    if p.pc = st.pc.h then (if p.ready = 0 then none else some s)
    else some (s.setSt c { st with pre := some { pc := st.pc.h, ready := s.cyc c + n } })
  | none => some (s.setSt c { st with pre := some { pc := st.pc.h, ready := s.cyc c + n } })

/-- The local spaces of a core. -/
def State.locals (s : State) (c : Fin 192) (st : Strand) : Local := { tb := st.tb.id, yard := s.yardOfCore c }

/-- A copy record that a word makes (R333). -/
def mkCopy (kind : Nat) (st : Strand) (d a b : BitVec 5) (k e sp : BitVec 3) (segs : List Seg) : Copy :=
  { cid := 0, dst := st.xv d, src := st.xv a, arg := st.xv b, kind := kind, tok := k, dspace := e, sspace := sp, mark := st.pmark,
    noteBad := false, conv := false, sfmt := 0, dfmt := 0, lm1 := 0, contrib := 0, segs := segs }

/-- R191: POISON of the X operands of a copy. -/
def Strand.copyPoison (st : Strand) (d a b : BitVec 5) : Bool := st.xp d || st.xp a || st.xp b

/-- R190, R194: must a copy stall: a FENCEX holds it back, or 1,024 are in flight. -/
def Strand.copyStall (st : Strand) : Bool := st.fenced 3 || decide (1024 ≤ st.copies.length)

/-- R193: the first of two addresses that is not a multiple of 16, the destination's looked at first; a length that is not leaves TRAPADDR 0
(DESIGN CHOICE, log: R193 names neither). -/
def misaligned16 (xd xa : W64) : Option W64 :=
  if xd.toNat % 16 != 0 then some xd else if xa.toNat % 16 != 0 then some xa else none

/- Converting copies (R201). -/

/-- R27: the first word of a source row at an address, as a byte offset, whose reserved bits are not zero; a poisoned word is not looked
at. -/
def rowReserved (f : Fmt) (len : Nat) (m : Mem) (a : Nat) : Option Nat :=
  if f.width != 6 then none
  else ((List.range ((len + 20) / 21)).find? fun k => !m.bad (lineOf (a + 16 * k)) && !sixOk len k (wordOf (m.span a (f.pitch len)) k)).map (16 * ·)

/-- R25, R26: elements packed into a row of whole words. -/
def packRow (f : Fmt) (es : List Nat) (bytes : Nat) : List Byte :=
  leBytes bytes (es.zipIdx.foldl (fun v e => v + e.1 % 2 ^ f.width * 2 ^ f.bitPos e.2) 0)

/-- R201: a destination row converted from a source row. -/
def convRow (sf df : Fmt) (len : Nat) (bs : List Byte) : List Byte :=
  packRow df ((List.range len).map fun i => (df.convert rmRNE true (rowElem sf bs i)).1.toNat) (df.pitch len)

/-- R201: the conversion's rows: `none` bytes where policy TRAP met poison cannot occur, since the word traps before issue. -/
def convSegs (m : Mem) (srcPhys dstPhys : Nat) (xa xd : W64) (sf df : Fmt) (len n : Nat) (mark : Bool) : List Seg :=
  let ps := sf.pitch len
  let pd := df.pitch len
  (List.range n).map fun i =>
    let a := srcPhys + i * ps
    let bad := m.anyBad a ps
    let row := if bad then List.replicate pd 0 else convRow sf df len (m.span a ps)
    { srcA := xa + adr64 (i * ps), dstA := xd + adr64 (i * pd), src := none, dst := some (dstPhys + i * pd), len := pd, srcTag := 0,
      dstTag := 0, st := .ready (row.map fun b => if bad && !mark then none else some b) (if bad then List.range pd else []) }

/-- R201: a converting ACOPY. -/
def convBody (d a b : BitVec 5) (k e sp : BitVec 3) (s : State) (c : Fin 192) (st : Strand) : Res :=
  let xd := st.xv d
  let xa := st.xv a
  let n := (st.xv b).toNat
  let S := st.bank sp xa.toNat
  let D := st.bank e xd.toNat
  let loc := s.locals c st
  match s.spots st.launch loc sp xa.toNat n false with
  | .error er => .trap er.1 er.2
  | .ok _ =>
    let sf := (bfmtFmt S).getD .g3
    let df := (bfmtFmt D).getD .g3
    let len := bfmtLen S
    let ps := sf.pitch len
    if !sf.vcvtOk || !df.vcvtOk || bfmtSmode S != 0 || bfmtSmode D != 0 || bfmtLen D != len || n % ps != 0 then .trap .format xa
    else
      let rows := n / ps
      match s.spots st.launch loc e xd.toNat (rows * df.pitch len) true with
      | .error er => .trap er.1 er.2
      | .ok _ =>
        match s.preRead c st ((n + 255) / 256) with
        | some s1 => .stall s1
        | none =>
          let base := loc.addr sp xa.toNat
          let badWord := (List.range rows).findSome? fun i => (rowReserved sf len s.mem (base + i * ps)).map fun o => i * ps + o
          match badWord with
          | some o => .trap .format (xa + adr64 o)
          | none =>
            match if st.pmark then none else s.mem.firstBad base n with
            | some line => .trap .poison (xa + adr64 (64 * line) - adr64 base)
            | none =>
              let segs := convSegs s.mem base (loc.addr e xd.toNat) xa xd sf df len rows st.pmark
              let cp := { mkCopy 1 st d a b k e sp segs with conv := true, sfmt := S.extractLsb' 0 4, dfmt := D.extractLsb' 0 4,
                                                             lm1 := S.extractLsb' 16 16 }
              .ok (s.startCopy c st cp true) .seq 1

/-- ACOPY (R200, R201). -/
def execAcopy (r : Bool) (d a b : BitVec 5) (k e sp : BitVec 3) (s : State) : Out :=
  hWord r false (fun s c st =>
    let xb := st.xv b
    if st.fenced 3 then .stall s
    else if xb = 0 then .ok s .seq 1
    else if st.copyStall then .stall s
    else if st.copyPoison d a b then .trap .poison 0
    else if 2 ^ 24 < xb.toNat then .trap .reservedNonzero 0
    else
      match misaligned16 (st.xv d) (st.xv a) with
      | some x => .trap .misalign x
      | none =>
        if xb.toNat % 16 != 0 then .trap .misalign 0
        else if st.banksDiffer e sp (st.xv d) (st.xv a) then convBody d a b k e sp s c st
        else
          let loc := s.locals c st
          match s.allSegs st.launch loc loc sp e [((st.xv a).toNat, (st.xv d).toNat, xb.toNat)] with
          | .error er => .trap er.1 er.2
          | .ok segs => .ok (s.startCopy c st (mkCopy 1 st d a b k e sp segs) true) .seq 1) s

/-- ACOPY2 (R202). -/
def execAcopy2 (r : Bool) (d a b : BitVec 5) (k e sp : BitVec 3) (s : State) : Out :=
  hWord r false (fun s c st =>
    if st.copyStall then .stall s
    else if st.copyPoison d a b then .trap .poison 0
    else
      match misaligned16 (st.xv d) (st.xv a) with
      | some x => .trap .misalign x
      | none =>
        let loc := s.locals c st
        match s.allSegs st.launch loc loc sp e (acopy2Rows (st.xv d) (st.xv a) (st.xv b)) with
        | .error er => .trap er.1 er.2
        | .ok segs =>
          if st.banksDiffer e sp (st.xv d) (st.xv a) then .trap .format (st.xv a)
          else .ok (s.startCopy c st (mkCopy 2 st d a b k e sp segs) true) .seq 1) s

/-- R203: the rows of an indexed copy, each checked; a row that fails is named by its own address. -/
def State.gathSegs (s : State) (launch : Nat) (loc : Local) (ssp dsp : BitVec 3) (scat : Bool) (xd xa xb : W64) :
    List (Nat × Nat) → Except (Cause × W64) (List Seg)
  | [] => .ok []
  | (j, idx) :: rest =>
    let row := gathRow scat xd xa xb j idx
    match s.spots launch loc ssp row.1 row.2.2 false with
    | .error e => .error (e.1, adr64 row.1)
    | .ok x =>
      match s.spots launch loc dsp row.2.1 row.2.2 true with
      | .error e => .error (e.1, adr64 row.2.1)
      | .ok y =>
        match s.gathSegs launch loc ssp dsp scat xd xa xb rest with
        | .error e => .error e
        | .ok more => .ok (zipSpots (x.length + y.length) x y ++ more)

/-- R203: AGATH and ASCAT. -/
def gathWord (scat : Bool) (kind : Nat) (r : Bool) (d a b : BitVec 5) (k e sp : BitVec 3) (s : State) : Out :=
  hWord r false (fun s c st =>
    let xb := st.xv b
    let list := gathList xb
    let n := gathCount xb
    if st.copyStall then .stall s
    else if st.copyPoison d a b then .trap .poison 0
    else if xb.extractLsb' 49 15 != 0 then .trap .reservedNonzero 0
    else
      match misaligned16 (st.xv d) (st.xv a) with
      | some x => .trap .misalign x
      | none =>
        if list % 4 != 0 then .trap .misalign (adr64 list)
        else if yardLimit < list + 4 * n then .trap .fieldMiss (adr64 (max list yardLimit))
        else
          match s.preRead c st (24 + n) with
          | some s1 => .stall s1
          | none =>
            let loc := s.locals c st
            match s.mem.firstBad (yardAddr loc.yard list) (4 * n) with
            | some line => .trap .poison (adr64 (64 * line) - adr64 (yardAddr loc.yard 0))
            | none =>
              let idx := (List.range n).map fun j => (j, s.mem.index loc.yard list j)
              match s.gathSegs st.launch loc sp e scat (st.xv d) (st.xv a) xb idx with
              | .error er => .trap er.1 er.2
              | .ok segs =>
                if st.banksDiffer e sp (st.xv d) (st.xv a) then .trap .format (st.xv a)
                else .ok (s.startCopy c st (mkCopy kind st d a b k e sp segs) true) .seq 1) s

/-- AGATH (R203). -/
def execAgath (r : Bool) (d a b : BitVec 5) (k e sp : BitVec 3) (s : State) : Out := gathWord false 3 r d a b k e sp s

/-- ASCAT (R203). -/
def execAscat (r : Bool) (d a b : BitVec 5) (k e sp : BitVec 3) (s : State) : Out := gathWord true 4 r d a b k e sp s

/- Multicast (R204, R205). -/

/-- A gang, and the strands of it wherever they stand. -/
def State.gang? (s : State) (g : Nat) : Option Gang := s.gangs.find? fun k => k.gid == g

def State.gangStrands (s : State) (g : Nat) : List Strand :=
  (s.cores.toList.filterMap fun k => k.strand).filter (fun st => st.gang == g) ++
    (s.halted.map Halted.st).filter fun st => st.gang == g

/-- R204: the cluster slot of a member of a gang. -/
def Gang.slotOf (g : Gang) (m : Nat) : Nat := g.slots.getD (if g.level = 2 then m / 4 else 0) 0

/-- R204: the destinations of a group: each member's buffers, or each distinct cluster's yard once. A member whose strand has ended has no buffers to
receive and does not count (DESIGN CHOICE, log). -/
def State.castTargets (s : State) (g : Gang) (grp : Nat) (sp : BitVec 3) : List Local :=
  let ms := g.table.getD grp []
  match s.launch? g.launch with
  | none => []
  | some l =>
    if sp = 1 then ((ms.map g.slotOf).dedup).map fun k => { tb := 0, yard := l.yardOf k }
    else ms.filterMap fun m => ((s.gangStrands g.gid).find? fun st => st.member == m).map fun st => { tb := st.tb.id, yard := 0 }

/-- The pieces of a multicast: the source to every destination. -/
def State.castSegs (s : State) (launch : Nat) (own : Local) (ssp dsp : BitVec 3) (row : Nat × Nat × Nat) :
    List Local → Except (Cause × W64) (List Seg)
  | [] => .ok []
  | t :: ts =>
    match s.rowSegs launch own t ssp dsp row with
    | .error e => .error e
    | .ok a =>
      match s.castSegs launch own ssp dsp row ts with
      | .error e => .error e
      | .ok b => .ok (a ++ b)

/-- R204: the reserved bits of an AMCAST operand. -/
def castReserved (xb : W64) : Bool := xb.extractLsb' 29 34 != 0

/-- R204: AMCAST in copy mode. -/
def castCopyBody (d a b : BitVec 5) (k e sp : BitVec 3) (s : State) (c : Fin 192) (st : Strand) : Res :=
  let xb := st.xv b
  let n := (xb.extractLsb' 0 24).toNat
  let grp := (xb.extractLsb' 24 5).toNat
  let loc := s.locals c st
  if st.fenced 3 then .stall s
  else if e = 0 then .trap .illegal 0
  else if n = 0 then .ok s .seq 1
  else if st.copyStall then .stall s
  else if st.copyPoison d a b then .trap .poison 0
  else if castReserved xb then .trap .reservedNonzero 0
  else
    match misaligned16 (st.xv d) (st.xv a) with
    | some x => .trap .misalign x
    | none =>
      if n % 16 != 0 then .trap .misalign 0
      else
        match s.spots st.launch loc sp (st.xv a).toNat n false, s.spots st.launch loc e (st.xv d).toNat n true with
        | .error er, _ => .trap er.1 er.2
        | .ok _, .error er => .trap er.1 er.2
        | .ok _, .ok _ =>
          let targets := match s.gang? st.gang with
            | some g => s.castTargets g grp e
            | none => []
          match s.castSegs st.launch loc sp e ((st.xv a).toNat, (st.xv d).toNat, n) targets with
          | .error er => .trap er.1 er.2
          | .ok segs => .ok (s.startCopy c st (mkCopy 5 st d a b k e sp segs) true) .seq 1

/-- R205: is an AMCAST of the gang on a group in flight. -/
def State.castBusy (s : State) (g grp : Nat) : Bool :=
  (s.gangStrands g).any fun st => st.copies.any fun k => k.kind == 5 && (k.arg.extractLsb' 24 5).toNat == grp

/-- R205: the strand count of a gang. -/
def Gang.count (g : Gang) : Nat := if g.level = 2 then 4 * g.size else g.size

/-- R205: the change that a member of a gang makes in the present cycle of its core. -/
def State.castNow (s : State) (c : Fin 192) (grp member : Nat) : CastSet :=
  { grp := grp, member := member, cluster := clusterOf c, cyc := (s.clusters[clusterOf c]).cyc, tick := s.tick }

/-- R205: do two changes fall in one cycle. DEDUCED (log): those of different clusters do where the cycles of 1.2 GHz that they fall in, or
at other clocks their ticks, agree. -/
def CastSet.together (fixed : Bool) (x y : CastSet) : Bool :=
  if x.cluster = y.cluster then x.cyc == y.cyc else if fixed then 3 * x.tick / 4 == 3 * y.tick / 4 else x.tick == y.tick

/-- R205: has a member of a higher index changed the group in this cycle; the changes of one cycle apply in ascending member index. -/
def Gang.later (g : Gang) (fixed : Bool) (x : CastSet) : Bool :=
  g.sets.any fun y => y.grp == x.grp && y.together fixed x && decide (x.member < y.member)

/-- R205: the status of a set by a member, and the gang after it. -/
def State.castSet (s : State) (c : Fin 192) (g : Gang) (grp member : Nat) (ms : List Nat) : W64 × Gang :=
  if s.castBusy g.gid grp then (1, g)
  else if (ms.any fun m => decide (g.count ≤ m)) || ms.dedup.length != ms.length then (2, g)
  else
    let x := s.castNow c grp member
    (0, { g with table := if g.later (s.clusters[clusterOf c]).fixed x then g.table else g.table.set grp ms,
                 sets := x :: g.sets.filter fun y => decide (s.tick < y.tick + 16) })

def State.setGang (s : State) (g : Gang) : State :=
  { s with gangs := s.gangs.map fun o => if o.gid = g.gid then g else o }

/-- The bytes of pieces as a path reads them. -/
def spotBytes (m : Mem) (ps : List Spot) : List Byte :=
  ps.flatMap fun p =>
    if p.zero then List.replicate p.len 0 else if p.phys < 2 ^ 72 then m.reads p.tag p.phys p.len else m.span p.phys p.len

/-- R205: AMCAST with SET = 1: the member list is read before issue. -/
def castSetBody (d a b : BitVec 5) (sp : BitVec 3) (s : State) (c : Fin 192) (st : Strand) : Res :=
  let xb := st.xv b
  let n := (xb.extractLsb' 0 7).toNat
  let grp := (xb.extractLsb' 24 5).toNat
  let own := s.yardOfCore c
  if st.fenced 3 then .stall s
  else if st.xp a || st.xp b then .trap .poison 0
  else if castReserved xb || xb.extractLsb' 7 17 != 0 || decide (64 < n) then .trap .reservedNonzero 0
  else
    match s.spots st.launch (s.locals c st) sp (st.xv a).toNat n false with
    | .error er => .trap er.1 er.2
    | .ok ps =>
      match s.preRead c st (24 + (n + 15) / 16) with
      | some s1 => .stall s1
      | none =>
        match ps.find? fun p => s.yardGated own st.launch p.phys with
        | some p => .trap .remoteGated (adr64 p.dev)
        | none =>
          let m := s.view st.sid 3
          match ps.findSome? fun p => (m.firstBad p.phys p.len).map fun l => adr64 p.dev + adr64 (64 * l) - adr64 p.phys with
          | some x => .trap .poison x
          | none =>
            if !st.owns true d then .trap .xown 0
            else
              match s.gang? st.gang with
              | none => .ok (s.setSt c (st.xlater (s.cyc c + 1) d 2 false false)) .seq 1
              | some g =>
                let (v, g1) := s.castSet c g grp st.member ((spotBytes m ps).map BitVec.toNat)
                .ok ((s.setSt c (st.xlater (s.cyc c + 1) d v false false)).setGang g1) .seq 1

/-- AMCAST (R204): bit 63 of xb chooses between the copy and the change of the group, which share the word. -/
def execAmcast (r : Bool) (d a b : BitVec 5) (k e sp : BitVec 3) (s : State) : Out :=
  hWord r false (fun s c st =>
    if (st.xv b).getLsbD 63 then castSetBody d a b sp s c st else castCopyBody d a b k e sp s c st) s

/-- AMCAST with SET = 1 (R205), the same word as AMCAST. -/
def execAmcastSet (r : Bool) (d a b : BitVec 5) (k e sp : BitVec 3) (s : State) : Out :=
  hWord r false (fun s c st =>
    if (st.xv b).getLsbD 63 then castSetBody d a b sp s c st else castCopyBody d a b k e sp s c st) s

/-- ANOTE (R206): its value is what it will write; a poisoned value under policy MARK marks the line instead (R108). One that has no copy to
wait for and meets a set COND is dropped (R199). -/
def execAnote (r : Bool) (a b : BitVec 5) (k : BitVec 3) (s : State) : Out :=
  hWord r false (fun s c st =>
    let x := st.xv a
    if st.copyStall then .stall s
    else if st.xp a || (st.xp b && !st.pmark) then .trap .poison 0
    else if x.toNat % 8 != 0 then .trap .misalign x
    else
      match s.spots st.launch (s.locals c st) 0 x.toNat 8 true with
      | .error er => .trap er.1 er.2
      | .ok ps =>
        let p := ps.headD default
        let bs : List (Option Byte) := if st.xp b then List.replicate 8 none else (leBytes 8 (st.xv b).toNat).map some
        let seg : Seg := { srcA := 0, dstA := x, src := none, dst := some p.phys, len := 8, srcTag := 0, dstTag := p.tag,
                           st := .ready bs (if st.xp b then [0] else []) }
        let cp : Copy := { cid := st.nextCid, dst := x, src := 0, arg := st.xv b, kind := 6, tok := k, dspace := 0, sspace := 0,
                           mark := st.pmark, noteBad := st.xp b, conv := false, sfmt := 0, dfmt := 0, lm1 := 0, contrib := 0,
                           segs := [seg] }
        if (st.tok[k.toNat]).cond != 0 && noteCopied st.copies cp then .ok s .seq 1
        else .ok (s.setSt c { st with copies := st.copies ++ [cp], nextCid := st.nextCid + 1 }) .seq 1) s

/- Tokens. -/

/-- R196, R233: are the named tokens at zero, the last bytes having landed in an earlier cycle. -/
def Strand.tokensZero (st : Strand) (mask : BitVec 8) (cyc : Nat) : Bool :=
  (List.finRange 8).all fun i => !mask.getLsbD i.val || ((st.tok[i]).pend == 0 && decide ((st.tok[i]).last < cyc))

/-- TWAIT (R196, R199). -/
def execTwait (r : Bool) (k : BitVec 8) (s : State) : Out :=
  hWord r false (fun s c st =>
    if !st.tokensZero k (s.cyc c) then .stall s
    else
      match st.condToken k with
      | some i => .stall (s.raiseCond c st .h i)
      | none => .ok s .seq 1) s

/-- TPEND (R197, R199). -/
def execTpend (r : Bool) (d : BitVec 5) (k : BitVec 3) (s : State) : Out :=
  hWord r false (fun s c st =>
    let t := st.tok[k.toNat]
    if t.pend = 0 && t.cond != 0 then .stall (s.raiseCond c st .h ⟨k.toNat, k.isLt⟩)
    else if !st.owns true d then .trap .xown 0
    else .ok (s.setSt c (st.xlater (s.cyc c + 1) d (BitVec.ofNat 64 t.pend) false false)) .seq 1) s

/- Arithmetic, queues, flags. -/

/-- R217: an H write of an X register. -/
def hWrite (d : BitVec 5) (v : W64) (bad : Bool) (s : State) (c : Fin 192) (st : Strand) : Res :=
  if !st.owns true d then .trap .xown 0
  else .ok (s.setSt c (st.xlater (s.cyc c + 1) d v bad false)) .seq 1

/-- HADD (R217). -/
def execHadd (r : Bool) (d a b : BitVec 5) (s : State) : Out :=
  hWord r false (fun s c st => hWrite d (st.xv a + st.xv b) (st.xp a || st.xp b) s c st) s

/-- HADD of the operand queue (R217). -/
def execHaddQueue (r : Bool) (d a : BitVec 5) (h p : BitVec 1) (s : State) : Out :=
  hWord r false (fun s c st =>
    let cyc := s.cyc c
    match qHead st.qh cyc with
    | none => .stall s
    | some e =>
      let st1 := if p = 1 then { st with qh := st.qh.pop cyc } else st
      let (x, bad) := if h = 1 then (e.hi, e.phi) else (e.lo, e.plo)
      hWrite d (st.xv a + x) (st.xp a || bad) s c st1) s

/-- HADDI (R217). -/
def execHaddi (r : Bool) (d a : BitVec 5) (i : BitVec 15) (s : State) : Out :=
  hWord r false (fun s c st => hWrite d (st.xv a + i.signExtend 64) (st.xp a) s c st) s

/-- HMOVH (R217, R100). -/
def execHmovh (r : Bool) (d : BitVec 5) (h : BitVec 2) (z : BitVec 1) (i : BitVec 16) (s : State) : Out :=
  hWord r false (fun s c st =>
    let sh := 16 * h.toNat
    let v := if z = 1 then i.zeroExtend 64 <<< sh else (st.xv d &&& ~~~(0xFFFF#64 <<< sh)) ||| (i.zeroExtend 64 <<< sh)
    hWrite d v (z == 0 && st.xp d) s c st) s

/-- HSEND (R218): queue 1 is V's, 2 M's. -/
def execHsend (r : Bool) (q : BitVec 2) (a b : BitVec 5) (s : State) : Out :=
  hWord r false (fun s c st =>
    let cyc := s.cyc c
    let e := sendEntry st cyc a b
    match q.toNat with
    | 1 => if st.qv.full cyc then .stall s else .ok (s.setSt c { st with qv := st.qv.push e }) .seq 1
    | 2 => if st.qm.full cyc then .stall s else .ok (s.setSt c { st with qm := st.qm.push e }) .seq 1
    | _ => .trap .illegal 0) s

/-- HSIG (R219). -/
def execHsig (r : Bool) (f : BitVec 4) (s : State) : Out := hWord r false (sigBody f) s

/-- HWAITF (R219). -/
def execHwaitf (r : Bool) (f : BitVec 4) (n : BitVec 8) (s : State) : Out := hWord r false (waitBody f n) s

/-- HLBUF (R219, R163). -/
def execHlbuf (r : Bool) (a : BitVec 5) (l : BitVec 6) (s : State) : Out := hWord r true (lbufBody .h a l) s

/-- R216: the reserved bits of a BFMT value. -/
def bfmtReserved (v : W64) : Bool := v.extractLsb' 32 32 != 0 || v.extractLsb' 11 5 != 0 || v.extractLsb' 4 4 != 0

/-- ABFMT (R216): the value governs readers from the next cycle. -/
def execAbfmt (r : Bool) (a : BitVec 5) (u : BitVec 1) (k : BitVec 5) (s : State) : Out :=
  hWord r false (fun s c st =>
    let v := st.xv a
    let i : Fin 64 := ⟨32 * u.toNat + k.toNat, by have := u.isLt; have := k.isLt; omega⟩
    if st.xp a then .trap .poison 0
    else if bfmtReserved v then .trap .reservedNonzero 0
    else if 12 < (v.extractLsb' 0 4).toNat || 4 < (v.extractLsb' 8 3).toNat then .trap .format 0
    else .ok (s.setSt c { st with bpend := st.bpend ++ [(s.cyc c + 1, i, v.extractLsb' 0 32)] }) .seq 1) s

/-- HNOP (R219). -/
def execHnop (r : Bool) (s : State) : Out := hWord r false (fun s _ _ => .ok s .seq 1) s

end Sys2Proof.Machine
end

