-- ==== Sys2Proof/Machine/Ctx.lean ====
section
/-! DEFINITION. The context image of a halted strand (R330 to R333), and its bytes where it lies in memory. -/

namespace Sys2Proof.Machine

open Sys2Proof

/-- Bits of a list of Booleans, the first lowest. -/
def bitsNat : List Bool → Nat
  | [] => 0
  | b :: rest => b.toNat + 2 * bitsNat rest

/-- R331: STATE. -/
def Halted.stateWord (h : Halted) : Nat :=
  let st := h.st
  st.efault.toNat * 2 ^ 48 + st.mlost.toNat * 2 ^ 44 + (st.accs.filter fun a => a.dest.isSome).length % 2 ^ 12 * 2 ^ 32 +
    st.copies.length % 2 ^ 11 * 2 ^ 16 + st.ended.v.toNat * 2 + st.ended.m.toNat * 4 + st.ended.h.toNat * 8 + st.handler.toNat

/-- R332: a loop level, with its length in words. -/
def Loop.bytes (l : Loop) : List Byte :=
  let count : Nat := l.remaining.toNat % 2 ^ 32
  let span : Nat := ((l.last - l.start).toNat / 4 + 1) % 2 ^ 14
  leBytes 8 l.start.toNat ++ leBytes 8 (count + span * 2 ^ 32 + 2 ^ 63)

/-- R332: a loop-buffer state. -/
def LBuf.bytes (b : LBuf) : List Byte :=
  leBytes 8 b.start.toNat ++
    leBytes 8 (b.remaining.toNat % 2 ^ 32 + b.len % 128 * 2 ^ 32 + b.pos % 64 * 2 ^ 40 + b.captured.toNat * 2 ^ 48 + b.valid.toNat * 2 ^ 63)

/-- R330: the words that a loop buffer holds. -/
def LBuf.wordBytes (b : LBuf) : List Byte := b.words.flatMap fun w => leBytes 4 ((w.getD 0).toNat)

def QEntry.bytes (e : QEntry) : List Byte := leBytes 8 e.lo.toNat ++ leBytes 8 e.hi.toNat

/-- R330: the poison of an operand queue. -/
def qPoison (q : Fifo QEntry) : Nat := bitsNat (q.items.flatMap fun e => [e.plo, e.phi])

def Token.bytes (t : Token) : List Byte := leBytes 8 (t.pend % 2 ^ 48 + t.cond.toNat * 2 ^ 48) ++ leBytes 8 t.caddr.toNat

/-- R333: a saved copy record. -/
def Copy.bytes (k : Copy) : List Byte :=
  leBytes 8 k.dst.toNat ++ leBytes 8 k.src.toNat ++ leBytes 8 k.arg.toNat ++
    leBytes 8 (k.kind % 8 + k.tok.toNat * 2 ^ 3 + k.dspace.toNat * 2 ^ 6 + k.sspace.toNat * 2 ^ 9 + k.mark.toNat * 2 ^ 12 +
      k.noteBad.toNat * 2 ^ 13 + k.conv.toNat * 2 ^ 14 + k.sfmt.toNat * 2 ^ 16 + k.dfmt.toNat * 2 ^ 20 + k.lm1.toNat * 2 ^ 24)

/-- R330, R338: the PC at which a slot resumes: while a handler runs, the slot whose trap it serves resumes at TRAPPC. -/
def Strand.resumePc (st : Strand) (sl : Slot) : W64 :=
  if st.handler && sl != .s && st.trapslot == BitVec.ofNat 64 sl.num then st.trappc else st.pc.get sl

/-- R330: a context image as pieces at their offsets; every byte between them is zero. -/
def Halted.image (h : Halted) : List (Nat × List Byte) :=
  let st := h.st
  let w64 (x : W64) : List Byte := leBytes 8 x.toNat
  [(0x0, leBytes 8 (0x4354584B + st.launch % 2 ^ 16 * 2 ^ 32)), (0x8, leBytes 8 h.stateWord),
   (0x10, [Slot.s, .v, .m, .h].flatMap fun sl => w64 (st.resumePc sl)),
   (0x30, leBytes 8 st.syncmask.toNat ++ leBytes 8 st.xown.toNat ++ leBytes 8 st.vshape.toNat ++ leBytes 8 st.pmark.toNat ++
     w64 (st.fstatV.zeroExtend 64 ||| (st.fstatM.zeroExtend 64 <<< 8)) ++ leBytes 8 (st.clkFixed.toNat + 2 * st.clkFurrow.toNat) ++
     leBytes 8 st.scycBase ++ w64 st.trapvec ++ w64 st.trapcause ++ w64 st.trapslot ++ w64 st.trappc ++ w64 st.trapaddr ++ w64 st.seedptr ++
     w64 st.frameptr ++ leBytes 8 st.launch ++ leBytes 8 h.time),
   (0xB0, st.ma.toList.flatMap w64), (0xF0, st.ts.toList.flatMap w64), (0x110, 0 :: (st.f.toList.drop 1)),
   (0x120, st.tok.toList.flatMap Token.bytes), (0x1A0, st.loops.reverse.flatMap Loop.bytes),
   (0x1E0, st.lbS.bytes ++ st.lbV.bytes ++ st.lbH.bytes),
   (0x210, leBytes 8 (st.mrep.remaining % 2 ^ 10 + st.mrep.valid.toNat * 2 ^ 63)),
   (0x220, leBytes 4 st.xbad.toNat), (0x228, st.vbad.toList.flatMap fun r => leBytes 2 r.toNat),
   (0x248, (st.pbad.toList.take 12).flatMap fun r => leBytes 2 r.toNat),
   (0x260, leBytes 4 (qPoison st.qv) ++ leBytes 4 (qPoison st.qm) ++ leBytes 4 (qPoison st.qh) ++
     leBytes 2 (bitsNat (st.qr.items.map REntry.bad))),
   (0x270, [BitVec.ofNat 8 st.qv.items.length, BitVec.ofNat 8 st.qm.items.length, BitVec.ofNat 8 st.qh.items.length,
     BitVec.ofNat 8 st.qr.items.length]),
   (0x278, w64 st.sresume), (0x280, st.qr.items.flatMap fun e => w64 e.val),
   (0x300, st.qv.items.flatMap QEntry.bytes), (0x400, st.qm.items.flatMap QEntry.bytes), (0x500, st.qh.items.flatMap QEntry.bytes),
   (0x600, (st.p.toList.take 12).flatMap fun p => leBytes 128 p.toNat),
   (0xC00, st.lbS.wordBytes), (0xD00, st.lbV.wordBytes), (0xE00, st.lbH.wordBytes),
   (0xF00, leBytes 8 0 ++ (st.x.toList.drop 1).flatMap w64),
   (0x1000, st.v.toList.flatMap fun v => v.toList.flatMap fun e => leBytes 4 e.toNat),
   (0x11000, st.copies.flatMap Copy.bytes)]

/-- Pieces laid over zeros: the bytes of an image of `n` bytes. -/
def layOut (n : Nat) (ps : List (Nat × List Byte)) : List Byte :=
  ((ps.foldl (fun acc p => overlayAt p.1 acc (p.2.map some)) (List.replicate n (some (0 : Byte)))).map fun b => b.getD 0).take n

/-- R330: a context image. -/
def Halted.bytes (h : Halted) : List Byte := layOut (0x11000 + 32 * h.st.copies.length) h.image

/-- R324: the parts of an image that a response changes: STATE, the PCs, loops and loop buffer of S, SRESUME, the poison and contents of X. -/
def imageParts : List (Nat × Nat) := [(0x8, 0x10), (0x1A0, 0x50), (0x220, 4), (0x278, 8), (0xC00, 0x100), (0xF00, 0x100)]

/-- Those parts by eight bytes at most: no write of them covers a line, so that none clears the poison of one (R245, R394). -/
def imageUnits : List (Nat × Nat) := imageParts.flatMap fun p => (List.range ((p.2 + 7) / 8)).map fun i => (p.1 + 8 * i, min 8 (p.2 - 8 * i))

/-- R324: where an image lies in memory, it takes what a response has changed. -/
def State.reimage (s : State) (h : Halted) : State :=
  let put (a : Nat) : State :=
    let bs := h.bytes
    s.commitAll (imageUnits.map fun p => MWrite.plain (a + p.1) (s.parts[h.st.part]).keyId ((bs.drop p.1).take p.2))
  match h.place with
  | .save a => put a
  | .silo a => put (siloAddr a)
  | _ => s

end Sys2Proof.Machine
end

