-- ==== Sys2Proof/Machine/Landing.lean ====
section
/-! DEFINITION. What comes about on a core by itself: results, copies, accesses and fills that land (R77, R109, R114, R118, R156,
R174, R190, R194, R206), a handler's entry (R338), words that are no instructions and fetches that fail (R51, R88), stall-wire and
droop events (R297 to R302). An event that is not due changes nothing. -/

namespace Sys2Proof.Machine

open Sys2Proof

/-- An event of the strand on a core, met with its settled registers; with no strand it changes nothing. -/
def strandEvent (c : Fin 192) (f : State → Strand → State) (s : State) : Out :=
  match s.strand? c with
  | none => .next s
  | some st => .next (f s (st.settle (s.cyc c)))

/-- V_RESULT_LAND (R77, R135): a V word lands in the cycle that its bound gives. -/
def execVResultLand (c : Fin 192) (i : Nat) (s : State) : Out :=
  strandEvent c (fun s st =>
    match st.vpend[i]? with
    | none => s
    | some w =>
      if s.cyc c < w.due then s
      else s.landV c { st with vpend := (st.vpend.filter fun o => o.seq != w.seq).map w.behind } w) s

/-- M_WORD_COMPLETE (R173, R174, R187, R411): an M word completes in the cycle that its bound gives. -/
def execMWordComplete (c : Fin 192) (i : Nat) (s : State) : Out :=
  strandEvent c (fun s st =>
    match st.mpend[i]? with
    | none => s
    | some w => if s.cyc c < w.due then s else s.completeM c { st with mpend := st.mpend.filter fun o => o.seq != w.seq } w) s

/- Pre-emption requests. -/

/-- A pre-emption request for every running strand of a gang (R285, R321). -/
def State.preemptGang (s : State) (gang : Nat) (yielded : Bool) : State :=
  let sids := (s.cores.toList.filterMap Core.strand).filter fun st => st.gang == gang && st.phase == .running &&
    !(s.preqs.any fun r => r.sid == st.sid)
  { s with preqs := s.preqs ++ sids.map fun st => { sid := st.sid, yielded := yielded } }

/-- The strands that run on a cluster. -/
def State.strandsOn (s : State) (q : Nat) : List Strand :=
  (s.cores.toList.zipIdx.filter fun k => k.2 / 4 == q).filterMap fun k => k.1.strand

/- Accesses. -/

/-- The strands whose accesses left a core: the one on it, and those halted there (R324). -/
def State.accStrands (s : State) (c : Fin 192) : List Strand :=
  (s.cores[c].strand).toList ++ (s.halted.filter fun h => h.core == c).map Halted.st

/-- A strand wherever it stands. -/
def State.findSid (s : State) (sid : Nat) : Option Strand :=
  ((s.cores.toList.filterMap Core.strand) ++ s.halted.map Halted.st).find? fun st => st.sid == sid

/-- The accesses outstanding from a core. -/
def State.accsOf (s : State) (c : Fin 192) : List (Strand × SAcc) := (s.accStrands c).flatMap fun st => st.accs.map fun a => (st, a)

/-- A strand's record replaced, on its core or in its image, wherever that lies (R324). -/
def State.putStrand (s : State) (st : Strand) : State :=
  let s1 : State := { s with
    cores := s.cores.map fun k => { k with strand := k.strand.map fun o => if o.sid = st.sid then st else o },
    halted := s.halted.map fun h => if h.st.sid = st.sid then { h with st := st } else h }
  match s1.halted.find? fun h => h.st.sid == st.sid with
  | some h => s1.reimage h
  | none => s1

/-- Is a strand halted. -/
def State.isHalted (s : State) (sid : Nat) : Bool := s.halted.any fun h => h.st.sid == sid

/-- R114, R324: S stands at an access again, with its loop levels and loop buffer as they stood before it issued; while a handler
runs that the access did not issue in, the interrupted code does. -/
def Strand.rewind (st : Strand) (a : SAcc) : Strand :=
  if st.handler && !a.inHandler then { st with sresume := a.pc, sfrom := a.pc, loops := a.loops, lbS := a.lbuf }
  else { st with pc := { st.pc with s := a.pc }, loops := a.loops, lbS := a.lbuf }

/-- R109, R114, R324: an access that cannot be performed raises its trap where S stands at it; a halted strand, or one whose handler
has begun meanwhile, meets it again when it resumes. One whose slots have stopped but that is not yet halted has the trap raised, and may halt with
it pending (DESIGN CHOICE, log: R324 speaks of after the halt). -/
def State.accTrap (s : State) (c : Fin 192) (st : Strand) (a : SAcc) (cause : Cause) : State :=
  let st1 := ({ st with accs := st.accs.filter fun o => o.id != a.id }).rewind a
  if s.isHalted st.sid || st.trapAt.isSome || st.handler != a.inHandler then s.putStrand st1
  else s.raiseTrap c st1 .s cause a.dev

/-- R63, R231, R324: an access has its response: a load writes its register, which a word may read from the next cycle on; the image of a
halted strand takes the value at once. -/
def State.accDone (s : State) (c : Fin 192) (st : Strand) (a : SAcc) (v : W64) (bad : Bool) : State :=
  let st1 := { st with accs := st.accs.filter fun o => o.id != a.id }
  match a.dest with
  | some d => s.putStrand (if s.isHalted st.sid then st1.xput d v bad else st1.xlater (s.cyc c + 1) d v bad true)
  | none => s.putStrand st1

/-- R317, R368: does an access reach a yard window whose port gives the gated response, or a peer that is out of reach or refuses it. -/
def State.accGated (s : State) (st : Strand) (a : SAcc) : Bool :=
  s.peerGated a.addr || match a.slot, s.launch? st.launch with
  | some k, some l => s.slotGated l k
  | some _, none => true
  | none, _ => false

/-- A load's value from memory. -/
def SAcc.signed (a : SAcc) : Bool :=
  match a.op with
  | .load _ sg => sg
  | _ => true

/-- R221, R237: is an older access of the strand to bytes of this one yet to be performed; LDK reads through the constant path. -/
def Strand.olderMeets (st : Strand) (a : SAcc) : Bool :=
  st.accs.any fun o => decide (o.id < a.id) && o.meets a.addr a.size && match o.op with | .ldk _ => false | _ => true

/-- R109: may a load or store be performed now: not before an older one to its bytes; and one to a peer package that no port leads to any
more waits, since the fault of a pipelined access is found at issue (DESIGN CHOICE, log: what becomes of one on its way is left open). -/
def State.accWaits (s : State) (st : Strand) (a : SAcc) : Bool := isHbm a.addr || st.olderMeets a || s.peerCut a.addr

/-- ACCESS_RESPONSE (R109, R222, R324): a load or store outside HBM storage is performed and answered. Only one to another cluster's yard,
which blocks S, has its fault found here; that of a pipelined one was found at issue. -/
def execAccessResponse (c : Fin 192) (i : Nat) (s : State) : Out :=
  match (s.accsOf c)[i]? with
  | none => .next s
  | some (st, a) =>
    if s.accWaits st a then .next s
    else
      match a.op with
      | .load _ _ =>
        if a.blocking && s.accGated st a then .next (s.accTrap c st a .remoteGated)
        else
          let (v, bad) := loadValue s.mem a.tag a.addr a.size a.signed false
          .next (((s.countBytes st.part st.launch a.addr a.size).accDone c st a v bad).countXdie c (s.dieOf c a.addr) a.size)
      | .store w =>
        if a.blocking && s.accGated st a then .next (s.accTrap c st a .remoteGated)
        else .next (((s.countBytes st.part st.launch a.addr a.size).landFar w).accDone c st a 0 false)
      | _ => .next s

/-- ATOMIC_RESPONSE (R111, R112, R114, R324): an atomic is performed at its target and answered; one to HBM storage has been
performed in its slot, and one to a yard unit that a write of this cycle has reached waits for the next (R240). -/
def execAtomicResponse (c : Fin 192) (s : State) : Out :=
  match (s.accsOf c).find? fun p => match p.2.op with | .amo _ _ _ => true | _ => false with
  | none => .next s
  | some (st, a) =>
    match a.op with
    | .amo fn _ b =>
      if isHbm a.addr && !a.performed then .next s
      else if a.performed then
        match a.cause with
        | some e => .next (s.accTrap c st a (if e = 8 then .poison else .remoteGated))
        | none => .next ((s.accDone c st a a.old false).countXdie c (s.dieOf c a.addr) a.size)
      else if st.olderMeets a || s.unitBusy a.addr a.size then .next s
      else
        match s.perform st.sid a fn b (s.accGated st a) with
        | (s1, _, some e) => .next (s1.accTrap c st a (if e = 8 then .poison else .remoteGated))
        | (s1, old, none) => .next (((s1.countBytes st.part st.launch a.addr a.size).accDone c st a old false).countXdie c (s.dieOf c a.addr) a.size)
    | _ => .next s

/- The constant path. -/

/-- R110, R156: the LDK accesses that wait for a line take their values from it; a discarded fill serves those of its strand that issued
before the discard (R118, R324). -/
def State.serveLdk (s : State) (c : Fin 192) (f : KFill) (l : KLine) : State :=
  (s.accsOf c).foldl (fun s p =>
    match p.2.op with
    | .ldk _ =>
      if lineOf p.2.addr = l.line && p.1.sid == f.sid && (match f.upto with | none => true | some n => decide (p.2.id < n)) then
        match (s.accStrands c).find? fun st => st.sid == p.1.sid with
        | some st =>
          let (v, bad) := klineValue l p.2.addr p.2.size
          s.accDone c st p.2 v bad
        | none => s
      else s
    | _ => s) s

/-- R243: a line taken into the constant path, which holds 1,024 of 64 bytes; the oldest leaves it (DESIGN CHOICE, log: R156 names no
order). -/
def Core.holdLine (k : Core) (l : KLine) : List KLine := (l :: k.kcache.filter fun o => o.line != l.line).take 1024

/-- R238, R243: does a fill wait for one of the core that was asked for before: of the same line, or of a line outside HBM storage. -/
def Core.fillWaits (k : Core) (f : KFill) : Bool :=
  k.kfills.any fun o => decide (o.id < f.id) && (o.line == f.line || (o.data.isNone && !o.disc && !isHbm (64 * o.line)))

/-- R118, R237: has the strand that asked for a line an access to it that issued before and is yet to be performed. -/
def State.fillBehind (s : State) (f : KFill) : Bool :=
  match s.findSid f.sid with
  | none => false
  | some st => st.accs.any fun o => decide (o.id < f.since) && o.meets (64 * f.line) 64 && match o.op with | .ldk _ => false | _ => true

/-- CONST_FILL (R110, R118, R156, R243): a line of the constant path is filled, outside HBM storage after the strand's own earlier accesses to
it. Lines outside HBM storage are read in the order in which they
were asked for, those of HBM storage by their slots; a line of a peer package that no port leads to waits (DESIGN CHOICE, log). -/
def execConstFill (c : Fin 192) (i : Nat) (s : State) : Out :=
  match (s.cores[c].kfills)[i]? with
  | none => .next s
  | some f =>
    let a := 64 * f.line
    let k := s.cores[c]
    let fill (l : KLine) : Out :=
      let s1 := s.setCore c { k with
        kfills := k.kfills.filter fun o => o.id != f.id,
        kcache := if f.upto.isNone && f.keep then k.holdLine l else k.kcache }
      .next (if isHbm a then s1.serveLdk c f l
             else ((s1.serveLdk c f l).countBytes (s.partOn c) (s.launchOn c) a 64).countXdie c (s.dieOf c a) 64)
    if k.fillWaits f then .next s
    else match f.data with
    | some (bs, bad) => fill { line := f.line, data := bs, bad := bad }
    | none =>
      if f.disc then fill { line := f.line, data := List.replicate 64 0, bad := false }
      else if isHbm a || s.peerCut a || s.fillBehind f then .next s
      else fill { line := f.line, data := s.mem.reads f.tag a 64, bad := s.mem.bad f.line }

/-- R118, R243: the constant path of a core is discarded; a fill under way serves the accesses of its strand that have issued and no later
one. -/
def State.discardK (s : State) (c : Fin 192) : State :=
  let k := s.cores[c]
  s.setCore c { k with kcache := [], kfills := k.kfills.map fun f =>
    { f with upto := some (f.upto.getD (((s.findSid f.sid).map Strand.nextAid).getD 0)) } }

/-- CONSTANT_PATH_DISCARD (R118): S may go on. -/
def execConstantPathDiscard (c : Fin 192) (s : State) : Out :=
  strandEvent c (fun s st =>
    match st.fk with
    | none => s
    | some 0 => s
    | some _ => (s.setSt c { st with fk := some 0 }).discardK c) s

/- Copies. -/

/-- COPY_BYTES_LAND (R194, R199): a piece of a copy lands where neither its read nor its write waits for a calendar slot. -/
def execCopyBytesLand (c : Fin 192) (i j : Nat) (s : State) : Out :=
  strandEvent c (fun s st =>
    match st.copies[i]? with
    | none => s
    | some k =>
      match k.segs[j]? with
      | none => s
      | some g =>
        if g.toHbm || k.kind = 6 then s
        else
          match g.st with
          | .ready d bad => (s.countBytes st.part st.launch (g.dst.getD 0) g.len).landSeg c st k j g d bad
          | .idle =>
            match g.src with
            | some a =>
              if isHbm a then s
              else
                let (d, bad) := readBytes s.mem st s.free g.srcTag a g.len k.mark
                ((({ s with free := s.free + 1 }.countBytes st.part st.launch a g.len).countBytes st.part st.launch (g.dst.getD 0) g.len).landSeg c st k j g d bad).countXdie c (s.dieOf c a) g.len
            | none => s
          | _ => s) s

/-- R206: have the copies and the notes that H issued on an ANOTE's token before it landed. -/
def Strand.noteReady (st : Strand) (k : Copy) : Bool := !st.copies.any fun o => decide (o.cid < k.cid) && o.tok == k.tok

/-- ANOTE_WRITE (R206, R108): the note is written once its token's earlier copies have landed and its earlier notes are written; a note in
HBM storage asks for a calendar slot (R230). One that met a set COND when its copies had landed is there no more (R199). -/
def execAnoteWrite (c : Fin 192) (i : Nat) (s : State) : Out :=
  strandEvent c (fun s st =>
    match st.copies[i]? with
    | none => s
    | some k =>
      match k.segs.head? with
      | none => s
      | some g =>
        if k.kind != 6 || !st.noteReady k || !g.st.isReady then s
        else if g.toHbm then
          if (s.cores[c].requested st.sid k.cid).isEmpty then
            (s.setSt c st).requestAll c (ReqWho.copyWrite st.sid k.cid) [{ blk := blockOf (g.dst.getD 0), low := g.dstA.toNat, len := 8, segs := [0] }]
          else s
        else
          let s1 := s.setSt c { st with copies := st.copies.filter fun o => o.cid != k.cid }
          if s.yardGated (s.yardOfCore c) st.launch (g.dst.getD 0) then s1.setSt c
              ({ st with copies := st.copies.filter fun o => o.cid != k.cid }.setCond k.tok 2 g.dstA)
          else if k.noteBad then s1.landFar (MWrite.mark [lineOf (g.dst.getD 0)])
          else s1.landFar { addr := g.dst.getD 0, data := g.data.1, marks := [], tag := g.dstTag }) s

/-- PRE_ISSUE_READ (R190): the pre-issue read of H completes. -/
def execPreIssueRead (c : Fin 192) (s : State) : Out :=
  strandEvent c (fun s st =>
    match st.pre with
    | none => s
    | some p => if s.cyc c < p.ready then s else s.setSt c { st with pre := some { p with ready := 0 } }) s

/- Traps. -/

/-- The cycle in which a trap is delivered: two cycles after it the handler begins (R338); a strand fault ends the launch in the next
(R341). -/
def TrapPend.due (t : TrapPend) : Nat := t.cyc + if t.fatal then 1 else 2

/-- HANDLER_ENTRY (R338, R341, R342): S begins the handler, and a failed chain that the trap tells of is no longer to be raised; a trap
raised with TRAPVEC zero ends the launch. -/
def execHandlerEntry (c : Fin 192) (s : State) : Out :=
  strandEvent c (fun s st =>
    match st.trapAt with
    | none => s
    | some t =>
      if s.cyc c < t.due then s
      else if t.fatal then ((s.setSt c { st with trapAt := none }).logFault st 0).endLaunch st.launch 3
      else s.setSt c ((st.served t.eng).enterHandler t.slot (s.cyc c))) s

/-- The cause of a word that is no instruction (R88). -/
def rejectCause : Reject → Cause
  | .illegal => .illegal
  | .reservedNonzero => .reservedNonzero

/-- WORD_NOT_INSTRUCTION (R12, R88): the slot that reaches the word raises the trap. -/
def execWordNotInstruction (why : Reject) (s : State) : Out :=
  issue s.cur.slot false false [] (fun _ _ _ => .trap (rejectCause why) 0) s

/-- The cause of a failed fetch (R51). -/
def fetchCause : FetchFault → Cause
  | .fieldMiss => .fieldMiss
  | .fieldPerm => .fieldPerm
  | .misalign => .misalign
  | .poison => .poison
  | .remoteGated => .remoteGated

/-- INSTRUCTION_FETCH (R51, R317): TRAPADDR is the PC. -/
def execInstructionFetch (why : FetchFault) (s : State) : Out :=
  issue s.cur.slot false false [] (fun s _ st => .trap (fetchCause why) (st.pc.get s.cur.slot)) s

/- Stall wires. -/

/-- STALL_HOLD_END (R299): the cycles of a stall-wire hold have passed, and the core issues and counts again. -/
def execStallHoldEnd (c : Fin 192) (s : State) : Out :=
  match s.cores[c].hold with
  | none => .next s
  | some (_, t) =>
    if s.clusters[clusterOf c].cyc ≤ t then .next s else .next (s.setCore c { s.cores[c] with hold := none })

/-- R299: cycles after the present one are held too, in union with a hold that stands. -/
def Core.holdFor (k : Core) (cyc n : Nat) : Core :=
  match k.hold with
  | some (f, t) => { k with hold := some (f, max t (cyc + n)) }
  | none => { k with hold := some (cyc, cyc + n) }

/-- R298, R299: the stall wires that a breach of a cluster raises: of the gangs of its fixed-timing strands in a furrow group, and of
each other fixed-timing strand on it alone. -/
def State.breachGangs (s : State) (q : Fin 48) : List (Nat × Bool × Nat × Fin 64 × Nat) :=
  ((s.cores.toList.zipIdx.filterMap fun k =>
    match k.1.strand with
    | some st => if k.2 / 4 = q.val && st.clkFixed then some (st.gang, st.clkFurrow, st.launch, st.part, k.2) else none
    | none => none).foldl (fun acc g => if g.2.1 && acc.any fun o => o.1 == g.1 then acc else acc ++ [g]) [])

/-- R302, R362: a stall-wire event: the partition's count rises, and the event waits for its log: its cause, the launch, the held
cycles or the freeze in ns. -/
def State.logStall (s : State) (p : Fin 64) (cause launch n : Nat) : State :=
  let s1 := s.logEvent p 4 (leBytes 2 cause ++ leBytes 2 launch ++ leBytes 4 0 ++ leBytes 8 n)
  { s1 with parts := s1.parts.set p { s1.parts[p] with pstall := s1.parts[p].pstall + 1 } }

/-- GUARD_BREACH (R297 to R299, R302): a breach of `n` stretched cycles, 1 to 4, on a fixed-timing cluster, no sooner than four unstretched
cycles after the last, holds each stall wire's cores for the cycles that follow; the stretched cycles fill those. -/
def execGuardBreach (q : Fin 48) (n : Nat) (s : State) : Out :=
  let x := s.clusters[q]
  if !x.fixed || n = 0 || 4 < n || x.stretch != 0 || x.calm != 0 then .next s
  else
    let f := (5 * n + 3) / 4
    .next ((s.breachGangs q).foldl (fun s g =>
      let cores := Vector.ofFn fun i : Fin 192 =>
        let k := s.cores[i]
        match k.strand with
        | some st =>
          if st.gang = g.1 && (g.2.1 || i.val = g.2.2.2.2) then k.holdFor (s.clusters[clusterOf i].cyc) f else k
        | none => k
      ({ s with cores := cores }).logStall g.2.2.2.1 0 g.2.2.1 f) { s with clusters := s.clusters.set q { x with stretch := f } })

/-- DROOP_STRETCH (R297): a run of one to four stretched cycles on an elastic cluster; a new run begins no sooner than four
unstretched cycles after the last. -/
def execDroopStretch (q : Fin 48) (n : Nat) (s : State) : Out :=
  let k := s.clusters[q]
  if k.fixed || n = 0 || 4 < n || k.stretch != 0 || k.calm != 0 then .next s
  else .next { s with clusters := s.clusters.set q { k with stretch := n } }

end Sys2Proof.Machine
end

