-- ==== Sys2Proof/Machine/Errors.lean ====
section
/-! DEFINITION. Errors (R390 to R405): the syndrome registers, what an error found in a store does, scrubs and write-backs, the
retirement of banks (R376, R377, R405), row mapping (R370) and row counters (R374). -/

namespace Sys2Proof.Machine

open Sys2Proof

/- Rows (R370, R376). -/

def spSpare (r : W32) : Nat := (r.extractLsb' 18 6).toNat
def spOld (r : W32) : Nat := (r.extractLsb' 24 6).toNat
def spUsed (r : W32) : Bool := r.getLsbD 30
def spActive (r : W32) : Bool := r.getLsbD 31
def spHead (r : W32) : Nat := (r.extractLsb' 0 13).toNat

/-- R376: a sparing register from its fields. -/
def spMake (active used : Bool) (old spare head : Nat) : W32 :=
  BitVec.ofNat 32 (active.toNat * 2 ^ 31 + used.toNat * 2 ^ 30 + old * 2 ^ 24 + spare * 2 ^ 18 + head)

/-- R370, R377: the physical bank that serves a row of a logical bank: in ascending order those that are not the fallow one, but SPARE for the
rows of OLD below HEADLAND, which is 6,144 once the copy is over and 0 after a reset (R376). -/
def bankOf (r : W32) (lbank row : Nat) : Nat :=
  let b := if lbank < spSpare r then lbank else lbank + 1
  if spUsed r && b = spOld r && decide (row < spHead r) then spSpare r else b

/-- R370: pseudo-channel, logical bank and row of a block. -/
def blockPlace (blk : Nat) : Nat × Nat × Nat := (blk % 64, blk / 64 / 6144, blk / 64 % 6144)

/-- A row of a stack as a number. -/
def rowKey (pc bank row : Nat) : Nat := (pc * 64 + bank) * 6144 + row

/-- The row that serves a block of a stack. -/
def Upkeep.rowOf (u : Upkeep) (blk : Nat) : Nat :=
  let (pc, l, row) := blockPlace blk
  rowKey pc (bankOf ((u.sparing[pc % 64]'(Nat.mod_lt _ (by omega)))) l row) row

/-- R374: the row's counter at a precharge; `bad` where its parity is wrong. -/
def Upkeep.touch (u : Upkeep) (key : Nat) (bad : Bool) : Upkeep :=
  let c := SMap.get 0 u.rows key
  if !bad && c.toNat + 1 < 768 then { u with rows := SMap.set 0 u.rows key (c + 1) }
  else { u with rows := SMap.set 0 u.rows key 1023, queue := if u.queue.contains key then u.queue else u.queue ++ [key] }

/-- R373: the beats of an access on a channel's bus; a window ends with its 2^20th beat. -/
def BusCount.count (b : BusCount) (x : Nat × Nat × Nat) : BusCount :=
  if 2 ^ 20 ≤ b.beats + x.1 then { beats := 0, used := 0, other := 0, lastUsed := b.used + x.2.1, lastOther := b.other + x.2.2 }
  else { b with beats := b.beats + x.1, used := b.used + x.2.1, other := b.other + x.2.2 }

/-- R373: an access to a row has used its channel's bus. -/
def Upkeep.drive (u : Upkeep) (stack key tick : Nat) : Upkeep :=
  let ch : Fin 32 := ⟨key / 6144 / 64 / 2 % 32, Nat.mod_lt _ (by omega)⟩
  { u with bus := u.bus.set ch (u.bus[ch].count (Config.busActivity stack ch.val tick)) }

/-- R374: a row counter's parity found wrong is logged in the stack's registers. -/
def Syndrome.parity (y : Syndrome) (bad : Bool) : Syndrome :=
  { y with rowpar := if bad && y.rowpar != BitVec.allOnes 64 then y.rowpar + 1 else y.rowpar }

/-- R373, R374: a request or other access that opened a row closes it. -/
def State.closeRow (s : State) (k : Fin 16) (key : Nat) : State :=
  let bad := Config.rowParityBad k.val key s.tick
  { s with
    upkeep := s.upkeep.set k ((s.upkeep[k].touch key bad).drive k.val key s.tick),
    syn := s.syn.set (stackDie k) (s.syn[stackDie k].parity bad) }

/-- R374: gleaned accesses to a range of HBM storage close the rows that they opened. -/
def State.gleaned (s : State) (a n : Nat) : State :=
  if !isHbm a || n = 0 then s
  else
    let k : Fin 16 := ⟨stackOf a % 16, Nat.mod_lt _ (by omega)⟩
    (List.range ((a + n - 1) / 2048 + 1 - a / 2048)).foldl (fun s i => s.closeRow k ((s.upkeep[k]).rowOf ((a / 2048 + i) % 2 ^ 25))) s

/- Errors found in a store. -/

/-- R405: the rows of a stack's die in which errors were found: uncorrectable ones, correctable ones with their times. -/
def Syndrome.rowError (y : Syndrome) (row now : Nat) (bad : Bool) : Syndrome :=
  if bad then { y with badRows := if y.badRows.contains row then y.badRows else row :: y.badRows }
  else { y with corRows := (row, now) :: y.corRows.filter fun r => r.1 != row }

/-- A row named across the two stacks of a die. -/
def dieRow (k : Fin 16) (key : Nat) : Nat := k.val % 2 * 2 ^ 26 + key

/-- R372, R378: the writes of a line that a stack's controller has accepted and not yet performed. -/
def Stack.ahead (q : Stack) (line : Nat) : List HWrite := q.writes.filter (HWrite.touches (64 * line) 64)

/-- The part of an accepted write that lies in a line. -/
def HWrite.within (line : Nat) (h : HWrite) : MWrite :=
  { h.w with marks := h.w.marks.filter fun l => l == line,
             data := h.w.data.zipIdx.map fun b => if lineOf (h.w.addr + b.2) = line then b.1 else none }

/-- An accepted write of which the part in a line is no longer to come. -/
def HWrite.without (line : Nat) (h : HWrite) : HWrite :=
  let x := h.spare (64 * line) 64
  { x with w := { x.w with marks := x.w.marks.filter fun l => l != line } }

/-- R245, R372, R378: a line found in error is marked poisoned. Where maintenance finds it the mark comes after the writes accepted before,
whose bytes the poison hides, and before every later access. -/
def State.markLine (s : State) (k : Fin 16) (line : Nat) (late : Bool) : State :=
  let q := s.hbm[k]
  if late && !(q.ahead line).isEmpty then
    (({ s with mem := s.mem.over ((q.ahead line).map (HWrite.within line)) }).setStack k
      { q with writes := q.writes.map (HWrite.without line) }).commit (MWrite.mark [line])
  else s.commit (MWrite.mark [line])

/-- R391, R392, R403: an error found in a line of a stack, by an access or (`late`) by maintenance; reading a poison code word is not an
error. -/
def State.hbmError (s : State) (k : Fin 16) (line : Nat) (late bad : Bool) : State :=
  if (if late then s.mem.over ((s.hbm[k].ahead line).map HWrite.w) else s.mem).bad line then s
  else
    let off := 64 * line % 2 ^ 36
    let key := (s.upkeep[k]).rowOf (off / 2048)
    let s1 := s.countError (stackDie k) bad (64 * line) (k.val * 64 + off / 2048 % 64) 1 1
    let s2 := s1.setSyn (stackDie k) ((s1.syn[stackDie k]).rowError (dieRow k key) (dtime s.tick) bad)
    if bad then s2.markLine k line late else { s2 with wback := s2.wback ++ [line] }

/-- The errors that an access to a 2 KiB block finds: lines of the block, and whether uncorrectable. -/
def State.blockErrors (s : State) (k : Fin 16) (blk : Nat) (late : Bool) (errs : List (Nat × Bool)) : State :=
  errs.foldl (fun s e => s.hbmError k (hbmAddr k.val (2048 * blk) / 64 + e.1 % 32) late e.2) s

/-- R392: the errors that gleaned reads of a stack find, by line. -/
def State.gleanErrors (s : State) (k : Fin 16) (errs : List (Nat × Bool)) : State :=
  errs.foldl (fun s e => s.hbmError k (hbmAddr k.val 0 / 64 + e.1 % (3 * 2 ^ 28)) false e.2) s

/-- R390, R409: the typed-buffer state in a core: of the strand on it, of one halted there, or as the slot that holds the cluster keeps
it; and that state changed. -/
def State.tbOn (s : State) (c : Fin 192) : Option TBuf :=
  match s.cores[c].strand, s.halted.find? fun h => h.core == c && h.place == .core c.val with
  | some st, _ => some st.tb
  | none, some h => some h.st.tb
  | none, none =>
    (s.clusters[clusterOf c].holder).bind fun x => (s.launch? x.1).bind fun l => (l.slots[x.2]?).bind fun sl =>
      sl.tbs[c.val % 4]'(Nat.mod_lt _ (by omega))

def State.onTb (s : State) (c : Fin 192) (f : TBuf → TBuf) : State :=
  match s.cores[c].strand, s.halted.find? fun h => h.core == c && h.place == .core c.val with
  | some st, _ => s.setSt c { st with tb := f st.tb }
  | none, some h => { s with halted := s.halted.map fun o => if o.st.sid = h.st.sid then { o with st := { o.st with tb := f o.st.tb } } else o }
  | none, none =>
    match (s.clusters[clusterOf c].holder).bind fun x => s.launch? x.1 with
    | some l => s.setLaunch (l.keepTb c ((s.tbOn c).map f))
    | none => s

/-- R393: the strand that a core holds: one that stands on it, or one halted there whose context has not left it. -/
def State.ctxOn (s : State) (c : Fin 192) : Option Strand :=
  match s.cores[c].strand, s.halted.find? fun h => h.core == c && h.place == .core c.val with
  | some st, _ => some st
  | none, some h => some h.st
  | none, none => none

/-- R341, R393: an error in a core's control state is a strand fault: the trap record holds POISON, the slot that owns the state, its
resumption point and no address. -/
def State.stateFault (s : State) (c : Fin 192) (sl : Slot) : State :=
  match s.ctxOn c with
  | none => s
  | some st =>
    let st1 := if st.handler then st else st.record sl .poison (st.pc.get sl) 0
    ((s.putStrand st1).logFault st1 (if st.handler then Cause.poison.code.toNat else 0)).endLaunch st.launch 3

def slotOfNat (n : Nat) : Slot := match n % 4 with | 0 => .s | 1 => .v | 2 => .m | _ => .h

/-- A row of a register poisoned. -/
def poisonRow (v : Vector (BitVec 16) 16) (r i : Nat) : Vector (BitVec 16) 16 :=
  Vector.ofFn fun j : Fin 16 => if j.val = r then v[j] ||| (1#16 <<< (i % 16)) else v[j]

/-- The line of W, A or the yard that an index of unit 3, 4 or 6 names. -/
def State.sramLine (s : State) (unit : BitVec 4) (c : Fin 192) (i : Nat) : Option Nat :=
  match unit.toNat with
  | 3 => (s.tbOn c).map fun tb => wbufAddr tb.id 0 / 64 + i % 2 ^ 16
  | 4 => (s.tbOn c).map fun tb => abufAddr tb.id 0 / 64 + i % 2 ^ 16
  | 6 => some (yardAddr (s.yardOfCore c) 0 / 64 + i % (yardLimit / 64))
  | _ => none

/-- R212, R390: an uncorrectable error in the data that an engine holds for a channel: the source line that it came from counts as poisoned
for the record's next unit. -/
def State.hurtChan (s : State) (i : Nat) : State :=
  let c : Fin 192 := ⟨i % 192, Nat.mod_lt _ (by omega)⟩
  let k := s.chans[c]
  match k.recs.findIdx? fun r => r.status.isNone with
  | some j => { s with chans := s.chans.set c { k with recs := k.recs.modify j fun r => { r with hurt := true } } }
  | none => s

/-- R259, R390: an uncorrectable error in the data of quarry logic: its next packet meets a poisoned line. -/
def State.hurtQuarry (s : State) (i : Nat) : State :=
  let k : Fin 16 := ⟨i % 16, Nat.mod_lt _ (by omega)⟩
  { s with quarry := s.quarry.set k { s.quarry[k] with hurt := true } }

/-- R405, R407: a core is marked for replacement: CPEND and CPIDX are set where the fallow core is not in service, and the core's
cluster is withheld from placement and its work pre-empted; its slot leaves it. -/
def State.markCore (s : State) (c : Fin 192) : State :=
  let d := coreDie c
  let y := s.syn[d]
  let f := (y.repair.extractLsb' 5 5).toNat
  let l := if c.val % 24 < f then c.val % 24 else c.val % 24 + 1
  let i : W64 := if y.repair.getLsbD 21 && l == (y.repair.extractLsb' 16 5).toNat then BitVec.ofNat 64 f else BitVec.ofNat 64 l
  let late := y.repair.getLsbD 21 || (y.repair.getLsbD 15 && (y.repair >>> 10) &&& 0x1F#64 != i)
  let r := if y.repair.getLsbD 21 || y.repair.getLsbD 15 then y.repair else (y.repair &&& ~~~(0x1F#64 <<< 10)) ||| (i <<< 10) ||| (1#64 <<< 15)
  let q := clusterOf c
  let s1 := { s.setSyn d { y with repair := r } with clusters := s.clusters.set q { s.clusters[q] with withheld := true, dead := s.clusters[q].dead || late } }
  ((s1.strandsOn q.val).foldl (fun s st => s.preemptGang st.gang false) s1).release q.val

/-- R405: 24 hours, and one millisecond, in ns. -/
def dayNs : Nat := 86400000000000
def msNs : Nat := 1000000

/-- A count of eight bits that saturates, in a word from bit `at_` on. -/
def satField (w : W64) (at_ : Nat) : W64 := if w.extractLsb' at_ 8 = 0xFF#8 then w else w + (1#64 <<< at_)

/-- R401, R405: an error in a row or column of an SRAM: its fourth marks the part for repair at the next reset, and so does one that cannot be
corrected. Is the part now marked? -/
def Syndrome.sramPart (y : Syndrome) (part : Nat) (bad : Bool) : Syndrome × Bool :=
  let n := ((y.sramRows.find? fun r => r.1 == part).map Prod.snd).getD 0
  let m := if bad then 4 else n + 1
  ({ y with sramRows := (part, min m 4) :: y.sramRows.filter fun r => r.1 != part,
            repair := if n < 4 && 4 ≤ m then satField y.repair 48 else y.repair }, decide (4 ≤ m))

/-- R405: an error in a bit of an SRAM counts in its row and, unless the row is marked, in its column. -/
def Syndrome.sramError (y : Syndrome) (row col : Nat) (bad : Bool) : Syndrome :=
  let (y1, marked) := y.sramPart (2 * row) bad
  if marked then y1 else (y1.sramPart (2 * col + 1) false).1

/-- R405: a correctable error in a core's registers or typed buffers; and whether the core has had 256 of them within 24 hours. -/
def Syndrome.coreError (y : Syndrome) (c now : Nat) : Syndrome × Bool :=
  let errs := (c, now) :: y.coreErrs.filter fun e => decide (now < e.2 + dayNs)
  ({ y with coreErrs := errs }, decide (256 ≤ (errs.filter fun e => e.1 == c).length))

/-- R401, R404, R405: a beat retried through a TSV; more than 1,000 within 1 ms mark it for replacement at the next reset. Is there no spare left
for it? -/
def Syndrome.beatRetry (y : Syndrome) (tsv now : Nat) : Syndrome × Bool :=
  let rs := (tsv, now) :: y.retries.filter fun e => decide (now < e.2 + msNs)
  if 1000 < (rs.filter fun e => e.1 == tsv).length then
    ({ y with retries := rs.filter fun e => e.1 != tsv, repair := satField y.repair 24 }, (y.repair.extractLsb' 32 8).ule (y.repair.extractLsb' 24 8))
  else ({ y with retries := rs }, false)

/-- R390, R392: does an error in a unit meet a line that already holds a poison code word. -/
def State.sramWasBad (s : State) (unit : BitVec 4) (c : Fin 192) (i : Nat) : Bool := (s.sramLine unit c i).any s.mem.bad

/-- ECC_WRITEBACK (R391): a corrected line is written back; no value changes. -/
def execEccWriteback (line : Nat) (s : State) : Out := .next { s with wback := s.wback.erase line }

/- Bank retirement. -/

/-- R405: the rows of a bank in which errors call for its retirement. -/
def State.bankWorn (s : State) (k : Fin 16) (pc bank : Nat) : Bool :=
  let y := s.syn[stackDie k]
  let inBank (r : Nat) : Bool := decide (r / 6144 = dieRow k (rowKey pc bank 0) / 6144)
  let bad := (y.badRows.filter inBank).length
  let cor := (y.corRows.filter fun r => inBank r.1 && decide (dtime s.tick < r.2 + dayNs)).length
  decide (2 ≤ bad) || decide (32 ≤ cor)

/-- R376, R377, R405: may the retirement of a bank start: it is worn, its pseudo-channel has its fallow bank, and no other copy runs on the stack. -/
def State.mayRetire (s : State) (k : Fin 16) (pc bank : Fin 64) : Bool :=
  let u := s.upkeep[k]
  let r := u.sparing[pc]
  s.dieUp (stackDie k) && !spUsed r && spSpare r != bank.val && !(u.sparing.toList.any spActive) && s.bankWorn k pc.val bank.val

/-- R405: the banks of a stack in which errors have been found. -/
def State.errorBanks (s : State) (k : Fin 16) : List (Fin 64 × Fin 64) :=
  let y := s.syn[stackDie k]
  let rows := (y.badRows ++ y.corRows.map Prod.fst).filter fun r => r / 2 ^ 26 == k.val % 2
  (rows.map fun r =>
    let b := r % 2 ^ 26 / 6144
    ((⟨b / 64 % 64, Nat.mod_lt _ (by omega)⟩, ⟨b % 64, Nat.mod_lt _ (by omega)⟩) : Fin 64 × Fin 64)).dedup

/-- BANK_RETIRE (R376, R377, R405): the retirement of a worn bank starts, one at a time on a stack; a pseudo-channel whose fallow bank
is in use cannot retire another. -/
def execBankRetire (k : Fin 16) (pc bank : Fin 64) (s : State) : Out :=
  let u := s.upkeep[k]
  if !s.mayRetire k pc bank then .next s
  else .next { s with upkeep := s.upkeep.set k { u with sparing := u.sparing.set pc (spMake true true bank.val (spSpare u.sparing[pc]) 0) } }

/- Reading and clearing the registers. -/

/-- R399. -/
def Syndrome.stat (y : Syndrome) : W64 :=
  (y.fatal.toNat * 2 ^ 63 + y.fcause.toNat * 2 ^ 56 + y.ovf.toNat * 2 + y.uev.toNat : Nat)

/-- R398: a register of a die's set; offsets that name none read as zero. -/
def State.synReg (s : State) (d : Fin 11) (off : Nat) : W64 :=
  let y := s.syn[d]
  let sp (k pc : Nat) : W64 :=
    match s.upkeep[k]? with
    | some u => ((u.sparing[pc]?).getD 0).zeroExtend 64
    | none => 0
  if off = 0 then y.stat
  else if off = 8 then y.first
  else if off = 0x10 then y.finfo
  else if off = 0x18 then y.last
  else if off = 0x20 then y.linfo
  else if off = 0x28 then y.ucnt ++ y.ccnt
  else if off = 0x30 then y.repair
  else if d.val < 3 then
    let lo := 0x100 + 0x40 * (d.val - 1)
    if d.val != 0 && lo ≤ off && off < lo + 0x40 then (y.ppr[(off - lo) / 8 % 8]'(Nat.mod_lt _ (by omega))).zeroExtend 64 else 0
  else if off = 0x38 then y.rowpar
  else if 0x100 ≤ off && off < 0x300 then sp (2 * (d.val - 3)) ((off - 0x100) / 8)
  else if 0x300 ≤ off && off < 0x500 then sp (2 * (d.val - 3) + 1) ((off - 0x300) / 8)
  else 0

/-- R402: an answer through a function's DOE mailbox. -/
def State.answer (s : State) (m : HostMsg) : State := { s with hostOut := s.hostOut ++ [m] }

/-- R402: the die of a request, and whether its fields are legal. -/
def synDie (dw0 dw1 : BitVec 32) (op : Nat) : Option (Fin 11) :=
  let d := (dw0.extractLsb' 0 4).toNat
  let n := (dw1.extractLsb' 10 10).toNat
  if h : d < 11 then
    if (dw0.extractLsb' 4 2).toNat = op && (op = 1 || (decide (1 ≤ n) && decide (n ≤ 128))) then some ⟨d, h⟩ else none
  else none

/-- SYNDROME_READ (R402): the values, 8 bytes each, in ascending offset; a virtual function is answered with the DOE error. -/
def execSyndromeRead (fn : Fin 64) (dw0 dw1 : BitVec 32) (s : State) : Out :=
  if !s.answers 0 then .next s
  else if fn.val != 0 then .next (s.answer (.doeError fn.val))
  else
    match synDie dw0 dw1 0 with
    | none => .next (s.answer (.doeError 0))
    | some d =>
      let o := (dw1.extractLsb' 0 10).toNat
      .next (s.answer (.doe 0 1 ((List.range (dw1.extractLsb' 10 10).toNat).flatMap fun i => leBytes 8 (s.synReg d (8 * (o + i))).toNat)))

/-- R402: counts and records cleared; repair fields stay. -/
def Syndrome.clear (y : Syndrome) : Syndrome :=
  { y with ucnt := 0, ccnt := 0, first := 0, last := 0, finfo := 0, linfo := 0, uev := false, ovf := false, fatal := false }

/-- SYNDROME_CLEAR (R402). -/
def execSyndromeClear (fn : Fin 64) (dw0 dw1 : BitVec 32) (s : State) : Out :=
  if !s.answers 0 then .next s
  else if fn.val != 0 then .next (s.answer (.doeError fn.val))
  else
    match synDie dw0 dw1 1 with
    | none => .next (s.answer (.doeError 0))
    | some d => .next ((s.setSyn d (s.syn[d]).clear).answer (.doe 0 1 []))

end Sys2Proof.Machine
end

