-- ==== Sys2Proof/Machine/Calendar.lean ====
section
/-! DEFINITION. The memory calendar (R229 to R232): requests entering their queues, slots that start, data that lands, writes that
are performed, and the maintenance slots (R371 to R378). -/

namespace Sys2Proof.Machine

open Sys2Proof

/-- R230: the request of a core waiting longest to enter the queue of a stack enters it when an entry is free. -/
def Core.enqueue (k : Core) (q : Cluster) (core now stack : Nat) : Core :=
  match k.reqs.findIdx? fun r => r.stack == stack && r.bound.isNone with
  | none => k
  | some i =>
    if 16 ≤ k.queued stack || !(k.reqs[i]?).all k.reqReady then k
    else { k with reqs := k.reqs.modify i fun r => { r with bound := some (bindTick q core now (k.boundOn stack)), reach := q.cyc + 12 } }

/-- REQUEST_ENQUEUE (R230). -/
def execRequestEnqueue (c : Fin 192) (k : Fin 16) (s : State) : Out :=
  .next (s.setCore c ((s.cores[c]).enqueue s.clusters[clusterOf c] c.val s.tick k.val))

/- A slot that starts. -/

/-- A read is under way from a slot (R231): its last byte lands 200 ticks on for the core's own die, 240 ticks on otherwise. -/
def State.addRead (s : State) (c : Fin 192) (k : Fin 16) (who : ReqWho) (data : List Byte) (bad : List Nat) : State :=
  let due := s.tick + (if k.val / 2 = c.val / 24 then 200 else 240)
  let q := s.hbm[k]
  s.setStack k { q with reads := q.reads ++ [{ due := due, core := c.val, who := who, data := data, bad := bad }] }

/-- A write is accepted in a slot (R231): performed for other parties 120 ticks on. -/
def State.addWrite (s : State) (c : Fin 192) (k : Fin 16) (sid path : Nat) (who : ReqWho) (w : MWrite) : State :=
  let q := s.hbm[k]
  s.setStack k { q with writes := q.writes ++ [{ due := s.tick + 120, sid := sid, path := path, who := who, core := c.val, w := w }] }

/-- The unit of an S access passes to the controller (R230, R231): a load is read, a store accepted, an atomic performed; a SOW or
JOIN may then act on its record (R125). -/
def State.passAcc (s : State) (c : Fin 192) (k : Fin 16) (sid aid : Nat) : State :=
  match s.findSid sid with
  | none => s
  | some st =>
    match st.accs.find? fun a => a.id == aid with
    | none => if st.recReq = some (aid, false) then s.putStrand { st with recReq := some (aid, true) } else s
    | some a =>
      match a.op with
      | .store w => s.addWrite c k sid 0 (.acc sid aid) w
      | .amo fn _ b =>
        let (s1, old, cause) := s.perform sid a fn b false
        match s1.findSid sid with
        | some st1 => s1.putStrand { st1 with accs := st1.accs.map fun o =>
            if o.id = aid then { o with performed := true, old := old, cause := cause } else o }
        | none => s1
      | _ =>
        let m := s.view sid 0
        s.addRead c k (.acc sid aid) (m.reads a.tag a.addr a.size) (if m.bad (lineOf a.addr) then [0] else [])

/-- The bytes that the named pieces of a copy read, one after the other, and the offsets of poisoned ones. -/
def readSegs (m : Mem) (k : Copy) (segs : List Nat) : List Byte × List Nat :=
  segs.foldl (fun acc j =>
    match k.segs[j]? with
    | some g =>
      let a := g.src.getD 0
      (acc.1 ++ m.reads g.srcTag a g.len,
       acc.2 ++ (if m.anyBad a g.len then ((List.range g.len).filter fun i => m.bad (lineOf (a + i))).map (acc.1.length + ·) else []))
    | none => acc) ([], [])

/-- A block of a copy is read (R230). -/
def State.passRead (s : State) (c : Fin 192) (k : Fin 16) (sid cid : Nat) (segs : List Nat) : State :=
  match (s.strand? c).filter fun st => st.sid == sid with
  | none => s
  | some st =>
    match st.copy? cid with
    | none => s
    | some cp =>
      let (bs, bad) := readSegs (s.view sid 3) cp segs
      (s.setSt c (st.setCopy (segs.foldl (fun cp j => cp.setSeg j .reading) cp))).addRead c k (.copyRead sid cid segs) bs bad

/-- A block of a copy is written (R230, R245): its pieces leave their token with the last of what it writes. -/
def State.passWrite (s : State) (c : Fin 192) (k : Fin 16) (sid cid : Nat) (segs : List Nat) : State :=
  match (s.strand? c).filter fun st => st.sid == sid with
  | none => s
  | some st =>
    match st.copy? cid with
    | none => s
    | some cp =>
      let s1 := s.setSt c (st.setCopy (segs.foldl (fun cp j => cp.setSeg j .writing) cp))
      let ws := oneWrite (segs.filterMap fun j => (cp.segs[j]?).map fun g =>
        if cp.kind = 6 && cp.noteBad then MWrite.mark [lineOf (g.dst.getD 0)] else cp.writeOf j g g.data.1 g.data.2)
      ws.zipIdx.foldl (fun s w => s.addWrite c k sid 3 (.copyWrite sid cid (if w.2 + 1 = ws.length then segs else [])) w.1) s1

/-- R118, R156, R230: a constant-path line is read, as an ordinary load of the strand that asked would read it. -/
def State.passFill (s : State) (c : Fin 192) (k : Fin 16) (id : Nat) : State :=
  match (s.cores[c].kfills).find? fun f => f.id == id with
  | none => s
  | some f =>
    let m := s.view f.sid 0
    s.addRead c k (.fill id) (m.reads f.tag (64 * f.line) 64) (if m.bad f.line then [0] else [])

/-- R246: has a stack's arrival queue room for one more slab. -/
def Quarry.room (q : Quarry) : Bool := decide (q.transit.length + q.arrived.length < 64)

/-- R215, R246: the slot of a slab comes: it may leave now, or it waits for a later owned slot. -/
def State.passSlab (s : State) (c : Fin 192) (k : Fin 16) : State :=
  let kc := s.cores[c]
  if (s.quarry[k]).room then
    match kc.slabs.findIdx? fun b => b.stack == k.val && !b.go with
    | some i => s.setCore c { kc with slabs := kc.slabs.modify i fun b => { b with go := true } }
    | none => s
  else
    let b := bindTick s.clusters[clusterOf c] c.val (s.tick + 1) (kc.boundOn k.val)
    s.setCore c { kc with reqs := kc.reqs ++ [{ stack := k.val, addr := 0, len := 2048, who := .slab, bound := some b, reach := 0 }] }

/-- R230: a bound request passes to the controller in its slot. -/
def State.pass (s : State) (c : Fin 192) (k : Fin 16) (r : Req) : State :=
  let s1 := if r.who == .slab then s else s.closeRow k ((s.upkeep[k]).rowOf (r.addr % 2 ^ 36 / 2048))
  match r.who with
  | .acc sid aid => s1.passAcc c k sid aid
  | .copyRead sid cid segs => s1.passRead c k sid cid segs
  | .copyWrite sid cid segs => s1.passWrite c k sid cid segs
  | .fill id => s1.passFill c k id
  | .slab => s1.passSlab c k
  | .upkeep => s1

/- Maintenance. -/

/-- R371: the operations to which the maintenance slots go. -/
inductive Upkeeping where
  | refresh
  | sparing
  | scrub
  | pool
deriving DecidableEq, Repr

def Upkeep.active (u : Upkeep) : Bool := u.sparing.toList.any spActive

/-- R371: is a refresh due. -/
def Upkeep.due (u : Upkeep) : Bool := decide (1000 ≤ u.owed)

/-- R371: a rotation's maintenance begins: of the 393,216 refreshes of a window of 32 ms, or of 16 ms above 85 °C, 3.072, or 6.144, fall to
each rotation of 250 ns. -/
def Upkeep.rotate (u : Upkeep) : Upkeep := { u with owed := u.owed + if u.hot then 6144 else 3072 }

/-- R371: the reserved slots, in the order in which this model gives them out: 4 or 7 for refresh, 4 for sparing copies while one is active, 1
for the scrub; the others, and those of a refresh that is not due, are the pool. -/
def Upkeep.slotUse (u : Upkeep) (i : Nat) : Upkeeping :=
  let r := if u.hot then 7 else 4
  let p := if u.active then 4 else 0
  if i < r then (if u.due then .refresh else .pool) else if i < r + p then .sparing else if i < r + p + 1 then .scrub else .pool

/-- R371: the pool's order: mitigation, a refresh that is due, a sparing copy, the scrub. -/
def Upkeep.poolUse (u : Upkeep) : Upkeeping := if !u.queue.isEmpty then .pool else if u.due then .refresh else if u.active then .sparing else .scrub

/-- R371, R374: a refresh of one row index in the 64 banks of a pseudo-channel; it writes their counters to zero. At it a channel changes its
bus code where the other code's estimate over the last whole window is lower by more than one eighth (R373). -/
def Upkeep.refresh (u : Upkeep) : Upkeep :=
  let pc := u.refreshes % 64
  let row := u.refreshes / 64 % 6144
  let rows := (List.range 64).foldl (fun m b => SMap.set 0 m (rowKey pc b row) 0) u.rows
  let ch : Fin 32 := ⟨pc / 2 % 32, Nat.mod_lt _ (by omega)⟩
  let better := decide (8 * u.bus[ch].lastOther < 7 * u.bus[ch].lastUsed)
  { u with
    refreshes := u.refreshes + 1, owed := u.owed - 1000, rows := rows,
    code := u.code ^^^ ((BitVec.ofBool better).zeroExtend 32 <<< ch.val), bus := u.bus.set ch (if better then default else u.bus[ch]) }

/-- R374, R375: the oldest queued row's neighbours are refreshed and its counter written to zero. -/
def Upkeep.mitigate (u : Upkeep) : Upkeep :=
  match u.queue with
  | [] => u
  | r :: rest => { u with queue := rest, rows := SMap.set 0 u.rows r 0 }

/-- R378, R392: lines of a row of a physical bank, as addresses of the stack, where the bank serves some of them. -/
def Upkeep.blockAt (u : Upkeep) (pc bank row : Nat) : Option Nat :=
  ((List.range 63).find? fun l => bankOf ((u.sparing[pc % 64]'(Nat.mod_lt _ (by omega)))) l row == bank).map fun l => (l * 6144 + row) * 64 + pc

/-- R377, R378: one row moves from the retiring bank to its spare; a line read in error arrives poisoned, after the writes accepted before the
copy's slot. -/
def State.sparingCopy (s : State) (k : Fin 16) (errs : List (Nat × Bool)) : State :=
  let u := s.upkeep[k]
  match u.sparing.toList.findIdx? spActive with
  | none => s
  | some pc =>
    let r := u.sparing[pc % 64]'(Nat.mod_lt _ (by omega))
    let h := spHead r
    let s1 := match u.blockAt pc (spOld r) h with
      | some blk => s.blockErrors k blk true errs
      | none => s
    let s2 := (s1.closeRow k (rowKey pc (spOld r) h)).closeRow k (rowKey pc (spSpare r) h)
    let u2 := s2.upkeep[k]
    let r2 := spMake (decide (h + 1 < 6144)) true (spOld r) (spSpare r) (h + 1)
    { s2 with upkeep := s2.upkeep.set k { u2 with sparing := u2.sparing.set (pc % 64) r2 (Nat.mod_lt _ (by omega)) } }

/-- R372: one 2 KiB block is read, corrected and written back, after the writes accepted before the scrub's slot. -/
def State.scrubBlock (s : State) (k : Fin 16) (errs : List (Nat × Bool)) : State :=
  let u := s.upkeep[k]
  let i := u.scrubs % 25165824
  let pc := i % 64
  let bank := i / 64 / 6144
  let row := i / 64 % 6144
  let s1 := match u.blockAt pc bank row with
    | some blk => s.blockErrors k blk true errs
    | none => s
  let s2 := s1.closeRow k (rowKey pc bank row)
  { s2 with upkeep := s2.upkeep.set k { s2.upkeep[k] with scrubs := u.scrubs + 1 } }

def State.setUpkeep (s : State) (k : Fin 16) (u : Upkeep) : State := { s with upkeep := s.upkeep.set k u }

/-- R371: maintenance slot `i` of a rotation. -/
def State.maintain (s : State) (k : Fin 16) (i : Nat) (errs : List (Nat × Bool)) : State :=
  let u := if i = 0 then s.upkeep[k].rotate else s.upkeep[k]
  let s1 := s.setUpkeep k u
  match if u.slotUse i = .pool then u.poolUse else u.slotUse i with
  | .refresh => s1.setUpkeep k u.refresh
  | .sparing => s1.sparingCopy k errs
  | .scrub => s1.scrubBlock k errs
  | .pool => s1.setUpkeep k u.mitigate

/-- The owner of a slot of the rotation (R229). -/
def slotOwner (i : Nat) : Fin 192 := ⟨i % 192, Nat.mod_lt _ (by omega)⟩

/-- R221, R237: do two requests of a core reach the same bytes by one path: S with the constant path, or the copies, whose requests stand for
their block. -/
def Req.meets (o r : Req) : Bool :=
  match o.who, r.who with
  | .copyRead _ _ _, .copyRead _ _ _ => o.addr == r.addr
  | .copyRead _ _ _, .copyWrite _ _ _ => o.addr == r.addr
  | .copyWrite _ _ _, .copyRead _ _ _ => o.addr == r.addr
  | .copyWrite _ _ _, .copyWrite _ _ _ => o.addr == r.addr
  | .acc _ _, .acc _ _ => decide (o.addr < r.addr + r.len) && decide (r.addr < o.addr + o.len)
  | .acc _ _, .fill _ => decide (o.addr < r.addr + r.len) && decide (r.addr < o.addr + o.len)
  | .fill _, .acc _ _ => decide (o.addr < r.addr + r.len) && decide (r.addr < o.addr + o.len)
  | .fill _, .fill _ => o.addr == r.addr
  | _, _ => false

/-- R237: does an earlier request of the core to the bytes of one still stand, having missed its slot. DEDUCED (log): the one behind it waits
in the same way, so that the order of the unit is kept. -/
def Core.behind (k : Core) (r : Req) : Bool := (k.reqs.takeWhile fun o => o != r).any fun o => o.stack == r.stack && o.meets r

/-- R230, R234: the request of a core that its slot of this tick does not find at the controller waits for the slot of the same number in
a later rotation, the first that no other request of the core takes (DEDUCED, log: R230 says one rotation, and a slot serves one request). -/
def Core.later (k : Core) (stack tick : Nat) : Core :=
  let taken := k.boundOn stack
  let t := ((List.range 18).map fun r => tick + 400 * (r + 1)).find? fun t => !taken.contains t
  { k with reqs := k.reqs.map fun r => if r.stack == stack && r.bound == some tick then { r with bound := some (t.getD (tick + 400 * 19)) } else r }

/-- CALENDAR_SLOT_START (R229 to R232, R371): the slot of the present tick starts on a stack; `errs` are the errors that its access
finds in its 2 KiB block. A stack whose die stays in reset does nothing (R352). A slot with no request and no maintenance is gleaned, and gleaned work needs no slot of its own
here; its errors are lines of the stack, which the gleaned reads find (R392). -/
def execCalendarSlotStart (k : Fin 16) (errs : List (Nat × Bool)) (s : State) : Out :=
  let q := s.hbm[k]
  if s.tick < q.started then .next s
  else
    let s1 := s.setStack k { q with started := s.tick + 1 }
    let i := s.tick % 400
    if 384 ≤ i then .next (if s.dieUp (stackDie k) then s1.maintain k (i - 384) errs else s1)
    else
      let c := slotOwner i
      let kc := s1.cores[c]
      match kc.reqs.find? fun r => r.stack == k.val && r.bound == some s.tick with
      | none => .next (s1.gleanErrors k errs)
      | some r =>
        if (s1.clusters[clusterOf c]).cyc < r.reach || kc.behind r then .next (s1.setCore c (kc.later k.val s.tick))
        else
        let s2 := s1.setCore c { kc with reqs := kc.reqs.filter (fun o => !(o.stack == k.val && o.bound == some s.tick)), passed := k.val :: kc.passed }
        let s3 := if r.who == .slab then s2 else s2.blockErrors k (r.addr % 2 ^ 36 / 2048) false errs
        .next (s3.pass c k r)

/- Landing. -/

/-- A piece of the raw bytes that a slot read, as its copy's policy takes it (R199). -/
def rawData (bs : List Byte) (bad : List Nat) (off len : Nat) (mark : Bool) : List (Option Byte) × List Nat :=
  let b := (bad.filter fun i => decide (off ≤ i) && decide (i < off + len)).map (· - off)
  (((bs.drop off).take len).zipIdx.map fun x => if b.contains x.2 then (if mark then some 0 else none) else some x.1, b)

/-- R199: a piece of a copy stands ready with its data, which waits to be written to HBM storage or to its yard. -/
def Strand.pieceReady (st : Strand) (cp : Copy) (j : Nat) (g : Seg) (d : List (Option Byte)) (b : List Nat) : Strand :=
  let st1 := st.setCopy (cp.setSeg j (.ready d b))
  match cp.mark, b with
  | false, o :: _ => st1.setCond cp.tok 1 (g.srcA + adr64 o)
  | _, _ => st1

/-- R194, R199, R230, R245: the pieces of a copy whose data lands: those bound for HBM storage become ready to be written, those bound for a
yard or a typed buffer land as one write, the others are on their way. -/
def State.landRead (s : State) (c : Fin 192) (sid cid : Nat) (segs : List Nat) (bs : List Byte) (bad : List Nat) : State :=
  match (s.strand? c).filter fun st => st.sid == sid with
  | none => s
  | some st0 =>
    match st0.copy? cid with
    | none => s
    | some cp0 =>
      let r := segs.foldl (fun (acc : State × Nat × List MWrite) j =>
        let (s, off, ws) := acc
        match s.strand? c with
        | none => acc
        | some st =>
          match st.copy? cid with
          | none => acc
          | some cp =>
            match cp.segs[j]? with
            | none => acc
            | some g =>
              let (d, b) := rawData bs bad off g.len cp.mark
              if 2 ^ 72 ≤ g.dst.getD 0 then
                let (s1, wr) := s.segLanded c st cp j g b
                (s1, off + g.len, if wr then ws ++ [cp.writeOf j g d b] else ws)
              else (s.setSt c (st.pieceReady cp j g d b), off + g.len, ws)) (s, 0, [])
      (oneWrite r.2.2).foldl (fun s w => s.landCopy c cp0 w) r.1

/-- The write requests of a copy whose blocks have become ready (R230). -/
def State.formReady (s : State) (c : Fin 192) (sid cid : Nat) : State :=
  match (s.strand? c).filter fun st => st.sid == sid with
  | none => s
  | some st =>
    match st.copy? cid with
    | none => s
    | some cp => s.formWrites c sid cp ((s.cores[c]).requested sid cid)

/-- HBM_READ_LAND (R231, R324): a read whose tick has come lands. -/
def execHbmReadLand (k : Fin 16) (i : Nat) (s : State) : Out :=
  let q := s.hbm[k]
  match q.reads[i]? with
  | none => .next s
  | some r =>
    if s.tick < r.due then .next s
    else
      let s0 := s.setStack k { q with reads := q.reads.eraseIdx i }
      let c := slotOwner r.core
      let s1 := s0.countXdie c (some (k.val / 2)) r.data.length
      match r.who with
      | .acc sid aid =>
        match s1.findSid sid with
        | none => .next s1
        | some st =>
          match st.accs.find? fun a => a.id == aid with
          | none => .next s1
          | some a =>
            let v := leNat r.data
            let x := if a.signed then BitVec.ofInt 64 (signedOf (8 * a.size) v) else BitVec.ofNat 64 v
            .next (s1.accDone c (st.settle (s1.cyc c)) a (if r.bad.isEmpty then x else 0) (!r.bad.isEmpty))
      | .copyRead sid cid segs => .next ((s1.landRead c sid cid segs r.data r.bad).formReady c sid cid)
      | .fill id =>
        let kc := s1.cores[c]
        .next (s1.setCore c { kc with kfills := kc.kfills.map fun f =>
          if f.id = id then { f with data := some (r.data, !r.bad.isEmpty) } else f })
      | _ => .next s1

/-- R194, R206: a written piece of a copy leaves its token; a note leaves the copies in flight. -/
def State.landWrite (s : State) (c : Fin 192) (sid cid j : Nat) : State :=
  match (s.strand? c).filter fun st => st.sid == sid with
  | none => s
  | some st =>
    match st.copy? cid with
    | none => s
    | some cp =>
      match cp.segs[j]? with
      | none => s
      | some g =>
        let st1 := st.setCopy (cp.setSeg j .landed)
        s.setSt c ((if cp.kind = 6 then st1 else st1.landed cp.tok (s.cyc c) g.len).retire cid)

/-- HBM_WRITE_PERFORMED (R231): the oldest write of a stack whose tick has come is performed with respect to every party. -/
def execHbmWritePerformed (k : Fin 16) (s : State) : Out :=
  let q := s.hbm[k]
  match q.writes with
  | [] => .next s
  | w :: rest =>
    if s.tick < w.due then .next s
    else
      let s1 := (s.setStack k { q with writes := rest }).commit w.w
      match w.who with
      | .acc sid aid =>
        match s1.findSid sid with
        | some st => .next (s1.putStrand { st with accs := st.accs.filter fun a => a.id != aid })
        | none => .next s1
      | .copyWrite sid cid segs => .next (segs.foldl (fun s j => s.landWrite (slotOwner w.core) sid cid j) s1)
      | _ => .next s1

end Sys2Proof.Machine
end

