-- ==== Sys2Proof/Machine/Sched.lean ====
section
/-! DEFINITION. The scheduler (R287 to R294): candidates and their order, placement on cores, the choice of clusters, what is
pre-empted for whom, virtual service time. -/

namespace Sys2Proof.Machine

open Sys2Proof

/-- R287: keys compared term by term. -/
def keyLt : List Nat → List Nat → Bool
  | a :: as, b :: bs => decide (a < b) || (a == b && keyLt as bs)
  | [], _ :: _ => true
  | _, [] => false

/-- A candidate (R287): a ready seed or a pre-empted gang, with what its placement needs. -/
structure Cand where
  launch : Nat
  seed : Option Seed
  gang : Nat
  sids : List Nat
  level : BitVec 2
  size : Nat
  prio : BitVec 3
  index : Nat
  fixed : Bool
  volt : Nat
  gslots : List Nat
  part : Fin 64
  point : OpPoint := default
deriving DecidableEq, Repr, Inhabited

/-- R269: a fixed-timing point. -/
def OpPoint.fixed (o : OpPoint) : Bool := o.freq == 1200

/-- The key of a unit of work of a launch (R287); `kind` is 0 for strands, 1 for seeds. -/
def State.key (s : State) (l : Launch) (prio : BitVec 3) (kind index : Nat) : List Nat :=
  [7 - prio.toNat, if l.deadline = 0 then 2 ^ 64 else l.deadline, s.parts[l.part].vt, l.part.val, l.order, kind, index]

def State.candKey (s : State) (u : Cand) : List Nat :=
  match s.launch? u.launch with
  | some l => s.key l u.prio (if u.seed.isSome then 1 else 0) u.index
  | none => []

/-- The launch, level, gang size and index that a placed seed names (R280). -/
def Seed.launch (sd : Seed) : Nat := (sd.place.extractLsb' 32 16).toNat
def Seed.level (sd : Seed) : BitVec 2 := sd.place.extractLsb' 62 2
def Seed.size (sd : Seed) : Nat := (sd.place.extractLsb' 48 6).toNat + 1
def Seed.index (sd : Seed) : Nat := (sd.place.extractLsb' 0 32).toNat
def Seed.prio (sd : Seed) : BitVec 3 := sd.flags.extractLsb' 32 3

/-- Is a strand, or a seed, already being placed. -/
def State.isPlacing (s : State) (sid : Nat) : Bool := s.placing.any fun p => p.sids.contains sid

/-- The strands of a gang that run. -/
def State.gangRuns (s : State) (gang : Nat) : Bool := s.cores.toList.any fun k => k.strand.any fun st => st.gang == gang

/-- The halted gangs of launches that curtailment has not parked, as candidates (R287); a gang resumes as one, so none of it may still
be halting (R285). -/
def State.haltedCands (s : State) : List Cand :=
  s.gangs.filterMap fun g =>
    let hs := s.halted.filter fun h => h.st.gang == g.gid && !s.isPlacing h.st.sid
    match hs.head?, s.launch? g.launch with
    | some h, some l =>
      if l.parked || l.ending != .live || s.gangRuns g.gid then none
      else
        let sids := ((hs.map fun x => (x.st.member, x.st.sid)).insertionSort fun a b => a.1 ≤ b.1).map Prod.snd
        some { launch := l.id, seed := none, gang := g.gid, sids := sids, level := g.level,
               size := if g.level == 2#2 then g.size else sids.length, prio := h.st.prio, index := h.st.index, fixed := h.st.clkFixed,
               volt := h.st.volt, gslots := g.slots, part := l.part }
    | _, _ => none

/-- R293: has a launch a pre-empted strand or gang that has not resumed. -/
def State.hasHalted (s : State) (launch : Nat) : Bool := s.halted.any fun h => h.st.launch == launch

/-- The ready seeds of live launches, as candidates (R287, R293). -/
def State.seedCands (s : State) : List Cand :=
  s.parts.toList.flatMap fun p => p.queues.toList.flatten.filterMap fun sd =>
    match s.launch? sd.launch with
    | some l =>
      if l.parked || l.ending != .live || s.hasHalted l.id then none
      else some { launch := l.id, seed := some sd, gang := 0, sids := [], level := sd.level, size := sd.size, prio := sd.prio,
                  index := sd.index, fixed := l.cur.fixed, volt := l.cur.volt, gslots := [], part := l.part, point := l.cur }
    | none => none

/-- R287: the candidates in rank order. -/
def State.cands (s : State) : List Cand :=
  (s.haltedCands ++ s.seedCands).insertionSort fun a b => !keyLt (s.candKey b) (s.candKey a)

/- Cores and clusters. -/

/-- R294, R349: is a core kept for the pre-empted strands of a launch. -/
def State.isGiven (s : State) (c : Nat) : Bool := s.launches.any fun l => l.given.contains c

/-- Is a core idle: no strand stands on it, no halted context is still in it, none is being placed on it, and it is not kept. -/
def State.idle (s : State) (c : Fin 192) : Bool :=
  s.cores[c].strand.isNone && !(s.halted.any fun h => h.place == .core c.val) && !(s.placing.any fun p => p.cores.contains c.val) &&
    !s.isGiven c.val

/-- The idle cores of a cluster. -/
def State.idleOf (s : State) (q : Nat) : List Nat :=
  ((List.finRange 192).filter fun c => c.val / 4 == q && s.idle c).map Fin.val

/-- R289: a cluster on whose cores nothing runs, none of which is kept for a launch's pre-empted strands. -/
def State.clusterFree (s : State) (q : Nat) : Bool := (s.idleOf q).length == 4

/-- R289, R291, R407: the cluster on which a slot of a launch takes work of a clock mode; `may` says that no candidate of a better key has
reserved the free clusters. -/
def State.usable (s : State) (l : Launch) (fixed may : Bool) (k : Nat) : Option Nat :=
  match l.slots[k]? with
  | some sl =>
    match sl.cluster with
    | some q =>
      match s.cluster? q with
      | some x =>
        if k ≤ l.cur.tm1 && sl.goal.isNone && x.holder == some (l.id, k) && !x.withheld && (if s.clusterFree q then may else x.fixed == fixed)
        then some q else none
      | none => none
    | none => none
  | none => none

/-- R292: the class of a launch, where it has one. -/
def State.classOf (s : State) (l : Launch) : Option Bool :=
  (s.classes.find? fun e => e.part == l.part && e.task == l.task).map ClassEnt.compute

/-- R291: memory-bound less compute-bound clusters held on a die. -/
def State.dieBalance (s : State) (die : Nat) : Int :=
  (List.range 6).foldl (fun n i =>
    match s.cluster? (6 * die + i) with
    | some x =>
      match x.holder with
      | some (id, _) =>
        match (s.launch? id).bind s.classOf with
        | some true => n - 1
        | some false => n + 1
        | none => n
      | none => n
    | none => n) 0

/-- R329: can the image of the slot that holds a cluster leave it for another launch. -/
def State.canVacate (s : State) (id q : Nat) : Bool :=
  match (s.cluster? q).bind Cluster.holder with
  | none => true
  | some (h, k) =>
    if h = id then true
    else
      match s.launch? h with
      | none => true
      | some l => l.ending != .live || (s.rsvOf 0 h k).isSome || ((s.parts[l.part]).save.find imageSlot).isSome

/-- The clusters that a launch may acquire: free ones in service whose image has somewhere to go. -/
def State.freeClusters (s : State) (id : Nat) : List Nat :=
  (List.range 48).filter fun q =>
    s.clusterFree q && s.canVacate id q && (match s.cluster? q with | some x => !x.withheld | none => false)

/-- R291: the cluster to acquire for a slot that last had `prev`. -/
def State.chooseCluster (s : State) (l : Launch) (prev : Option Nat) (avail : List Nat) : Option Nat :=
  match prev.filter avail.contains with
  | some q => some q
  | none =>
    match s.classOf l with
    | none => avail.head?
    | some comp =>
      let score (q : Nat) : Int := if comp then s.dieBalance (q / 6) else - s.dieBalance (q / 6)
      avail.foldl (fun best q =>
        match best with
        | none => some q
        | some b => if score b < score q then some q else some b) none

/-- A slot that has no cluster, given a new yard object where it never had one. -/
def LSlot.fresh (yard : Nat) : LSlot := { cluster := none, prev := none, yard := yard, img := none, goal := none, tbs := Vector.replicate 4 none }

/-- A launch's slots extended to number `k`, each new one with a yard of zeros (R223). -/
def State.growSlots (s : State) (l : Launch) (k : Nat) : State × Launch :=
  let n := k + 1 - l.slots.length
  ({ s with nextObj := s.nextObj + n }, { l with slots := l.slots ++ (List.range n).map fun i => LSlot.fresh (s.nextObj + i) })

/-- R329: the place of a slot's image in the save area given back: the image has been restored. -/
def State.dropImage (s : State) (l : Launch) (k : Nat) : State :=
  match (l.slots[k]?).bind LSlot.img with
  | some (a, _) => let p := s.parts[l.part]; s.setPart l.part { p with save := p.save.give (a - p.save.base) }
  | none => s

/-- R296, R298, R304: the clock of a cluster that takes work of a mode and a voltage class. -/
def Cluster.clocked (x : Cluster) (fixed : Bool) (freq volt tick : Nat) : Cluster :=
  { x with fixed := fixed, mhz := if fixed then 1200 else freq, volt := volt, placed := dtime tick, stretch := 0, calm := 0,
           phase := if fixed then 1200 * tick % 1600 else x.phase }

/-- R334: does a range of a core image hold an offset. -/
def inRange (lo n o : Nat) : Bool := decide (lo ≤ o) && decide (o < lo + n)

/-- R245, R334: the lines of buffers and of the yard that a poisoned line of a cluster image at offset `off` restores as poisoned: its own,
or, of a line of poison bits, every line whose bit it holds. -/
def imageLines (tbs : List (Option TBuf)) (yard off : Nat) : List Nat :=
  if 0x2800000 ≤ off then [lineOf (yardAddr yard (off - 0x2800000))]
  else if 0x2740000 ≤ off then (if off < 0x274C000 then (List.range 512).map fun i => lineOf (yardAddr yard 0) + 8 * (off - 0x2740000) + i else [])
  else
    let o := off % 0xA00000
    match tbs[off / 0xA00000]? with
    | some (some t) =>
      if o < 0x400000 then [lineOf (wbufAddr t.id o)]
      else if o < 0x800000 then [lineOf (abufAddr t.id (o - 0x400000))]
      else if inRange 0x904000 0x2000 o then (List.range 512).map fun i => lineOf (wbufAddr t.id 0) + 8 * (o - 0x904000) + i
      else if inRange 0x906000 0x2000 o then (List.range 512).map fun i => lineOf (abufAddr t.id 0) + 8 * (o - 0x906000) + i
      else []
    | _ => []

/-- Columns of a plane, from one on. -/
def colsFrom (n k : Nat) : BitVec 256 := BitVec.ofNat 256 ((2 ^ k - 1) * 2 ^ n)

def WPlane.spoil (p : WPlane) (m : BitVec 256) : WPlane := { p with colBad := p.colBad ||| m }
def SPlane.spoil (p : SPlane) (m : BitVec 256) : SPlane := { p with colBad := p.colBad ||| m }

/-- R165, R187, R334: what else of a core's state a poisoned line of its image restores as poisoned: rows of C, columns of planes, marks. The
spec names no poison for the rest of the state; a line of marks or column poison sets all that it holds (DESIGN CHOICE, log). -/
def TBuf.restoreLine (t : TBuf) (o : Nat) : TBuf :=
  let all := BitVec.allOnes 256
  if inRange 0x800000 0x100000 o then { t with rowp := t.rowp ||| (1#1024 <<< ((o - 0x800000) / 1024)) }
  else if o = 0x900400 then { t with wp0 := t.wp0.spoil all, wp1 := t.wp1.spoil all }
  else if o = 0x900440 then { t with sp0 := t.sp0.spoil all, sp1 := t.sp1.spoil all }
  else if inRange 0x900500 0x80 o then { t with rowp := t.rowp ||| BitVec.ofNat 1024 ((2 ^ 512 - 1) * 2 ^ (8 * (o - 0x900500))) }
  else if inRange 0x900600 0x200 o then { t with colp := Vector.ofFn fun b : Fin 16 => if b.val / 2 = (o - 0x900600) / 64 then all else t.colp[b] }
  else if inRange 0x901000 0x800 o then { t with sp0 := t.sp0.spoil (colsFrom ((o - 0x901000) / 2 % 256) 32) }
  else if inRange 0x901800 0x800 o then { t with sp1 := t.sp1.spoil (colsFrom ((o - 0x901800) / 2 % 256) 32) }
  else if inRange 0x902000 0x800 o then { t with wp0 := t.wp0.spoil (colsFrom ((o - 0x902000) / 8) 8) }
  else if inRange 0x902800 0x800 o then { t with wp1 := t.wp1.spoil (colsFrom ((o - 0x902800) / 8) 8) }
  else if inRange 0x910000 0x10000 o then { t with wp0 := t.wp0.spoil (colsFrom ((o - 0x910000) / 256) 1) }
  else if inRange 0x920000 0x10000 o then { t with wp1 := t.wp1.spoil (colsFrom ((o - 0x920000) / 256) 1) }
  else t

/-- R393, R394: a line of a core image that holds the formats of banks or what the planes are, for which there is no poison. -/
def imageFatal (off : Nat) : Bool := decide (off < 0x2740000) && inRange 0x900000 0x240 (off % 0xA00000)

/-- R409: the typed-buffer states of the cores of a slot: those that it holds, and those that left with strands halted there. -/
def State.slotTbs (s : State) (l : Launch) (sl : LSlot) : List (Option TBuf) :=
  sl.tbs.toList.zipIdx.map fun t =>
    match t.1 with
    | some b => some b
    | none => ((s.halted.find? fun h => h.st.launch == l.id && h.core.val % 4 == t.2 && (sl.cluster.orElse fun _ => sl.prev) == some (h.core.val / 4)).map
        fun h => h.st.tb)

/-- R334: the buffers of a core and the yard filled from a cluster image. -/
def Mem.restore (m : Mem) (tbs : List (Option TBuf)) (yard a tag : Nat) : Mem :=
  let put (m : Mem) (src dst n : Nat) : Mem := m.putAll 0 dst ((m.reads tag (a + src) n).map some)
  put (tbs.zipIdx.foldl (fun m t => match t.1 with
    | some b => put (put (put m (0xA00000 * t.2) (wbufAddr b.id 0) 0x400000) (0xA00000 * t.2 + 0x400000) (abufAddr b.id 0) 0x400000)
        (0xA00000 * t.2 + 0x800000) (cbufAddr b.id 0) 0x100000
    | none => m) m) 0x2800000 (yardAddr yard 0) yardLimit

/-- R319, R374: what the command processor moves of a partition's contexts and images to or from an address: counted, and the rows that it
closes. -/
def State.movedBytes (s : State) (p : Fin 64) (a n : Nat) : State := (s.addTraffic p n).gleaned a n

/-- R313, R334: a slot's image returns from the save area: its bytes, and a line poisoned there restores as poisoned; one that can hold no
poison ends the launch with FAULT (R393). The planes and formats of the cores, which no address names, are those that left. -/
def State.restoreImage (s : State) (l : Launch) (k yard : Nat) : State :=
  match l.slots[k]? with
  | some sl =>
    match sl.img with
    | some (a, true) =>
      let tbs := s.slotTbs l sl
      let bad := (s.mem.badLines a imageSlot).map fun n => 64 * n - a
      let s1 := { s with mem := s.mem.restore tbs yard a (s.parts[l.part]).keyId }.commit (MWrite.mark (bad.flatMap (imageLines tbs yard)))
      let s2 := bad.foldl (fun s off => match tbs[off / 0xA00000]? with
        | some (some t) => s.mapTb t.id fun b => b.restoreLine (off % 0xA00000)
        | _ => s) s1
      let s3 := s2.movedBytes l.part a imageSlot
      if bad.any imageFatal then s3.endLaunch l.id 3 else s3
    | _ => s
  | none => s

/-- R289, R291, R296: a launch's slot acquires a cluster: it takes its clock mode and the voltage class of the work, and finds the slot's
yard image. A gated cluster stays gated until it has been powered (R317). -/
def State.acquire (s : State) (id k q : Nat) (fixed : Bool) (volt : Nat) : State :=
  let s0 := s.unplace q
  match s0.launch? id, s0.cluster? q with
  | some l0, some x =>
    let (s1, l) := (s0.dropImage l0 k).growSlots l0 k
    let yard := l.yardOf k
    let s2 := s1.setLaunch { l with slots := l.slots.modify k fun sl => { sl with cluster := some q, prev := some q, img := none } }
    (s2.restoreImage l0 k yard).setCluster q { x.clocked fixed l.cur.freq volt s.tick with
      holder := some (id, k), yard := some yard, acquired := dtime s.tick, grant := 0, left := (s.heldPart x.holder).or x.left }
  | _, _ => s0

/-- R329: the reservation of the image of the slot that holds a cluster given back: its work has come again. -/
def State.unreserveImage (s : State) (h : Option (Nat × Nat)) : State :=
  match h.bind fun x => s.rsvOf 0 x.1 x.2 with
  | some r => s.unreserve r false
  | none => s

/-- R269, R296, R304, R320: work placed on a cluster that a launch holds and on which nothing runs: the cluster takes its clock mode and
class. -/
def State.renew (s : State) (l : Launch) (q : Nat) (fixed : Bool) (volt : Nat) : State :=
  match s.cluster? q with
  | some x => if !s.clusterFree q then s else (s.unreserveImage x.holder).setCluster q (if x.fixed = fixed then { x with volt := volt, placed := dtime s.tick } else x.clocked fixed l.cur.freq volt s.tick)
  | none => s

/- Placement. -/

/-- R328, R329: can a halted context reach a cluster: it lies in that cluster's granary, or has left for the save area or the silo, or
the save area can take it. -/
def State.canReach (s : State) (sid q : Nat) : Bool :=
  match s.halted.find? fun h => h.st.sid == sid with
  | none => false
  | some h =>
    match h.place with
    | .core _ => true
    | .granary g _ => g == q || decide (ctxSlot ≤ (s.parts[h.st.part]).save.free)
    | _ => true

/-- Can every halted context of a candidate reach a cluster. -/
def State.reaches (s : State) (u : Cand) (q : Nat) : Bool := u.sids.all fun sid => s.canReach sid q

/-- R289, R348: the cores that a core seed, or a cluster gang, takes in a cluster that its launch holds, one that its contexts reach. -/
def State.coresIn (s : State) (l : Launch) (u : Cand) (may : Bool) : Option (Nat × Nat × List Nat) :=
  (List.range l.slots.length).findSome? fun k =>
    match s.usable l u.fixed may k with
    | some q => let cs := s.idleOf q; if u.size ≤ cs.length && s.reaches u q then some (k, q, cs.take u.size) else none
    | none => none

/-- The lowest slot within the current point that has no cluster (R269, R289). -/
def Launch.openSlot (l : Launch) : Option Nat :=
  (List.range (l.cur.tm1 + 1)).find? fun k => match l.slots[k]? with | some sl => sl.cluster.isNone | none => true

/-- What a placement of a candidate makes of the state. -/
def Cand.place (u : Cand) (cores slots : List Nat) : Placing :=
  { launch := u.launch, part := u.part, seed := u.seed, sids := u.sids, cores := cores, slots := slots, level := u.level, prio := u.prio, point := u.point }

/-- R289: core and cluster level: cores of one held cluster, else of a cluster acquired. -/
def State.placeSmall (s : State) (u : Cand) (l : Launch) (may : Bool) : Option (State × Placing) :=
  match s.coresIn l u may with
  | some (k, q, cs) => some (s.renew l q u.fixed u.volt, u.place cs [k])
  | none =>
    if !may then none
    else
      match l.openSlot with
      | none => none
      | some k =>
        match s.chooseCluster l ((l.slots[k]?).bind LSlot.prev) ((s.freeClusters l.id).filter (s.reaches u)) with
        | none => none
        | some q =>
          let s1 := s.acquire l.id k q u.fixed u.volt
          some (s1, u.place ((s1.idleOf q).take u.size) [k])

/-- The slots that a device gang takes: those of its own where it resumes (R289). -/
def Cand.slotList (u : Cand) : List Nat := if u.seed.isSome then List.range u.size else u.gslots

/-- R289, R291: the slots of a device gang, one at a time, each on a cluster with four idle cores; a cluster that one of its slots
holds is no other's. -/
def State.placeSlots (s : State) (u : Cand) (may : Bool) : List Nat → Option (State × List Nat)
  | [] => some (s, [])
  | k :: ks =>
    match s.launch? u.launch with
    | none => none
    | some l =>
      let here : Option (State × Nat) :=
        match s.usable l u.fixed may k with
        | some q => if s.clusterFree q then some (s.renew l q u.fixed u.volt, q) else none
        | none =>
          if !may || decide (l.cur.tm1 < k) || ((l.slots[k]?).bind LSlot.cluster).isSome then none
          else
            let held := (List.range 48).filter fun q => match s.cluster? q with
              | some x => match x.holder with | some (id, j) => id == l.id && u.slotList.contains j | none => false
              | none => false
            match s.chooseCluster l ((l.slots[k]?).bind LSlot.prev) ((s.freeClusters l.id).filter fun q => !held.contains q) with
            | some q => some (s.acquire l.id k q u.fixed u.volt, q)
            | none => none
      match here with
      | none => none
      | some (s1, q) =>
        match s1.placeSlots u may ks with
        | none => none
        | some (s2, cs) => some (s2, (List.range 4).map (4 * q + ·) ++ cs)

/-- R289: a candidate placed, where it fits; `may` says that it may acquire clusters. -/
def State.tryPlace (s : State) (u : Cand) (may : Bool) : Option (State × Placing) :=
  match s.launch? u.launch with
  | none => none
  | some l =>
    let reach (r : Option (State × Placing)) : Option (State × Placing) :=
      r.filter fun x => (x.2.sids.zip x.2.cores).all fun e => x.1.canReach e.1 (e.2 / 4)
    reach <| if u.level = 2 then
      match s.placeSlots u may u.slotList with
      | none => none
      | some (s1, cs) =>
        let members := if u.seed.isSome then cs
          else u.sids.filterMap fun sid => (s1.findSid sid).bind fun st => cs[st.member]?
        some (s1, u.place members u.slotList)
    else s.placeSmall u l may

/-- R289: a candidate that no number of free clusters lets fit: it needs more slots than its point allows, or more clusters than are
in service. -/
def State.hopeless (s : State) (u : Cand) : Bool :=
  match s.launch? u.launch with
  | none => true
  | some l =>
    if u.level = 2 then decide (l.cur.tm1 + 1 < u.size) || decide (s.inService < u.size) || u.slotList.any fun k => decide (l.cur.tm1 < k)
    else s.inService == 0

/-- R289: does a candidate that does not fit hold back no cluster: no number of them lets it fit, or its launch has no slot left for one,
so that it waits for the clusters that the launch holds (DEDUCED, log). -/
def State.holdsNone (s : State) (u : Cand) : Bool :=
  s.hopeless u || (u.level != 2 && (match s.launch? u.launch with | some l => l.openSlot.isNone | none => true))

/-- A placed seed leaves its queue (R284). -/
def State.takeSeed (s : State) (l : Launch) (sd : Seed) : State :=
  let q := s.parts[l.part]
  s.setPart l.part { q with queues := q.queues.map fun es => es.filter fun e => !(e.phys == sd.phys && e == sd) }

/-- A candidate is to start: its seed leaves the queue, its cores are taken. -/
def State.commitPlace (s : State) (u : Cand) (p : Placing) : State :=
  let s1 := match u.seed, s.launch? u.launch with
    | some sd, some l => s.takeSeed l sd
    | _, _ => s
  { s1 with placing := s1.placing ++ [p] }

/-- R289: the candidates in key order; the first that waits for clusters holds every free one back from those after it. -/
def State.placeAll (s : State) (may : Bool) : List Cand → State
  | [] => s
  | u :: us =>
    match s.tryPlace u may with
    | some (s1, p) => (s1.commitPlace u p).placeAll may us
    | none => s.placeAll (may && s.holdsNone u) us

/- Pre-emption for a candidate (R290). -/

/-- The key of a running strand (R287). -/
def State.strandKey (s : State) (st : Strand) : List Nat :=
  match s.launch? st.launch with
  | some l => s.key l st.prio 0 st.index
  | none => []

/-- The gangs that stand on a cluster, and the strands of gangs. -/
def State.gangsOn (s : State) (q : Nat) : List Nat := ((s.strandsOn q).map Strand.gang).dedup
def State.strandsOf (s : State) (gangs : List Nat) : List Strand := (s.cores.toList.filterMap Core.strand).filter fun st => gangs.contains st.gang

/-- R285, R329: the space of the contexts of the gangs on a cluster, and of its image, reserved before their pre-emption; `none` where it
cannot be. -/
def State.reserveFor (s : State) (q : Nat) : Option State :=
  let s1 := ((s.strandsOf (s.gangsOn q)).filter fun st => (s.rsvOf st.sid 0 0).isNone).foldl (fun (acc : Option State) st => acc.bind fun s => s.reserve st.part ctxSlot st.sid st.launch 0) (some s)
  match (s.cluster? q).bind Cluster.holder with
  | none => s1
  | some (id, k) =>
    match s.launch? id with
    | none => s1
    | some l => s1.bind fun s => if s.rsvs.any fun r => r.sid == 0 && r.launch == id && r.slot == k then some s else s.reserve l.part imageSlot 0 id k

/-- R329: the work of a cluster pre-empted, its space reserved. -/
def State.evict (s : State) (q : Nat) : State :=
  match s.reserveFor q with
  | some s1 => (s.strandsOn q).foldl (fun s st => s.preemptGang st.gang false) s1
  | none => s

/-- R329: can the images of a cluster's work be reserved in the save area of its partition. -/
def State.canEvict (s : State) (q : Nat) : Bool := (s.reserveFor q).isSome

/-- The best key of the work on a cluster. -/
def State.clusterKey (s : State) (q : Nat) : List Nat :=
  ((s.strandsOn q).map s.strandKey).foldl (fun b k => if b.isEmpty || keyLt k b then k else b) []

/-- Clusters whose work is being halted or on its way out. -/
def State.leaving (s : State) (q : Nat) : Bool :=
  (s.strandsOn q).any (fun st => st.phase != .running || s.preqs.any fun r => r.sid == st.sid) ||
    s.halted.any fun h => match h.place with | .core c => c / 4 == q | _ => false

/-- R290: the state as it would be with the work of clusters gone, and with that which is on its way out. -/
def State.without (s : State) (qs : List Nat) : State :=
  let gangs := qs.flatMap s.gangsOn
  let out (c : Fin 192) : Bool := (s.cores[c].strand.any fun st => gangs.contains st.gang) || s.leaving (c.val / 4)
  { s with
    cores := Vector.ofFn fun c => if out c then { s.cores[c] with strand := none } else s.cores[c],
    halted := s.halted.filter fun h => match h.place with | .core _ => false | _ => true }

/-- R290, R293: may the work of a cluster be pre-empted for a candidate: all of it has a lower PRIO, and it is not of the launch of a seed,
which could not start before it. -/
def State.yields (s : State) (u : Cand) (q : Nat) : Bool :=
  !s.leaving q && !(s.strandsOn q).isEmpty &&
    (s.strandsOn q).all (fun st => decide (st.prio < u.prio) && (u.seed.isNone || st.launch != u.launch)) && s.canEvict q

/-- R290: the clusters whose work a device gang needs gone in any case: those of its own slots. -/
def State.ownBusy (s : State) (u : Cand) : List Nat :=
  match s.launch? u.launch with
  | none => []
  | some l => if u.level != 2 then [] else u.slotList.filterMap fun k => ((l.slots[k]?).bind LSlot.cluster).filter fun q => !s.clusterFree q && !s.leaving q

/-- R290: the fewest clusters, and of those the ones whose work ranks last, with whose work gone a candidate fits. -/
def State.victims (s : State) (u : Cand) : Option (List Nat) :=
  let own := s.ownBusy u
  if !own.all (s.yields u) then none
  else
    let qs := ((List.range 48).filter fun q => s.yields u q && !own.contains q).insertionSort fun a b => !keyLt (s.clusterKey a) (s.clusterKey b)
    let fits (vs : List Nat) : Bool := ((s.without vs).tryPlace u true).isSome
    if fits own then some own
    else if u.level = 2 then ((List.range qs.length).map fun n => own ++ qs.take (n + 1)).find? fits
    else (qs.map fun q => [q]).find? fits

/-- R290, R329: the work on the fewest clusters all of whose work has a lower PRIO, choosing the work that ranks last, is pre-empted for a
candidate that does not fit and with that work gone would; the save area must hold all of it. -/
def State.preemptFor (s : State) (u : Cand) : State :=
  match s.victims u with
  | none => s
  | some qs => if (qs.foldl (fun (acc : Option State) q => acc.bind fun s => s.reserveFor q) (some s)).isSome then qs.foldl State.evict s else s

/-- R282, R396: seeds of ended launches are discarded and logged; a seed whose queue entry lies in a poisoned line is discarded and
ends its launch with FAULT. -/
def State.discardSeeds (s : State) : State :=
  (List.finRange 64).foldl (fun s p =>
    (s.parts[p].queues.toList.flatten).foldl (fun s sd =>
      let dead := match s.launch? sd.launch with | some l => l.ending != .live | none => true
      let bad := (s.storeAt p sd.phys).any fun a => s.mem.bad (lineOf a)
      if dead || bad then
        let q := s.parts[p]
        let s1 := (s.setPart p { q with queues := q.queues.map fun es => es.filter fun e => e != sd }).notice p 1 sd.addr.toNat 0
        if bad && !dead then (((s.storeAt p sd.phys).map s1.countPoison).getD s1).endLaunch sd.launch 3 else s1
      else s) s) s

/-- R288: has a partition a candidate or a held cluster. -/
def State.busyPart (s : State) (p : Fin 64) : Bool :=
  s.clusters.toList.any (fun x => match x.holder with | some (id, _) => (match s.launch? id with | some l => l.part == p | none => false) | none => false) ||
    s.cands.any fun u => match s.launch? u.launch with | some l => l.part == p | none => false

/-- R288: the least service time of the partitions that are active and have been so. -/
def State.leastVt (s : State) : Option Nat :=
  ((List.finRange 64).filter fun p => (s.parts[p]).active && s.busyPart p).foldl (fun m p => match m with
    | none => some (s.parts[p]).vt
    | some v => some (min v (s.parts[p]).vt)) none

/-- R288: partitions that become active take at least the least service time of the active ones. -/
def State.activate (s : State) : State :=
  let least := s.leastVt
  { s with parts := Vector.ofFn fun p : Fin 64 =>
      let x := s.parts[p]
      if s.busyPart p then (if x.active then x else { x with active := true, vt := max x.vt (least.getD 0) }) else { x with active := false } }

/-- R294, R349: the cores that a gang that yielded has left, given to the pre-empted gangs of its launch in the order of R287, each of
which takes the first that fit it: the other cores count as taken meanwhile. -/
def State.placeGiven (s : State) (l : Launch) : State :=
  let others := (List.range 192).filter fun c => !l.given.contains c
  let fence : Placing := { (default : Placing) with cores := others, launch := 2 ^ 16 }
  let s0 : State := { s with
    placing := fence :: s.placing, launches := s.launches.map fun m => if m.id == l.id then { m with given := [] } else m }
  let s1 := (s.cands.filter fun u => u.launch == l.id && u.seed.isNone).foldl (fun (s : State) u =>
    match s.tryPlace u true with
    | some (s2, p) => s2.commitPlace u p
    | none => s) s0
  { s1 with placing := s1.placing.erase fence }

/-- R294: the launches whose gangs that yielded have left all their cores. -/
def State.givenAll (s : State) : State :=
  let gone (c : Nat) : Bool := match s.cores[c]? with
    | some k => k.strand.isNone && !(s.halted.any fun h => h.place == .core c)
    | none => true
  (s.launches.filter fun l => !l.given.isEmpty && l.given.all gone).foldl (fun s l => s.placeGiven l) s

/-- R329: is a reserved place still to be used: its strand is on its way out of its core, or its slot's work out of its cluster. -/
def State.rsvNeeded (s : State) (r : Reserved) : Bool :=
  if r.sid != 0 then
    (s.cores.toList.any fun k => k.strand.any fun st => st.sid == r.sid && (st.phase != .running || s.preqs.any fun q => q.sid == r.sid)) ||
      s.halted.any fun h => h.st.sid == r.sid && match h.place with | .core _ => true | .granary _ _ => true | _ => false
  else
    match s.launch? r.launch with
    | some l => l.ending == .live && (match (l.slots[r.slot]?).bind LSlot.cluster with | some q => s.leaving q || (s.strandsOn q).isEmpty | none => false)
    | none => false

/-- Reservations that nothing will use given back. -/
def State.sweepRsvs (s : State) : State := (s.rsvs.filter fun r => !s.rsvNeeded r).foldl (fun s r => s.unreserve r false) s

/-- R289, R290: work of lower PRIO pre-empted for the candidates that do not fit, in their order, up to the first that holds the free clusters
back from those after it. -/
def State.preemptAll (s : State) : List Cand → State
  | [] => s
  | u :: us =>
    if s.hopeless u then s.preemptAll us
    else
      let s1 := s.preemptFor u
      if s.holdsNone u then s1.preemptAll us else s1

/-- SCHEDULE_DECISION (R282, R287 to R291, R293): seeds are discarded, candidates ranked and placed, and those that do not fit have work of
lower PRIO pre-empted for them. -/
def execScheduleDecision (s : State) : Out :=
  let s0 := s.discardSeeds.sweepRsvs.activate.givenAll
  let s1 := s0.placeAll true s0.cands
  .next (s1.preemptAll s1.cands)

/-- PSLICE_EXPIRY (R290): a cluster has run work of equal PRIO of another partition for longer than that partition's slice since it
acquired the cluster, and a waiting candidate ranks before the work. -/
def execPsliceExpiry (q : Fin 48) (s : State) : Out :=
  let x := s.clusters[q]
  match s.strandsOn q.val with
  | [] => .next s
  | st :: _ =>
    if s.leaving q.val || !s.canEvict q.val || dtime s.tick ≤ x.acquired + 1000 * s.parts[st.part].pslice then .next s
    else
      let waits (u : Cand) : Bool :=
        (match s.launch? u.launch with | some l => l.part != st.part | none => false) && !s.hopeless u &&
          (s.strandsOn q.val).all (fun t => t.prio == u.prio) && keyLt (s.candKey u) (s.clusterKey q.val)
      if s.cands.any waits then .next (s.evict q.val) else .next s

/-- VT_UPDATE (R288): once in every microsecond. -/
def execVtUpdate (s : State) : Out :=
  if dtime s.tick / 1000 ≤ s.vtUs then .next s
  else
    let held (p : Fin 64) : Nat := (s.clusters.toList.filter fun x =>
      match x.holder with | some (id, _) => (match s.launch? id with | some l => l.part == p | none => false) | none => false).length
    let parts := Vector.ofFn fun p : Fin 64 => { s.parts[p] with vt := s.parts[p].vt + held p * 65536 / s.parts[p].share }
    let cut := match { s with parts := parts }.leastVt with | some v => if 2 ^ 40 < v then v else 0 | none => 0
    .next { s with parts := parts.map fun p => { p with vt := p.vt - cut }, vtUs := s.vtUs + 1 }

/-- R321, R327, R329: a pre-emption that system software asks for: of one gang, or of every strand of the launch. Its space is reserved first,
and where it cannot be the request ends with BUSY. -/
def State.preemptFrom (s : State) (launch : Nat) (gang : Option Nat) : State :=
  let sts := (s.cores.toList.filterMap Core.strand).filter fun st => st.launch == launch && (match gang with | some g => st.gang == g | none => true)
  let got : Option State := match gang with
    | some _ => (sts.filter fun st => (s.rsvOf st.sid 0 0).isNone).foldl
        (fun (acc : Option State) st => acc.bind fun s => s.reserve st.part ctxSlot st.sid st.launch 0) (some s)
    | none => ((List.range 48).filter fun q => (s.strandsOn q).any fun st => st.launch == launch).foldl
        (fun (acc : Option State) q => acc.bind fun s => s.reserveFor q) (some s)
  match got with
  | none => s.answer (.preempted 3)
  | some s1 =>
    let s2 := (sts.map Strand.gang).dedup.foldl (fun s g => s.preemptGang g false) s1
    ({ s2 with launches := s2.launches.map fun (l : Launch) => if l.id == launch && gang.isNone && !sts.isEmpty then { l with asked := true } else l }).answer (.preempted 0)

/-- R294, R349: a strand has timed out for more than 20 µs: its gang gives way to a pre-empted strand of its launch of lower INDEX whose
gang would fit in what it holds; its accumulated time is cleared. -/
def State.yieldCheck (s : State) (c : Fin 192) (st : Strand) : State :=
  let mine := (s.cores.toList.zipIdx.filterMap fun k => match k.1.strand with | some t => if t.gang == st.gang then some k.2 else none | none => none)
  let clusters := (mine.map (· / 4)).dedup
  let fits (u : Cand) : Bool :=
    if u.level = 2 then decide (u.size ≤ (clusters.filter fun q => (mine.filter fun c => c / 4 == q).length == 4).length)
    else clusters.any fun q => decide (u.size ≤ (mine.filter fun c => c / 4 == q).length)
  if s.haltedCands.any fun u => u.launch == st.launch && decide (u.index < st.index) && fits u then
    let s1 := (s.setSt c { st with slept := 0 }).preemptGang st.gang true
    { s1 with launches := s1.launches.map fun l => if l.id == st.launch then { l with given := l.given ++ mine } else l }
  else s

/-- WAITA_TIMEOUT (R120, R294): code 1, and the time waited counts toward the yield interval. -/
def execWaitaTimeout (c : Fin 192) (s : State) : Out :=
  strandEvent c (fun s st =>
    match st.sleep with
    | none => s
    | some z =>
      match z.ends with
      | none => s
      | some e =>
        if dtime s.tick < e || s.mons[c].hit || s.held c then s
        else
          let st1 := { st with slept := st.slept + (dtime s.tick - z.since) }
          let s1 := (s.wakeWith c st1 z.xd 1).finish c .s (s.word? st .s) .seq 1
          if st1.slept ≤ 20000 then s1
          else match s1.strand? c with
            | some t => s1.yieldCheck c t
            | none => s1) s

/-- R128: the gang of a strand that yields is pre-empted; its own S goes no further than the word after YIELD. -/
def State.yield (s : State) (st : Strand) : State :=
  let s1 := s.preemptGang st.gang true
  { s1 with preqs := s1.preqs.map fun r => if r.sid == st.sid then { r with stops := true } else r }

/-- YIELD (R128, R339): where a candidate ranks at or above the strand its gang is pre-empted; in a handler it is a NOP. -/
def execYield (r : Bool) (s : State) : Out :=
  issue .s r true [] (fun s _ st =>
    if !st.handler && s.cands.any fun u => !keyLt (s.strandKey st) (s.candKey u) then .ok (s.yield st) .seq 1
    else .ok s .seq 1) s

end Sys2Proof.Machine
end

