-- ==== Sys2Proof/Machine/Image.lean ====
section
/-! DEFINITION. The images of R334: the typed-buffer state of a core, a cluster; and what a poisoned line of a context image restores as
(R394). -/

namespace Sys2Proof.Machine

open Sys2Proof

/- Typed-buffer state. -/

/-- Bytes of one region copied to another under a key. -/
def Mem.carry (m : Mem) (src dst n tag : Nat) : Mem := m.putAll tag dst ((m.span src n).map some)

/-- R334: line poison as bits. -/
def Mem.poisonBits (m : Mem) (a lines : Nat) : List Byte :=
  (List.range (lines / 8)).map fun i => BitVec.ofNat 8 (bitsNat ((List.range 8).map fun j => m.bad (lineOf a + 8 * i + j)))

def WPlane.bytes (p : WPlane) : List Byte :=
  leBytes 8 (p.load.toNat + p.fmt.toNat * 2 ^ 4 + p.smode.toNat * 2 ^ 8 + p.fault.isSome.toNat * 2 ^ 63) ++ leBytes 8 (p.fault.getD 0)

/-- R334: the state of a core's image beyond its buffers, as pieces at their offsets. -/
def TBuf.image (t : TBuf) (m : Mem) : List (Nat × List Byte) :=
  let g3 (p : WPlane) : List Byte := p.g3.flatMap fun c => c.flatMap fun g => leBytes 2 g.toNat
  let ws (p : WPlane) : List Byte := p.w.flatMap fun c => c.flatMap fun w => leBytes 2 w.toNat
  [(0x900000, (t.bfmtW.toList ++ t.bfmtA.toList).flatMap fun b => leBytes 8 b.toNat),
   (0x900200, t.wp0.bytes ++ t.wp1.bytes ++ leBytes 8 t.sp0.kind.toNat ++ leBytes 8 t.sp1.kind.toNat ++ [if t.active then 1 else 0]),
   (0x900400, leBytes 32 t.wp0.colBad.toNat ++ leBytes 32 t.wp1.colBad.toNat ++ leBytes 32 t.sp0.colBad.toNat ++ leBytes 32 t.sp1.colBad.toNat),
   (0x900500, leBytes 128 t.rowp.toNat), (0x900600, t.colp.toList.flatMap fun c => leBytes 32 c.toNat),
   (0x901000, t.sp0.entries.toList.flatMap fun e => leBytes 2 e.toNat), (0x901800, t.sp1.entries.toList.flatMap fun e => leBytes 2 e.toNat),
   (0x902000, g3 t.wp0), (0x902800, g3 t.wp1),
   (0x904000, m.poisonBits (wbufAddr t.id 0) 65536), (0x906000, m.poisonBits (abufAddr t.id 0) 65536),
   (0x910000, ws t.wp0), (0x920000, ws t.wp1)]

/-- R334: a core image written at an address. -/
def Mem.putCore (m : Mem) (t : TBuf) (dst tag : Nat) : Mem :=
  let m1 := ((m.carry (wbufAddr t.id 0) dst 0x400000 tag).carry (abufAddr t.id 0) (dst + 0x400000) 0x400000 tag).carry
    (cbufAddr t.id 0) (dst + 0x800000) 0x100000 tag
  (t.image m).foldl (fun m p => m.putAll tag (dst + p.1) (p.2.map some)) m1

/-- R334: a cluster image laid out at an address: its four cores' states, its yard and the yard's line poison. -/
def Mem.putCluster (m : Mem) (tbs : List (Option TBuf)) (yard dst tag : Nat) : Mem :=
  let m1 := tbs.zipIdx.foldl (fun m t => match t.1 with | some b => m.putCore b (dst + 0xA00000 * t.2) tag | none => m) m
  (m1.putAll tag (dst + 0x2740000) ((m.poisonBits (yardAddr yard 0) 393216).map some)).carry (yardAddr yard 0) (dst + 0x2800000) yardLimit tag

/-- R334: the bytes of a cluster image, laid out in a region that nothing else uses. -/
def Mem.clusterImage (m : Mem) (tbs : List (Option TBuf)) (yard : Nat) : List Byte :=
  (m.putCluster tbs yard (yardAddr (2 ^ 40) 0) 0).span (yardAddr (2 ^ 40) 0) imageSlot

/- What a poisoned line restores as (R394). -/

/-- The first address of a line of a context image. -/
def imgLine (l : Nat) : Nat := 64 * l

/-- R394: does a line of the image hold only register contents or queue entries. -/
def lineHarmless (l : Nat) : Bool :=
  let a := imgLine l
  (decide (0x280 ≤ a) && decide (a < 0xC00)) || (decide (0xF00 ≤ a) && decide (a < 0x11000))

/-- Queue entries of a line poisoned. -/
def poisonQ (q : Fifo QEntry) (base a : Nat) : Fifo QEntry :=
  { q with items := q.items.zipIdx.map fun e => if lineOf (base + 16 * e.2) = lineOf a then { e.1 with plo := true, phi := true } else e.1 }

def poisonR (q : Fifo REntry) (l : Nat) : Fifo REntry :=
  { q with items := q.items.zipIdx.map fun e => if lineOf (0x280 + 8 * e.2) = l then { e.1 with bad := true } else e.1 }

/-- R394: a strand restored from an image with a poisoned line. -/
def Strand.restoreLine (st : Strand) (l : Nat) : Strand :=
  let a := imgLine l
  if a < 0x300 then { st with qr := poisonR st.qr l }
  else if a < 0x400 then { st with qv := poisonQ st.qv 0x300 a }
  else if a < 0x500 then { st with qm := poisonQ st.qm 0x400 a }
  else if a < 0x600 then { st with qh := poisonQ st.qh 0x500 a }
  else if a < 0xC00 then
    let m := BitVec.ofNat 16 (0xFF * 256 ^ ((a - 0x600) / 64 % 2))
    { st with pbad := Vector.ofFn fun j : Fin 16 => if j.val == (a - 0x600) / 128 then st.pbad[j] ||| m else st.pbad[j] }
  else if a < 0x1000 then { st with xbad := (st.xbad ||| BitVec.ofNat 32 (0xFF * 2 ^ ((a - 0xF00) / 8))) &&& ~~~1#32 }
  else { st with vbad := poisonRow st.vbad ((a - 0x1000) / 4096) ((a - 0x1000) / 256 % 16) }

end Sys2Proof.Machine
end

