-- ==== Sys2Proof/Machine/Pack.lean ====
section
/-! DEFINITION. Pack format (R380 to R383): a packed block from 4 KiB, and what a packed block expands to. -/

namespace Sys2Proof.Machine

open Sys2Proof

/-- Sector `i` of 4 KiB of bytes. -/
def sector (bs : List Byte) (i : Nat) : List Byte := (bs.drop (64 * i)).take 64

/-- R380: a block header. -/
def packHeader (nz psn mode blen : Nat) : List Byte :=
  leBytes 8 nz ++ leBytes 8 psn ++ leBytes 8 (mode + blen * 2 ^ 16) ++ leBytes 8 0

/-- R381: a lossless block; `bad` are the sectors read from poisoned lines. -/
def packLossless (bs : List Byte) (bad : List Nat) : List Byte :=
  let kept := (List.range 64).filter fun i => !bad.contains i && (sector bs i).any (· != 0)
  let nz := bitsNat ((List.range 64).map kept.contains)
  let psn := bitsNat ((List.range 64).map bad.contains)
  packHeader nz psn 0 (2 + 4 * kept.length) ++ kept.flatMap (sector bs)

/-- The values of `n` bytes each of a run of bytes. -/
def valuesOf (f : Fmt) (n : Nat) (bs : List Byte) : List Val :=
  (List.range (bs.length / n)).map fun i => f.read (leNat ((bs.drop (n * i)).take n))

/-- R382: a block quantised by R38 to E4M3 in MX blocks of 32 values. -/
def packLossy (f : Fmt) (n mode : Nat) (bs : List Byte) : List Byte :=
  let vs := valuesOf f n bs
  let qs := (List.range (vs.length / 32)).map fun i => quantise .e4m3 8 ((vs.drop (32 * i)).take 32)
  packHeader 0 0 mode ((32 + vs.length / 32 + vs.length) / 16) ++ qs.map Prod.fst ++
    qs.flatMap fun q => q.2.2.map fun e => e.1.extractLsb' 0 8

/-- R380 to R382: a packed block; mode 0 is lossless, 1 lossy from FP32, 2 lossy from BF16. -/
def packBlock (mode : Nat) (bs : List Byte) (bad : List Nat) : List Byte :=
  let l := packLossless bs bad
  if mode = 0 || !bad.isEmpty then l
  else
    let q := if mode = 1 then packLossy .fp32 4 1 bs else packLossy .bf16 2 2 bs
    if l.length ≤ q.length then l else q

/-- R383: what the header of a packed block says: its mode, NZ, PSN and length in bytes. -/
structure BlockHead where
  mode : Nat
  nz : Nat
  psn : Nat
  size : Nat
deriving DecidableEq, Repr

/-- R383: the header of a packed block, checked. -/
def packHead (h : List Byte) : Option BlockHead :=
  let nz := leNat (h.take 8)
  let psn := leNat ((h.drop 8).take 8)
  let ctl := leNat ((h.drop 16).take 8)
  let mode := ctl % 16
  let blen := ctl / 2 ^ 16 % 2 ^ 16
  let kept := ((List.range 64).filter fun i => nz.testBit i).length
  let want := if mode = 0 then 2 + 4 * kept else if mode = 1 then 68 else 134
  if 3 ≤ mode || ctl / 16 % 2 ^ 12 != 0 || ctl / 2 ^ 32 != 0 || leNat ((h.drop 24).take 8) != 0 || nz &&& psn != 0 || blen != want then none
  else some { mode := mode, nz := nz, psn := psn, size := 16 * blen }

/-- R383: the stored sectors of a lossless block at their places. -/
def unpackSectors (nz : Nat) : List Nat → List Byte → List Byte
  | [], _ => []
  | i :: rest, bs =>
    if nz.testBit i then bs.take 64 ++ unpackSectors nz rest (bs.drop 64) else List.replicate 64 0 ++ unpackSectors nz rest bs

/-- R383: the elements of a lossy block, `n` bytes each. -/
def unpackLossy (f : Fmt) (n : Nat) (bs : List Byte) : List Byte :=
  let count := 4096 / n
  (List.range count).flatMap fun i =>
    let s := bs.getD (i / 32) 0
    let q := bs.getD (count / 32 + i) 0
    leBytes n ((f.convert rmRNE false (dequantise .e4m3 (q.zeroExtend 32) s)).1.toNat)

/-- R383: what a checked block expands to, with its poisoned sectors. `body` are the bytes after its header. -/
def unpackBody (mode nz psn : Nat) (body : List Byte) : List Byte × List Nat :=
  if mode = 0 then (unpackSectors nz (List.range 64) body, (List.range 64).filter fun i => psn.testBit i)
  else if mode = 1 then (unpackLossy .fp32 4 body, [])
  else (unpackLossy .bf16 2 body, [])

/-- R212, R383: destination lines that receive bytes from poisoned lines of the image itself; `bad` are offsets in the block. -/
def unpackBad (mode nz : Nat) (bad : List Nat) : List Nat :=
  let body := (bad.filter fun i => decide (32 ≤ i)).map (· - 32)
  match mode with
  | 0 =>
    let kept := (List.range 64).filter fun i => nz.testBit i
    (body.map fun i => kept.getD (i / 64) 0).dedup
  | _ =>
    let n := if mode = 1 then 4 else 2
    let scales := 4096 / n / 32
    (body.flatMap fun i => if i < scales then (List.range (32 * n / 64)).map (32 * n / 64 * i + ·) else [(i - scales) * n / 64]).dedup

/-- R212, R383: the header of a block as an engine takes it. Where it lies in a poisoned line the whole block is written poisoned; the
length of the block, and so the place of the next, is then open: it is a free value (DESIGN CHOICE, log). -/
def blockHead (h : List Byte) (bad : Bool) (free : Nat) : Option BlockHead :=
  if bad then some { mode := 0, nz := 0, psn := 2 ^ 64 - 1, size := 32 + 16 * ((Config.freeWord free 0).toNat % 257) } else packHead h

/-- R212, R383: the 4 KiB of a block, and its sectors that are written poisoned, as zeros; `bad` are the poisoned offsets of the block. -/
def expandBlock (b : BlockHead) (body : List Byte) (bad : List Nat) : List Byte × List Nat :=
  let (out, sect) := unpackBody b.mode b.nz b.psn body
  let lines := (sect ++ unpackBad b.mode b.nz bad).dedup
  (out.zipIdx.map fun x => if lines.contains (x.2 / 64) then 0 else x.1, lines)

/-- R313, R383: `n` blocks of a packed image in memory expanded: their bytes, and the poisoned lines of them. -/
def Mem.unpack (m : Mem) (tag free : Nat) : Nat → Nat → List Byte × List Nat
  | 0, _ => ([], [])
  | n + 1, a =>
    match blockHead (m.readBad tag a 32).1 (m.anyBad a 32) free with
    | none => ([], [])
    | some b =>
      let (bs, bad) := m.readBad tag a (if m.anyBad a 32 then 32 else b.size)
      let (out, lines) := expandBlock b (bs.drop 32) bad
      let (rest, more) := m.unpack tag (free + 1) n (a + b.size)
      (out ++ rest, lines ++ more.map (64 + ·))

end Sys2Proof.Machine
end

