-- ==== Sys2Proof/Machine/Preempt.lean ====
section
/-! DEFINITION. Pre-emption and return (R321 to R336, R348 to R350), the moves of contexts and images (R328, R329, R313), and the
start of strands from seeds (R53, R283, R286, R409). -/

namespace Sys2Proof.Machine

open Sys2Proof

/-- PREEMPTION_REQUEST (R321, R322): the request reaches the core and its slots stop; a wait in WAITA ends with code 2 and the monitor
is lost; pre-issue reads and fences that wait are dropped. A trap raised before is delivered first. -/
def execPreemptionRequest (c : Fin 192) (s : State) : Out :=
  strandEvent c (fun s st =>
    match s.preqs.find? fun r => r.sid == st.sid with
    | none => s
    | some r =>
      if st.trapAt.isSome || st.phase != .running then s
      else
        let armed := (s.mons[c]).line.isSome
        let st1 := match st.sleep with
          | some z => (({ st with sleep := none }).xput z.xd 2 false).advance .s (s.cyc c) (s.word? st .s) .seq 1
          | none => { st with mlost := st.mlost || armed }
        (s.setSt c { st1 with phase := .halting r.yielded, fx := none, fk := none, recReq := none, pre := none }).setMon c { line := none, hit := false }) s

/- The halt. -/

/-- Marks that name cycles of the core that a strand leaves. -/
def Strand.timeless (st : Strand) : Strand :=
  let q (x : Fifo QEntry) : Fifo QEntry := { items := x.items.map fun e => { e with from_ := 0 }, popCyc := 0, pops := 0 }
  { st with
    qv := q st.qv, qm := q st.qm, qh := q st.qh,
    qr := { items := st.qr.items.map fun e => { e with from_ := 0 }, popCyc := 0, pops := 0 },
    tok := st.tok.map fun t => { t with last := 0 }, vshapeSet := 0, fsetCyc := 0, fsetV := 0, fsetM := 0,
    loadFree := 0, arrayFree := 0, drainFree := 0, next := ⟨0, 0, 0, 0⟩ }

/-- R325: PEND of a token is what its aborted copies added to it. -/
def Strand.abortCopies (st : Strand) : Strand :=
  { st with
    copies := st.copies.map fun k => { k with segs := k.segs.map fun g => { g with st := .idle } },
    tok := Vector.ofFn fun i : Fin 8 =>
      { st.tok[i] with pend := (st.copies.filter fun k => k.tok.toNat == i.val).foldl (fun n k => n + k.contrib) 0 } }

/-- R325, R350: the requests of copies that have not started their slots are withdrawn. -/
def Core.withdraw (k : Core) (sid : Nat) : Core :=
  { k with reqs := k.reqs.filter fun r => match r.who with
      | .copyRead a _ _ => a != sid
      | .copyWrite a _ _ => a != sid
      | _ => true }

/-- R325: the destination bytes of an aborted copy that had landed are undefined until it lands again. -/
def State.undefineLanded (s : State) (ks : List Copy) : State :=
  (ks.flatMap Copy.segs).foldl (fun s g => match g.dst with
    | some a => if g.st == .landed then s.undefine a g.len g.dstTag else s
    | none => s) s

/-- A core whose strand has halted or ended on it. -/
def State.emptyCore (s : State) (c : Fin 192) (sid : Nat) : State :=
  let s1 := (s.setCore c (((s.cores[c]).withdraw sid).vacated (s.clusters[clusterOf c]).cyc)).setMon c { line := none, hit := false }
  { s1 with preqs := s1.preqs.filter fun r => r.sid != sid }

/-- COPY_ABORT (R323, R325, R331): V and M have drained; the copies are aborted and recorded, and the strand is halted. A strand of a
launch that ends is discarded once its accesses have been performed (R314, R341). -/
def execCopyAbort (c : Fin 192) (s : State) : Out :=
  strandEvent c (fun s st =>
    if !(st.vpend.isEmpty && st.mpend.isEmpty) then s
    else
      match st.phase with
      | .running => s
      | .dying => if st.accs.isEmpty then ((s.endStrand c st).emptyCore c st.sid).unreserveSid st.sid else s
      | .halting _ =>
        let st1 := { (st.settle (s.cyc c + 8192)).abortCopies with scycBase := (s.scyc c st).toNat }
        let h : Halted := { st := st1.timeless, core := c, place := .core c.val, time := dtime s.tick, badLines := [] }
        let s1 := (s.undefineLanded st.copies).emptyCore c st.sid
        { s1 with halted := s1.halted ++ [h] }.release (c.val / 4)) s

/- Where contexts and images lie. -/

def State.setHalted (s : State) (h : Halted) : State :=
  { s with halted := s.halted.map fun o => if o.st.sid = h.st.sid then h else o }

/-- A granary slot given up. -/
def State.freeGranary (s : State) (sid : Nat) : State :=
  { s with clusters := s.clusters.map fun q => { q with granary := q.granary.map fun g => if g = some sid then none else g } }

/-- GRANARY_SWAP (R328): a halted context moves from its core into a free granary slot of the cluster. -/
def execGranarySwap (c : Fin 192) (s : State) : Out :=
  match s.halted.find? fun h => h.place == .core c.val with
  | none => .next s
  | some h =>
    let q := clusterOf c
    let x := s.clusters[q]
    match (List.finRange 8).find? fun i => (x.granary[i]).isNone with
    | none => .next s
    | some i =>
      let s1 := { s with clusters := s.clusters.set q { x with granary := x.granary.set i (some h.st.sid) } }
      .next (s1.setHalted { h with place := .granary q.val i.val })

/-- A context image written at an address under a key, the poisoned lines of it marked (R330, R394), and the traffic counted. -/
def State.putContext (s : State) (h : Halted) (a tag : Nat) : State :=
  ((s.movedBytes h.st.part a h.bytes.length).commit (MWrite.plain a tag h.bytes)).commit (MWrite.mark (h.badLines.map (lineOf a + ·)))

/-- R394: the poisoned lines of a context image, those found where it lies among them. -/
def State.imageBad (s : State) (h : Halted) : List Nat :=
  match h.place with
  | .save a => (h.badLines ++ (s.mem.badLines a h.bytes.length).map (· - lineOf a)).dedup
  | .silo a => (h.badLines ++ (s.mem.badLines (siloAddr a) h.bytes.length).map (· - lineOf (siloAddr a))).dedup
  | _ => h.badLines

/-- R319, R374: the image of a context read back from the save area or the silo. -/
def State.readContext (s : State) (h : Halted) : State :=
  match h.place with
  | .save a => s.movedBytes h.st.part a h.bytes.length
  | .silo a => s.movedBytes h.st.part (siloAddr a) h.bytes.length
  | _ => s

/-- A context's place given back, and what was reserved for it. -/
def State.freePlace (s : State) (h : Halted) : State :=
  let s1 := s.unreserveSid h.st.sid
  let p := s1.parts[h.st.part]
  match h.place with
  | .save a => s1.setPart h.st.part { p with save := p.save.give (a - p.save.base) }
  | .silo a => s1.setPart h.st.part { p with park := p.park.give (a - p.park.base) }
  | _ => s1.freeGranary h.st.sid

/-- SAVE_AREA_MOVE of a context (R313, R328, R329, R334): from its core or granary slot into the partition's save area, or, of a parked
launch, from wherever it lies into the park area in the silo; its poison goes with it. -/
def State.moveContext (s : State) (h : Halted) : State :=
  let h1 := { h with badLines := s.imageBad h }
  let p := s.parts[h.st.part]
  let parked := match s.launch? h.st.launch with | some l => l.parked | none => false
  if parked then
    match h.place, p.park.find ctxSlot with
    | .silo _, _ => s
    | _, none => s
    | _, some o =>
      let s1 := (s.readContext h).freePlace h
      let q := s1.parts[h.st.part]
      ((s1.setPart h.st.part { q with park := q.park.take o ctxSlot }).setHalted { h1 with place := .silo (p.park.base + o) }).putContext h1
        (siloAddr (p.park.base + o)) p.keyId
  else
    match h.place with
    | .silo _ => s
    | .save _ => s
    | _ =>
      match s.savePlace h.st.part ctxSlot h.st.sid 0 0 with
      | none => s
      | some (s1, o) => ((s1.freeGranary h.st.sid).setHalted { h1 with place := .save (p.save.base + o) }).putContext h1 (p.save.base + o) p.keyId

/-- R313: a cluster image in pack format. -/
def packImage (bs : List Byte) : List Byte :=
  (List.range (bs.length / 4096)).flatMap fun i => packBlock 0 ((bs.drop (4096 * i)).take 4096) []

/-- R313: every image of a parked launch has left: its resume seed is written into the park area, with its JOIN the number of images;
a launch that held no cluster has nothing to wait for when it resumes. -/
def State.writeResumeSeed (s : State) (l : Launch) : State :=
  let p := s.parts[l.part]
  match p.park.find 64 with
  | none => s
  | some o =>
    let a := siloAddr (p.park.base + o)
    let r : SeedRec := { entry := 0, frame := 0, join := BitVec.ofNat 32 l.parkImgs.length, flags := 0xC7, index := 0,
                         launch := BitVec.ofNat 16 l.id, place := 0 }
    let s1 := s.setPart l.part { p with park := p.park.take o 64 }
    (s1.setLaunch { l with parkSeed := some a }).commit
      (MWrite.plain a p.keyId (leBytes 8 0 ++ leBytes 8 0 ++ leBytes 8 r.unit.toNat ++ leBytes 8 r.tail.toNat))

/-- R313: no strand of a launch runs, and no halted context of it is on its way. -/
def State.launchHalted (s : State) (id : Nat) : Bool :=
  !(s.cores.toList.any fun k => match k.strand with | some st => st.launch == id | none => false) &&
    !(s.placing.any fun p => p.launch == id) && (s.halted.filter fun h => h.st.launch == id).all fun h => match h.place with
      | .silo _ => true
      | _ => false

/-- SAVE_AREA_MOVE of the image of slot `k` of a launch (R223, R313, R329, R334). A parked launch's image is packed into the park area
and its slot leaves the cluster; the last one leaves the resume seed behind it. A resuming launch's image is unpacked into the save
area by the chain that the command processor starts for it, here one step, and the NOTE that ends the chain joins the resume seed. Another launch's image goes to the place reserved for it. -/
def State.moveImage (s : State) (l : Launch) (k : Nat) : State :=
  let p := s.parts[l.part]
  match l.slots[k]? with
  | none => s
  | some sl =>
    if l.resuming then
      match l.parkImgs.find? fun g => g.slot == k, p.save.find imageSlot with
      | some g, some o =>
        let s1 := s.setPart l.part { p with save := p.save.take o imageSlot, park := p.park.give (g.addr - p.park.base) }
        let l1 := { l with parkImgs := l.parkImgs.filter fun h => h.slot != k,
                           slots := l.slots.modify k fun x => { x with img := some (p.save.base + o, true) } }
        let (bs, bad) := s.mem.unpack p.keyId s.free (imageSlot / 4096) (siloAddr g.addr)
        let s2 := { ((s1.setLaunch l1).movedBytes l.part (siloAddr g.addr) g.len).movedBytes l.part (p.save.base + o) imageSlot with
          free := s1.free + imageSlot / 4096 }
        let s3 := (s2.commit (MWrite.plain (p.save.base + o) p.keyId bs)).commit (MWrite.mark (bad.map (lineOf (p.save.base + o) + ·)))
        match l.parkSeed with
        | some a => (s3.joinAt l.part 0 a p.keyId).getD s3
        | none => s3
      | _, _ => s
    else if l.parked then
      match sl.cluster with
      | none => s
      | some q =>
        if !s.launchHalted l.id then s
        else
          match p.park.find (imageSlot * 65 / 64) with
          | none => s
          | some o =>
            let bs := packImage (s.mem.clusterImage (s.slotTbs l sl) sl.yard)
            let a := p.park.base + o
            let s1 := ((s.setPart l.part { p with park := p.park.take o bs.length }).movedBytes l.part (siloAddr a) bs.length).commit (MWrite.plain (siloAddr a) p.keyId bs)
            let l1 := { l with parkImgs := l.parkImgs ++ [{ slot := k, addr := a, len := bs.length }],
                               slots := l.slots.modify k fun x => { x with cluster := none, prev := some q } }
            let s2 := s1.setLaunch l1
            match s2.cluster? q with
            | some x => s2.setCluster q { x with holder := none, yard := none, left := some l.part }
            | none => s2
    else
      match sl.img with
      | some (a, false) =>
        let s1 := s.setLaunch { l with slots := l.slots.modify k fun x => { x with img := some (a, true) } }
        (s1.movedBytes l.part a imageSlot).commit (MWrite.plain a p.keyId (s.mem.clusterImage (s.slotTbs l sl) sl.yard))
      | _ => s

/-- R313: a parked launch all of whose images and contexts have left, and whose resume seed is still to be written. -/
def State.seedDue (s : State) (l : Launch) : Bool :=
  l.parked && !l.resuming && l.parkSeed.isNone && s.launchHalted l.id && l.slots.all fun sl => sl.cluster.isNone

/-- SAVE_AREA_MOVE (R223, R313, R328, R329): of the context of a strand, or, with no strand named, of a slot's image or the resume seed
of a launch. -/
def execSaveAreaMove (sid launch k : Nat) (s : State) : Out :=
  if sid != 0 then
    match s.halted.find? fun h => h.st.sid == sid with
    | some h => .next (s.moveContext h)
    | none => .next s
  else
    match s.launch? launch with
    | none => .next s
    | some l => if s.seedDue l then .next (s.writeResumeSeed l) else .next (s.moveImage l k)

/- Resumption. -/

/-- R203, R335: the rows of a re-issued indexed copy: those whose index line is poisoned, or that fail the checks of R193, move
nothing: they are given with their codes and addresses. -/
def State.regather (s : State) (launch : Nat) (loc : Local) (k : Copy) : List Seg × List (BitVec 2 × W64) :=
  let scat := k.kind == 4
  let base := yardAddr loc.yard 0
  (List.range (gathCount k.arg)).foldl (fun acc j =>
    let at_ := gathList k.arg + 4 * j
    if s.mem.bad (lineOf (base + at_)) then (acc.1, acc.2 ++ [(1, adr64 (at_ / 64 * 64))])
    else
      match s.gathSegs launch loc k.sspace k.dspace scat k.dst k.src k.arg [(j, s.mem.index loc.yard (gathList k.arg) j)] with
      | .ok segs => (acc.1 ++ segs, acc.2)
      | .error e => (acc.1, acc.2 ++ [(3, e.2)])) ([], [])

/-- The pieces of a row list, with no check repeated (R335). -/
def okSegs (r : Except (Cause × W64) (List Seg)) : List Seg :=
  match r with
  | .ok g => g
  | .error _ => []

/-- R201, R335: a re-issued converting copy converts by the formats of its record. -/
def State.reconvert (s : State) (loc : Local) (k : Copy) : List Seg :=
  match Fmt.ofCode k.sfmt, Fmt.ofCode k.dfmt with
  | some sf, some df =>
    let len := k.lm1.toNat + 1
    convSegs s.mem (loc.addr k.sspace k.src.toNat) (loc.addr k.dspace k.dst.toNat) k.src k.dst sf df len (k.arg.toNat / sf.pitch len) k.mark
  | _, _ => []

/-- R335: the pieces of a re-issued record, and what befell the rows that it does not move. -/
def State.resegment (s : State) (c : Fin 192) (st : Strand) (k : Copy) : List Seg × List (BitVec 2 × W64) :=
  let loc := s.locals c st
  match k.kind with
  | 1 =>
    if k.conv then (s.reconvert loc k, [])
    else (okSegs (s.allSegs st.launch loc loc k.sspace k.dspace [(k.src.toNat, k.dst.toNat, k.arg.toNat)]), [])
  | 2 => (okSegs (s.allSegs st.launch loc loc k.sspace k.dspace (acopy2Rows k.dst k.src k.arg)), [])
  | 5 =>
    let targets := match s.gang? st.gang with
      | some g => s.castTargets g (k.arg.extractLsb' 24 5).toNat k.dspace
      | none => []
    (okSegs (s.castSegs st.launch loc k.sspace k.dspace (k.src.toNat, k.dst.toNat, (k.arg.extractLsb' 0 24).toNat) targets), [])
  | 6 =>
    let bs : List (Option Byte) := if k.noteBad then List.replicate 8 none else (leBytes 8 k.arg.toNat).map some
    let bad := if k.noteBad then [0] else []
    (k.segs.map fun g => { g with st := .ready bs bad }, [])
  | _ => s.regather st.launch loc k

/-- R335: a record is re-issued on its token; rows that move nothing count as landed and set the condition. -/
def State.reissue (s : State) (c : Fin 192) (k : Copy) : State :=
  match s.strand? c with
  | none => s
  | some st =>
    let (segs, lost) := s.resegment c st k
    let rb := gathBytes k.arg
    let st1 := lost.foldl (fun t e => (t.landed k.tok 0 rb).setCond k.tok e.1 e.2) st
    if k.kind = 6 then
      s.setSt c { st1 with copies := st1.copies ++ [{ k with cid := st1.nextCid, segs := segs }], nextCid := st1.nextCid + 1 }
    else s.startCopy c st1 { k with segs := segs } false

/-- R335: a halted strand stands on a core again, its records re-issued in order; its view of the constant path is fresh. -/
def State.resumeOn (s : State) (h : Halted) (c : Fin 192) : State :=
  let bad := s.imageBad h
  let s1 := (s.readContext h).freePlace h
  let s2 := { s1 with halted := s1.halted.filter fun o => o.st.sid != h.st.sid }
  let cyc := s2.cyc c
  if !bad.all lineHarmless then (s2.logFault h.st 0).endLaunch h.st.launch 3
  else
    let st := bad.foldl Strand.restoreLine h.st
    let st1 := { st with phase := .running, next := ⟨cyc, cyc, cyc, cyc⟩, scycSince := cyc, copies := [], slept := 0,
                            rvGo := ⟨false, false, false, false⟩ }
    let s3 := ((s2.setCore c { s2.cores[c] with strand := some st1, pmSince := (s2.clusters[clusterOf c]).cyc }).setMon c { line := none, hit := false }).discardK c
    h.st.copies.foldl (fun s k => s.reissue c k) s3

/-- Is a core ready for a strand that is placed on it: nothing stands on it, its cluster is powered and the placing launch's. -/
def State.coreReady (s : State) (launch : Nat) (c : Nat) : Bool :=
  if h : c < 192 then
    let q := s.clusters[clusterOf ⟨c, h⟩]
    (s.cores[c]).strand.isNone && !(s.halted.any fun x => x.place == .core c) && !q.gated &&
      (match q.holder with | some (id, _) => id == launch | none => false)
  else false

/-- R286, R301: is the present tick one in which strands of a clock mode may start: a rotation edge for fixed timing. -/
def State.edge (s : State) (fixed : Bool) : Bool := !fixed || s.tick % 400 == 0

/-- R324, R328: can a halted context be loaded into a core now. -/
def Halted.ready (h : Halted) (c : Nat) : Bool :=
  h.st.accs.isEmpty && match h.place with
    | .core _ => false
    | .granary q _ => q == c / 4
    | _ => true

def coreOf (c : Nat) : Fin 192 := ⟨c % 192, Nat.mod_lt _ (by omega)⟩

/-- Work that has started leaves the list of placings. -/
def State.dropPlacing (s : State) (i : Nat) : State := { s with placing := s.placing.eraseIdx i }

/-- STRAND_RESUME (R301, R324, R335, R336): the strands of a placing resume together once their cores and contexts are ready. -/
def execStrandResume (i : Nat) (s : State) : Out :=
  match s.placing[i]? with
  | none => .next s
  | some p =>
    let hs := p.sids.filterMap fun sid => s.halted.find? fun h => h.st.sid == sid
    if p.seed.isSome then .next s
    else if hs.length != p.sids.length || (match s.launch? p.launch with | some l => l.parked || l.ending != .live | none => true) then
      .next (s.dropPlacing i)
    else if !((hs.zip p.cores).all fun x => x.1.ready x.2 && s.coreReady p.launch x.2) || !s.edge (hs.any fun h => h.st.clkFixed) then .next s
    else
      let gid := (hs.head?.map fun h => h.st.gang).getD 0
      let s1 := { s.dropPlacing i with
        gangs := s.gangs.map fun g => if g.gid == gid then { g with slots := p.slots } else g,
        launches := s.launches.map fun l => if l.id == p.launch then { l with asked := false } else l }
      .next ((hs.zip p.cores).foldl (fun s x => s.resumeOn x.1 (coreOf x.2)) s1)

/- Start. -/

def WPlane.empty : WPlane :=
  { load := 0, fmt := 0, smode := 0, colBad := 0, fault := none, w := List.replicate 256 [], g3 := List.replicate 256 [] }

def SPlane.empty : SPlane := { kind := 0, colBad := 0, entries := Vector.replicate 1024 0 }

/-- R409: fresh typed-buffer state of a launch. -/
def TBuf.fresh (id : Nat) (l : Launch) : TBuf :=
  { id := id, bfmtW := l.banksW, bfmtA := l.banksA, wp0 := .empty, wp1 := .empty, sp0 := .empty, sp1 := .empty, active := false,
    rowp := 0, colp := Vector.replicate 16 0 }

/-- R165, R409: the planes that a strand finds at its start. -/
def TBuf.atStart (t : TBuf) : TBuf := { t with wp0 := .empty, wp1 := .empty, sp0 := .empty, sp1 := .empty, active := false }

def LBuf.idle : LBuf := { valid := false, start := 0, remaining := 0, len := 0, pos := 0, captured := false, words := [] }

/-- Whose strand it is (R280, R285). -/
structure StrandId where
  sid : Nat
  index : Nat
  member : Nat
  gang : Nat
  prio : BitVec 3
  level : BitVec 2
  volt : Nat
deriving DecidableEq, Repr, Inhabited

/-- R53, R71, R286: the trap record is zero at the start (DESIGN CHOICE, log: R71's table gives its registers no value); the state with which a strand starts from a seed; `heads` are the entries of the image header for S, V, M, H. -/
def Strand.start (l : Launch) (d : StrandId) (sd : Seed) (heads : PerSlot W64) (fixed : Bool) (cyc : Nat) (tb : TBuf) : Strand :=
  { sid := d.sid, launch := l.id, part := l.part, index := d.index, member := d.member, gang := d.gang, prio := d.prio,
    level := d.level, volt := d.volt, phase := .running,
    pc := { heads with s := heads.s + sd.entry }, ended := ⟨false, heads.v == 0, heads.m == 0, heads.h == 0⟩, next := ⟨cyc, cyc, cyc, cyc⟩,
    x := Vector.replicate 32 0, xbad := 0, xpend := [], cpend := [],
    v := Vector.replicate 16 (Vector.replicate 1024 0), vbad := Vector.replicate 16 0, p := Vector.replicate 16 0,
    pbad := Vector.replicate 16 0, vpend := [], vseq := 0,
    ma := Vector.replicate 8 0, ts := Vector.replicate 4 0, tspend := [], bpend := [],
    mrep := { valid := false, remaining := 0, mask := 0 }, mpend := [], mseq := 0, loadFree := 0, arrayFree := 0, drainFree := 0,
    f := Vector.replicate 16 0, qv := .empty, qm := .empty, qh := .empty, qr := .empty,
    tok := Vector.replicate 8 { pend := 0, last := 0, cond := 0, caddr := 0 }, copies := [], nextCid := 1, pre := none,
    syncmask := 0xF, xown := 0, vshape := 0x3FF, vshapeSet := 0, pmark := false, fstatV := 0, fstatM := 0, fsetCyc := 0, fsetV := 0,
    fsetM := 0, clkFixed := fixed, clkFurrow := fixed && d.level != 0, scycBase := 0, scycSince := cyc,
    trapvec := 0, trapcause := 0, trapslot := 0, trappc := 0, trapaddr := 0, seedptr := sd.addr, frameptr := sd.frame,
    loops := [], lbS := .idle, lbV := .idle, lbH := .idle, handler := false, sresume := 0, sfrom := 0, trapAt := none, efault := 0,
    efaultAddr := [], accs := [], nextAid := 1, fx := none, fk := none, sleep := none, mlost := false, slept := 0,
    rvGo := ⟨false, false, false, false⟩, rvCyc := 0, tb := tb }

/-- The entries of the image header of a variant. -/
def Launch.headsOf (l : Launch) (variant : Nat) : PerSlot W64 :=
  let e (i : Nat) : W64 := l.heads.getD (4 * variant + i) 0
  ⟨e 0, e 1, e 2, e 3⟩

/-- R409: the typed-buffer state that a strand takes at its start: the slot's for that core, or fresh state. -/
def State.takeTb (s : State) (l : Launch) (c : Fin 192) : State × TBuf :=
  let kept : Option TBuf := match (l.slotOf (c.val / 4)).bind fun k => l.slots[k]? with
    | some sl => sl.tbs[c.val % 4]'(Nat.mod_lt _ (by omega))
    | none => none
  match kept with
  | some t => (s.setLaunch (l.keepTb c none), t.atStart)
  | none => ({ s with nextObj := s.nextObj + 1 }, TBuf.fresh s.nextObj l)

/-- R269, R283, R286, R304: a member of a gang starts on a core, under the point under which its seed was placed. -/
def State.startOn (s : State) (launch : Nat) (o : OpPoint) (sd : Seed) (gang : Nat) (j : Nat) (c : Fin 192) : State :=
  match s.launch? launch with
  | none => s
  | some l =>
    let (s1, tb) := s.takeTb l c
    let d : StrandId := { sid := s1.nextSid, index := sd.index, member := j, gang := gang, prio := sd.prio, level := sd.level,
                          volt := o.volt }
    let cyc := s1.cyc c
    let st := Strand.start l d sd (l.headsOf o.variant) o.fixed cyc tb
    (({ s1 with nextSid := s1.nextSid + 1 }.setCore c { s1.cores[c] with strand := some st, pmSince := (s1.clusters[clusterOf c]).cyc }).setMon c
      { line := none, hit := false }).discardK c

/-- A seed that was to start and cannot, in its queue again, whose entry it has kept (R284). -/
def State.requeue (s : State) (p : Fin 64) (sd : Seed) : State :=
  let q := s.parts[p]
  s.setPart p { q with queues := q.queues.set sd.prio.toNat (q.queues[sd.prio.toNat] ++ [sd]) }

/-- STRAND_START (R53, R282, R283, R285, R286, R293, R301): the strands of a placed seed start together once their cores are ready. The
seed waits in its queue again while its launch has a pre-empted strand or is parked; that of an ended launch is discarded. -/
def execStrandStart (i : Nat) (s : State) : Out :=
  match s.placing[i]? with
  | none => .next s
  | some p =>
    match p.seed, s.launch? p.launch with
    | none, _ => .next s
    | some sd, none => .next ((s.dropPlacing i).notice p.part 1 sd.addr.toNat 0)
    | some sd, some l =>
      if l.ending != .live then .next ((s.dropPlacing i).notice l.part 1 sd.addr.toNat 0)
      else if l.parked || s.hasHalted l.id then .next ((s.dropPlacing i).requeue l.part sd)
      else if !(p.cores.all (s.coreReady p.launch)) || !s.edge p.point.fixed then .next s
      else
        let gid := s.nextSid
        let sids := (List.range p.cores.length).map (gid + 1 + ·)
        let g : Gang := { gid := gid, launch := l.id, level := p.level, size := sd.size, slots := p.slots, sids := sids, table := l.mgroups }
        let s1 := { s.dropPlacing i with nextSid := gid + 1, gangs := s.gangs ++ [g] }
        let s2 := s1.setLaunch { l with asked := false, perIndex := l.perIndex ++ [(sd.index, p.cores.length)] }
        .next (p.cores.zipIdx.foldl (fun s x => s.startOn l.id p.point sd gid x.2 (coreOf x.1)) s2)

end Sys2Proof.Machine
end

