-- ==== Sys2Proof/Machine/Xlate.lean ====
section
/-! DEFINITION. Translation of partition addresses: page tables (R343), translation caches (R344), the fault queue (R346), discarded
pages (R388, R389), the yard aperture (R211), and reads and writes of haul engines and the host through them (R212, R359). -/

namespace Sys2Proof.Machine

open Sys2Proof

/-- R344, R374, R396: the tables that a walk of an address reads, one entry a level, as gleaned accesses; a poisoned line of one is counted. A
page whose INVALIDATE has ended with BUSY translates by its previous leaf, and no table is read (R389). -/
def State.walked (s : State) (p : Fin 64) (a : Nat) : State :=
  if s.pins.any fun x => x.holds p a then s
  else (s.tableReads p a).foldl (fun s x => let t := s.gleaned x 8; if s.mem.bad (lineOf x) then t.countPoison x else t) s

/-- R388, R389: a page that a live launch's field names stays discarded, or not, as it was when it launched. -/
def State.pinned (s : State) (p : Fin 64) (a : Nat) : Option Bool :=
  s.launches.findSome? fun l =>
    if l.part != p || l.ending != .live then none
    else (l.fields.find? fun f => f.slot.isNone && decide (f.partbase ≤ a) && decide (a < f.partbase + f.size)).map fun f =>
      l.pageDisc.contains (f.idx, (a - f.partbase) / 2 ^ 16)

/-- The leaf as the page's discard now stands. -/
def State.leafNow (s : State) (p : Fin 64) (a : Nat) (e : W64) : W64 :=
  match s.pinned p a with
  | some true => e ||| 0x10#64
  | some false => e &&& ~~~0x10#64
  | none => e

/-- R343: the permission of a leaf for an access; DISC acts on an access that the leaf permits. -/
def leafFault (e : W64) (write : Bool) : Option FaultKind :=
  if !(if write then e.getLsbD 3 else e.getLsbD 2) then some .permission
  else if write && leafDisc e then some .discarded
  else none

/- Caches (R344). -/

/-- The cached entry of an address. -/
def State.cached (s : State) (e : Fin 25) (p : Fin 64) (a : Nat) : Option Xlat := (s.xlats[e]).find? fun x => x.holds p a

/-- R344: an entry becomes the most recently used; a cache holds 4,096. -/
def State.useXlat (s : State) (e : Fin 25) (x : Xlat) : State :=
  { s with xlats := s.xlats.set e ((x :: (s.xlats[e]).filter fun o => o != x).take 4096) }

/-- R344, R396: the walk that an address costs an engine, where its cache has no entry for it. -/
def State.walkedBy (s : State) (e : Fin 25) (p : Fin 64) (a : Nat) : State := if (s.cached e p a).isSome then s else s.walked p a

/-- R344: the entry by which an engine translates an address: cached, or found by a walk; it becomes the most recently used. -/
def State.fillXlat (s : State) (e : Fin 25) (p : Fin 64) (a : Nat) : Except FaultKind (State × Xlat) :=
  match s.cached e p a with
  | some x => .ok (s.useXlat e x, x)
  | none =>
    match s.leafOf p a with
    | .error k => .error k
    | .ok (leaf, big) => let x : Xlat := { part := p, page := pageOf big a, big := big, leaf := leaf }; .ok (s.useXlat e x, x)

/-- The leaf by which an access of a kind translates from a cache; `none` where there is no entry, or the entry faults. -/
def State.leafFor (s : State) (e : Fin 25) (p : Fin 64) (a : Nat) (write : Bool) : Option Xlat :=
  match s.cached e p a with
  | some x => if (leafFault (s.leafNow p a x.leaf) write).isNone then some x else none
  | none => none

/- Pieces of a range (R344, R211). -/

/-- A run of bytes of a partition range: its partition address, length, physical address and key; `zero` where its page is
discarded. -/
structure HPiece where
  at_ : Nat
  len : Nat
  phys : Nat
  tag : Nat
  zero : Bool
deriving DecidableEq, Repr, Inhabited

/-- What a range lacks: a translation, a legal place, a target that is not gated. -/
inductive HNeed where
  | walk (a : Nat)
  | range (a : Nat)
  | gated (a : Nat)
deriving DecidableEq, Repr, Inhabited

/-- R211: a partition address in the yard aperture. -/
def inAperture (a : Nat) : Bool := a / 2 ^ 31 % 2 ^ 17 == 2 ^ 17 - 1

/-- R211: an address of the aperture, for a launch. -/
def State.apertureTgt (s : State) (l : Launch) (a : Nat) : Except HNeed (Nat × Nat × Bool) :=
  let k := a / 2 ^ 25 % 64
  let off := a % 2 ^ 25
  if yardLimit ≤ off || decide (l.maxTm1 < k) then .error (.range a)
  else if s.slotGated l k then .error (.gated a)
  else .ok (yardAddr (l.yardOf k) off, 0, false)

/-- R226, R343, R355: the target that a leaf gives. -/
def State.leafTgt (s : State) (p : Fin 64) (x : Xlat) (a : Nat) : Except HNeed (Nat × Nat × Bool) :=
  let off := if x.big then a % 2 ^ 21 else a % 2 ^ 16
  let b := leafAddr x.leaf + off
  let zero := leafDisc (s.leafNow p a x.leaf)
  match leafTier x.leaf with
  | 0 => .ok (b, (s.parts[p]).keyId, zero)
  | 1 => .ok (siloAddr b, (s.parts[p]).keyId, zero)
  | 2 => .ok (hostAddr p.val b, 0, zero)
  | _ => if s.peerRefused (leafPeer x.leaf) b then .error (.gated a) else .ok (peerAddr (leafPeer x.leaf) b, 0, zero)

/-- The target of an address of an engine's access for a launch. -/
def State.haulTgt (s : State) (e : Fin 25) (p : Fin 64) (l : Option Launch) (a : Nat) (write : Bool) : Except HNeed (Nat × Nat × Bool) :=
  if 2 ^ 48 ≤ a then .error (.range a)
  else if inAperture a then
    match l with
    | some l => s.apertureTgt l a
    | none => .error (.range a)
  else
    match s.leafFor e p a write with
    | some x => s.leafTgt p x a
    | none => .error (.walk a)

/-- The pieces of a range, split at 64 KiB; the first byte that cannot be reached is named. `fuel` bounds the pieces. -/
def State.haulRun (s : State) (e : Fin 25) (p : Fin 64) (l : Option Launch) (write : Bool) : Nat → Nat → Nat → Except HNeed (List HPiece)
  | 0, _, _ => .ok []
  | fuel + 1, a, n =>
    if n = 0 then .ok []
    else
      match s.haulTgt e p l a write with
      | .error x => .error x
      | .ok (phys, tag, zero) =>
        let k := min n (2 ^ 16 - a % 2 ^ 16)
        match s.haulRun e p l write fuel (a + k) (n - k) with
        | .error x => .error x
        | .ok ps => .ok ({ at_ := a, len := k, phys := phys, tag := tag, zero := zero } :: ps)

/-- Several ranges in order. -/
def State.haulRuns (s : State) (e : Fin 25) (p : Fin 64) (l : Option Launch) (write : Bool) : List (Nat × Nat) → Except HNeed (List HPiece)
  | [] => .ok []
  | r :: rs =>
    match s.haulRun e p l write (r.2 / 2 ^ 16 + 2) r.1 r.2 with
    | .error x => .error x
    | .ok a =>
      match s.haulRuns e p l write rs with
      | .error x => .error x
      | .ok b => .ok (a ++ b)

/- Data (R212). -/

def isHost (a : Nat) : Bool := decide (2 ^ 52 ≤ a) && decide (a < 2 ^ 60)

/-- What pieces hold: their bytes, zero where a line is poisoned or a page discarded, and the offsets of poisoned bytes. -/
def Mem.gather (m : Mem) (ps : List HPiece) : List Byte × List Nat :=
  ps.foldl (fun acc q =>
    if q.zero then (acc.1 ++ List.replicate q.len 0, acc.2)
    else
      let (bs, bad) := m.readBad q.tag q.phys q.len
      (acc.1 ++ bs, acc.2 ++ bad.map (acc.1.length + ·))) ([], [])

/-- R212, R259, R390: data of which an engine lost a line: its first line reads as zero and counts as poisoned. -/
def lostLine (hurt : Bool) (bs : List Byte) (bad : List Nat) : List Byte × List Nat :=
  let n := min 64 bs.length
  if hurt then (List.replicate n 0 ++ bs.drop 64, List.range n ++ bad.filter fun i => decide (64 ≤ i)) else (bs, bad)

/-- R212: bytes written to pieces; lines that receive poisoned bytes are written poisoned, but host memory carries no poison. -/
def hWrites : List HPiece → List Byte → List Nat → List MWrite
  | [], _, _ => []
  | q :: qs, bs, bad =>
    let here := bad.filter fun i => decide (i < q.len)
    { addr := q.phys, data := (bs.take q.len).map some, tag := q.tag,
      marks := if isHost q.phys then [] else (here.map fun i => lineOf (q.phys + i)).dedup } ::
      hWrites qs (bs.drop q.len) ((bad.filter fun i => decide (q.len ≤ i)).map (· - q.len))

/-- R344: the entries by which pieces translated become the most recently used. -/
def State.usedPieces (s : State) (e : Fin 25) (p : Fin 64) (ps : List HPiece) : State :=
  ps.foldl (fun s q => match if inAperture q.at_ then none else s.cached e p q.at_ with | some x => s.useXlat e x | none => s) s

/-- The partition address of byte `i` of pieces. -/
def addrIn : List HPiece → Nat → Nat
  | [], i => i
  | q :: qs, i => if i < q.len then q.at_ + i else addrIn qs (i - q.len)

/- The fault queue (R346). -/

/-- R346: a fault record. -/
def PFault.bytes (f : PFault) : List Byte :=
  leBytes 4 f.fseq ++ leBytes 2 f.part.val ++ leBytes 1 f.kind ++ leBytes 1 (f.write.toNat + 2 * f.scout.toNat) ++ leBytes 8 f.addr ++
    leBytes 2 (f.eng + f.chan * 32) ++ List.replicate 14 0

/-- R346, R362: a PAGEFAULT event: every fault in the physical function's log, host-tier pages in the partition's too. -/
def State.logPFault (s : State) (f : PFault) (host : Bool) : State :=
  let s1 := s.logEvent 0 5 f.bytes
  if host && f.part != 0 then s1.logEvent f.part 5 f.bytes else s1

/-- R389: the leaves of the pages of fields that lie in a range, by partition page. -/
def State.keptOf (s : State) (p : Fin 64) (fs : List FieldEnt) (base len : Nat) : List (Nat × Bool × W64) :=
  ((fs.filter fun f => f.slot.isNone).flatMap fun f => (List.range (f.size / 2 ^ 16)).filterMap fun i =>
    let a := f.partbase + i * 2 ^ 16
    if base + len ≤ a || decide (a + 2 ^ 16 ≤ base) then none
    else
      match s.leafOf p a with
      | .ok (leaf, big) => some (pageOf big a, big, leaf)
      | .error _ => none).dedup

/-- R389: a range of a partition translates by new leaves from now on; its live launches remember them. -/
def State.rekeep (s : State) (p : Fin 64) (base len : Nat) : State :=
  let inside (k : Nat × Bool × W64) : Bool :=
    let n := if k.2.1 then 2 ^ 21 else 2 ^ 16
    decide (k.1 * n < base + len) && decide (base < k.1 * n + n)
  { s with launches := s.launches.map fun l =>
      if l.part == p then { l with kept := (l.kept.filter fun k => !inside k) ++ s.keptOf p l.fields base len } else l }

/-- R343: the first address of the page of an address, of 2 MiB where its leaf says so. -/
def State.pageBase (s : State) (p : Fin 64) (a : Nat) : Nat :=
  match s.leafOf p a with
  | .ok (_, true) => a / 2 ^ 21 * 2 ^ 21
  | _ => a / 2 ^ 16 * 2 ^ 16

/-- R346: the fault queued for the page of an address. -/
def State.faultAt (s : State) (p : Fin 64) (a : Nat) : Option PFault := s.pfaults.find? fun f => f.part == p && s.pageBase p f.addr == s.pageBase p a

/-- R346: a fault queued once per page and partition; its number. -/
def State.queueFault (s : State) (p : Fin 64) (k : FaultKind) (write scout host : Bool) (a eng chan : Nat) : State × Nat :=
  match s.faultAt p a with
  | some f => (s, f.fseq)
  | none =>
    let f : PFault := { fseq := s.nextFseq, part := p, kind := k.code, write := write, scout := scout, addr := a, eng := eng, chan := chan }
    ({ s with pfaults := s.pfaults ++ [f], nextFseq := s.nextFseq + 1 }.logPFault f host, f.fseq)

end Sys2Proof.Machine
end

