-- ==== Sys2Proof/Machine/Haul.lean ====
section
/-! DEFINITION. Haul chains (R207 to R212, R224, R300, R327, R342, R345, R346): a channel reads records and performs them block by
block; faults wait for a verdict; a failed chain reaches the strand that issued it. -/

namespace Sys2Proof.Machine

open Sys2Proof

/-- The haul engine of a physical channel. -/
def engOf (c : Fin 192) : Fin 25 := ⟨c.val / 8, by omega⟩

def State.setChan (s : State) (c : Fin 192) (k : Chan) : State := { s with chans := s.chans.set c k }

/-- The launch of a channel. -/
def State.chanLaunch (s : State) (k : Chan) : Option Launch := (k.owner.map Prod.fst).bind s.launch?

/-- R327: does a channel pause: every strand of its launch is halted, by a park or by a request of system software that named the launch. -/
def State.paused (s : State) (k : Chan) : Bool :=
  match s.chanLaunch k with
  | some l => (l.parked || (l.asked && s.hasHalted l.id)) && !(s.cores.toList.any fun x => x.strand.any fun st => st.launch == l.id)
  | none => false

/-- R327: does a record wait: on a queued fault, or, as one that a pause keeps, for its launch to run again. -/
def State.recWaits (s : State) (k : Chan) (r : HaulRec) : Bool :=
  match r.wait with
  | some f => (s.pfaults.any fun x => x.fseq == f) || s.paused k
  | none => false

/-- The key of bytes that an engine reads and writes by physical address. -/
def State.physKey (s : State) (p : Fin 64) (a : Nat) : Nat := if a < 2 ^ 52 then (s.parts[p]).keyId else 0

/- Records (R208, R210). -/

/-- A 64-bit stride applied to an address. -/
def strided (a : Nat) (stride : W64) (i : Nat) : Nat := (BitVec.ofNat 64 a + BitVec.ofNat 64 i * stride).toNat

def HaulRec.rowBytes (r : HaulRec) : Nat := r.len % 2 ^ 24
def HaulRec.rows (r : HaulRec) : Nat := r.len / 2 ^ 24 % 2 ^ 24

/-- The 2 KiB blocks of a row of a COPY2D. -/
def HaulRec.perRow (r : HaulRec) : Nat := (r.rowBytes + 2047) / 2048

def blocks (n : Nat) : Nat := (n + 2047) / 2048

/-- The units in which a record is performed: blocks, 4 KiB of PACK and UNPACK, lines of REDUCE; STOW reads the host back last. -/
def HaulRec.units (r : HaulRec) : Nat :=
  match r.kind with
  | 2 => r.rows * r.perRow
  | 4 => r.len / 4096
  | 5 => r.len / 4096
  | 6 => r.len / 64
  | 8 => blocks r.len + 1
  | 9 => 1
  | _ => blocks r.len

/-- R210: is a record of bytes 7:0 to 55:48 illegal. -/
def recordBad (ctl next src dst len a1 a2 : Nat) : Bool :=
  let kind := ctl / 2 % 16
  ctl / 2 ^ 16 % 2 ^ 16 != 0 || ctl / 2 ^ 5 % 4 != 0 || next % 64 != 0 || kind == 0 || decide (9 < kind) ||
    match kind with
    | 1 => len / 2 ^ 40 != 0 || len % 16 != 0 || a1 != 0 || a2 != 0
    | 2 => len / 2 ^ 48 != 0 || len % 16 != 0 || len / 2 ^ 24 % 2 ^ 24 == 0 || a1 % 16 != 0 || a2 % 16 != 0
    | 3 => len / 2 ^ 40 != 0 || len % 8 != 0 || src != 0 || a2 != 0
    | 4 => len / 2 ^ 40 != 0 || len % 4096 != 0 || a1 / 2 ^ 5 != 0 || decide (1 < a1 / 2 % 16)
    | 5 => len / 2 ^ 40 != 0 || len % 4096 != 0 || a1 != 0 || a2 != 0
    | 6 => len / 2 ^ 40 != 0 || len % 64 != 0 || dst % 64 != 0 || !(inAperture dst && decide (dst < 2 ^ 48)) || a1 / 16 % 2 ^ 28 != 0 ||
        a2 / 2 ^ 16 != 0 || !((Fmt.ofCode (BitVec.ofNat 4 a1)) == some .fp32 || (Fmt.ofCode (BitVec.ofNat 4 a1)) == some .int32)
    | 7 => len / 2 ^ 40 != 0 || len % 2 ^ 16 != 0 || src % 2 ^ 16 != 0 || dst % 2 ^ 16 != 0 || a1 != 0 || a2 != 0
    | 8 => len / 2 ^ 40 != 0 || len % 4096 != 0 || a1 / 16 != 0 || a2 != 0
    | _ => src != 0 || len != 0 || dst % 8 != 0 || a2 % 32 != 0

/-- R384, R385: the base of a STOW window, where DST and LEN lie within it. -/
def State.stowBase (s : State) (p : Fin 64) (w dst len : Nat) : Option Nat :=
  let q := s.parts[p]
  let a := siloAddr (q.park.base + 16 * w)
  let base := leNat (s.mem.reads q.keyId a 8)
  let size := leNat (s.mem.reads q.keyId (a + 8) 8)
  if q.park.size = 0 || s.mem.bad (lineOf a) || size = 0 || dst % 4096 != 0 || decide (size < dst + len) then none else some base

/- Completion (R209, R212). -/

/-- R342: a failed chain is reported to the strand that issued it: its bit waits with the strand, running or halted; the failure of an
ended strand is logged. -/
def State.engineFault (s : State) (p : Fin 64) (sid ch addr : Nat) : State :=
  match s.findSid sid with
  | some st => s.putStrand { st with efault := st.efault ||| (1#16 <<< ch), efaultAddr := st.efaultAddr ++ [(ch, BitVec.ofNat 64 addr)] }
  | none => s.notice p 5 addr 0

/- Stall wires of furrow-bound chains (R300, R302). -/

/-- R300: does a chain call for its group's stall wire. -/
def State.wireWanted (s : State) (k : Chan) : Bool :=
  k.busy && k.recs.any (fun r => r.furrow && r.wait.any (· != 0)) && (s.gangStrands k.gang).any fun st => st.clkFurrow

/-- R300: SCYC frozen on every core of a gang. -/
def State.freeze (s : State) (gang : Nat) : State :=
  { s with cores := Vector.ofFn fun c : Fin 192 =>
      match s.cores[c].strand with
      | some st => if st.gang = gang then { s.cores[c] with strand := some { st with scycBase := (s.scyc c st).toNat } } else s.cores[c]
      | none => s.cores[c] }

/-- SCYC counts again. -/
def State.thaw (s : State) (gang : Nat) : State :=
  { s with cores := Vector.ofFn fun c : Fin 192 =>
      match s.cores[c].strand with
      | some st => if st.gang = gang then { s.cores[c] with strand := some { st with scycSince := s.cyc c + (s.held c).toNat } } else s.cores[c]
      | none => s.cores[c] }

/-- R300, R302: a channel's wire raised or lowered as its chain now stands; a wire that falls is counted and logged. -/
def State.syncWire (s : State) (c : Fin 192) : State :=
  let k := s.chans[c]
  match s.wires.find? fun w => w.chan == c.val with
  | none =>
    if s.wireWanted k then { s.freeze k.gang with wires := s.wires ++ [{ gang := k.gang, chan := c.val, since := dtime s.tick }] } else s
  | some w =>
    if s.wireWanted k then s
    else
      let s1 := { s with wires := s.wires.filter fun o => o.chan != c.val }
      let s2 := if s1.wires.any fun o => o.gang == w.gang then s1 else s1.thaw w.gang
      s2.logStall k.part 1 ((k.owner.map Prod.fst).getD 0) (dtime s.tick - w.since)

/-- A channel whose chain is over. -/
def Chan.idle (k : Chan) : Chan :=
  { k with busy := false, at_ := 0, seq := none, waiting := false, lineWait := none, recs := [], doomed := [] }

/-- R212: a chain ends at a record: the rest is not performed, and the strand is told. -/
def State.endChain (s : State) (c : Fin 192) (addr : Nat) : State :=
  let k := s.chans[c]
  let s1 := { s.setChan c k.idle with arrivals := s.arrivals.filter fun a => a.chan != c.val }
  (s1.engineFault k.part k.sid ((k.owner.map Prod.snd).getD 0) addr).syncWire c

/-- R208, R209, R212, R319: STATUS written and OWN cleared, after REPORT and PACK's ARG2, in a record line that stands at a physical
address. -/
def State.writeStatus (s : State) (k : Chan) (r : HaulRec) (phys tag status : Nat) : State :=
  let put (s : State) (off v : Nat) : State :=
    (s.countBytes k.part ((k.owner.map Prod.fst).getD 0) phys 8).landFar (MWrite.plain (phys + off) tag (leBytes 8 v))
  let rep := if status = 1 then r.poison.getD 0 else r.report
  let s1 := if rep = 0 then s else put s 56 rep
  let s2 := if r.kind = 4 && decide (status < 2) then put s1 48 r.out else s1
  let ctl := leNat (s.mem.bytesAt tag phys 8)
  (put s2 0 (ctl / 2 ^ 16 * 2 ^ 16 + status * 2 ^ 8 + ctl % 2 ^ 8 / 2 * 2)).gleaned phys 64

/-- R209, R347: the completed records at the head of a chain are retired in its order; the line of each translates again, and one that has
no translation waits for it. A record whose line cannot be reached at all ends the chain unwritten. `fuel` bounds them. -/
def State.retireRecs (s : State) (c : Fin 192) : Nat → State
  | 0 => s
  | fuel + 1 =>
    let k := s.chans[c]
    match k.recs with
    | [] => s
    | r :: rest =>
      match r.status with
      | none => s
      | some x =>
        if r.blind then s.endChain c r.addr
        else match s.haulTgt (engOf c) k.part (s.chanLaunch k) r.addr true with
        | .error (.walk _) => s
        | tgt =>
          let s1 := match tgt with
            | .ok (phys, tag, _) => s.writeStatus k r phys tag x
            | .error _ => s
          if 2 ≤ x then s1.endChain c r.addr
          else if r.next = 0 then (s1.setChan c k.idle).syncWire c
          else (s1.setChan c { k with recs := rest }).retireRecs c fuel

/-- A record in progress replaced; what has completed is retired, and the wire follows. -/
def State.setRec (s : State) (c : Fin 192) (i : Nat) (r : HaulRec) : State :=
  let k := s.chans[c]
  ((s.setChan c { k with recs := k.recs.set i r }).retireRecs c 17).syncWire c

def HaulRec.fail (r : HaulRec) (status report : Nat) : HaulRec := { r with status := some status, report := report }

/-- A unit is done; the last completes the record, with poison where some source was poisoned. -/
def HaulRec.unitDone (r : HaulRec) (j : Nat) (poison : Option Nat) : HaulRec :=
  let p := match r.poison with | some a => some a | none => poison
  let done := r.done ++ [j]
  { r with done := done, poison := p, hurt := false, status := if done.length = r.units then some (if p.isSome then 1 else 0) else none }

/-- R292, R319, R344, R374: pieces that an engine moves: their traffic, the use of its translation cache, the rows that they close. -/
def State.haulTraffic (s : State) (c : Fin 192) (ps : List HPiece) : State :=
  let k := s.chans[c]
  (ps.foldl (fun s q => (s.countBytes k.part ((k.owner.map Prod.fst).getD 0) q.phys q.len).gleaned q.phys q.len) s).usedPieces (engOf c) k.part ps

/- Reading a record (R209). -/

/-- R208: a record as its 64 bytes hold it. -/
def recordOf (addr : Nat) (bs : List Byte) : HaulRec :=
  let w (i : Nat) : Nat := leNat ((bs.drop (8 * i)).take 8)
  let ctl := w 0
  { addr := addr, seq := BitVec.ofNat 32 (ctl / 2 ^ 32), kind := ctl / 2 % 16, furrow := ctl / 2 ^ 7 % 2 == 1, next := w 1,
    src := w 2, dst := w 3, len := w 4, arg1 := BitVec.ofNat 64 (w 5), arg2 := BitVec.ofNat 64 (w 6), done := [], out := 0,
    poison := none, status := none, report := 0, wait := none, noted := false, hurt := false }

/-- R209, R212: the next record of a chain fails before it starts: the chain ends at it once the records before it are complete. -/
def State.loseNext (s : State) (c : Fin 192) (r : HaulRec) : State :=
  let k := s.chans[c]
  ((s.setChan c { k with at_ := 0, waiting := false, lineWait := none, recs := k.recs ++ [{ r with next := 0 }] }).retireRecs c 17).syncWire c

/-- The next record of a chain where its line cannot be read, nor its status written. -/
def Chan.blindNext (k : Chan) : HaulRec := { (recordOf k.at_ []).fail 2 0 with blind := true }

/-- R346: the address of a fault that has failed and that the next record of a chain is the first to meet. -/
def Chan.doomAt (k : Chan) : Option Nat := (k.doomed.find? fun d => d.1 == k.at_).map Prod.snd

/-- R209: may a channel take its next record. -/
def State.mayRead (s : State) (k : Chan) : Bool :=
  k.busy && k.at_ != 0 && decide (k.recs.length < 16) && k.lineWait.isNone &&
    k.recs.all (fun r => r.kind != 9 && !s.recWaits k r && (match r.status with | some x => decide (x < 2) | none => true)) && !s.paused k &&
    (match s.chanLaunch k with | some l => l.ending == .live | none => false)

/-- A record that starts: BAD_RECORD and WINDOW are found now, and a record of no bytes is complete. -/
def State.startRec (s : State) (p : Fin 64) (r : HaulRec) (ctl : Nat) : HaulRec :=
  if recordBad ctl r.next r.src r.dst r.len r.arg1.toNat r.arg2.toNat then r.fail 3 0
  else if r.kind = 8 then
    match s.stowBase p (r.arg1.toNat % 16) r.dst r.len with
    | none => r.fail 6 0
    | some b => { r with out := b }
  else if r.kind != 7 && r.units = 0 then { r with status := some 0 }
  else r

/-- R209, R346, R396: a record line is read: the record starts, or the channel waits at it; one that was the first to meet a fault that has failed
ends the chain. -/
def State.takeRec (s : State) (c : Fin 192) (phys : Nat) : State :=
  let k := s.chans[c]
  let bs := s.mem.bytesAt (s.physKey k.part phys) phys 64
  let ctl := leNat (bs.take 8)
  let r := recordOf k.at_ bs
  if s.mem.bad (lineOf phys) then (s.countPoison phys).loseNext c (r.fail 3 k.at_)
  else if ctl % 2 = 0 || (match k.seq with | some q => r.seq != q + 1 | none => false) then s.setChan c { k with waiting := true }
  else
    match k.doomAt with
    | some a => s.loseNext c (r.fail 2 a)
    | none =>
      let k1 := { k with at_ := r.next, seq := some r.seq, waiting := false, recs := k.recs ++ [s.startRec k.part r ctl] }
      ((s.setChan c k1).retireRecs c 17).syncWire c

/-- HAUL_RECORD_READ (R209, R327, R344, R388): the channel reads the line of its next record; one in a discarded page reads as zeros, so that the
channel waits at it. A line that cannot be reached ends the chain. -/
def execHaulRecordRead (c : Fin 192) (s : State) : Out :=
  let k := s.chans[c]
  if !s.mayRead k then .next s
  else
    match s.haulRun (engOf c) k.part (s.chanLaunch k) false 2 k.at_ 64, s.haulTgt (engOf c) k.part (s.chanLaunch k) k.at_ true with
    | .ok (q :: _), w =>
      if q.zero then .next (s.setChan c { k with waiting := true })
      else match w with
        | .ok _ => .next ((s.haulTraffic c [q]).takeRec c q.phys)
        | .error _ => .next s
    | .error (.walk _), _ => if k.doomAt.isSome then .next (s.loseNext c k.blindNext) else .next s
    | .error _, _ => .next (s.loseNext c k.blindNext)
    | .ok [], _ => .next s

/- The ranges of a unit. -/

/-- What the next unit of a record reads and writes, as partition ranges. -/
structure HUnit where
  reads : List (Nat × Nat)
  writes : List (Nat × Nat)
deriving DecidableEq, Repr, Inhabited

/-- The bytes that ranges hold, where they can be reached. -/
def State.haulBytes (s : State) (c : Fin 192) (rs : List (Nat × Nat)) : Except HNeed (List Byte × List Nat × List HPiece) :=
  let k := s.chans[c]
  match s.haulRuns (engOf c) k.part (s.chanLaunch k) false rs with
  | .error e => .error e
  | .ok ps => let (b, bad) := s.mem.gather ps; .ok (b, bad, ps)

/-- R390: what a unit has read, where data of it was lost in the engine: as if its first line were poisoned. -/
def HaulRec.lost (r : HaulRec) (bs : List Byte) (bad : List Nat) : List Byte × List Nat :=
  lostLine r.hurt bs bad

/-- R382: the mode in which a PACK record packs. -/
def HaulRec.packMode (r : HaulRec) : Nat :=
  if r.arg1.getLsbD 0 then (if r.arg1.extractLsb' 1 4 = 0 then 1 else 2) else 0

/-- R381, R382: a packed block of 4 KiB of source. -/
def packOf (r : HaulRec) (bs : List Byte) (bad : List Nat) : List Byte := packBlock r.packMode bs ((bad.map (· / 64)).dedup)

/-- R224: the lines of a REDUCE that are on their way to a bank, or held there. -/
def State.reduceOut (s : State) (c : Fin 192) (r : HaulRec) : List Nat :=
  ((s.arrivals ++ s.reductions.flatMap Reduction.held).filter fun a => a.chan == c.val && a.rec_ == r.seq.toNat).map Arrival.off

/-- R224, R327: the next source line of a REDUCE: the first that has neither been applied nor is on its way. -/
def State.reduceNext (s : State) (c : Fin 192) (r : HaulRec) : Option Nat :=
  let out := s.reduceOut c r
  (List.range (r.len / 64)).find? fun j => !r.done.contains j && !out.contains j

/-- The ranges of unit `j` of a record that moves bytes, and where the packed image, which stands at `out`, goes on after it: PACK looks at what it
reads, UNPACK at the head of its block, and none goes on where that cannot be read. -/
def State.unitAt (s : State) (c : Fin 192) (r : HaulRec) (j out : Nat) : HUnit × Option Nat :=
  let n := min 2048 (r.len - 2048 * j)
  match r.kind with
  | 1 => ({ reads := [(r.src + 2048 * j, n)], writes := [(r.dst + 2048 * j, n)] }, some out)
  | 2 =>
    let row := j / r.perRow
    let o := 2048 * (j % r.perRow)
    let m := min 2048 (r.rowBytes - o)
    ({ reads := [(strided r.src r.arg1 row + o, m)], writes := [(strided r.dst r.arg2 row + o, m)] }, some out)
  | 3 => ({ reads := [], writes := [(r.dst + 2048 * j, n)] }, some out)
  | 4 =>
    let rd := [(r.src + 4096 * j, 4096)]
    match s.haulBytes c rd with
    | .ok (bs, bad, _) =>
      let (bs, bad) := lostLine (r.hurt && j == r.done.length) bs bad
      let m := (packOf r bs bad).length
      ({ reads := rd, writes := [(r.dst + out, m)] }, some (out + m))
    | .error _ => ({ reads := rd, writes := [] }, none)
  | 5 =>
    match s.haulBytes c [(r.src + out, 32)] with
    | .ok (h, bad, _) =>
      match blockHead h (!bad.isEmpty) s.free with
      | some b => ({ reads := [(r.src + out, if bad.isEmpty then b.size else 32)], writes := [(r.dst + 4096 * j, 4096)] }, some (out + b.size))
      | none => ({ reads := [(r.src + out, 32)], writes := [] }, none)
    | .error _ => ({ reads := [(r.src + out, 32)], writes := [] }, none)
  | 8 => (if j < blocks r.len then { reads := [(r.src + 2048 * j, n)], writes := [(out + r.dst + 2048 * j, n)] } else { reads := [], writes := [] }, some out)
  | _ => ({ reads := [], writes := [] }, some out)

/-- The next unit of a record. -/
def State.unitOf (s : State) (c : Fin 192) (r : HaulRec) : HUnit :=
  match r.kind with
  | 6 => { reads := ((s.reduceNext c r).map fun j => (r.src + 64 * j, 64)).toList, writes := [] }
  | 9 =>
    if r.noted || r.dst = 0 then { reads := [], writes := if r.arg2 = 0 then [] else [(r.arg2.toNat, 32)] }
    else { reads := [], writes := [(r.dst, 8)] }
  | _ => (s.unitAt c r r.done.length r.out).1

/-- A record of a channel that may go on: it is in progress, and waits on nothing; none of a launch that ends does (R314). -/
def State.liveRec (s : State) (c : Fin 192) (i kind : Nat) : Option HaulRec :=
  let k := s.chans[c]
  match k.recs[i]? with
  | some r =>
    if k.busy && r.kind == kind && r.status.isNone && !s.recWaits k r && (s.chanLaunch k).any fun l => l.ending == .live then some r else none
  | none => none

/-- What stands in the way of a unit ends the record, or leaves it as it is until its page has been walked. -/
def State.unitNeed (s : State) (c : Fin 192) (i : Nat) (r : HaulRec) : HNeed → State
  | .walk _ => s
  | .range a => s.setRec c i (r.fail 3 a)
  | .gated a => s.setRec c i (r.fail 5 a)

/-- A unit that moves bytes: `f` makes what is written, and its poisoned offsets, of what was read. -/
def State.moveUnit (s : State) (c : Fin 192) (i : Nat) (r : HaulRec) (f : List Byte → List Nat → List Byte × List Nat) : State :=
  let k := s.chans[c]
  let u := s.unitOf c r
  match s.haulBytes c u.reads with
  | .error e => s.unitNeed c i r e
  | .ok (bs0, bad0, rd) =>
    match s.haulRuns (engOf c) k.part (s.chanLaunch k) true u.writes with
    | .error e => s.unitNeed c i r e
    | .ok wr =>
      let (bs, bad) := r.lost bs0 bad0
      let (out, obad) := f bs bad
      ((s.haulTraffic c (rd ++ wr)).deliver (hWrites wr out obad)).setRec c i (r.unitDone r.done.length (bad.head?.map (addrIn rd)))

/-- COPY (R210, R212). -/
def execCopy (c : Fin 192) (i : Nat) (s : State) : Out :=
  match s.liveRec c i 1 with
  | some r => .next (s.moveUnit c i r fun bs bad => (bs, bad))
  | none => .next s

/-- COPY2D (R210, R202): rows in ascending order, so that the highest stands where they overlap. -/
def execCopy2d (c : Fin 192) (i : Nat) (s : State) : Out :=
  match s.liveRec c i 2 with
  | some r => .next (s.moveUnit c i r fun bs bad => (bs, bad))
  | none => .next s

/-- FILL (R210): 2,048 is a multiple of 8, so every block begins with the pattern's first byte. -/
def execFill (c : Fin 192) (i : Nat) (s : State) : Out :=
  match s.liveRec c i 3 with
  | some r =>
    .next (s.moveUnit c i r fun _ _ => ((List.replicate 256 (leBytes 8 r.arg1.toNat)).flatten, []))
  | none => .next s

/-- PACK (R210, R380 to R382): 4 KiB of source at a time. Poison goes into the image as PSN bits. -/
def execPack (c : Fin 192) (i : Nat) (s : State) : Out :=
  match s.liveRec c i 4 with
  | none => .next s
  | some r =>
    let k := s.chans[c]
    let u := s.unitOf c r
    match s.haulBytes c u.reads with
    | .error e => .next (s.unitNeed c i r e)
    | .ok (bs0, bad0, rd) =>
      match s.haulRuns (engOf c) k.part (s.chanLaunch k) true u.writes with
      | .error e => .next (s.unitNeed c i r e)
      | .ok wr =>
        let (bs, bad) := r.lost bs0 bad0
        let out := packOf r bs bad
        .next (((s.haulTraffic c (rd ++ wr)).deliver (hWrites wr out [])).setRec c i
          (({ r with out := r.out + out.length }).unitDone r.done.length (bad.head?.map (addrIn rd))))

/-- UNPACK (R210, R212, R383): one block; a block that breaks the format ends the record with it and what follows unwritten. -/
def execUnpack (c : Fin 192) (i : Nat) (s : State) : Out :=
  match s.liveRec c i 5 with
  | none => .next s
  | some r =>
    let k := s.chans[c]
    let u := s.unitOf c r
    match s.haulBytes c [(r.src + r.out, 32)], s.haulBytes c u.reads with
    | .error e, _ => .next (s.unitNeed c i r e)
    | _, .error e => .next (s.unitNeed c i r e)
    | .ok (h, hbad, _), .ok (bs0, bad0, rd) =>
      let (bs, bad) := r.lost bs0 bad0
      match blockHead h (!hbad.isEmpty) s.free with
      | none => .next ((s.haulTraffic c rd).setRec c i (r.fail 3 0))
      | some b =>
        match s.haulRuns (engOf c) k.part (s.chanLaunch k) true u.writes with
        | .error e => .next (s.unitNeed c i r e)
        | .ok wr =>
          let (out, lines) := expandBlock b (bs.drop 32) bad
          let first := match bad with
            | o :: _ => some (addrIn rd o)
            | [] => if lines.isEmpty then none else some (r.src + r.out)
          let s1 := { s with free := s.free + (!hbad.isEmpty).toNat }
          .next (((s1.haulTraffic c (rd ++ wr)).deliver (hWrites wr out (lines.flatMap fun l => (List.range 64).map (64 * l + ·)))).setRec c i
            (({ r with out := r.out + b.size }).unitDone r.done.length first))

/- REDUCE (R224). -/

/-- R327: a REDUCE that waits on the order of its reductions while its channel pauses: its lines that have not been applied are withdrawn, and
it goes on once the launch runs again. -/
def State.withdrawLines (s : State) (c : Fin 192) (i : Nat) (r : HaulRec) : State :=
  let mine (a : Arrival) : Bool := a.chan == c.val && a.rec_ == r.seq.toNat
  { s with
    arrivals := s.arrivals.filter fun a => !mine a,
    reductions := s.reductions.map fun (d : Reduction) => { d with held := d.held.filter fun a => !mine a } }.setRec c i { r with wait := some 0 }

/-- REDUCE (R210, R224, R327): the next source line is read and sent to the yard bank of its destination line. -/
def execReduce (c : Fin 192) (i : Nat) (s : State) : Out :=
  match s.liveRec c i 6 with
  | none => .next s
  | some r =>
    let k := s.chans[c]
    if s.paused k && (s.reductions.flatMap Reduction.held).any fun a => a.chan == c.val && a.rec_ == r.seq.toNat then
      .next (s.withdrawLines c i r)
    else match s.reduceNext c r with
    | none => .next s
    | some j =>
      match s.haulBytes c [(r.src + 64 * j, 64)], s.haulTgt (engOf c) k.part (s.chanLaunch k) (r.dst + 64 * j) true with
      | .error e, _ => .next (s.unitNeed c i r e)
      | .ok _, .error e => .next (s.unitNeed c i r e)
      | .ok (bs0, bad0, rd), .ok (phys, _, _) =>
        let (bs, bad) := r.lost bs0 bad0
        let q := ((s.clusters.toList.findIdx? fun x => x.yard == some ((phys - 2 ^ 72) / 2 ^ 25))).getD 0
        let a : Arrival := { chan := c.val, rec_ := r.seq.toNat, off := j, cluster := q, line := lineOf phys,
                             j := (r.arg1.extractLsb' 32 32).toNat, n := (r.arg2.extractLsb' 0 16).toNat,
                             fp := Fmt.ofCode (r.arg1.extractLsb' 0 4) == some .fp32, data := bs, bad := !bad.isEmpty }
        let p := match r.poison with | some x => some x | none => bad.head?.map (addrIn rd)
        .next ({ s.haulTraffic c rd with arrivals := s.arrivals ++ [a] }.setRec c i { r with poison := p, hurt := false })

/-- R224: a line with a source added, element by element. -/
def reduceLine (fp : Bool) (a b : List Byte) : List Byte :=
  (List.range 16).flatMap fun e =>
    let x := BitVec.ofNat 32 (leNat ((a.drop (4 * e)).take 4))
    let y := BitVec.ofNat 32 (leNat ((b.drop (4 * e)).take 4))
    leBytes 4 (if fp then (addF32 rmRNE x y).1 else x + y).toNat

/-- The record of an arrival changed, where its chain still runs. -/
def State.arrivalRec (s : State) (a : Arrival) (f : HaulRec → HaulRec) : State :=
  let c : Fin 192 := ⟨a.chan % 192, Nat.mod_lt _ (by omega)⟩
  match (s.chans[c]).recs.findIdx? fun r => r.kind == 6 && r.seq.toNat == a.rec_ && r.status.isNone with
  | some i =>
    match (s.chans[c]).recs[i]? with
    | some r => s.setRec c i (f r)
    | none => s
  | none => s

/-- R224: an arrival is applied to its line. -/
def State.applyLine (s : State) (a : Arrival) : State :=
  let old := s.mem.span (64 * a.line) 64
  let bad := a.bad || s.mem.bad a.line
  let w : MWrite := { addr := 64 * a.line, data := (reduceLine a.fp old a.data).map some, marks := if bad then [a.line] else [], tag := 0 }
  (s.landFar w).arrivalRec a fun r => r.unitDone a.off none

def State.setReduction (s : State) (r : Reduction) : State :=
  let rest := s.reductions.filter fun o => o.line != r.line
  { s with reductions := if r.next = r.n then rest else rest ++ [r] }

/-- R224: held arrivals are applied from `next` on; `fuel` bounds them. -/
def State.applyHeld (s : State) : Nat → Reduction → State
  | 0, r => s.setReduction r
  | fuel + 1, r =>
    match r.held.find? fun a => a.j == r.next with
    | none => s.setReduction r
    | some a => (s.applyLine a).applyHeld fuel { r with next := r.next + 1, held := r.held.filter fun o => o.j != a.j }

/-- R224: lines held in the bank of a line. -/
def State.bankHeld (s : State) (line : Nat) : Nat :=
  (s.reductions.filter fun r => r.line % 64 == line % 64 && r.line / 2 ^ 19 == line / 2 ^ 19).foldl (fun n r => n + r.held.length) 0

/-- REDUCE_ARRIVAL (R224, R317): an arrival reaches its bank: it is discarded, held and applied, or it waits in its engine. -/
def execReduceArrival (q : Fin 48) (i : Nat) (s : State) : Out :=
  match (s.arrivals.filter fun a => a.cluster == q.val)[i]? with
  | none => .next s
  | some a =>
    let gone := { s with arrivals := s.arrivals.erase a }
    let x := s.clusters[q]
    if x.gated || x.yard != some ((64 * a.line - 2 ^ 72) / 2 ^ 25) then .next (gone.arrivalRec a fun r => r.fail 5 (r.dst + 64 * a.off))
    else
      let cur := s.reductions.find? fun r => r.line == a.line
      let red := cur.getD { line := a.line, n := a.n, next := 0, held := [] }
      if a.n ≤ a.j || a.j < red.next || (red.held.any fun h => h.j == a.j) || red.n != a.n then .next (gone.arrivalRec a fun r => r.fail 3 0)
      else if a.j != red.next && decide (1024 ≤ s.bankHeld a.line) then .next s
      else .next (gone.applyHeld (red.held.length + 1) { red with held := red.held ++ [a] })

/-- Records, and channels' record lines, that meet a queued fault wait on it (R345). -/
def State.waitOn (s : State) (c : Fin 192) (rec_ : Option Nat) (fseq : Nat) : State :=
  let k := s.chans[c]
  match rec_ with
  | none => s.setChan c { k with lineWait := some fseq }
  | some i => (s.setChan c { k with recs := k.recs.modify i fun r => { r with wait := some fseq } }).syncWire c

/- MIGRATE (R386, R387). -/

/-- The bytes of storage that a launched field covers, as physical ranges (R227). -/
def Launch.frames (l : Launch) : List (Nat × Nat) :=
  l.fields.flatMap fun f =>
    let p := f.pbase * 2 ^ 16
    if f.slot.isSome then []
    else
      match f.tier.toNat with
      | 0 =>
        let s0 := p / 2 ^ 36 % 16
        let b0 := p % 2 ^ 36
        match f.ilv.toNat with
        | 0 => [(hbmAddr s0 b0, f.size)]
        | 1 => [(hbmAddr s0 b0, f.size / 2), (hbmAddr (s0 + 1) b0, f.size / 2)]
        | _ => (List.range 16).map fun k => (hbmAddr k b0, f.size / 16)
      | 1 => [(siloAddr p, f.size)]
      | 2 => [(hostAddr l.part p, f.size)]
      | _ => [(peerAddr f.peer p, f.size)]

/-- R386: does a frame lie in a window of a launched field map that is still in use. -/
def State.frameLive (s : State) (a n : Nat) : Bool :=
  s.launches.any fun l => l.frames.any fun f => decide (f.1 < a + n) && decide (a < f.1 + f.2)

/-- R386, R389: a page of MIGRATE: where its leaf stands and what stands there, the leaf by which it translates, whether it is large. -/
structure MigPage where
  at_ : Nat
  entry : W64
  leaf : W64
  big : Bool
deriving DecidableEq, Repr, Inhabited

def State.migLeaf (s : State) (p : Fin 64) (a : Nat) : Option MigPage :=
  if 2 ^ 48 ≤ a || inAperture a then none
  else
    match s.walk p a, s.leafOf p a with
    | .ok (at_, entry, big), .ok (leaf, b) =>
      if b == big && leaf.getLsbD 2 && leaf.getLsbD 3 && !noFrame leaf then some { at_ := at_, entry := entry, leaf := leaf, big := big } else none
    | _, _ => none

def MigPage.size (x : MigPage) : Nat := if x.big then 2 ^ 21 else 2 ^ 16

/-- The translation of an address by a page of MIGRATE. -/
def MigPage.xlat (x : MigPage) (p : Fin 64) (a : Nat) : Xlat := { part := p, page := pageOf x.big a, big := x.big, leaf := x.leaf }

/-- R386: are both ranges covered by whole leaves of one size, and apart. -/
def State.migOk (s : State) (p : Fin 64) (r : HaulRec) (big : Bool) : Bool :=
  let size := if big then 2 ^ 21 else 2 ^ 16
  let n := r.len / size
  r.src % size == 0 && r.dst % size == 0 && r.len % size == 0 && (decide (r.src + r.len ≤ r.dst) || decide (r.dst + r.len ≤ r.src)) &&
    (List.range n).all fun i =>
      ((s.migLeaf p (r.src + size * i)).any fun x => x.big == big) && (s.migLeaf p (r.dst + size * i)).any fun x => x.big == big

/-- The pages that a MIGRATE looks up before it moves its next one: all of both ranges at first, then that page and its partner. -/
def HaulRec.migPages (r : HaulRec) (size : Nat) : List (Nat × Bool) :=
  let one (i : Nat) : List (Nat × Bool) := [(r.src + size * i, false), (r.dst + size * i, true)]
  if r.done.isEmpty then (List.range (r.len / size)).flatMap one else one r.done.length

/-- R344, R396: the first of these pages of which a table line is poisoned. -/
def State.migPoisoned (s : State) (p : Fin 64) (as : List (Nat × Bool)) : Option (Nat × Bool) :=
  as.find? fun a => match s.walk p a.1 with | .error .poisonedTable => true | _ => false

/-- R386: two leaves with ADDR, TIER and PEER exchanged. -/
def swapLeaf (e f : W64) : W64 :=
  let m : W64 := BitVec.ofNat 64 (0xFFF * 2 ^ 48 + (2 ^ 40 - 1) * 2 ^ 8 + 3 * 2 ^ 5)
  (e &&& ~~~m) ||| (f &&& m)

/-- R386, R389: the leaf of a page takes the frame of its partner's, in the tables and where an INVALIDATE that ended with BUSY has the page
translate by its previous leaf; no cache translates it any more (R347). -/
def State.newFrame (s : State) (c : Fin 192) (p : Fin 64) (a : Nat) (x : MigPage) (frame : W64) : State :=
  let l := ((s.chans[c]).owner.map Prod.fst).getD 0
  let s1 := (((s.countBytes p l x.at_ 8).gleaned x.at_ 8).commit
    (MWrite.plain x.at_ (s.parts[p]).keyId (leBytes 8 (swapLeaf x.entry frame).toNat)))
  let s2 := { s1 with
    xlats := s1.xlats.map fun (xs : List Xlat) => xs.filter fun o => !(o.part == p && decide (o.page * (if o.big then 2 ^ 21 else 2 ^ 16) < a + x.size) &&
      decide (a < (o.page + 1) * (if o.big then 2 ^ 21 else 2 ^ 16))),
    pins := s1.pins.map fun (o : Xlat) => if o.holds p a then { o with leaf := swapLeaf o.leaf frame } else o }
  s2.rekeep p a x.size

/-- R387, R398: an aborted page is recorded on the die of its stack. -/
def State.logAbort (s : State) (a : Nat) : State :=
  if isHbm a then
    let k : Fin 16 := ⟨stackOf a % 16, Nat.mod_lt _ (by omega)⟩
    s.setSyn (stackDie k) ((s.syn[stackDie k]).uncorrectable a (synInfo (k.val * 64 + a % 2 ^ 36 / 2048 % 64) 1 1))
  else s

/-- R387: the storage of a page of MIGRATE that no access may now reach. -/
def MigPage.frame (s : State) (p : Fin 64) (x : MigPage) : Nat × Nat :=
  match leafTier x.leaf with
  | 0 => (leafAddr x.leaf, (s.parts[p]).keyId)
  | 1 => (siloAddr (leafAddr x.leaf), (s.parts[p]).keyId)
  | 2 => (hostAddr p.val (leafAddr x.leaf), 0)
  | _ => (peerAddr (leafPeer x.leaf) (leafAddr x.leaf), 0)

/-- R387: MIGRATE aborts at a page: its partner's bytes are undefined from now on, and the failing address, at `phys`, is logged and reported. -/
def State.abortPage (s : State) (c : Fin 192) (i : Nat) (r : HaulRec) (y : MigPage) (phys addr : Nat) : State :=
  let f := y.frame s (s.chans[c]).part
  (((s.undefine f.1 y.size f.2).logAbort phys).setRec c i (r.fail 4 addr))

/-- MIGRATE (R386 to R388, R390, R396): one page moves, and the two leaves trade frames. A discarded page reads as zeros. A poisoned source line,
data lost in the engine, and a write that faults, to a discarded page or one that cannot be reached, abort the record at that page. A poisoned
table line is a translation fault, at which the record waits. -/
def execMigrate (c : Fin 192) (i : Nat) (s : State) : Out :=
  match s.liveRec c i 7 with
  | none => .next s
  | some r =>
    let p := (s.chans[c]).part
    let size := ((s.migLeaf p r.src).map MigPage.size).getD (2 ^ 16)
    let pages := r.migPages size
    let s0 := pages.foldl (fun s a => s.walked p a.1) s
    if r.len = 0 then .next (s.setRec c i { r with status := some 0 })
    else match s.migPoisoned p pages with
    | some (a, w) =>
      let (s1, f) := s0.queueFault p .poisonedTable w false false a (engOf c).val (c.val % 8)
      .next (s1.waitOn c (some i) f)
    | none =>
      let va := r.src + size * r.done.length
      let vb := r.dst + size * r.done.length
      match s.migLeaf p va, s.migLeaf p vb with
      | some x, some y =>
        if (r.done.isEmpty && !s.migOk p r x.big) || x.big != y.big || x.size != size then .next (s0.setRec c i (r.fail 3 (if r.done.isEmpty then 0 else va)))
        else
          match s.leafTgt p (x.xlat p va) va, s.leafTgt p (y.xlat p vb) vb with
          | .ok (fa, ta, za), .ok (fb, tb, zb) =>
            let pa : HPiece := { at_ := va, len := size, phys := fa, tag := ta, zero := za }
            let pb : HPiece := { at_ := vb, len := size, phys := fb, tag := tb, zero := false }
            if s.frameLive fa size then .next (s0.setRec c i (r.fail 4 va))
            else if s.frameLive fb size then .next (s0.setRec c i (r.fail 4 vb))
            else if zb then .next (s0.abortPage c i r y fb vb)
            else
              match if r.hurt then some (lineOf fa) else if za then none else s.mem.firstBad fa size with
              | some l => .next ((s0.haulTraffic c [pa]).abortPage c i r y (64 * l) (va + (64 * l - fa)))
              | none =>
                let bs := if za then List.replicate size 0 else s.mem.bytesAt ta fa size
                let s1 := (s0.haulTraffic c [pa, pb]).commit (MWrite.plain fb tb bs)
                let s2 := (s1.newFrame c p va x y.leaf).newFrame c p vb y x.leaf
                let done := r.done ++ [r.done.length]
                .next (s2.setRec c i { r with done := done, status := if size * done.length = r.len then some 0 else none })
          | .error _, t => .next (s0.abortPage c i r y ((t.toOption.map Prod.fst).getD (2 ^ 72)) va)
          | .ok (fa, _, _), .error _ => .next (s0.abortPage c i r y fa vb)
      | _, _ => .next (s0.setRec c i (r.fail 3 (if r.done.isEmpty then 0 else va)))

/-- STOW (R385): blocks are written through the window, poison as zero bytes; the last unit is the read of the last written address. -/
def execStow (c : Fin 192) (i : Nat) (s : State) : Out :=
  match s.liveRec c i 8 with
  | none => .next s
  | some r =>
    if r.done.length < blocks r.len then .next (s.moveUnit c i r fun bs _ => (bs, []))
    else .next (s.setRec c i (r.unitDone r.done.length none))

/-- NOTE (R209, R210): alone at the head of its chain: the 8-byte write, then the join; one whose queue is full stays in progress. -/
def execNote (c : Fin 192) (i : Nat) (s : State) : Out :=
  match s.liveRec c i 9 with
  | none => .next s
  | some r =>
    let k := s.chans[c]
    let u := s.unitOf c r
    if i != 0 then .next s
    else
      match s.haulRuns (engOf c) k.part (s.chanLaunch k) true u.writes with
      | .error e => .next (s.unitNeed c i r e)
      | .ok wr =>
        if !r.noted && r.dst != 0 then
          .next (((s.haulTraffic c wr).deliver (hWrites wr (leBytes 8 r.arg1.toNat) [])).setRec c i { r with noted := true })
        else
          match wr with
          | [] => .next (s.setRec c i { r with status := some 0 })
          | q :: _ =>
            if s.mem.bad (lineOf q.phys) then .next (((s.haulTraffic c wr).countPoison q.phys).setRec c i (r.fail 3 r.arg2.toNat))
            else
              match s.joinAt k.part r.arg2 q.phys q.tag with
              | none => .next s
              | some s1 => .next ((s1.haulTraffic c wr).setRec c i { r with status := some 0 })

/- Faults (R300, R344 to R346). -/

/-- What a channel waits to have translated: for its next record's line, the line of a completed record, or a record in progress. -/
def State.chanNeeds (s : State) (c : Fin 192) : List (Nat × Bool × Option Nat) :=
  let k := s.chans[c]
  let e := engOf c
  let l := s.chanLaunch k
  let line : List (Nat × Bool × Option Nat) :=
    if !s.mayRead k then []
    else
      match s.haulTgt e k.part l k.at_ false with
      | .error (.walk a) => if k.doomAt.isSome then [] else [(a, false, none)]
      | .ok (_, _, zero) => match s.haulTgt e k.part l k.at_ true with | .error (.walk a) => if zero then [] else [(a, true, none)] | _ => []
      | _ => []
  let status : List (Nat × Bool × Option Nat) :=
    match k.recs with
    | r :: _ =>
      if r.status.isNone || k.lineWait.isSome then []
      else match s.haulTgt e k.part l r.addr true with | .error (.walk a) => [(a, true, none)] | _ => []
    | [] => []
  line ++ status ++ (k.recs.zipIdx.filter fun r => r.1.status.isNone && !s.recWaits k r.1 && (r.1.kind != 9 || r.2 == 0)).flatMap fun r =>
    let u := s.unitOf c r.1
    match s.haulRuns e k.part l false u.reads with
    | .error (.walk a) => [(a, false, some r.2)]
    | .error _ => []
    | .ok _ => match s.haulRuns e k.part l true u.writes with | .error (.walk a) => [(a, true, some r.2)] | _ => []

/-- What a walk of an engine finds: the entry to cache, or the fault; `none` where the leaf names no storage. -/
def State.lookUp (s : State) (e : Fin 25) (p : Fin 64) (a : Nat) (write refused : Bool) : Option (Except (FaultKind × Bool) Xlat) :=
  match s.fillXlat e p a with
  | .error k => some (.error (k, false))
  | .ok (_, x) =>
    if noFrame x.leaf then none
    else if leafTier x.leaf = 2 && refused then some (.error (.refused, true))
    else
      match leafFault (s.leafNow p a x.leaf) write with
      | some k => some (.error (k, leafTier x.leaf == 2))
      | none => some (.ok x)

/-- TABLE_WALK (R343, R344, R346, R396): an engine translates a page that one of its channels waits for; a fault is queued, and what
needs the page waits on it. `refused` is the host's answer through ATS. -/
def execTableWalk (e : Fin 25) (p : Fin 64) (a : Nat) (wr refused : Bool) (s : State) : Out :=
  let wants := (List.finRange 192).flatMap fun c =>
    if engOf c = e && s.chans[c].part = p then (s.chanNeeds c).filterMap fun n => if n.1 = a && n.2.1 = wr then some (c, n.2.2) else none else []
  match wants with
  | [] => .next s
  | w :: _ =>
    match s.lookUp e p a wr refused with
    | none => .fault (.noStorage a)
    | some (.ok x) => .next (wants.foldl (fun s n => (s.retireRecs n.1 17).syncWire n.1) ((s.walkedBy e p a).useXlat e x))
    | some (.error (k, host)) =>
      let (s1, f) := (s.walkedBy e p a).queueFault p k wr false host a e.val (w.1.val % 8)
      .next (wants.foldl (fun s n => s.waitOn n.1 n.2 f) s1)

/- The scout pass (R345). -/

/-- R343, R345: the pages that a range touches, by their first addresses, each with whether it is written; `fuel` bounds them. -/
def State.pagesOf (s : State) (p : Fin 64) (wr : Bool) : Nat → Nat → Nat → List (Nat × Bool)
  | 0, _, _ => []
  | fuel + 1, a, n =>
    if n = 0 then []
    else
      let base := s.pageBase p a
      let size := match s.leafOf p a with | .ok (_, true) => 2 ^ 21 | _ => 2 ^ 16
      (base, wr) :: s.pagesOf p wr fuel (base + size) (n - (base + size - a))

/-- Pages ahead of the data, each with whether it is written, and whether a page more than the limit was met. -/
abbrev Ahead := List (Nat × Bool) × Bool

/-- R345: a page counted, where it is one of the first `limit` distinct ones. -/
def Ahead.add (limit : Nat) (x : Ahead) (p : Nat × Bool) : Ahead :=
  if x.1.contains p then x
  else if (x.1.any fun o => o.1 == p.1) || decide ((x.1.map Prod.fst).dedup.length < limit) then (x.1 ++ [p], x.2)
  else (x.1, true)

/-- R345: the ranges of a unit counted, page by page. -/
def State.aheadUnit (s : State) (p : Fin 64) (limit : Nat) (x : Ahead) (u : HUnit) : Ahead :=
  let pages (w : Bool) (rs : List (Nat × Nat)) : List (Nat × Bool) := rs.flatMap fun r => s.pagesOf p w (r.2 / 2 ^ 16 + 2) r.1 r.2
  (pages false u.reads ++ pages true u.writes).foldl (Ahead.add limit) x

/-- How many units a record has for the scout: pages of MIGRATE, lines of REDUCE, the units in which others are performed. -/
def State.aheadUnits (s : State) (p : Fin 64) (r : HaulRec) : Nat :=
  if r.kind = 7 then r.len / ((s.migLeaf p r.src).map MigPage.size).getD (2 ^ 16) else r.units

/-- What unit `j` of a record reads and writes, where the scout looks at it. -/
def State.scoutUnit (s : State) (c : Fin 192) (r : HaulRec) (j out : Nat) : HUnit × Option Nat :=
  match r.kind with
  | 6 => ({ reads := if r.done.contains j then [] else [(r.src + 64 * j, 64)], writes := [] }, some out)
  | 7 =>
    let n := ((s.migLeaf (s.chans[c]).part r.src).map MigPage.size).getD (2 ^ 16)
    ({ reads := [(r.src + n * j, n)], writes := [(r.dst + n * j, n)] }, some out)
  | 9 => ({ reads := [], writes := (if r.noted || r.dst = 0 then [] else [(r.dst, 8)]) ++ (if r.arg2 = 0 then [] else [(r.arg2.toNat, 32)]) }, some out)
  | _ => s.unitAt c r j out

/-- R345: the units of a record from `j` on counted, until more than the limit is met, or the length of a packed block cannot be told yet: the
scout takes that from the data as it stands (DESIGN CHOICE, log). `fuel` bounds them. -/
def State.aheadFrom (s : State) (c : Fin 192) (r : HaulRec) (limit : Nat) : Nat → Nat → Nat → Ahead → Ahead
  | 0, _, _, x => x
  | fuel + 1, j, out, x =>
    if x.2 then x
    else
      let (u, next) := s.scoutUnit c r j out
      let y := s.aheadUnit (s.chans[c]).part limit x u
      match next with
      | some o => s.aheadFrom c r limit fuel (j + 1) o y
      | none => y

/-- R345: the pages that a record has still to touch, counted in its order. -/
def State.aheadOf (s : State) (c : Fin 192) (limit : Nat) (x : Ahead) (r : HaulRec) : Ahead :=
  let p := (s.chans[c]).part
  let j := if r.kind = 6 then 0 else r.done.length
  let out := if r.kind = 8 then (s.stowBase p (r.arg1.toNat % 16) r.dst r.len).getD 0 else r.out
  if r.status.isSome then x else s.aheadFrom c r limit (s.aheadUnits p r - j) j out x

/-- R345: the published records that follow, and the line at which the engine's cache ends them; `fuel` bounds them, and no chain is longer than
its 32-bit SEQ. -/
def State.published (s : State) (c : Fin 192) : Nat → Nat → Option (BitVec 32) → List HaulRec × Option Nat
  | 0, _, _ => ([], none)
  | fuel + 1, a, seq =>
    let k := s.chans[c]
    if a = 0 then ([], none)
    else
      match s.haulTgt (engOf c) k.part (s.chanLaunch k) a false with
      | .ok (phys, tag, zero) =>
        let bs := s.mem.bytesAt tag phys 64
        let ctl := leNat (bs.take 8)
        let r := recordOf a bs
        if zero || s.mem.bad (lineOf phys) || ctl % 2 = 0 || (match seq with | some q => r.seq != q + 1 | none => false) then ([], none)
        else if recordBad ctl r.next r.src r.dst r.len r.arg1.toNat r.arg2.toNat then ([], none)
        else let (rs, stop) := s.published c fuel r.next (some r.seq); (r :: rs, stop)
      | .error (.walk x) => ([], some x)
      | .error _ => ([], none)

/-- The records ahead of a channel's data, in order, and the line that ends them. -/
def State.chainAhead (s : State) (c : Fin 192) : List HaulRec × Option Nat :=
  let k := s.chans[c]
  let (rs, stop) := s.published c (2 ^ 32) k.at_ k.seq
  (k.recs ++ rs, stop)

/-- R345: the distinct pages ahead of a channel's data front, the first SCOUT of them; and, where there are fewer, the page of the next
record's line. -/
def State.scoutPages (s : State) (c : Fin 192) : List (Nat × Bool) :=
  let k := s.chans[c]
  let (rs, stop) := s.chainAhead c
  let x := rs.foldl (s.aheadOf c k.scout) ([], false)
  x.1 ++ (if !x.2 && decide ((x.1.map Prod.fst).dedup.length < k.scout) then (stop.map fun a => (a, false)).toList else [])

/-- The first page of the scout pass that has no translation and no fault queued. -/
def State.scoutNext (s : State) (c : Fin 192) : Option (Nat × Bool) :=
  let k := s.chans[c]
  if !k.busy || k.scout = 0 then none
  else (s.scoutPages c).find? fun p =>
    decide (p.1 < 2 ^ 48) && !inAperture p.1 && (s.leafFor (engOf c) k.part p.1 p.2).isNone && (s.faultAt k.part p.1).isNone

/-- SCOUT_PASS (R345): the scout translates one page ahead of the data; a fault that it finds is queued at once. -/
def execScoutPass (c : Fin 192) (refused : Bool) (s : State) : Out :=
  let k := s.chans[c]
  match s.scoutNext c with
  | none => .next s
  | some (a, wr) =>
    match s.lookUp (engOf c) k.part a wr refused with
    | none => .fault (.noStorage a)
    | some (.ok x) => .next ((s.walkedBy (engOf c) k.part a).useXlat (engOf c) x)
    | some (.error (f, host)) => .next ((s.walkedBy (engOf c) k.part a).queueFault k.part f wr true host a (engOf c).val (c.val % 8)).1

/-- R346: the first record ahead whose pages take one in, or whose line is that page's; `x` counts the pages of those before it. -/
def State.firstTo (s : State) (c : Fin 192) (limit page : Nat) : List HaulRec → Ahead → Option HaulRec
  | [], _ => none
  | r :: rs, x =>
    let y := s.aheadOf c limit x r
    if y.1.any fun p => p.1 == page then some r else s.firstTo c limit page rs y

/-- R346: the verdict `fail` on a fault that only the scout has met: the record in progress that will touch the page fails at once; a record to come
ends the chain when its turn comes, after the records before it. -/
def State.failScouted (s : State) (f : PFault) : State :=
  let c : Fin 192 := ⟨(8 * f.eng + f.chan) % 192, Nat.mod_lt _ (by omega)⟩
  let k := s.chans[c]
  let (rs, stop) := s.chainAhead c
  if !f.scout || !k.busy || k.part != f.part then s
  else
    let a := match s.firstTo c k.scout (s.pageBase k.part f.addr) rs ([], false) with | some r => r.addr | none => stop.getD k.at_
    match k.recs.findIdx? fun r => r.status.isNone && r.addr == a with
    | some i => s.setRec c i ((k.recs[i]?.getD default).fail 2 f.addr)
    | none => s.setChan c { k with doomed := k.doomed ++ [(a, f.addr)] }

/-- R209, R346: a fault on the line of a record fails: of the completed record at the head, whose status cannot be written, or of the next one. -/
def State.failLine (s : State) (c : Fin 192) (f : PFault) : State :=
  let k := s.chans[c]
  match k.recs with
  | r :: rest =>
    if r.status.isSome && s.pageBase k.part r.addr == s.pageBase k.part f.addr then
      s.setChan c { k with lineWait := none, recs := { r with blind := true } :: rest }
    else s.loseNext c k.blindNext
  | [] => s.loseNext c k.blindNext

/-- R346: a verdict: what waits on the fault translates again, or its chain ends with FAULT. A record of a channel that pauses goes on once the
launch runs again (R327), but its wait, and the stall wire with it, is over (R300). -/
def State.resolve (s : State) (f : PFault) (fail : Bool) : State :=
  let s0 := { s with pfaults := s.pfaults.filter fun o => o.fseq != f.fseq }
  let waits (k : Chan) : Bool := k.lineWait == some f.fseq || k.recs.any fun r => r.wait == some f.fseq
  if fail && !s.chans.toList.any waits then s0.failScouted f
  else (List.finRange 192).foldl (fun (s : State) (c : Fin 192) =>
    let k := s.chans[c]
    if waits k then
      let recs := k.recs.map fun r =>
        if r.wait = some f.fseq then
          (if fail then ({ r with wait := none }).fail 2 f.addr else { r with wait := if s.paused k then some 0 else none })
        else r
      let s1 := s.setChan c { k with recs := recs, lineWait := if k.lineWait = some f.fseq then none else k.lineWait }
      let s2 := if fail && k.lineWait == some f.fseq then s1.failLine c f else s1
      (s2.retireRecs c 17).syncWire c
    else s) s0

/-- R314: where the bytes of a record's destination lie that its page tables name; `fuel` bounds the pieces. -/
def State.destRun (s : State) (p : Fin 64) : Nat → Nat → Nat → List (Nat × Nat × Nat)
  | 0, _, _ => []
  | fuel + 1, a, n =>
    let k := min n (2 ^ 16 - a % 2 ^ 16)
    if n = 0 || decide (2 ^ 48 ≤ a) then []
    else
      let rest := s.destRun p fuel (a + k) (n - k)
      match if inAperture a then .error .notPresent else s.leafOf p a with
      | .error _ => rest
      | .ok (leaf, big) =>
        match s.leafTgt p { part := p, page := pageOf big a, big := big, leaf := leaf } a with
        | .ok (phys, tag, false) => if leaf.getLsbD 3 && !noFrame leaf then (phys, k, tag) :: rest else rest
        | _ => rest

/-- The destination of a record as partition ranges. -/
def HaulRec.dest (r : HaulRec) : List (Nat × Nat) :=
  match r.kind with
  | 1 => [(r.dst, r.len)]
  | 2 => (List.range r.rows).map fun i => (strided r.dst r.arg2 i, r.rowBytes)
  | 3 => [(r.dst, r.len)]
  | 4 => [(r.dst, r.out)]
  | 5 => [(r.dst, r.len)]
  | 8 => [(r.out + r.dst, r.len)]
  | _ => []

/-- R314: the destination bytes of a record that is abandoned are undefined. -/
def State.abandon (s : State) (p : Fin 64) (r : HaulRec) : State :=
  (r.dest.flatMap fun d => s.destRun p (d.2 / 2 ^ 16 + 2) d.1 d.2).foldl (fun s x => s.undefine x.1 x.2.1 x.2.2) s

/-- R344: where the line of a record stands, its page walked where the engine's cache lacks it. -/
def State.lineFor (s : State) (c : Fin 192) (a : Nat) : Option (State × Nat × Nat) :=
  let k := s.chans[c]
  let e := engOf c
  let s1 := match s.haulTgt e k.part (s.chanLaunch k) a true, s.lookUp e k.part a true false with
    | .error (.walk _), some (.ok x) => (s.walkedBy e k.part a).useXlat e x
    | _, _ => s
  match s1.haulTgt e k.part (s1.chanLaunch k) a true with
  | .ok (phys, tag, _) => some (s1, phys, tag)
  | .error _ => none

/-- R346: a chain of a launch that ends waits on a fault: its record has STATUS FAULT and the address, and the failure is reported. -/
def State.dropWaiting (s : State) (c : Fin 192) : State :=
  let k := s.chans[c]
  let addr (f : Nat) : Option Nat := (s.pfaults.find? fun x => x.fseq == f).map PFault.addr
  match k.recs.find? fun r => (r.wait.bind addr).isSome, k.lineWait.bind addr with
  | some r, _ =>
    let s1 := match s.lineFor c r.addr with
      | some (s1, phys, tag) => s1.writeStatus k (r.fail 2 ((r.wait.bind addr).getD 0)) phys tag 2
      | none => s
    s1.engineFault k.part k.sid ((k.owner.map Prod.snd).getD 0) r.addr
  | none, some _ => s.engineFault k.part k.sid ((k.owner.map Prod.snd).getD 0) k.at_
  | none, none => s

/-- R314, R346: the chains of a launch are abandoned. -/
def State.dropChains (s : State) (launch : Nat) : State :=
  (List.finRange 192).foldl (fun (s : State) (c : Fin 192) =>
    let k := s.chans[c]
    match k.owner with
    | some (id, _) =>
      if id = launch && k.busy then
        let s0 := (k.recs.filter fun r => r.status.isNone).foldl (fun s r => s.abandon k.part r) (s.dropWaiting c)
        let mine (a : Arrival) : Bool := a.chan == c.val
        let s1 := { s0.setChan c k.idle with
          arrivals := s0.arrivals.filter fun a => !mine a,
          reductions := s0.reductions.map fun (d : Reduction) => { d with held := d.held.filter fun a => !mine a } }
        s1.syncWire c
      else s
    | none => s) s

/- ENGINE_FAULT and HAULGO. -/

/-- ENGINE_FAULT (R342): the lowest failed channel of a running strand is raised in its H slot, where no other trap awaits delivery and
no handler runs. Its bit stands until the handler begins, since a trap of S, V or M in the same cycle goes before it. -/
def execEngineFault (c : Fin 192) (s : State) : Out :=
  strandEvent c (fun s st =>
    if st.phase != .running || st.handler || st.trapAt.isSome then s
    else
      match (st.efaultAddr.insertionSort fun a b => a.1 ≤ b.1).head? with
      | none => s
      | some e => s.raiseFor c { st with pre := none } .h .engineFault e.2 (some e.1)) s

/-- R207: the physical channel allotted to a logical channel of a launch. -/
def State.chanOf (s : State) (launch ch : Nat) : Option (Fin 192) := (List.finRange 192).find? fun c => s.chans[c].owner == some (launch, ch)

/-- R207: the reserved bits of HAULGO's operand. -/
def haulReserved (xb : W64) : Bool := xb.extractLsb' 15 49 != 0 || xb.extractLsb' 4 4 != 0 || decide (64 < (xb.extractLsb' 8 7).toNat)

/-- HAULGO (R207, R191, R228): it waits for its channel, and, as a release, for the strand's S accesses to be performed. -/
def execHaulgo (r : Bool) (a b : BitVec 5) (s : State) : Out :=
  hWord r false (fun s c st =>
    let xa := st.xv a
    let xb := st.xv b
    let ch := (xb.extractLsb' 0 4).toNat
    if st.fenced 4 then .stall s
    else if st.xp a || st.xp b then .trap .poison 0
    else if haulReserved xb then .trap .reservedNonzero 0
    else if xa.toNat % 64 != 0 then .trap .misalign xa
    else
      match s.launch? st.launch with
      | none => .trap .fieldMiss xa
      | some l =>
        match s.translate l xa .rw with
        | .error e => .trap e xa
        | .ok t =>
          match if l.haulch.getLsbD ch then s.chanOf l.id ch else none with
          | none => .trap .privilege 0
          | some q =>
            let k := s.chans[q]
            if k.busy || !st.accs.isEmpty then .stall s
            else
              let head := t.fld.partbase + (xa.toNat - t.fld.vbase)
              .ok (s.setChan q { k with busy := true, sid := st.sid, gang := st.gang, scout := (xb.extractLsb' 8 7).toNat, at_ := head,
                                        seq := none, waiting := false, lineWait := none, recs := [], doomed := [] }) .seq 1) s

end Sys2Proof.Machine
end

