-- ==== Sys2Proof/Machine/Quarry.lean ====
section
/-! DEFINITION. Quarry logic (R213 to R215, R246 to R260): posting a slab, its way to the stack, GSUM, GSEARCH with its sub-queries and
its merge, and completion records. -/

namespace Sys2Proof.Machine

open Sys2Proof

/- Packets (R214). -/

/-- Doubleword `i` of a packet. -/
def pw (pkt : List Byte) (i : Nat) : Nat := leNat ((pkt.drop (8 * i)).take 8)

def pktKind (pkt : List Byte) : Nat := pw pkt 0 % 16
def pktNf (pkt : List Byte) : Nat := pw pkt 0 / 2 ^ 8 % 16
def pktSeq (pkt : List Byte) : Nat := pw pkt 0 / 2 ^ 32
def pktCpl (pkt : List Byte) : Nat := pw pkt 1

/-- Packet `j` of a slab. -/
def packetOf (slab : List Byte) (j : Nat) : List Byte := (slab.drop (128 * j)).take 128

/-- R248: the statuses. -/
inductive QStatus where
  | ok | marked | visitedFull | hopLimit | bounds | badPacket | badField | placement | badGraph | poison
deriving DecidableEq, Repr, Inhabited

def QStatus.code : QStatus → Nat
  | .ok => 0 | .marked => 1 | .visitedFull => 2 | .hopLimit => 3 | .bounds => 4 | .badPacket => 5 | .badField => 6
  | .placement => 7 | .badGraph => 8 | .poison => 9

def QResult.fail (x : QStatus) : QResult := { status := x.code, count := 0, hops := 0, visits := 0 }

/-- R214, R249: the header fields that need no memory. -/
def headerBad (pkt : List Byte) : Bool :=
  pw pkt 0 / 2 ^ 12 % 2 ^ 20 != 0 || pw pkt 0 / 2 ^ 4 % 16 != 0 || decide (2 < pktKind pkt) || decide (8 < pktNf pkt) || pktCpl pkt % 16 != 0 ||
    ((pkt.drop (16 + pktNf pkt)).take (8 - pktNf pkt)).any (· != 0)

/-- The launched entry of named field `i` (R247). -/
def Launch.named (l : Launch) (pkt : List Byte) (i : Nat) : Option FieldEnt :=
  let idx := ((pkt.drop (16 + i)).headD 0).toNat
  l.fields.find? fun f => f.idx == idx

/-- R249: does every named index hold a field. -/
def Launch.fieldsOk (l : Launch) (pkt : List Byte) : Bool := (List.range (pktNf pkt)).all fun i => (l.named pkt i).isSome

/- Ranges (R247). -/

/-- A range of a packet: its named field, offset, length, whether it is written, the stack that must hold it. -/
structure QRange where
  fld : Nat
  off : Nat
  len : Nat
  write : Bool
  stack : Option Nat
deriving DecidableEq, Repr, Inhabited

/-- R247: is a range in bounds, with its permission. -/
def Launch.inBounds (l : Launch) (pkt : List Byte) (r : QRange) : Bool :=
  decide (r.fld < pktNf pkt) && match l.named pkt r.fld with
    | some f => decide (r.off + r.len ≤ f.size) && f.allows (if r.write then .w else .r)
    | none => false

/-- R227, R247: the pieces of a range in bounds, by 2 KiB block; `none` where one lies outside HBM storage or on another stack. `fuel`
bounds the pieces. -/
def State.qPieces (s : State) (l : Launch) (f : FieldEnt) (stack : Option Nat) : Nat → Nat → Nat → Option (List HPiece)
  | 0, _, _ => some []
  | fuel + 1, o, n =>
    if n = 0 then some []
    else if f.slot.isSome then none
    else
      match s.fieldTgt l f o with
      | none => none
      | some t =>
        if !isHbm t.addr || (match stack with | some k => stackOf t.addr != k | none => false) then none
        else
          let k := min n (2048 - o % 2048)
          match s.qPieces l f stack fuel (o + k) (n - k) with
          | none => none
          | some ps => some ({ at_ := o, len := k, phys := t.addr, tag := t.tag, zero := t.disc } :: ps)

/-- The pieces of a range: BOUNDS first, then PLACEMENT. -/
def State.qRange (s : State) (l : Launch) (pkt : List Byte) (r : QRange) : Except QStatus (List HPiece) :=
  if !l.inBounds pkt r then .error .bounds
  else
    match (l.named pkt r.fld).bind fun f => s.qPieces l f r.stack (r.len / 2048 + 2) r.off r.len with
    | none => .error .placement
    | some ps => .ok ps

/-- R249: ranges that the body fixes: BOUNDS of every one, then PLACEMENT. -/
def State.qRanges (s : State) (l : Launch) (pkt : List Byte) (rs : List QRange) : Except QStatus (List (List HPiece)) :=
  if !rs.all (l.inBounds pkt) then .error .bounds
  else rs.foldr (fun r acc =>
    match s.qRange l pkt r, acc with
    | .error e, _ => .error e
    | .ok _, .error e => .error e
    | .ok p, .ok ps => .ok (p :: ps)) (.ok [])

/-- Result bytes written; a discarded page takes none (R388). -/
def qWrites (ps : List HPiece) (bs : List Byte) (mark : Bool) : List MWrite :=
  let bad := if mark then List.range bs.length else []
  ((ps.zip (hWrites ps bs bad)).filter fun x => !x.1.zero).map Prod.snd

/- The completion record (R247, R250, R251). -/

/-- R292, R319, R374: what quarry logic reads and writes for a launch: counted, and the rows that it closes. -/
def State.quarryTraffic (s : State) (p : Fin 64) (launch : Nat) (t : List (Nat × Nat)) : State :=
  t.foldl (fun s x => (s.countBytes p launch x.1 x.2).gleaned x.1 x.2) s

/-- The storage that pieces touch; a discarded page is none. -/
def touchedBy (ps : List HPiece) : List (Nat × Nat) := (ps.filter fun q => !q.zero).map fun q => (q.phys, q.len)

/-- R260: a launch whose packets go on. -/
def State.quarryLaunch (s : State) (id : Nat) : Option Launch := (s.launch? id).filter fun l => l.ending == .live

/-- R250, R251: bytes 15:8, then bytes 7:0, each one write; a record that meets the gated response is lost and logged, and one in a
discarded page is not written, as its results are not (DEDUCED, log). -/
def State.qRecord (s : State) (launch : Nat) (pkt : List Byte) (kind : Nat) (r : QResult) : State :=
  match s.launch? launch with
  | none => s
  | some l =>
    let a := pktCpl pkt / 16 * 16
    match s.translate l (BitVec.ofNat 64 a) .w with
    | .error _ => s
    | .ok t =>
      if t.gated then s.notice l.part 2 (pktCpl pkt) 0
      else
        let lo := pktSeq pkt + r.status * 2 ^ 32 + kind * 2 ^ 40 + r.count * 2 ^ 48
        let hi := r.hops % 2 ^ 32 + r.visits % 2 ^ 32 * 2 ^ 32
        if t.disc then s
        else (s.quarryTraffic l.part launch [(t.addr + 8, 8), (t.addr, 8)]).deliver
          [MWrite.plain (t.addr + 8) t.tag (leBytes 8 hi), MWrite.plain t.addr t.tag (leBytes 8 lo)]

/- Posting (R213, R215). -/

/-- R213: the first completion address of a slab that cannot be written. -/
def State.cplFault (s : State) (l : Launch) (slab : List Byte) : Option (Cause × W64) :=
  (List.range 16).findSome? fun j =>
    let p := packetOf slab j
    if pktKind p = 0 then none
    else
      let a := BitVec.ofNat 64 (pktCpl p / 16 * 16)
      match s.translate l a .w with
      | .error e => some (e, a)
      | .ok _ => none

/-- QPOST (R213, R215, R191, R190), which stalls while its request cannot enter its stack's queue (R230); a poisoned line of the slab is counted on the core's die (R396). -/
def execQpost (r : Bool) (a b : BitVec 5) (s : State) : Out :=
  hWord r false (fun s c st =>
    let xa := st.xv a
    let k := (st.xv b).toNat
    let base := yardAddr (s.yardOfCore c) xa.toNat
    if st.fenced 3 || st.fenced 5 then .stall s
    else if st.xp a || st.xp b then .trap .poison 0
    else if 16 ≤ k then .trap .reservedNonzero 0
    else if xa.toNat % 2048 != 0 then .trap .misalign xa
    else if yardLimit < xa.toNat + 2048 then .trap .fieldMiss xa
    else if 4 ≤ ((s.cores[c]).slabs.filter fun b => b.stack == k).length then .stall s
    else
      match s.preRead c st 32 with
      | some s1 => .stall s1
      | none =>
        match s.mem.firstBad base 2048 with
        | some line => s.poisonTrap c st .h (64 * line) (xa + adr64 (64 * line - base))
        | none =>
          match s.launch? st.launch with
          | none => .trap .fieldMiss xa
          | some l =>
            let slab := s.mem.span base 2048
            match s.cplFault l slab with
            | some e => .trap e.1 e.2
            | none =>
              if (List.range 16).all fun j => pktKind (packetOf slab j) == 0 then .ok s .seq 1
              else if s.cores[c].reqStalls k then .stall s
              else
                let core := s.cores[c]
                let e : Slab := { stack := k, sid := st.sid, part := st.part, launch := st.launch, data := slab, pos := 0, go := false }
                .ok ((s.setCore c { core with slabs := core.slabs ++ [e] }).request c k (hbmAddr k 0) 2048 .slab) .seq 1) s

def State.setQuarry (s : State) (k : Fin 16) (q : Quarry) : State := { s with quarry := s.quarry.set k q }

/-- SLAB_SEND (R215, R246): a slab leaves its core in issue order, in the tick in which its owned slot has come and found room: the clock
waits for it. -/
def execSlabSend (c : Fin 192) (k : Fin 16) (s : State) : Out :=
  let core := s.cores[c]
  let q := s.quarry[k]
  match core.slabs.findIdx? fun b => b.stack == k.val with
  | none => .next s
  | some i =>
    match core.slabs[i]? with
    | none => .next s
    | some b =>
      if b.go && q.room then
        .next ((s.setCore c { core with slabs := core.slabs.eraseIdx i }).setQuarry k { q with transit := q.transit ++ [b] })
      else .next s

/-- SLAB_ARRIVAL (R246): the slab that left first joins the arrival queue. -/
def execSlabArrival (k : Fin 16) (s : State) : Out :=
  let q := s.quarry[k]
  match q.transit with
  | [] => .next s
  | b :: rest => .next (s.setQuarry k { q with transit := rest, arrived := q.arrived ++ [b] })

/- The next packet. -/

/-- R214, R246: the packet to start next on a stack: empty positions are skipped. -/
def Quarry.head (q : Quarry) : Option (Slab × Nat) :=
  match q.arrived with
  | [] => none
  | b :: _ => ((List.range 16).find? fun j => decide (b.pos ≤ j) && pktKind (packetOf b.data j) != 0).map fun j => (b, j)

/-- R246: has a stack a query slot free for a packet posted to it. -/
def Quarry.free (q : Quarry) : Bool := decide (q.sums.length + q.queries.length < 960)

/-- Position `j` of the first slab has started; a slab with no packet left leaves the queue. -/
def Quarry.started (q : Quarry) (j : Nat) : Quarry :=
  match q.arrived with
  | [] => q
  | b :: rest =>
    if (List.range 16).any fun i => decide (j < i) && pktKind (packetOf b.data i) != 0 then { q with arrived := { b with pos := j + 1 } :: rest }
    else { q with arrived := rest }

/- GSUM (R252, R253, R259). -/

/-- The element formats of tables and vectors (R252, R254) and their widths in bytes. -/
def tableFmt (c : Nat) : Option (Fmt × Nat) :=
  match c with
  | 0 => some (.fp32, 4)
  | 1 => some (.bf16, 2)
  | 3 => some (.e4m3, 1)
  | _ => none

/-- Element `e` of a packed row, decoded exactly to FP32. -/
def rowF32 (f : Fmt) (w : Nat) (bs : List Byte) (e : Nat) : W32 := (toF32 rmRNE (f.read (leNat ((bs.drop (w * e)).take w)))).1

/-- The body of a GSUM (R252). -/
structure GsumBody where
  n : Nat
  len : Nat
  bf16Out : Bool
  fmt : Fmt
  width : Nat
  outF : Nat
  wF : Nat
  iF : Nat
  tF : Nat
  toff : Nat
  pitch : Nat
  ioff : Nat
  woff : Nat
  ooff : Nat
deriving DecidableEq, Repr, Inhabited

/-- R252: the body, where it is legal. -/
def gsumBody (pkt : List Byte) : Option GsumBody :=
  let w := pw pkt 3
  let len := w / 2 ^ 24 % 2 ^ 12 + 1
  let ofmt := w / 2 ^ 20 % 16
  let wF := w / 2 ^ 8 % 16
  match tableFmt (w / 2 ^ 16 % 16) with
  | none => none
  | some (f, eb) =>
    if w / 2 ^ 44 != 0 || pw pkt 5 / 2 ^ 32 != 0 || (pkt.drop 72).any (· != 0) || decide (1 < ofmt) || decide (4096 < len * eb) ||
        pw pkt 4 % 16 != 0 || pw pkt 5 % 16 != 0 || decide (pw pkt 5 < len * eb) || pw pkt 6 % 4 != 0 || (wF != 15 && pw pkt 7 % 4 != 0) ||
        pw pkt 8 % 16 != 0 then none
    else some { n := w / 2 ^ 36 % 2 ^ 8 + 1, len := len, bf16Out := ofmt == 1, fmt := f, width := eb, outF := w / 2 ^ 12 % 16, wF := wF,
                iF := w / 2 ^ 4 % 16, tF := w % 16, toff := pw pkt 4, pitch := pw pkt 5, ioff := pw pkt 6, woff := pw pkt 7,
                ooff := pw pkt 8 }

/-- R253: the sum of one element over the rows, in index-list order. -/
def gsumElem (rows : List (W32 × List Byte)) (f : Fmt) (w e : Nat) : W32 :=
  rows.foldl (fun acc r => (fmaF32 rmRNE r.1 (rowF32 f w r.2 e) acc).1) 0

/-- The 4-byte words of a list. -/
def words32 (bs : List Byte) : List W32 := (List.range (bs.length / 4)).map fun i => BitVec.ofNat 32 (leNat ((bs.drop (4 * i)).take 4))

/-- R253: the rows of a GSUM, each checked before anything is written. -/
def State.gsumRows (s : State) (l : Launch) (pkt : List Byte) (g : GsumBody) (stack : Nat) :
    List W32 → Except QStatus (List (List Byte × Bool × List (Nat × Nat)))
  | [] => .ok []
  | i :: rest =>
    match s.qRange l pkt { fld := g.tF, off := g.toff + i.toNat * g.pitch, len := g.len * g.width, write := false, stack := some stack } with
    | .error e => .error e
    | .ok ps =>
      let (bs, bad) := s.mem.gather ps
      match s.gsumRows l pkt g stack rest with
      | .error e => .error e
      | .ok rs => .ok ((bs, !bad.isEmpty, touchedBy ps) :: rs)

/-- R249, R252, R253, R259: a GSUM run: the memory writes of its output, its result, what it read. -/
def State.gsum (s : State) (l : Launch) (pkt : List Byte) (k : Fin 16) : List MWrite × QResult × List (Nat × Nat) :=
  if headerBad pkt then ([], .fail .badPacket, [])
  else
    match gsumBody pkt with
    | none => ([], .fail .badPacket, [])
    | some g =>
      if !l.fieldsOk pkt then ([], .fail .badField, [])
      else
        let ob := if g.bf16Out then 2 else 4
        let wr : List QRange := if g.wF = 15 then [] else [{ fld := g.wF, off := g.woff, len := 4 * g.n, write := false, stack := some k.val }]
        let fixed : List QRange := { fld := g.iF, off := g.ioff, len := 4 * g.n, write := false, stack := some k.val } :: (wr ++
          [{ fld := g.outF, off := g.ooff, len := g.len * ob, write := true, stack := none }])
        match s.qRanges l pkt fixed with
        | .error e => ([], .fail e, [])
        | .ok ps =>
          let (ib0, ibad0) := s.mem.gather (ps.headD [])
          let (ib, ibad) := lostLine s.quarry[k].hurt ib0 ibad0
          let (wb, wbad) := if g.wF = 15 then ((List.replicate g.n (leBytes 4 0x3F800000)).flatten, []) else s.mem.gather (ps.getD 1 [])
          let lists := ps.dropLast.flatMap touchedBy
          match s.gsumRows l pkt g k.val (words32 ib) with
          | .error e => ([], .fail e, lists)
          | .ok rows =>
            let marked := !ibad.isEmpty || !wbad.isEmpty || rows.any fun r => r.2.1
            let out := (List.range g.len).flatMap fun e =>
              let acc := gsumElem ((words32 wb).zip (rows.map Prod.fst)) g.fmt g.width e
              if g.bf16Out then leBytes 2 ((Fmt.bf16.convert rmRNE false (f32 acc)).1).toNat else leBytes 4 acc.toNat
            (qWrites (ps.getLastD []) out marked, { status := if marked then 1 else 0, count := 1, hops := g.n, visits := 0 },
             lists ++ rows.flatMap fun r => r.2.2)

/- GSEARCH (R254 to R259). -/

/-- The body of a GSEARCH (R254); shards as (GOFF, GF, STACK). -/
structure GsearchBody where
  k : Nat
  beam : Nat
  dim : Nat
  ip : Bool
  fmt : Fmt
  width : Nat
  rF : Nat
  qF : Nat
  qoff : Nat
  roff : Nat
  hoplim : Nat
  shards : List (Nat × Nat × Nat)
deriving DecidableEq, Repr, Inhabited

/-- R254: the body, where it is legal and posted to its home stack. -/
def gsearchBody (pkt : List Byte) (stack : Nat) : Option GsearchBody :=
  let w := pw pkt 3
  let nsh := w / 2 ^ 43 % 8
  let k := w / 2 ^ 36 % 2 ^ 7 + 1
  let beam := w / 2 ^ 28 % 2 ^ 8 + 1
  let ds := (List.range 6).map fun j => pw pkt (7 + j)
  let shards := (ds.take nsh).map fun d => (d / 2 ^ 16, d / 2 ^ 4 % 16, d % 16)
  match tableFmt (w / 2 ^ 8 % 16) with
  | none => none
  | some (f, eb) =>
    if w / 2 ^ 46 != 0 || w / 2 ^ 13 % 8 != 0 || nsh = 0 || decide (6 < nsh) || decide (beam < k) || pw pkt 4 % 16 != 0 || pw pkt 5 % 16 != 0 ||
        pw pkt 6 / 2 ^ 32 != 0 || (pkt.drop 104).any (· != 0) || (ds.drop nsh).any (· != 0) ||
        (ds.take nsh).any (fun d => d / 2 ^ 8 % 2 ^ 8 != 0 || d / 2 ^ 16 % 64 != 0) ||
        (shards.head?.map fun x => x.2.2) != some stack || (shards.map fun x => x.2.2).dedup.length != nsh then none
    else some { k := k, beam := beam, dim := w / 2 ^ 16 % 2 ^ 12 + 1, ip := w / 2 ^ 12 % 2 == 1, fmt := f, width := eb, rF := w / 2 ^ 4 % 16,
                qF := w % 16, qoff := pw pkt 4, roff := pw pkt 5, hoplim := pw pkt 6, shards := shards }

/-- An entry of a heap: distance, GID, shard, local index (R256). -/
structure QEnt where
  d : W32
  gid : Nat
  shard : Nat
  loc : Nat
deriving DecidableEq, Repr, Inhabited

/-- R256: distances by value, every NaN after +∞. -/
def distLt (a b : W32) : Bool := !(f32 a).isNan && ((f32 b).isNan || (f32 a).lt (f32 b))

/-- R256: the key order. -/
def QEnt.better (a b : QEnt) : Bool :=
  distLt a.d b.d || (!distLt b.d a.d &&
    (decide (a.gid < b.gid) || (a.gid == b.gid && (decide (a.shard < b.shard) || (a.shard == b.shard && decide (a.loc < b.loc))))))

/-- An entry put in its place in a list in key order. -/
def insertEnt (x : QEnt) : List QEnt → List QEnt
  | [] => [x]
  | y :: ys => if x.better y then x :: y :: ys else y :: insertEnt x ys

/-- R256: the distance of a vector to the query. -/
def distance (ip : Bool) (q xs : List W32) : W32 :=
  let acc := (q.zip xs).foldl (fun acc p =>
    if ip then (fmaF32 rmRNE p.1 p.2 acc).1
    else
      let t := (addF32 rmRNE p.1 (p.2 ^^^ 0x80000000#32)).1
      (fmaF32 rmRNE t t acc).1) 0
  if ip && !(f32 acc).isNan then acc ^^^ 0x80000000#32 else acc

/-- What a shard's search reads with: the launch, packet, body and its shard number. -/
structure Shard where
  l : Launch
  pkt : List Byte
  g : GsearchBody
  j : Nat
  q : List W32
deriving DecidableEq, Repr

/-- The descriptor of a shard. -/
def Shard.desc (h : Shard) : Nat × Nat × Nat := h.g.shards.getD h.j (0, 0, 0)

/-- A part of a search: the storage it touched, and its value or the failure that stops the shard. -/
structure Ran (α : Type) where
  touched : List (Nat × Nat)
  val : Except QStatus α

/-- A part that touches nothing. -/
def Ran.pure {α : Type} (v : Except QStatus α) : Ran α := { touched := [], val := v }

/-- One part of a search after another. -/
def Ran.andThen {α β : Type} (r : Ran α) (f : α → Ran β) : Ran β :=
  match r.val with
  | .error e => { touched := r.touched, val := .error e }
  | .ok a => { touched := r.touched ++ (f a).touched, val := (f a).val }

/-- R247, R259: bytes of the shard's graph. -/
def State.shardRead (s : State) (h : Shard) (off n : Nat) : Ran (List Byte) :=
  match s.qRange h.l h.pkt { fld := h.desc.2.1, off := h.desc.1 + off, len := n, write := false, stack := some h.desc.2.2 } with
  | .error e => .pure (.error e)
  | .ok ps => let (bs, bad) := s.mem.gather ps; { touched := touchedBy ps, val := if bad.isEmpty then .ok bs else .error .poison }

/-- R255: the shard header. -/
structure GraphHead where
  nn : Nat
  pitch : Nat
  entry : Nat
  degmax : Nat
  voff : Nat
  vbytes : Nat
deriving DecidableEq, Repr, Inhabited

/-- R255: the header of a shard, checked. -/
def State.graphHead (s : State) (h : Shard) : Ran GraphHead :=
  (s.shardRead h 0 64).andThen fun bs =>
    let w (o n : Nat) : Nat := leNat ((bs.drop o).take n)
    let degmax := w 12 2
    let voff := 16 * ((16 + 4 * degmax + 15) / 16)
    let vb := 16 * ((h.g.dim * (8 * h.g.width) + 127) / 128)
    if w 0 4 = 0 || w 4 4 % 64 != 0 || w 4 4 < voff + vb || w 0 4 ≤ w 8 4 || degmax = 0 || (bs.drop 14).any (· != 0) then .pure (.error .badGraph)
    else .pure (.ok { nn := w 0 4, pitch := w 4 4, entry := w 8 4, degmax := degmax, voff := voff, vbytes := vb })

/-- R255: GID and DEG of a node. -/
def State.nodeHead (s : State) (h : Shard) (a : GraphHead) (i : Nat) : Ran (Nat × Nat) :=
  (s.shardRead h (64 + i * a.pitch) 16).andThen fun hd =>
    if a.degmax < leNat ((hd.drop 4).take 2) || (hd.drop 6).any (· != 0) then .pure (.error .badGraph)
    else .pure (.ok (leNat (hd.take 4), leNat ((hd.drop 4).take 2)))

/-- R255, R256: a node evaluated: its entry. -/
def State.evalNode (s : State) (h : Shard) (a : GraphHead) (i : Nat) : Ran QEnt :=
  (s.nodeHead h a i).andThen fun hd => (s.shardRead h (64 + i * a.pitch + a.voff) a.vbytes).andThen fun bs =>
    .pure (.ok { d := distance h.g.ip h.q ((List.range h.g.dim).map fun e => rowF32 h.g.fmt h.g.width bs e), gid := hd.1, shard := h.j, loc := i })

/-- A search in progress (R257): the heaps in key order, the visited set, hops. -/
structure Search where
  c : List QEnt
  w : List QEnt
  v : List Nat
  hops : Nat
deriving DecidableEq, Repr, Inhabited

/-- R257: a node evaluated joins the heaps where there is room or it is better than the worst result. -/
def Search.meet (x : Search) (beam : Nat) (e : QEnt) : Search :=
  if decide (x.w.length < beam) || (match x.w.getLast? with | some y => e.better y | none => true) then
    { x with c := (insertEnt e x.c).take beam, w := (insertEnt e x.w).take beam }
  else x

/-- R257: the neighbours of node `i` from `j` on, in list order, each read in its turn; `n` of them are left. The second part says that
the visited set was full. -/
def State.visit (s : State) (h : Shard) (a : GraphHead) (i : Nat) : Nat → Nat → Search → Ran (Search × Bool)
  | 0, _, x => .pure (.ok (x, false))
  | n + 1, j, x =>
    (s.shardRead h (64 + i * a.pitch + 16 + 4 * j) 4).andThen fun bs =>
      let v := leNat bs
      if a.nn ≤ v then .pure (.error .badGraph)
      else if x.v.contains v then s.visit h a i n (j + 1) x
      else if 65536 ≤ x.v.length then .pure (.ok (x, true))
      else (s.evalNode h a v).andThen fun e => s.visit h a i n (j + 1) ({ x with v := v :: x.v }.meet h.g.beam e)

/-- R257: the loop; `fuel` bounds the hops. -/
def State.search (s : State) (h : Shard) (a : GraphHead) : Nat → Search → Ran (Search × QStatus)
  | 0, x => .pure (.ok (x, .ok))
  | fuel + 1, x =>
    match x.c with
    | [] => .pure (.ok (x, .ok))
    | c :: cs =>
      if decide (h.g.beam ≤ x.w.length) && (match x.w.getLast? with | some y => y.better c | none => false) then .pure (.ok (x, .ok))
      else if h.g.hoplim != 0 && x.hops == h.g.hoplim then .pure (.ok (x, .hopLimit))
      else
        (s.nodeHead h a c.loc).andThen fun hd =>
          (s.visit h a c.loc hd.2 0 { x with c := cs, hops := x.hops + 1 }).andThen fun r =>
            if r.2 then .pure (.ok (r.1, .visitedFull)) else s.search h a fuel r.1

/-- R257: a shard's whole search. -/
def State.shardRun (s : State) (h : Shard) : Ran (Search × QStatus) :=
  (s.graphHead h).andThen fun a => (s.evalNode h a a.entry).andThen fun e =>
    s.search h a 65537 { c := [e], w := [e], v := [a.entry], hops := 0 }

/-- R257: what a shard reports. -/
def State.runShard (s : State) (h : Shard) : ShardRep :=
  match (s.shardRun h).val with
  | .error e => { status := e.code, w := [], hops := 0, visits := 0 }
  | .ok (x, st) => { status := st.code, w := x.w.map fun e => (e.d, e.gid, e.loc), hops := x.hops, visits := x.v.length }

/-- R249, R254, R259: the checks of a GSEARCH before any shard runs: its body and query, and what it read. -/
def State.gsearchStart (s : State) (l : Launch) (pkt : List Byte) (k : Fin 16) : Ran (GsearchBody × List W32) :=
  if headerBad pkt then .pure (.error .badPacket)
  else
    match gsearchBody pkt k.val with
    | none => .pure (.error .badPacket)
    | some g =>
      if !l.fieldsOk pkt then .pure (.error .badField)
      else
        let rs : List QRange := [{ fld := g.qF, off := g.qoff, len := 4 * g.dim, write := false, stack := some k.val },
          { fld := g.rF, off := g.roff, len := 8 * g.k, write := true, stack := none }]
        match s.qRanges l pkt rs with
        | .error e => .pure (.error e)
        | .ok ps =>
          let (bs, bad) := s.mem.gather (ps.headD [])
          { touched := touchedBy (ps.headD []), val := if bad.isEmpty && !s.quarry[k].hurt then .ok (g, words32 bs) else .error .poison }

/-- R246, R254: a search and the sub-queries that it sends to its other shards. -/
def State.searchSent (s : State) (k : Fin 16) (b : Slab) (pkt : List Byte) (g : GsearchBody) (qv : List W32) (rep : ShardRep) : State :=
  let q := s.quarry[k]
  let qry : Query := { qid := q.nextQid, sid := b.sid, part := b.part, launch := b.launch, pkt := pkt,
                       reps := some rep :: List.replicate (g.shards.length - 1) none }
  (g.shards.zipIdx.drop 1).foldl (fun (s : State) x =>
    let d : Fin 16 := ⟨x.1.2.2 % 16, Nat.mod_lt _ (by omega)⟩
    let sub : SubQuery := { home := k.val, qid := q.nextQid, shard := x.2, part := b.part, launch := b.launch, pkt := pkt, q := qv }
    s.setQuarry d { s.quarry[d] with subs := (s.quarry[d]).subs ++ [sub] }) (s.setQuarry k { q with queries := q.queries ++ [qry], nextQid := q.nextQid + 1 })

/-- R246: a packet that holds a query slot until its record is written, with its output and its result. -/
def State.holdSum (s : State) (k : Fin 16) (b : Slab) (pkt : List Byte) (ws : List MWrite) (r : QResult) : State :=
  let q := s.quarry[k]
  s.setQuarry k { q with sums := q.sums ++ [{ part := b.part, launch := b.launch, pkt := pkt, out := ws, res := r }],
                         hurt := q.hurt && r.status != 1 && r.status != QStatus.poison.code }

/-- R246, R253, R254, R257: a packet starts: it reads its data; a GSEARCH that meets no failure searches shard 0 and sends each other shard its
sub-query. A packet of a launch that is ending is abandoned (R260). -/
def State.startPacket (s : State) (k : Fin 16) (b : Slab) (pkt : List Byte) : State :=
  match s.quarryLaunch b.launch with
  | none => s
  | some l =>
    if pktKind pkt = 2 then
      let r := s.gsearchStart l pkt k
      let s1 := s.quarryTraffic b.part b.launch r.touched
      match r.val with
      | .error e => s1.holdSum k b pkt [] (.fail e)
      | .ok (g, qv) =>
        let sh : Shard := { l := l, pkt := pkt, g := g, j := 0, q := qv }
        (s1.quarryTraffic b.part b.launch (s.shardRun sh).touched).searchSent k b pkt g qv (s.runShard sh)
    else if pktKind pkt = 1 then
      let (ws, r, t) := s.gsum l pkt k
      (s.holdSum k b pkt ws r).quarryTraffic b.part b.launch t
    else s.holdSum k b pkt [] (.fail .badPacket)

/-- R246: the next packet of a stack starts, where a query slot is free, and holds its slot until its record is written. -/
def State.sumStart (s : State) (k : Fin 16) : State :=
  let q := s.quarry[k]
  match q.head with
  | none => s
  | some (b, j) => if q.free then (s.setQuarry k (q.started j)).startPacket k b (packetOf b.data j) else s

/-- R246, R250, R251: a packet in progress completes: its output is written, then its record. -/
def State.sumDone (s : State) (k : Fin 16) (i : Nat) : State :=
  let q := s.quarry[k]
  match q.sums[i]? with
  | none => s
  | some x =>
    let s1 := s.setQuarry k { q with sums := q.sums.eraseIdx i }
    match s1.quarryLaunch x.launch with
    | none => s1
    | some _ =>
      ((s1.quarryTraffic x.part x.launch (x.out.map fun w => (w.addr, w.data.length))).deliver x.out).qRecord x.launch x.pkt
        (if pktKind x.pkt ≤ 2 then pktKind x.pkt else 0) x.res

/-- The next packet of a stack starts, and completes where it holds its result already. Packets that other moves start are in progress
together and complete in any order (R246, R260, R261). -/
def State.packetRun (s : State) (k : Fin 16) : State :=
  let s1 := s.sumStart k
  if s1.quarry[k].sums.length = s.quarry[k].sums.length then s1 else s1.sumDone k s.quarry[k].sums.length

/-- The kind of the packet to start next on a stack. -/
def Quarry.headKind (q : Quarry) : Option Nat := q.head.map fun h => pktKind (packetOf h.1.data h.2)

/-- GSUM (R246, R249 to R253, R259): the next packet of a stack, where it is a GSUM or of a reserved kind, starts and completes. -/
def execGsum (k : Fin 16) (s : State) : Out := .next (if s.quarry[k].headKind = some 2 then s else s.packetRun k)

/-- GSEARCH (R246, R254, R257): the next packet of a stack, where it is a GSEARCH, starts; one that fails at its start completes. -/
def execGsearch (k : Fin 16) (s : State) : Out := .next (if s.quarry[k].headKind = some 2 then s.packetRun k else s)

/-- R393: who posted a packet that starts again. -/
def Slab.again (k : Fin 16) (sid : Nat) (part : Fin 64) (launch : Nat) : Slab :=
  { stack := k.val, sid := sid, part := part, launch := launch, data := [], pos := 0, go := true }

/-- R393: the packet in the `n`th query slot taken of a stack starts again from its beginning; a search withdraws its sub-queries. -/
def State.restartPacket (s : State) (k : Fin 16) (n : Nat) : State :=
  let q := s.quarry[k]
  match q.sums[n]?, q.queries[n - q.sums.length]? with
  | some x, _ =>
    (s.setQuarry k { q with sums := q.sums.eraseIdx n }).startPacket k (Slab.again k 0 x.part x.launch) x.pkt
  | none, some y =>
    let s1 : State := { s with quarry := s.quarry.map fun o => { o with subs := o.subs.filter fun b => !(b.home == k.val && b.qid == y.qid) } }
    let q1 : Quarry := s1.quarry[k]
    (s1.setQuarry k { q1 with queries := q.queries.filter fun o => o.qid != y.qid }).startPacket k
      (Slab.again k y.sid y.part y.launch) y.pkt
  | none, none => s

/-- SUBQUERY (R246, R254, R257): the first sub-query waiting on a stack runs, and its home stack has its report. -/
def execSubquery (k : Fin 16) (s : State) : Out :=
  let q := s.quarry[k]
  match q.subs with
  | [] => .next s
  | b :: rest =>
    let s1 := s.setQuarry k { q with subs := rest, hurt := false }
    match s1.quarryLaunch b.launch with
    | none => .next s1
    | some l =>
      match gsearchBody b.pkt b.home with
      | none => .next s1
      | some g =>
        let sh : Shard := { l := l, pkt := b.pkt, g := g, j := b.shard, q := b.q }
        let rep : ShardRep := if q.hurt then { status := QStatus.poison.code, w := [], hops := 0, visits := 0 } else s1.runShard sh
        let s2 := s1.quarryTraffic b.part b.launch (s1.shardRun sh).touched
        let h : Fin 16 := ⟨b.home % 16, Nat.mod_lt _ (by omega)⟩
        let qh := s2.quarry[h]
        .next (s2.setQuarry h { qh with queries := qh.queries.map fun y =>
          if y.qid = b.qid then { y with reps := y.reps.set b.shard (some rep) } else y })

/-- R258: the merge of the reports: the entries written and the result. -/
def mergeReps (k : Nat) (reps : List ShardRep) : List QEnt × QResult :=
  match reps.find? fun r => decide (4 ≤ r.status) with
  | some r => ([], { status := r.status, count := 0, hops := 0, visits := 0 })
  | none =>
    let all := reps.zipIdx.flatMap fun r => r.1.w.map fun e => ({ d := e.1, gid := e.2.1, shard := r.2, loc := e.2.2 } : QEnt)
    let best := (all.foldl (fun acc e => insertEnt e acc) []).take k
    let has (c : Nat) : Bool := reps.any fun r => r.status == c
    (best, { status := if has 2 then 2 else if has 3 then 3 else 0, count := best.length,
             hops := reps.foldl (fun n r => n + r.hops) 0, visits := reps.foldl (fun n r => n + r.visits) 0 })

/-- GSEARCH_MERGE (R258): a search all of whose shards have reported completes. -/
def execGsearchMerge (k : Fin 16) (i : Nat) (s : State) : Out :=
  let q := s.quarry[k]
  match q.queries[i]? with
  | none => .next s
  | some y =>
    if !y.reps.all Option.isSome then .next s
    else
      let s1 := s.setQuarry k { q with queries := q.queries.eraseIdx i }
      match s1.quarryLaunch y.launch, gsearchBody y.pkt k.val with
      | some l, some g =>
        let (es, r) := mergeReps g.k (y.reps.filterMap id)
        let bs := es.flatMap fun e => leBytes 4 e.gid ++ leBytes 4 e.d.toNat
        let rng : QRange := { fld := g.rF, off := g.roff, len := bs.length, write := true, stack := none }
        let s2 := match s1.qRange l y.pkt rng with
          | .ok ps => (s1.quarryTraffic y.part y.launch (touchedBy ps)).deliver (qWrites ps bs false)
          | .error _ => s1
        .next (s2.qRecord y.launch y.pkt 2 r)
      | _, _ => .next s1

/-- R260: the packets of a launch abandoned, wherever they are. -/
def State.dropPackets (s : State) (launch : Nat) : State :=
  { s with
    quarry := s.quarry.map fun q =>
      { q with transit := q.transit.filter fun b => b.launch != launch, arrived := q.arrived.filter fun b => b.launch != launch,
               sums := q.sums.filter fun x => x.launch != launch, queries := q.queries.filter fun y => y.launch != launch, subs := q.subs.filter fun b => b.launch != launch },
    cores := s.cores.map fun c => { c with slabs := c.slabs.filter fun b => b.launch != launch } }

/-- R279: has a launch a packet that is posted and not complete. -/
def State.packetsOf (s : State) (launch : Nat) : Bool :=
  (s.quarry.toList.any fun q => q.transit.any (fun b => b.launch == launch) || q.arrived.any (fun b => b.launch == launch) ||
      q.sums.any (fun x => x.launch == launch) || q.queries.any (fun y => y.launch == launch) || q.subs.any fun b => b.launch == launch) ||
    s.cores.toList.any fun c => c.slabs.any fun b => b.launch == launch

end Sys2Proof.Machine
end

