-- ==== Sys2Proof/Machine/Market.lean ====
section
/-! DEFINITION. What the power arbiter reckons with: predicted draws (R304), the points of a launch (R268, R269, R311, R412), budget
curves and the target (R307, R309), the rank of launches (R311), a change of point (R269, R312), park, resume and shed (R313,
R314). -/

namespace Sys2Proof.Machine

open Sys2Proof

/- Draws. -/

/-- R304: idle + u × (busy − idle), rounded up, for an activity of `n` in `d`. -/
def draw (volt freq n d : Nat) : Nat :=
  let i := Config.idleDraw volt freq
  let b := Config.busyDraw volt freq
  if d = 0 then i else if i ≤ b then i + (n * (b - i) + d - 1) / d else i - n * (i - b) / d

/-- R412: the per-cluster demand of a point, at full activity. -/
def OpPoint.full (p : OpPoint) : Nat := Config.busyDraw p.volt p.freq

/-- R304, R312: the predicted draw of a held cluster at a point; a fixed-timing cluster keeps its clock and class. -/
def Cluster.demandAt (x : Cluster) (p : OpPoint) : Nat :=
  if x.fixed then draw x.volt 1200 x.busy x.total else draw p.volt p.freq x.busy x.total

/-- R304: the floor of a held cluster at a point. -/
def Cluster.floorAt (x : Cluster) (p : OpPoint) : Nat :=
  if x.fixed then draw x.volt 1200 x.busy x.total else draw p.volt 800 x.busy x.total

/-- The clusters that a launch holds. -/
def State.heldBy (s : State) (id : Nat) : List Nat :=
  (List.range 48).filter fun q => match s.cluster? q with
    | some x => (match x.holder with | some (h, _) => h == id | none => false)
    | none => false

/-- R311: D and Fl: the predicted draw, or floor, of a launch at a point: of the clusters that it holds, or, of a parked one, of those
that it would hold. -/
def State.launchDraw (s : State) (floor : Bool) (l : Launch) (p : OpPoint) : Nat :=
  if l.parked then min (p.tm1 + 1) l.parkHeld * (if floor && !p.fixed then Config.busyDraw p.volt 800 else p.full)
  else (s.heldBy l.id).foldl (fun n q => match s.cluster? q with
    | some x => n + (if floor || (s.strandsOn q).isEmpty then x.floorAt p else x.demandAt p)
    | none => n) 0

/- Points. -/

/-- R269: the points that OPMASK permits and whose variant has S code. -/
def Launch.points (l : Launch) : List (Nat × OpPoint) :=
  (l.ops.zipIdx.filter fun p => l.opmask.getLsbD p.2 && p.1.freq != 0 && l.heads.getD (4 * p.1.variant) 0 != 0).map fun p => (p.2, p.1)

/-- The first of the points whose draw is least, or most. -/
def leastPoint (ps : List (Nat × OpPoint)) : Option (Nat × OpPoint) :=
  ps.foldl (fun b p => match b with | none => some p | some o => if p.2.full < o.2.full then some p else b) none
def mostPoint (ps : List (Nat × OpPoint)) : Option (Nat × OpPoint) :=
  ps.foldl (fun b p => match b with | none => some p | some o => if o.2.full < p.2.full then some p else b) none

/-- R311: the permitted point of lowest per-cluster demand; of next lower; of next higher; ties to the lower index. -/
def Launch.lowest (l : Launch) : Nat := ((leastPoint l.points).map Prod.fst).getD l.point
def Launch.lower (l : Launch) : Option Nat := (mostPoint (l.points.filter fun p => decide (p.2.full < l.cur.full))).map Prod.fst
def Launch.higher (l : Launch) : Option Nat := (leastPoint (l.points.filter fun p => decide (l.cur.full < p.2.full))).map Prod.fst

/-- R412: the current point at launch: of those that the pool covers on the clusters needed, the one of highest demand, else the one of
lowest demand. -/
def choosePoint (ps : List (Nat × OpPoint)) (avail clusters : Nat) : Nat :=
  match mostPoint (ps.filter fun p => decide (p.2.full * max 1 clusters ≤ avail)) with
  | some p => p.1
  | none => ((leastPoint ps).map Prod.fst).getD 0

/-- R269, R306, R312: the current point changed. Its voltage and frequency reach the elastic clusters that the launch holds; their clocks
follow their grants. Clusters of slots above it on which nothing runs are released. -/
def State.setPoint (s : State) (id j : Nat) : State :=
  match s.launch? id with
  | none => s
  | some l =>
    let l1 := { l with point := j }
    let p := l1.cur
    let s1 := s.setLaunch l1
    let s2 := (s1.heldBy id).foldl (fun s q => match s.cluster? q with
      | some x => if x.fixed then s else s.setCluster q { x with volt := p.volt, mhz := min x.mhz p.freq }
      | none => s) s1
    (s1.heldBy id).foldl State.release s2

/- Curves. -/

/-- R309: the curve in force. -/
def State.curveNow (s : State) : Option Curve :=
  (s.power.curves.filter fun c => decide (c.start ≤ dtime s.tick)).foldl
    (fun b c => match b with | none => some c | some o => if o.seq < c.seq then some c else b) none

/-- R309: the target in watts. -/
def State.target (s : State) : Nat :=
  match s.curveNow with
  | none => 2800
  | some c =>
    if c.end_ ≤ dtime s.tick then c.fallback
    else c.points.foldl (fun w p => if c.start + p.1 * 1000000 ≤ dtime s.tick then p.2 else w) 0

/-- R315: the events of the curve in force whose time has come. -/
def State.curveEvents (s : State) : List CurveEvent :=
  match s.curveNow with
  | none => []
  | some c => c.events.filter fun e => decide (c.start + e.off * 1000000 ≤ dtime s.tick)

/-- R315: the events of a grade that are in force: their time has come and their end has not. -/
def State.eventsOn (s : State) (grade : Nat) : List CurveEvent :=
  match s.curveNow with
  | none => []
  | some c => s.curveEvents.filter fun e => e.grade == grade && decide (dtime s.tick < c.start + e.until_ * 1000000)

/- Rank. -/

/-- The least of keys. -/
def leastKey (ks : List (List Nat)) : Option (List Nat) :=
  ks.foldl (fun b k => match b with | none => some k | some o => if keyLt k o then some k else b) none

/-- R311: the rank of a launch: of its running strands, else its halted ones, else its seeds. -/
def State.launchRank (s : State) (l : Launch) : List Nat :=
  let run := ((s.cores.toList.filterMap Core.strand).filter fun st => st.launch == l.id).map fun st => s.key l st.prio 0 st.index
  let halt := (s.halted.filter fun h => h.st.launch == l.id).map fun h => s.key l h.st.prio 0 h.st.index
  let seeds := ((s.parts[l.part]).queues.toList.flatten.filter fun sd => sd.launch == l.id).map fun sd => s.key l sd.prio 1 sd.index
  match leastKey run, leastKey halt, leastKey seeds with
  | some k, _, _ => k
  | none, some k, _ => k
  | none, none, some k => k
  | none, none, none => s.key l 0 1 0

/-- Of launches, the one that ranks first, or last. -/
def State.firstOf (s : State) (ls : List Launch) : Option Launch :=
  ls.foldl (fun b l => match b with | none => some l | some o => if keyLt (s.launchRank l) (s.launchRank o) then some l else b) none
def State.lastOf (s : State) (ls : List Launch) : Option Launch :=
  ls.foldl (fun b l => match b with | none => some l | some o => if keyLt (s.launchRank o) (s.launchRank l) then some l else b) none

/-- The launches that are live. -/
def State.liveLaunches (s : State) : List Launch := s.launches.filter fun l => l.ending == .live

/-- R311: the running launches; one whose resumption has been decided counts among them. -/
def State.runningLaunches (s : State) : List Launch := s.liveLaunches.filter fun l => !l.parked || l.resuming

/-- R311: the need of the running launches, at demands or at floors. -/
def State.needOf (s : State) (floor : Bool) : Nat := s.runningLaunches.foldl (fun n l => n + s.launchDraw floor l l.cur) 0

/- Park and shed. -/

/-- R313, R384: can the park area of a launch's partition hold its contexts, its packed images and its resume seed; what a launch
that was to resume still has there takes no more room. -/
def State.canPark (s : State) (l : Launch) : Bool :=
  let p := s.parts[l.part]
  let held := (s.heldBy l.id).length
  l.parked ||
  let ctx := ((s.cores.toList.filterMap Core.strand).filter fun st => st.launch == l.id).length +
    (s.halted.filter fun h => h.st.launch == l.id).length
  decide (ctx * ctxSlot + held * (imageSlot * 65 / 64) + 64 ≤ p.park.free)

/-- The place of a parked launch's resume seed in its park area given back. -/
def State.dropSeed (s : State) (l : Launch) : State :=
  let p := s.parts[l.part]
  s.setPart l.part { p with park := { p.park with used := p.park.used.filter fun u => some (siloAddr (p.park.base + u.1)) != l.parkSeed } }

/-- R313: a park begins: every strand of the launch is pre-empted; the images follow once they are halted. The resumption of a launch, where it
is under way, ends: the images that have not left the park area stay, under a new resume seed, and the others stay in the save area. -/
def State.park (s : State) (l : Launch) : State :=
  if l.parked then (s.dropSeed l).setLaunch { l with resuming := false, parkSeed := none }
  else
    let s1 := s.setLaunch { l with parked := true, resuming := false, parkHeld := (s.heldBy l.id).length, parkSeed := none }
    ((s.gangs.filter fun g => g.launch == l.id)).foldl (fun s g => s.preemptGang g.gid false) s1

/-- R313: a parked launch resumes: its images are on their way back; one that has none is a candidate at once. -/
def State.resume (s : State) (l : Launch) : State :=
  if l.parkImgs.isEmpty then (s.dropSeed l).setLaunch { l with parked := false, resuming := false, parkSeed := none }
  else s.setLaunch { l with resuming := true }

/-- R313: has a park completed: its resume seed is written. -/
def Launch.parkDone (l : Launch) : Bool := l.parked && l.parkSeed.isSome

/-- R314, R361: a launch is shed, or cancelled: its strands are halted with TRAPCAUSE SHED and no handler; the rest follows at its
end. -/
def State.shed (s : State) (id status : Nat) : State :=
  let cores := s.cores.map fun k => { k with strand := k.strand.map fun st =>
    if st.launch = id then { st with trapcause := Cause.shed.code } else st }
  ({ s with cores := cores }).endLaunch id status

end Sys2Proof.Machine
end

