-- ==== Sys2Proof/Machine/Nodes.lean ====
section
/-! DEFINITION. What the command processor does with partition memory (R343, R355, R359), the completion of nodes (R263, R265, R277),
the container and its checks (R270 to R275), staging space (R276). -/

namespace Sys2Proof.Machine

open Sys2Proof

/- Partition memory. -/

/-- The pieces of a partition range as the tables now stand; `none` where a byte of it cannot be reached, or lies behind a die that stays in
reset (R352). `fuel` bounds the pieces. -/
def State.cpRun (s : State) (p : Fin 64) (write : Bool) : Nat → Nat → Nat → Option (List HPiece)
  | 0, _, _ => some []
  | fuel + 1, a, n =>
    if n = 0 then some []
    else if 2 ^ 48 ≤ a then none
    else
      match s.leafOf p a with
      | .error _ => none
      | .ok (leaf, big) =>
        if (leafFault (s.leafNow p a leaf) write).isSome || noFrame leaf then none
        else
          match s.leafTgt p { part := p, page := pageOf big a, big := big, leaf := leaf } a with
          | .error _ => none
          | .ok (phys, tag, zero) =>
            let k := min n (2 ^ 16 - a % 2 ^ 16)
            if s.bootstat != 0 && !(phys :: s.tableReads p a).all s.memUp then none
            else (s.cpRun p write fuel (a + k) (n - k)).map ({ at_ := a, len := k, phys := phys, tag := tag, zero := zero } :: ·)

/-- Bytes of partition memory with the offsets of poisoned ones. -/
def State.cpBytes (s : State) (p : Fin 64) (a n : Nat) : Option (List Byte × List Nat) :=
  (s.cpRun p false (n / 2 ^ 16 + 2) a n).map s.mem.gather

/-- Bytes of partition memory; `none` where they cannot be reached or one is poisoned. -/
def State.cpRead (s : State) (p : Fin 64) (a n : Nat) : Option (List Byte) :=
  match s.cpBytes p a n with
  | some (bs, bad) => if bad.isEmpty then some bs else none
  | none => none

/-- R319, R374: bytes that the command processor or an engine moves for a partition outside any launch: their traffic, and the rows that the
gleaned accesses close. -/
def State.moved (s : State) (p : Fin 64) (ps : List HPiece) : State :=
  (ps.filter fun q => !q.zero).foldl (fun s q => (s.countBytes p 0 q.phys q.len).gleaned q.phys q.len) s

/-- R319, R344, R374: what pieces cost the command processor, which keeps no cache: walks of their pages, their traffic, the rows they close. -/
def State.cpCost (s : State) (p : Fin 64) (ps : List HPiece) : State := (ps.foldl (fun s q => s.walked p q.at_) s).moved p ps

/-- R374, R396: what a read of partition memory costs; one that reaches nothing has walked the tables all the same. -/
def State.cpSeen (s : State) (p : Fin 64) (a n : Nat) : State :=
  match s.cpRun p false (n / 2 ^ 16 + 2) a n with
  | some ps => s.cpCost p ps
  | none => if 2 ^ 48 ≤ a then s else s.walked p a

/-- Bytes written to partition memory; `none` where one cannot be. -/
def State.cpWrite (s : State) (p : Fin 64) (a : Nat) (bs : List Byte) : Option State :=
  (s.cpRun p true (bs.length / 2 ^ 16 + 2) a bs.length).map fun ps => (s.cpCost p ps).commitAll (hWrites ps bs [])

/-- R396: a poisoned line that the command processor met in a range is counted on its die. -/
def State.cpPoison (s : State) (p : Fin 64) (a n : Nat) : State :=
  let ps := (s.cpRun p false (n / 2 ^ 16 + 2) a n).getD []
  match ps.findSome? fun q => if q.zero then none else s.mem.firstBad q.phys q.len with
  | some line => s.countPoison (64 * line)
  | none => s

/- Nodes. -/

def State.graph? (s : State) (g : Nat) : Option Graph := s.graphs.find? fun x => x.gid == g

def State.setGraph (s : State) (g : Graph) : State :=
  { s with graphs := s.graphs.map fun x => if x.gid == g.gid then g else x }

def Graph.setNode (g : Graph) (i : Nat) (n : Node) : Graph := { g with nodes := g.nodes.set i n }

/-- R263, R362: STATUS written into a node, and its completion logged. -/
def State.writeNode (s : State) (p : Fin 64) (arr i status deadline launch : Nat) : State :=
  let s1 := (s.cpWrite p (arr + 64 * i + 24) [BitVec.ofNat 8 status]).getD s
  let late := decide (deadline != 0) && decide (deadline < dtime s.tick)
  s1.logEvent p 1 (leBytes 8 arr ++ leBytes 2 i ++ leBytes 1 status ++ leBytes 1 late.toNat ++ leBytes 2 launch)

/-- R362: can the completion event of a node be held: the ring's waiting events leave room. -/
def State.canHold (s : State) (p : Fin 64) : Bool :=
  let n := (s.funcs[p].events).length
  n == 0 || decide (n < Config.eventHold p.val)

/-- R265, R276: a predecessor of a node is DONE; the last of them makes it eligible. Nodes that one completion makes eligible share its
place in the order. -/
def Node.met1 (n : Node) (order : Nat) : Node :=
  if n.met + 1 = n.npred && n.st == .waiting then { n with met := n.met + 1, st := .eligible order } else { n with met := n.met + 1 }

/-- R265: a node DONE counts for each of its successors. -/
def State.meetAll (s : State) (gid : Nat) (succ : List Nat) : State :=
  match s.graph? gid with
  | none => s
  | some g =>
    { s.setGraph { g with nodes := succ.foldl (fun ns j => ns.modify j fun m => m.met1 s.nextOrder) g.nodes } with nextOrder := s.nextOrder + 1 }

/-- R265, R362: nodes to complete, each with its status and launch: those that depend on a node that is not DONE complete with CANCELLED; a
node all of whose predecessors are DONE becomes eligible. A node whose event cannot yet be held completes later. `fuel` bounds the nodes. -/
def State.completeAll (s : State) (gid : Nat) : Nat → List (Nat × Nat × Nat) → State
  | 0, _ => s
  | _, [] => s
  | fuel + 1, (i, status, launch) :: rest =>
    match s.graph? gid with
    | none => s
    | some g =>
      match g.nodes[i]? with
      | none => s.completeAll gid fuel rest
      | some n =>
        let gone := match n.st with | .ended => true | .completing _ _ => true | _ => false
        if gone then s.completeAll gid fuel rest
        else if !s.canHold g.part then (s.setGraph (g.setNode i { n with st := .completing status launch, loaded := none })).completeAll gid fuel rest
        else
          let s1 := (s.setGraph (g.setNode i { n with st := .ended, loaded := none })).writeNode g.part g.addr i status n.deadline launch
          if status = 1 then (s1.meetAll gid n.succ).completeAll gid fuel rest
          else s1.completeAll gid fuel (rest ++ n.succ.map fun j => (j, 4, 0))

/-- R265: a node completes; a graph all of whose nodes have completed is done with. -/
def State.completeNode (s : State) (gid i status launch : Nat) : State :=
  let n := (s.graph? gid).elim 0 fun g => g.nodes.length + (g.nodes.map fun n => n.succ.length).sum
  let s1 := s.completeAll gid (n + 1) [(i, status, launch)]
  match s1.graph? gid with
  | some g => if g.nodes.all fun n => n.st == .ended then { s1 with graphs := s1.graphs.filter fun x => x.gid != gid } else s1
  | none => s1

/-- R362: the nodes of a partition whose completion waits for room for its event complete, as far as there is room. -/
def State.completeHeld (s : State) (p : Fin 64) : State :=
  (s.graphs.filter fun g => g.part == p).foldl (fun s g => g.nodes.zipIdx.foldl (fun s n =>
    match n.1.st with
    | .completing status launch =>
      if !s.canHold p then s
      else
        match s.graph? g.gid with
        | some g1 => (s.setGraph (g1.setNode n.2 { n.1 with st := .waiting })).completeNode g.gid n.2 status launch
        | none => s
    | _ => s) s) s

/- The container. -/

/-- A segment directory entry (R271). -/
structure SegEnt where
  type : Nat
  variant : Nat
  slot : Nat
  len : Nat
  off : Nat
  meas : BitVec 256
  sigr : Nat
  sigs : Nat
  signed : List Byte
deriving DecidableEq, Repr, Inhabited

def leAt (bs : List Byte) (o n : Nat) : Nat := leNat ((bs.drop o).take n)

/-- R271, R272: a directory entry from its 128 bytes; `none` where its fields are not legal. -/
def SegEnt.ofBytes (bs : List Byte) : Option SegEnt :=
  let ty := leAt bs 0 1
  let v := leAt bs 1 1
  let sl := leAt bs 2 1
  if ty = 0 || 7 < ty || leAt bs 3 1 != 0 || leAt bs 112 16 != 0 || leAt bs 8 8 % 64 != 0 ||
      (if ty = 1 then decide (7 < v) || decide (3 < sl) else v != 0 || sl != 0) then none
  else some { type := ty, variant := v, slot := sl, len := leAt bs 4 4, off := leAt bs 8 8,
              meas := BitVec.ofNat 256 (beNat ((bs.drop 16).take 32)), sigr := leAt bs 48 32, sigs := leAt bs 80 32, signed := bs.take 48 }

/-- R272, R274: exactly one FIELDS, OPS, MGROUPS, BANKS and SEEDS segment, at most one DATA segment, and at most one CODE segment of a
variant and slot. -/
def segsOk (gs : List SegEnt) : Bool :=
  let n (t : Nat) : Nat := (gs.filter fun g => g.type == t).length
  [3, 4, 5, 6, 7].all (fun t => n t == 1) && decide (n 2 ≤ 1) &&
    gs.zipIdx.all fun a => gs.zipIdx.all fun b => a.2 == b.2 || a.1.type != 1 || b.1.type != 1 || a.1.variant != b.1.variant || a.1.slot != b.1.slot

/-- R270, R274: the header and directory of a container: the key slot and the entries. -/
def State.container (s : State) (p : Fin 64) (image : Nat) : Option (Nat × List SegEnt) :=
  match s.cpRead p image 64 with
  | none => none
  | some h =>
    let n := leAt h 8 4
    if leAt h 0 4 != 0x594B5842 || leAt h 4 4 != 1 || n = 0 || 64 < n || leAt h 48 16 != 0 then none
    else
      match s.cpRead p (image + 64) (128 * n) with
      | none => none
      | some d =>
        match (List.range n).mapM fun i => SegEnt.ofBytes ((d.drop (128 * i)).take 128) with
        | some gs => if segsOk gs then some (leAt h 12 4, gs) else none
        | none => none

/-- R354: the key that a container of a partition names. -/
def State.codeKey (s : State) (p : Fin 64) (sel : Nat) : Option KeySlot :=
  if sel < 3 then none else ((s.keys[sel]?).join).filter fun k => k.mask.getLsbD p.val

/-- R274 step 2: one segment measured and verified; the attestation record extended. -/
def State.measureSeg (s : State) (p : Fin 64) (image : Nat) (k : KeySlot) (g : SegEnt) : Option State :=
  match s.cpRead p (image + g.off) g.len with
  | none => none
  | some bs =>
    let d := sha256 bs
    if d != g.meas || !ecdsaVerify k.x k.y (sha256 g.signed) g.sigr g.sigs then none
    else
      let q := s.parts[p]
      let i : Fin 16 := if g.type = 1 then 8 else 9
      some (s.setPart p { q with meas := q.meas.set i (extendMeas q.meas[i] d) })

/-- R374: what it costs to read a container: its header, and, where that and its directory are in order, the directory, the segments, the
binding table. -/
def State.containerSeen (s : State) (p : Fin 64) (image bind : Nat) : State :=
  let s1 := s.cpSeen p image 64
  match s.container p image with
  | none => s1
  | some (_, gs) => gs.foldl (fun s g => s.cpSeen p (image + g.off) g.len) ((s1.cpSeen p (image + 64) (128 * gs.length)).cpSeen p bind 4096)

/-- R274 step 2: the segments in directory order; the first failure refuses the container and leaves what was extended. -/
def State.measureSegs (s : State) (p : Fin 64) (image : Nat) (k : KeySlot) : List SegEnt → State × Bool
  | [] => (s, true)
  | g :: gs =>
    match s.measureSeg p image k g with
    | none => (s.cpPoison p (image + g.off) g.len, false)
    | some s1 => s1.measureSegs p image k gs

/-- R225, R226: a valid template entry with its binding (R275), which R226 and R227 allow; `none` where they do not. A yard window keeps
its slot. A binding beyond the 2 TiB of the silo is refused as one beyond a stack is (DESIGN CHOICE, log). -/
def bindField (i : Nat) (tpl bnd : List Byte) : Option FieldEnt :=
  let lo := BitVec.ofNat 64 (leAt tpl 0 8)
  let hi := BitVec.ofNat 64 (leAt tpl 8 8)
  let part := leAt bnd 0 8
  let w := BitVec.ofNat 64 (leAt bnd 8 8)
  let lsz := (lo.extractLsb' 27 5).toNat
  let size := 2 ^ (lsz + 16)
  let vbase := (lo.extractLsb' 32 32).toNat * 2 ^ 16
  let ilv := w.extractLsb' 44 2
  let tier := lo.extractLsb' 19 2
  let pb := (w.extractLsb' 0 32).toNat
  let p := pb * 2 ^ 16
  let peer := (w.extractLsb' 32 12).toNat
  let yard := tier == 0#2 && p / 2 ^ 44 == 0xF
  let staged := lo.getLsbD 17
  let konst := lo.getLsbD 18
  let span := if ilv = 0 then size else if ilv = 1 then size / 2 else size / 16
  if lo.extractLsb' 0 13 != 0 || hi.extractLsb' 0 20 != 0 || decide (24 < lsz) || vbase % size != 0 || lo.extractLsb' 21 2 == 3 then none
  else if w.extractLsb' 46 18 != 0 || part % size != 0 || ilv == 3 || (tier != 3 && peer != 0) then none
  else if yard && (ilv != 0 || staged || konst || decide (9 < lsz)) then none
  else if !yard && lo.extractLsb' 15 2 != 0 && lo.extractLsb' 15 2 != 1 then none
  else if !yard && tier == 0#2 && (decide (0xBD0000000 < p % 2 ^ 36 + span) || (ilv == 1 && (p / 2 ^ 36).testBit 0)) then none
  else if tier == 1#2 && decide (siloLimit < p + size) then none
  else some { idx := i, vbase := vbase, lsz := lsz, permR := lo.getLsbD 25, permW := lo.getLsbD 24, permX := lo.getLsbD 23,
              ord := lo.extractLsb' 21 2, tier := tier, konst := konst, staged := staged, key := lo.extractLsb' 15 2, ilv := ilv, pbase := pb,
              peer := peer, partbase := part, slot := if yard then some (p / 2 ^ 25 % 64) else none }

/-- R225: two windows overlap. -/
def FieldEnt.overlaps (a b : FieldEnt) : Bool := decide (a.vbase < b.vbase + b.size) && decide (b.vbase < a.vbase + a.size)

/-- R225 to R227, R274, R275: the field map of a template and a binding table. -/
def bindFields (tpl bnd : List Byte) : Option (List FieldEnt) :=
  let valid := (List.range 256).filter fun i => (BitVec.ofNat 64 (leAt tpl (16 * i) 8)).getLsbD 26
  match valid.mapM fun i => bindField i ((tpl.drop (16 * i)).take 16) ((bnd.drop (16 * i)).take 16) with
  | none => none
  | some fs => if fs.all fun a => fs.all fun b => a.idx == b.idx || !a.overlaps b then some fs else none

/-- R268: an operating point from its record; a FREQ of 0 declares none. -/
def opPoint (variants : List Nat) (w : W64) : Option OpPoint :=
  let f := (w.extractLsb' 4 12).toNat
  let o : OpPoint := { tm1 := (w.extractLsb' 32 6).toNat, variant := (w.extractLsb' 16 3).toNat, freq := f, volt := (w.extractLsb' 0 2).toNat }
  if f = 0 then some { o with freq := 0 }
  else if w.extractLsb' 38 26 != 0 || w.extractLsb' 19 13 != 0 || w.extractLsb' 2 2 != 0 || f % 50 != 0 || f < 800 || 1600 < f ||
      47 < o.tm1 || !variants.contains o.variant then none
  else some o

/-- R166: a bank format value. -/
def bankOk (w : W64) : Bool :=
  w.extractLsb' 32 32 == 0 && w.extractLsb' 11 5 == 0 && w.extractLsb' 4 4 == 0 && decide ((w.extractLsb' 0 4).toNat ≤ 12) &&
    decide ((w.extractLsb' 8 3).toNat ≤ 4)

/-- R272, R274: a multicast record: its members. -/
def mgroup (bs : List Byte) : Option (List Nat) :=
  let n := leAt bs 0 1
  let ms := ((bs.drop 8).take n).map BitVec.toNat
  if 64 < n || leAt bs 1 7 != 0 || leAt bs 72 56 != 0 || ms.any (fun m => decide (191 < m)) || ms.dedup.length != ms.length then none
  else some ms

/-- R274, R281: the initial seeds: their offsets and records. -/
def initSeeds (seeds data : List Byte) (prioceil : BitVec 3) (maxTm1 : Nat) : Option (List (Nat × SeedRec)) :=
  if seeds.length % 4 != 0 then none
  else (List.range (seeds.length / 4)).mapM fun i =>
    let o := leAt seeds (4 * i) 4
    let r := SeedRec.ofBytes ((data.drop o).take 32)
    if o % 32 != 0 || data.length < o + 32 || r.reservedBad || prioceil.toNat < r.prio.toNat || (r.level == 2 && decide (maxTm1 < r.gm1)) then none
    else some (o, r)

/-- R412: the clusters that initial seeds require. -/
def seedClusters (rs : List SeedRec) : Nat :=
  (rs.filter fun r => r.level == 2).foldl (fun n r => n + r.gm1 + 1) 0 +
    ((rs.filter fun r => r.level != 2).foldl (fun n r => n + r.gm1 + 1) 0 + 3) / 4

/-- The segments of a container, read. -/
def State.segBytes (s : State) (p : Fin 64) (image : Nat) (gs : List SegEnt) (ty : Nat) : Option (List Byte) :=
  match gs.find? fun g => g.type == ty with
  | none => if ty = 2 then some [] else none
  | some g => s.cpRead p (image + g.off) g.len

/-- R273: the offsets in the code field of the CODE segments, in directory order. -/
def codePlaces : Nat → List SegEnt → List (SegEnt × Nat)
  | _, [] => []
  | o, g :: gs => if g.type = 1 then (g, o) :: codePlaces ((o + g.len + 63) / 64 * 64) gs else codePlaces o gs

/-- R273: the image header. -/
def imageHeads (vbase : Nat) (cs : List (SegEnt × Nat)) : List W64 :=
  (List.range 32).map fun k => match cs.find? fun c => 4 * c.1.variant + c.1.slot == k with
    | some c => BitVec.ofNat 64 (vbase + c.2)
    | none => 0

/-- R274 steps 3 and 4, R275: what the loader keeps of a container for a node; `none` where it refuses. -/
def State.build (s : State) (p : Fin 64) (n : Node) (gs : List SegEnt) : Option Loaded :=
  match s.segBytes p n.image gs 3, s.segBytes p n.image gs 4, s.segBytes p n.image gs 5, s.segBytes p n.image gs 6,
    s.segBytes p n.image gs 7, s.segBytes p n.image gs 2, s.cpRead p n.bind 4096 with
  | some fields, some ops, some mgs, some banks, some seeds, some data, some bnd =>
    if fields.length != 4096 || ops.length != 64 || mgs.length != 4096 || banks.length != 512 then none
    else
      let variants := (gs.filter fun g => g.type == 1).map SegEnt.variant
      let bw := (List.range 64).map fun i => word64 banks i
      match bindFields fields bnd, (List.range 8).mapM (fun i => opPoint variants (word64 ops i)),
        (List.range 32).mapM (fun i => mgroup ((mgs.drop (128 * i)).take 128)) with
      | some fs, some pts, some groups =>
        let cs := codePlaces 256 gs
        match fs.find? fun f => f.idx == 255, fs.find? fun f => f.idx == 254 with
        | some code, some dat =>
          let heads := imageHeads code.vbase cs
          let ok := (pts.zipIdx.filter fun o => n.opmask.getLsbD o.2 && o.1.freq != 0 && heads.getD (4 * o.1.variant) 0 != 0).map Prod.fst
          let tm1 := ((pts.zipIdx.filter fun o => n.opmask.getLsbD o.2 && o.1.freq != 0).map Prod.fst).foldl (fun m o => max m o.tm1) 0
          match initSeeds seeds data n.prioceil tm1 with
          | none => none
          | some rs =>
            let gang := match rs with | [(_, r)] => if r.level = 2 then some (r.gm1 + 1) else none | _ => none
            let yards := fs.filterMap FieldEnt.slot
            let last := cs.foldl (fun m c => max m (c.2 + c.1.len)) 256
            if !bw.all bankOk || ok.isEmpty then none
            else if !(yards.all fun k => match gang with | some g => decide (k < g) | none => false) then none
            else if code.slot.isSome || dat.slot.isSome || code.staged || dat.staged || code.tier != 0 || dat.tier != 0 || code.ilv == 1 || dat.ilv == 1 then none
            else if code.size < last || dat.size < data.length then none
            else if rs.any fun r => r.2.level == 2 && decide (s.inService ≤ r.2.gm1) then none
            else
              let dseg := gs.find? fun g => g.type == 2
              some { fields := fs.map fun f => if f.idx = 255 then { f with permX := true } else f, heads := heads, ops := pts,
                     banksW := Vector.ofFn fun i : Fin 32 => (bw.getD i.val 0).setWidth 32,
                     banksA := Vector.ofFn fun i : Fin 32 => (bw.getD (32 + i.val) 0).setWidth 32, mgroups := groups,
                     dataAt := n.image + (dseg.elim 0 SegEnt.off), dataLen := data.length,
                     seeds := rs.map fun r => { dev := BitVec.ofNat 64 (dat.vbase + r.1), prio := r.2.prio },
                     task := ((gs.find? fun g => g.type == 1 && g.variant == 0 && g.slot == 0).map SegEnt.meas).getD 0, staged := [], disc := [],
                     device := gang.getD 0, needs := seedClusters (rs.map Prod.snd) }
        | _, _ => none
      | _, _, _ => none
  | _, _, _, _, _, _, _ => none

/- Fields as the command processor writes and reads them. -/

/-- The physical address of byte `o` of a bound field that is no yard window (R227). -/
def FieldEnt.phys (f : FieldEnt) (part o : Nat) : Nat :=
  let p := f.pbase * 2 ^ 16
  match f.tier.toNat with
  | 0 => ilvAddr p o f.ilv
  | 1 => siloAddr (p + o)
  | 2 => hostAddr part (p + o)
  | _ => peerAddr f.peer (p + o)

/-- The 2 KiB pieces of bytes `o` to `o + n` of a field, those of discarded pages marked. -/
def State.fieldRun (s : State) (part : Fin 64) (f : FieldEnt) (disc : List (Nat × Nat)) (o n : Nat) : List HPiece :=
  (List.range ((o + n + 2047) / 2048 - o / 2048)).map fun i =>
    let b := max o ((o / 2048 + i) * 2048)
    let e := min (o + n) ((o / 2048 + i + 1) * 2048)
    { at_ := b, len := e - b, phys := f.phys part.val b, tag := s.fieldKey part f, zero := disc.contains (f.idx, b / 2 ^ 16) }

/-- R273: the code field written: the image header and the CODE segments. -/
def State.writeCode (s : State) (p : Fin 64) (image : Nat) (gs : List SegEnt) (f : FieldEnt) : State :=
  let cs := codePlaces 256 gs
  let put (s : State) (o : Nat) (bs : List Byte) : State :=
    let ps := s.fieldRun p f [] o bs.length
    (s.moved p ps).commitAll (hWrites ps bs [])
  let s1 := put s 0 ((imageHeads f.vbase cs).flatMap fun h => leBytes 8 h.toNat)
  cs.foldl (fun s c => match s.cpRead p (image + c.1.off) c.1.len with | some bs => put (s.cpSeen p (image + c.1.off) c.1.len) c.2 bs | none => s) s1

/- The staging pool (R276). -/

/-- What is free on a stack of a staging pool, as an area of its own. -/
def Area.onStack (a : Area) (k : Nat) : Area :=
  { base := 0, size := a.size, used := (a.used.filter fun u => stackOf u.1 == k).map fun u => (u.1 % 2 ^ 36 - a.base, u.2) }

/-- R276: a place for a field: over the sixteen stacks from 1 MiB up, else on the stack with most free pool. -/
def Area.place (a : Area) (size : Nat) : Option (Area × Staged) :=
  let take (k off n : Nat) (x : Area) : Area := { x with used := (hbmAddr k (a.base + off), n) :: x.used }
  let blank : Staged := { home := default, stack := 0, off := 0, size := size, ilv := 0 }
  if 2 ^ 20 ≤ size then
    let n := size / 16
    let ends := (List.range 16).flatMap fun k => (a.onStack k).used.map fun u => u.1 + u.2
    match ((0 :: ends).insertionSort fun x y => x ≤ y).find? fun o => (List.range 16).all fun k => (a.onStack k).fits o n with
    | some o => some ((List.range 16).foldl (fun x k => take k o n x) a, { blank with off := a.base + o, ilv := 2 })
    | none => none
  else
    let k := (List.range 16).foldl (fun b k => if (a.onStack b).free < (a.onStack k).free then k else b) 0
    match (a.onStack k).find size with
    | some o => some (take k o size a, { blank with stack := k, off := a.base + o })
    | none => none

/-- Places for fields in order. -/
def Area.placeAll (a : Area) : List FieldEnt → Option (Area × List Staged)
  | [] => some (a, [])
  | f :: fs =>
    match a.place f.size with
    | none => none
    | some (a1, g) => (a1.placeAll fs).map fun r => (r.1, { g with home := f } :: r.2)

/-- R277: a staged field's place given back. -/
def Area.unstage (a : Area) (g : Staged) : Area :=
  { a with used := a.used.filter fun u => !(u.1 % 2 ^ 36 == g.off && (g.ilv == 2 || stackOf u.1 == g.stack)) }

/-- R276: a staged field as launched. -/
def Staged.entry (g : Staged) : FieldEnt :=
  { g.home with tier := 0, pbase := hbmAddr g.stack g.off / 2 ^ 16, ilv := g.ilv }

/-- R386, R389: the discarded pages of a field through its partition base. -/
def State.discOf (s : State) (p : Fin 64) (f : FieldEnt) : List (Nat × Nat) :=
  if f.slot.isSome then []
  else ((List.range (f.size / 2 ^ 16)).filter fun i =>
    let a := f.partbase + i * 2 ^ 16
    match s.leafOf p a with
    | .ok (leaf, _) => leafDisc (s.leafNow p a leaf)
    | .error _ => false).map fun i => (f.idx, i)

end Sys2Proof.Machine
end

