-- ==== Sys2Proof/Machine/Loader.lean ====
section
/-! DEFINITION. Loading, staging, launch and the end of a launch (R274 to R279, R292, R412). -/

namespace Sys2Proof.Machine

open Sys2Proof

/- Loading and staging (R274 to R276). -/

/-- The eligible nodes, with their graphs. -/
def State.eligibleNodes (s : State) : List (Graph × Nat × Node × Nat) :=
  s.graphs.flatMap fun g => g.nodes.zipIdx.filterMap fun n => match n.1.st with | .eligible o => some (g, n.2, n.1, o) | _ => none

/-- R276: the key by which eligible nodes are staged. -/
def State.stageKey (s : State) (e : Graph × Nat × Node × Nat) : List Nat :=
  let prio := match e.2.2.1.loaded with | some l => l.seeds.foldl (fun m x => max m x.prio.toNat) 0 | none => 0
  [7 - prio, if e.2.2.1.deadline = 0 then 2 ^ 64 else e.2.2.1.deadline, s.parts[e.1.part].vt, e.1.part.val, e.2.2.2, e.2.1]

/-- R276: is a node the first to be staged. -/
def State.stageFirst (s : State) (gid i : Nat) : Bool :=
  match s.eligibleNodes.find? fun e => e.1.gid == gid && e.2.1 == i with
  | none => false
  | some e => s.eligibleNodes.all fun o => o.2.2.1.loaded.isSome && !keyLt (s.stageKey o) (s.stageKey e)

/-- A node's binding of entry 255, by which a loaded container is known (R274). -/
def State.codeBinding (s : State) (p : Fin 64) (n : Node) : Nat := match s.cpRead p (n.bind + 4080) 16 with | some bs => leNat bs | none => 0

/-- R274: a container is loaded: its checks, its code field, the attestation record; or the node is refused. -/
def State.loadNode (s0 : State) (g : Graph) (i : Nat) (n : Node) : State :=
  let s := if n.image % 4096 = 0 && n.bind % 4096 = 0 then s0.containerSeen g.part n.image n.bind else s0
  match if n.image % 4096 = 0 && n.bind % 4096 = 0 then s.container g.part n.image else none with
  | none => s.completeNode g.gid i 5 0
  | some (sel, gs) =>
    let key := (g.part.val, n.image, s.codeBinding g.part n)
    let known := s.images.contains key
    let (s1, ok) := if known then (s, true) else
      match s.codeKey g.part sel with
      | none => (s, false)
      | some k => s.measureSegs g.part n.image k gs
    if !ok then s1.completeNode g.gid i 5 0
    else
      match s1.build g.part n gs with
      | none => s1.completeNode g.gid i 5 0
      | some ld =>
        let s2 := s1.setGraph (g.setNode i { n with loaded := some ld })
        if known then s2
        else
          let s3 := match ld.fields.find? fun f => f.idx == 255 with
            | some f => s2.writeCode g.part n.image gs f
            | none => s2
          let same (o : Nat × Nat × Nat) : Bool := o.1 == g.part.val && o.2.2 / 2 ^ 64 % 2 ^ 32 == key.2.2 / 2 ^ 64 % 2 ^ 32
          { s3 with images := key :: s3.images.filter fun o => !same o }

/-- R276, R277, R386: the pieces of a staged field's home: where its pages lie as its bytes do (ILV 00), the page tables say where one of them
lies, so that a page that has migrated is found at its new frame; else, and for a page that they do not map, the bound base does (DESIGN
CHOICE, log). -/
def State.homeRun (s : State) (p : Fin 64) (f : FieldEnt) (disc : List (Nat × Nat)) (write : Bool) (o n : Nat) : List HPiece :=
  (s.fieldRun p f disc o n).map fun q =>
    let a := f.partbase + q.at_
    match if f.ilv = 0 then s.leafOf p a else .error .notPresent with
    | .error _ => q
    | .ok (leaf, big) =>
      if (leafFault leaf write).isSome || noFrame leaf then q
      else
        match s.leafTgt p { part := p, page := pageOf big a, big := big, leaf := leaf } a with
        | .ok (phys, tag, _) => { q with phys := phys, tag := if phys < 2 ^ 52 then q.tag else tag }
        | .error _ => q

/-- R276, R212: staged fields copied to their places, discarded pages as zeros, poison with its lines. -/
def State.copyStaged (s : State) (p : Fin 64) (disc : List (Nat × Nat)) (gs : List Staged) : State :=
  gs.foldl (fun s g =>
    (List.range (g.size / 2048)).foldl (fun s i =>
      let src := s.homeRun p g.home disc false (2048 * i) 2048
      let dst := s.fieldRun p g.entry [] (2048 * i) 2048
      let (bs, bad) := s.mem.gather src
      (s.moved p (src ++ dst)).commitAll (hWrites dst bs bad)) s) s

/-- R276, R368: a source that cannot be read: a block of a peer that is out of reach or refuses it, or host memory that the host refuses. -/
def State.stageFault (s : State) (p : Fin 64) (refused : Bool) (f : FieldEnt) : Bool :=
  (f.tier == 2 && refused) ||
    (f.tier == 3 && (s.peerDown f.peer || (List.range (f.size / 2048)).any fun i => (s.homeRun p f [] false (2048 * i) 2048).any fun q => s.peerGated q.phys))

/-- R276: a loaded node's fields staged, where it ranks first and the pool has room. -/
def State.stageNode (s : State) (g : Graph) (i : Nat) (n : Node) (ld : Loaded) (refused : Bool) : State :=
  let p := s.parts[g.part]
  let fs := ld.fields.filter FieldEnt.staged
  if ({ p.pool with used := [] }.placeAll fs).isNone then s.completeNode g.gid i 5 0
  else
    match p.pool.placeAll fs with
    | none => s
    | some (pool, gs) =>
      if fs.any (s.stageFault g.part refused) then s.completeNode g.gid i 3 0
      else
        let disc := fs.flatMap (s.discOf g.part)
        let fields := ld.fields.map fun f => match gs.find? fun x => x.home.idx == f.idx with | some x => x.entry | none => f
        let s1 := (s.setPart g.part { p with pool := pool }).copyStaged g.part disc gs
        s1.setGraph (g.setNode i { n with st := .staged, loaded := some { ld with fields := fields, staged := gs, disc := disc } })

/-- NODE_STAGING (R274, R276): an eligible node's container is loaded, and, when the node ranks first, its fields are staged. `refused` is
the host's lasting refusal of a host-tier source. -/
def execNodeStaging (gid i : Nat) (refused : Bool) (s : State) : Out :=
  match s.graph? gid with
  | none => .next s
  | some g =>
    match g.nodes[i]? with
    | none => .next s
    | some n =>
      match n.st, n.loaded with
      | .eligible _, none =>
        let s1 := s.loadNode g i n
        match (s1.graph? gid).bind fun g1 => g1.nodes[i]?.map fun m => (g1, m) with
        | some (g1, m) =>
          match m.loaded with
          | some ld => if s1.stageFirst gid i then .next (s1.stageNode g1 i m ld refused) else .next s1
          | none => .next s1
        | none => .next s1
      | .eligible _, some ld => if s.stageFirst gid i then .next (s.stageNode g i n ld refused) else .next s
      | _, _ => .next s

/- Launch (R278). -/

/-- R278: the next identifier in rotation that no live launch holds. -/
def State.nextId (s : State) : Option Nat :=
  ((List.range 65535).map fun i => (s.lastLaunch + i) % 65535 + 1).find? fun k => !s.launches.any fun l => l.id == k

/-- The logical channels of a launch. -/
def chanList (m : BitVec 16) : List Nat := (List.range 16).filter fun i => m.getLsbD i

/-- R207: physical channels that no launch has. -/
def State.freeChans (s : State) : List (Fin 192) := (List.finRange 192).filter fun c => (s.chans[c]).owner.isNone

/-- R207: channels allotted to a launch. -/
def State.allot (s : State) (id : Nat) (p : Fin 64) (m : BitVec 16) : State :=
  ((chanList m).zip s.freeChans).foldl (fun s x => s.setChan x.2 { Chan.init with owner := some (id, x.1), part := p }) s

/-- R278, R284: the initial seeds sown in order, as far as their queues have room. `fuel` bounds them. -/
def State.sowInitial (s : State) (id : Nat) : Nat → State
  | 0 => s
  | fuel + 1 =>
    match s.launch? id with
    | none => s
    | some l =>
      match l.unsown with
      | [] => s
      | x :: rest =>
        match s.translate l x.dev .none with
        | .error _ => s
        | .ok t =>
          match (s.setLaunch { l with unsown := rest }).sowAt { l with unsown := rest } x.prio x.dev t.addr t.tag with
          | some s1 => s1.sowInitial id fuel
          | none => s

/-- R278: the DATA segment copied into the area bound to entry 254. -/
def State.copyData (s : State) (p : Fin 64) (ld : Loaded) : State :=
  match ld.fields.find? fun f => f.idx == 254, s.cpBytes p ld.dataAt ld.dataLen with
  | some f, some (bs, bad) =>
    let ps := s.fieldRun p f [] 0 ld.dataLen
    ((s.cpSeen p ld.dataAt ld.dataLen).moved p ps).commitAll (hWrites ps bs bad)
  | _, _ => s

/-- R278, R412: the launch of a staged node. -/
def State.newLaunch (s : State) (g : Graph) (i : Nat) (n : Node) (ld : Loaded) (id : Nat) : State :=
  let pageDisc := (ld.fields.flatMap (s.discOf g.part)).dedup
  let l0 : Launch :=
    { id := id, graph := g.gid, node := i, part := g.part, order := s.nextOrder, fields := ld.fields, heads := ld.heads, ops := ld.ops,
      opmask := n.opmask, point := 0, prioceil := n.prioceil, eclass := n.eclass, deadline := n.deadline, haulch := n.haulch,
      banksW := ld.banksW, banksA := ld.banksA, mgroups := ld.mgroups, task := ld.task, live := 0, nextIndex := 0, unsown := ld.seeds,
      perIndex := [], sown := [], slots := [], staged := ld.staged, disc := (ld.disc ++ pageDisc).dedup,
      kept := s.keptOf g.part ld.fields 0 (2 ^ 48), pageDisc := pageDisc, ending := .live, parked := false, resuming := false,
      parkHeld := 0, parkSeed := none, parkImgs := [], given := [], asked := false, macs := 0, bytes := 0 }
  let l := { l0 with point := choosePoint l0.points (s.power.pool - s.needOf false) ld.needs }
  let s1 := (s.copyData g.part ld).setGraph (g.setNode i { n with st := .launched id, loaded := none })
  let s2 := { s1 with launches := s1.launches ++ [l], lastLaunch := id, nextOrder := s1.nextOrder + 1 }
  (s2.allot id g.part n.haulch).sowInitial id (ld.seeds.length + 1)

/-- LAUNCH (R278, R284, R412): a staged node is launched once an identifier and its haul channels are free; a launch whose seeds wait for
their queues goes on sowing. -/
def execLaunch (gid i : Nat) (s : State) : Out :=
  match (s.graph? gid).bind fun g => g.nodes[i]?.map fun n => (g, n) with
  | none => .next s
  | some (g, n) =>
    match n.st, n.loaded with
    | .staged, some ld =>
      match s.nextId with
      | none => .next s
      | some id => if s.freeChans.length < (chanList n.haulch).length then .next s else .next (s.newLaunch g i n ld id)
    | .launched id, _ => .next (s.sowInitial id (((s.launch? id).map fun l => l.unsown.length).getD 0))
    | _, _ => .next s

/- The end of a launch (R279). -/

/-- R279: does nothing of a launch run, wait or move. -/
def State.launchOver (s : State) (l : Launch) : Bool :=
  l.live == 0 && l.unsown.isEmpty && !(s.cores.toList.any fun k => match k.strand with | some st => st.launch == l.id | none => false) &&
    !(s.halted.any fun h => h.st.launch == l.id) && !(s.placing.any fun p => p.launch == l.id) &&
    !(s.chans.toList.any fun k => k.busy && (match k.owner with | some (id, _) => id == l.id | none => false)) && !s.packetsOf l.id

/-- R292: the classifier takes what a launch did. -/
def State.classify (s : State) (l : Launch) : State :=
  let x := min (256 * l.macs / max l.bytes 1) (2 ^ 32 - 1)
  let e : ClassEnt := match s.classes.find? fun e => e.part == l.part && e.task == l.task with
    | none => { part := l.part, task := l.task, inten := x, compute := decide (44032 ≤ x), order := 0 }
    | some e =>
      let i := e.inten - e.inten / 8 + x / 8
      { e with inten := i, compute := if 49152 ≤ i then true else if i < 38912 then false else e.compute }
  let rest := s.classes.filter fun o => !(o.part == l.part && o.task == l.task)
  { s with classes := (e :: rest).take 1024 }

/-- A launch's place in areas given back: contexts, images left in the save area, images and seed in the park area (R314, R329). -/
def State.freeAreas (s : State) (l : Launch) : State :=
  let s1 := (s.halted.filter fun h => h.st.launch == l.id).foldl State.freePlace s
  let p := s1.parts[l.part]
  let imgs := l.slots.filterMap fun sl => sl.img.map Prod.fst
  let parked := l.parkImgs.map ParkImg.addr
  let save := { p.save with used := p.save.used.filter fun u => !imgs.contains (p.save.base + u.1) }
  let park := { p.park with used := p.park.used.filter fun u =>
                              !parked.contains (p.park.base + u.1) && some (siloAddr (p.park.base + u.1)) != l.parkSeed }
  { s1.setPart l.part { p with save := save, park := park } with halted := s1.halted.filter fun h => h.st.launch != l.id }

/-- The clusters, channels, gangs, placings and reservations of a launch given up; a seed that was to start is discarded and logged
(R282). -/
def State.freeHeld (s : State) (l : Launch) : State :=
  let mine (h : Option (Nat × Nat)) : Bool := match h with | some (id, _) => id == l.id | none => false
  let s1 := (s.rsvs.filter fun r => r.launch == l.id).foldl (fun s r => s.unreserve r false) s
  let s2 := ((s1.placing.filter fun p => p.launch == l.id).filterMap Placing.seed).foldl (fun s sd => s.notice l.part 1 sd.addr.toNat 0) s1
  { s2 with
    clusters := s2.clusters.map fun x => if mine x.holder then { x with holder := none, yard := none, left := some l.part } else x,
    chans := s2.chans.map fun k => if mine k.owner then Chan.init else k,
    gangs := s2.gangs.filter fun g => g.launch != l.id,
    placing := s2.placing.filter fun p => p.launch != l.id }

/-- A launch is gone: its staged places are given back, and its node completes. -/
def State.closeLaunch (s : State) (l : Launch) (status : Nat) : State :=
  let p := s.parts[l.part]
  let s1 := s.setPart l.part { p with pool := l.staged.foldl Area.unstage p.pool }
  ({ s1 with launches := s1.launches.filter fun m => m.id != l.id }).completeNode l.graph l.node status l.id

/-- R277: has a launch staged fields to copy back. -/
def Launch.copiesBack (l : Launch) : Bool := l.staged.any fun g => g.home.permW

/-- Do the accesses of a launch's halted strands wait to be performed (R324). -/
def State.accsLeft (s : State) (l : Launch) : Bool := s.halted.any fun h => h.st.launch == l.id && !h.st.accs.isEmpty

/-- LAUNCH_END (R279, R292, R314, R341): a launch that is over ends with DONE; one that was shed, cancelled or faulted ends once its
strands are gone, and what is left of it is discarded. -/
def execLaunchEnd (id : Nat) (s : State) : Out :=
  match s.launch? id with
  | none => .next s
  | some l =>
    match l.ending with
    | .live =>
      if !s.launchOver l then .next s
      else
        let l1 := { l with ending := .ending 1 }
        let s1 := (((s.classify l).setLaunch l1).freeHeld l).freeAreas l1
        .next (if l.copiesBack then s1 else s1.closeLaunch l1 1)
    | .ending status =>
      if status = 1 || (s.cores.toList.any fun k => match k.strand with | some st => st.launch == id | none => false) || s.accsLeft l then .next s
      else
        let s1 := ((s.dropChains id).dropPackets id).classify l
        .next (((s1.freeAreas l).freeHeld l).closeLaunch l status)

/-- STAGED_COPY_BACK (R277, R368, R389): the writable staged fields of a launch that ended with DONE are copied back, but for pages discarded
before it and blocks that a peer does not take; then its node completes. -/
def execStagedCopyBack (id : Nat) (s : State) : Out :=
  match s.launch? id with
  | none => .next s
  | some l =>
    if l.ending != .ending 1 then .next s
    else
      let s1 := (l.staged.filter fun g => g.home.permW).foldl (fun s g =>
        (List.range (g.size / 2048)).foldl (fun s i =>
          let src := s.fieldRun l.part g.entry [] (2048 * i) 2048
          let dst := s.homeRun l.part g.home [] true (2048 * i) 2048
          if l.disc.contains (g.home.idx, 2048 * i / 2 ^ 16) || dst.any fun q => s.peerGated q.phys then s
          else
            let (bs, bad) := s.mem.gather src
            (s.moved l.part (src ++ dst)).commitAll (hWrites dst bs bad)) s) s
      .next (s1.closeLaunch l 1)

end Sys2Proof.Machine
end

