-- ==== Sys2Proof/Machine/Intake.lean ====
section
/-! DEFINITION. The intake queues (R360, R361): acceptance of records, and the commands: graphs (R263, R264), faults (R346, R347,
R389), partition parameters, curves (R307, R308), keys (R354), attestation (R353), partitions (R355), the fabric (R367, R368). -/

namespace Sys2Proof.Machine

open Sys2Proof

/-- An intake record: its SEQ, its bytes, whether its line is poisoned (R396). -/
structure Cmd where
  seq : BitVec 32
  bs : List Byte
  bad : Bool
deriving DecidableEq, Repr, Inhabited

/-- R361: command statuses. -/
def stOk : Nat := 0
def stBad : Nat := 1
def stDenied : Nat := 2
def stBusy : Nat := 3
def stArg : Nat := 4
def stSig : Nat := 5

/-- R360: the number after a sequence number; 0 is skipped. -/
def seqAfter (x : BitVec 32) : BitVec 32 := if x + 1 = 0 then 1 else x + 1

/-- The bytes of a record that its kind gives a meaning, from byte 8 on (R361, R367). -/
def argBytes (kind op : Nat) : List Nat :=
  let r (a n : Nat) : List Nat := (List.range n).map (a + ·)
  match kind with
  | 1 => r 8 10
  | 2 => r 8 8
  | 3 => r 8 5
  | 4 => r 8 17
  | 5 => r 8 2 ++ r 16 16
  | 6 => r 8 8
  | 7 => r 8 1 ++ r 16 16
  | 8 => r 8 1 ++ r 16 32
  | 9 => r 8 2
  | 10 => match op with
    | 0 => r 8 1 ++ r 16 2
    | 1 => r 8 1 ++ r 16 2 ++ r 24 8
    | _ => r 8 1 ++ r 16 5
  | _ => []

def Cmd.arg (c : Cmd) (o n : Nat) : Nat := leAt c.bs o n
def Cmd.kind (c : Cmd) : Nat := if c.bad then 0 else c.arg 4 1

/-- R361: is the kind listed, and is every reserved byte zero. -/
def Cmd.legal (c : Cmd) : Bool :=
  decide (1 ≤ c.kind) && decide (c.kind ≤ 10) && c.arg 5 3 == 0 &&
    c.bs.zipIdx.all fun b => decide (b.2 < 8) || b.1 == 0 || (argBytes c.kind (c.arg 8 1)).contains b.2

/-- The row of the table that a record is: its kind, with SEL, or the operation, as a second digit; 0 for one that is no command. -/
def Cmd.row (c : Cmd) : Nat :=
  if !c.legal then 0
  else
    match c.kind with
    | 5 => if c.arg 9 1 ≤ 6 then 0x50 + c.arg 9 1 else 0
    | 9 => if c.arg 9 1 ≤ 1 then 0x90 + c.arg 9 1 else 0
    | 10 => if c.arg 8 1 ≤ 2 then 0xA0 + c.arg 8 1 else 0
    | k => k

/-- R361: the kinds that only the physical function may give. -/
def Cmd.pfOnly (c : Cmd) : Bool := [5, 6, 7, 9, 10].contains c.kind

/-- R360: where the next record of a function lies, and its SEQ. -/
def State.intakeAt (s : State) (p : Fin 64) : Nat × BitVec 32 :=
  let f := s.funcs[p]
  let n := seqAfter f.intakeAcc
  (f.intakeBase + 64 * (n.toNat % 2 ^ f.intakeSize), n)

/-- R352, R353: has a function an intake ring and an event ring: it has its partition, or is the physical function of a boot that stopped. -/
def State.hasRings (s : State) (p : Fin 64) : Bool := s.answers p && (s.parts[p].exists_ || s.bootstat != 0)

/-- R360, R396: the next record of a function, where the host has published it. -/
def State.nextCmd (s : State) (p : Fin 64) : Option Cmd :=
  let f := s.funcs[p]
  let (a, n) := s.intakeAt p
  if !s.hasRings p || f.intakeSize < 6 || 16 < f.intakeSize then none
  else
    match s.cpBytes p a 64 with
    | none => none
    | some (bs, bad) =>
      if !bad.isEmpty then some { seq := n, bs := bs, bad := true }
      else if leAt bs 0 4 = n.toNat then some { seq := n, bs := bs, bad := false } else none

/-- R360: a record is accepted: INTAKE_ACC takes its SEQ, and its slot returns to the host. -/
def State.acceptCmd (s : State) (p : Fin 64) (c : Cmd) : State :=
  let s1 := { s.cpSeen p (s.intakeAt p).1 64 with funcs := s.funcs.set p { s.funcs[p] with intakeAcc := c.seq } }
  (s1.cpWrite p (s.intakeAt p).1 (leBytes 4 0)).getD s1

/-- R352, R360, R361: the next record of a function is acted on, where it is of the row given; its status is reported. -/
def command (row : Nat) (act : State → Cmd → State × Nat) (p : Fin 64) (s : State) : Out :=
  match s.nextCmd p with
  | none => .next s
  | some c =>
    if c.row != row then .next s
    else
      let s1 := (if c.bad then s.cpPoison p (s.intakeAt p).1 64 else s).acceptCmd p c
      let (s2, st) := if s.bootstat != 0 || (c.pfOnly && p != 0) then (s1, stDenied) else act s1 c
      .next (s2.logEvent p 2 (leBytes 4 c.seq.toNat ++ leBytes 1 c.kind ++ leBytes 1 st))

/- Graphs. -/

/-- R263: a node from its 64 bytes and successor list. -/
def nodeOf (bs : List Byte) (succ : List Nat) : Node :=
  let ctl := word64 bs 3
  { image := leAt bs 0 8, bind := leAt bs 8 8, deadline := leAt bs 16 8, haulch := ctl.extractLsb' 48 16,
    npred := (ctl.extractLsb' 24 12).toNat, succ := succ, opmask := ctl.extractLsb' 16 8, prioceil := ctl.extractLsb' 13 3,
    eclass := ctl.extractLsb' 11 2, met := 0, st := .waiting, loaded := none }

/-- R264: the successor list of a node read; `none` where a reserved field is not zero or the list cannot be read. -/
def State.readNode (s : State) (p : Fin 64) (bs : List Byte) : Option Node :=
  let ctl := word64 bs 3
  let succ := leAt bs 32 8
  let n := (ctl.extractLsb' 36 12).toNat
  if ctl.extractLsb' 8 3 != 0 || leAt bs 40 24 != 0 || succ % 2 != 0 then none
  else (s.cpRead p succ (2 * n)).map fun l => nodeOf bs ((List.range n).map fun i => leAt l (2 * i) 2)

/-- R264: nodes taken away, those whose predecessors are all gone; `fuel` rounds. -/
def peel : Nat → List Node → List Nat → List Nat
  | 0, _, left => left
  | fuel + 1, ns, left =>
    let next := left.filter fun j => left.any fun i => ((ns[i]?).elim [] Node.succ).contains j
    if next.length = left.length then left else peel fuel ns next

/-- R264: successors exist, NPRED counts them, no cycle. -/
def graphOk (ns : List Node) : Bool :=
  let all := ns.flatMap Node.succ
  all.all (fun j => decide (j < ns.length)) && (ns.zipIdx.all fun n => n.1.npred == all.count n.2) &&
    (peel ns.length ns (List.range ns.length)).isEmpty

/-- R263: a graph that the device has from now on. -/
def State.addGraph (s : State) (p : Fin 64) (arr : Nat) (ns : List Node) : State :=
  { s with graphs := s.graphs ++ [{ gid := s.nextGid, part := p, addr := arr, nodes := ns }], nextGid := s.nextGid + 1,
           nextOrder := s.nextOrder + 1 }

/-- R264, R265, R362: a graph submitted: accepted, or every node completed with BAD_NODE, each as soon as its event can be held. -/
def State.submitGraph (s : State) (p : Fin 64) (arr n : Nat) : State × Nat :=
  if n = 0 || 4096 < n || arr % 64 != 0 then (s, stArg)
  else
    match s.cpBytes p arr (64 * n) with
    | none => (s, stArg)
    | some (bs, bad) =>
      let succs := (List.range n).map fun i => let b := (bs.drop (64 * i)).take 64; (leAt b 32 8, 2 * ((word64 b 3).extractLsb' 36 12).toNat)
      let s := (succs.filter fun x => bad.isEmpty && x.2 != 0).foldl (fun s x => s.cpSeen p x.1 x.2) (s.cpSeen p arr (64 * n))
      let nodes := if bad.isEmpty then (List.range n).mapM fun i => s.readNode p ((bs.drop (64 * i)).take 64) else none
      match nodes.filter graphOk with
      | none =>
        let ns := (List.range n).map fun i => { nodeOf ((bs.drop (64 * i)).take 64) [] with st := .completing 6 0 }
        ((((s.cpPoison p arr (64 * n)).addGraph p arr ns).completeHeld p), stArg)
      | some ns => (s.addGraph p arr (ns.map fun x => if x.npred = 0 then { x with st := .eligible s.nextOrder } else x), stOk)

/-- SUBMIT (R263 to R265, R361). -/
def execSubmit (p : Fin 64) (s : State) : Out :=
  command 1 (fun s c => s.submitGraph p (c.arg 8 8) (c.arg 16 2)) p s

/-- R361: a graph cancelled: its running launches end with FAULT, nodes not yet started complete with CANCELLED. -/
def State.cancelGraph (s : State) (gid : Nat) : State :=
  match s.graph? gid with
  | none => s
  | some g =>
    let s1 := g.nodes.foldl (fun s n => match n.st with | .launched id => s.shed id 3 | _ => s) s
    g.nodes.zipIdx.foldl (fun s n =>
      match n.1.st with
      | .launched _ => s
      | .ended => s
      | .completing _ _ => s
      | _ =>
        let q := s.parts[g.part]
        let pool := (n.1.loaded.elim [] Loaded.staged).foldl Area.unstage q.pool
        (s.setPart g.part { q with pool := pool }).completeNode gid n.2 4 0) s1

/-- CANCEL (R314, R361). -/
def execCancel (p : Fin 64) (s : State) : Out :=
  command 2 (fun s c =>
    let gs := s.graphs.filter fun g => g.part == p && g.addr == c.arg 8 8
    if gs.isEmpty then (s, stArg) else (gs.foldl (fun s g => s.cancelGraph g.gid) s, stOk)) p s

/- Faults and invalidation. -/

/-- VERDICT (R346, R361). -/
def execVerdict (p : Fin 64) (s : State) : Out :=
  command 3 (fun s c =>
    match s.pfaults.find? fun f => f.fseq == c.arg 8 4 with
    | none => (s, stArg)
    | some f =>
      if p != 0 && f.part != p then (s, stDenied)
      else if 1 < c.arg 12 1 then (s, stArg) else (s.resolve f (c.arg 12 1 == 1), stOk)) p s

/-- R389: a range sets DISC on a page, or reclaims a discarded one, that a live launch's field names. -/
def State.discBusy (s : State) (p : Fin 64) (base len : Nat) : Bool :=
  s.launches.any fun l => l.part == p && l.ending == .live && l.fields.any fun f =>
    f.slot.isNone && (List.range (f.size / 2 ^ 16)).any fun i =>
      let a := f.partbase + i * 2 ^ 16
      decide (a < base + len) && decide (base < a + 2 ^ 16) && (match s.walk p a with
        | .ok (_, leaf, _) => leafDisc leaf != l.pageDisc.contains (f.idx, i)
        | .error _ => l.pageDisc.contains (f.idx, i))

/-- R389: the pages of a range that live launches name and whose discard has changed, by the leaf before the change; a page that had none is
not present. -/
def State.pinsFor (s : State) (p : Fin 64) (base len : Nat) : List Xlat :=
  (s.launches.filter fun l => l.part == p && l.ending == .live).flatMap fun l => (l.fields.filter fun f => f.slot.isNone).flatMap fun f =>
    (List.range (f.size / 2 ^ 16)).filterMap fun i =>
      let a := f.partbase + i * 2 ^ 16
      let was := l.pageDisc.contains (f.idx, i)
      let now := match s.walk p a with | .ok (_, leaf, _) => leafDisc leaf | .error _ => false
      if base + len ≤ a || decide (a + 2 ^ 16 ≤ base) || now == was then none
      else
        match l.kept.find? fun k => k.1 == pageOf k.2.1 a with
        | some k => some { part := p, page := k.1, big := k.2.1, leaf := k.2.2 }
        | none => some { part := p, page := pageOf false a, big := false, leaf := 0 }

/-- R347: cached translations of a range discarded. -/
def State.dropXlats (s : State) (p : Fin 64) (base len : Nat) : State :=
  let hit (x : Xlat) : Bool :=
    let n := if x.big then 2 ^ 21 else 2 ^ 16
    x.part == p && decide (x.page * n < base + len) && decide (base < x.page * n + n)
  { s with xlats := s.xlats.map fun (l : List Xlat) => l.filter fun x => !hit x, pins := s.pins.filter fun (x : Xlat) => !hit x }.rekeep p base len

/-- R389: an INVALIDATE that ends with BUSY: the pages concerned keep their previous leaves until one of their range ends with OK. -/
def State.pinRange (s : State) (p : Fin 64) (base len : Nat) : State :=
  let new := (s.pinsFor p base len).filter fun x => !s.pins.any fun o => o.part == x.part && o.page == x.page && o.big == x.big
  { s with
    pins := s.pins ++ new.dedup,
    xlats := s.xlats.map fun l => l.filter fun x => !new.any fun o => o.part == x.part && o.page == x.page && o.big == x.big }

/-- INVALIDATE (R347, R388, R389, R361). Byte 24, which has a meaning for the physical function alone, is not looked at in a virtual function's record
(DESIGN CHOICE, log). -/
def execInvalidate (p : Fin 64) (s : State) : Out :=
  command 4 (fun s c =>
    let t : Nat := if p = 0 then c.arg 24 1 else p.val
    if h : t < 64 then
      if s.discBusy ⟨t, h⟩ (c.arg 8 8) (c.arg 16 8) then (s.pinRange ⟨t, h⟩ (c.arg 8 8) (c.arg 16 8), stBusy) else (s.dropXlats ⟨t, h⟩ (c.arg 8 8) (c.arg 16 8), stOk)
    else (s, stArg)) p s

/- Partition parameters. -/

/-- R361: has a partition a live launch. -/
def State.partLive (s : State) (p : Fin 64) : Bool := s.launches.any fun l => l.part == p

/-- A parameter of an existing partition set: `busy` says that a live launch stops it. -/
def setParam (row : Nat) (busy : Bool) (set : Partition → Nat → Nat → Option Partition) (p : Fin 64) (s : State) : Out :=
  command row (fun s c =>
    if h : c.arg 8 1 < 64 then
      let q : Fin 64 := ⟨c.arg 8 1, h⟩
      if !s.parts[q].exists_ then (s, stArg)
      else if busy && s.partLive q then (s, stBusy)
      else
        match set s.parts[q] (c.arg 16 8) (c.arg 24 8) with
        | some x => (s.setPart q x, stOk)
        | none => (s, stArg)
    else (s, stArg)) p s

/-- R227: is a range HBM storage of one stack. -/
def inStack (a n : Nat) : Bool := decide (a < 2 ^ 40) && decide (a % 2 ^ 36 + n ≤ 0xBD0000000)

/-- SET_PTROOT (R343). -/
def execSetPtroot (p : Fin 64) (s : State) : Out :=
  setParam 0x50 true (fun q v _ => if v % 4096 = 0 && inStack v 4096 then some { q with ptroot := v } else none) p s

/-- SET_SHARE (R288). -/
def execSetShare (p : Fin 64) (s : State) : Out :=
  setParam 0x51 false (fun q v _ => if 1 ≤ v && v ≤ 65535 then some { q with share := v } else none) p s

/-- SET_PSLICE (R288). -/
def execSetPslice (p : Fin 64) (s : State) : Out :=
  setParam 0x52 false (fun q v _ => if 50 ≤ v && v ≤ 100000 then some { q with pslice := v } else none) p s

/-- SET_SEED_QUEUES (R284): the base is a partition address. -/
def execSetSeedQueues (p : Fin 64) (s : State) : Out :=
  setParam 0x53 true (fun q v n =>
    if v % 4096 = 0 && 8 ≤ n && n ≤ 16 && v + 256 * 2 ^ n ≤ 2 ^ 48 then
      some { q with seedBase := v, seedLog2 := n, queues := Vector.replicate 8 [] }
    else none) p s

/-- SET_STAGING_POOL (R276). -/
def execSetStagingPool (p : Fin 64) (s : State) : Out :=
  setParam 0x54 true (fun q v n =>
    if v % 2 ^ 16 = 0 && n % 2 ^ 20 = 0 && inStack v (n / 16) then some { q with pool := { base := v % 2 ^ 36, size := n / 16, used := [] } }
    else none) p s

/-- SET_SAVE_AREA (R329). -/
def execSetSaveArea (p : Fin 64) (s : State) : Out :=
  setParam 0x55 true (fun q v n => if v % 4096 = 0 && inStack v n then some { q with save := { base := v, size := n, used := [] } } else none) p s

/-- SET_PARK_AREA (R384): its first 4 KiB hold the STOW windows. -/
def execSetParkArea (p : Fin 64) (s : State) : Out :=
  setParam 0x56 true (fun q v n =>
    if v % 4096 = 0 && (n = 0 || 4096 ≤ n) && v + n ≤ siloLimit then
      some { q with park := { base := v, size := n, used := if n = 0 then [] else [(0, 4096)] } }
    else none) p s

/- Curves (R307, R308). -/

/-- R308: is a curve of legal contents; its image has NBP breakpoints and NEV events. -/
def curveOf (bs : List Byte) (nbp nev : Nat) : Option Curve :=
  let start := leAt bs 24 8
  let end_ := leAt bs 32 8
  let points := (List.range nbp).map fun i => (leAt bs (64 + 8 * i) 4, leAt bs (68 + 8 * i) 4)
  let ev (j : Nat) : CurveEvent :=
    let o := 64 + 8 * nbp + 16 * j
    { off := leAt bs o 4, until_ := leAt bs (o + 4) 4, grade := leAt bs (o + 8) 1, cls := leAt bs (o + 9) 1, acted := false }
  let events := (List.range nev).map ev
  let evOk (j : Nat) : Bool :=
    let e := ev j
    leAt bs (64 + 8 * nbp + 16 * j + 10) 6 == 0 && decide (start + e.off * 1000000 < end_) &&
      (match e.grade with
        | 1 => decide (e.off < e.until_) && decide (e.cls ≤ 3)
        | 2 => decide (e.off < e.until_) && decide (e.cls ≤ 3)
        | 3 => decide (e.cls ≤ 2) && e.until_ == 0
        | _ => false)
  if leAt bs 0 4 != 0x43565842 || 2800 < leAt bs 12 4 || leAt bs 40 24 != 0 || end_ ≤ start || (points.head?.map Prod.fst) != some 0 then none
  else if !((points.zip (points.drop 1)).all fun x => decide (x.1.1 < x.2.1)) then none
  else if !(points.all fun x => decide (start + x.1 * 1000000 < end_) && decide (x.2 ≤ 2800)) || !(List.range nev).all evOk then none
  else some { seq := leAt bs 16 8, start := start, end_ := end_, fallback := leAt bs 12 4, points := points, events := events }

/-- R308, R396: the bytes of a curve's image that are read: its header, and what it counts where its counts are within their limits. -/
def State.curveSpan (s : State) (a : Nat) : Nat :=
  match s.cpRead 0 a 64 with
  | some h => if leAt h 4 4 = 0 || 256 < leAt h 4 4 || 16 < leAt h 8 4 then 64 else 128 + 8 * leAt h 4 4 + 16 * leAt h 8 4
  | none => 64

/-- R308: a curve read and checked: the curve, or the status of its refusal. -/
def State.readCurve (s : State) (a : Nat) : Except Nat Curve :=
  match s.cpRead 0 a 64 with
  | none => .error stArg
  | some h =>
    let nbp := leAt h 4 4
    let nev := leAt h 8 4
    if nbp = 0 || 256 < nbp || 16 < nev then .error stArg
    else
      let n := 64 + 8 * nbp + 16 * nev
      match s.cpRead 0 a (n + 64) with
      | none => .error stArg
      | some bs =>
        let good := match s.keys[2] with
          | some k => ecdsaVerify k.x k.y (sha256 (bs.take n)) (leAt bs n 32) (leAt bs (n + 32) 32)
          | none => false
        if !good then .error stSig
        else
          match curveOf bs nbp nev with
          | none => .error stArg
          | some c => if c.seq < s.power.nextSeq then .error stArg else .ok c

/-- CURVE (R308, R362): a refusal is logged to the physical function's log with the command's status as its cause. -/
def execCurve (p : Fin 64) (s : State) : Out :=
  command 6 (fun s0 c =>
    let s := s0.cpSeen 0 (c.arg 8 8) (s0.curveSpan (c.arg 8 8))
    match s.readCurve (c.arg 8 8) with
    | .error e => ((s.cpPoison 0 (c.arg 8 8) (s.curveSpan (c.arg 8 8))).notice 0 3 e 0, e)
    | .ok v =>
      let kept := s.power.curves.filter fun o => decide (o.start ≤ dtime s.tick)
      ({ s with power := { s.power with curves := kept ++ [v], nextSeq := v.seq + 1 } }, stOk)) p s

/- Keys, attestation, partitions. -/

/-- KEYINST (R354): the image holds X, Y, r and s. Slot 2, once filled, takes a key only with a signature by the key it replaces. -/
def execKeyinst (p : Fin 64) (s : State) : Out :=
  command 7 (fun s0 c =>
    let s := s0.cpSeen 0 (c.arg 16 8) 128
    let i := c.arg 8 1
    match s.cpRead 0 (c.arg 16 8) 128 with
    | none => (s, stArg)
    | some bs =>
      if i < 2 then (s, stArg)
      else if h : i < 16 then
        let signed := match s.keys[i] with
          | some k => i != 2 || ecdsaVerify k.x k.y (sha256 (bs.take 64)) (leAt bs 64 32) (leAt bs 96 32)
          | none => true
        if !signed then (s, stSig)
        else ({ s with keys := s.keys.set i (some { x := leAt bs 0 32, y := leAt bs 32 32, mask := BitVec.ofNat 64 (c.arg 24 8) }) }, stOk)
      else (s, stArg)) p s

/-- EXTEND (R353). -/
def execExtend (p : Fin 64) (s : State) : Out :=
  command 8 (fun s c =>
    let i := c.arg 8 1
    if h : i < 16 then
      if i < 10 then (s, stArg)
      else
        let q := s.parts[p]
        let d := BitVec.ofNat 256 (beNat ((c.bs.drop 16).take 32))
        (s.setPart p { q with meas := q.meas.set i (extendMeas q.meas[i] d) }, stOk)
    else (s, stArg)) p s

/-- R353, R355: a partition created with a fresh key and record; its accounts count since reset. -/
def State.createPart (s : State) (q : Fin 64) : State :=
  let x := { Partition.init with exists_ := true, keyId := s.nextKey, meas := newRecord s.measd, energy := (s.parts[q]).energy,
                                 pstall := (s.parts[q]).pstall }
  { s.setPart q x with nextKey := s.nextKey + 1 }

/-- R355: a partition destroyed: its key is gone, and with it its graphs, loaded images, translations and faults. -/
def State.destroyPart (s : State) (q : Fin 64) : State :=
  let x := { Partition.init with energy := (s.parts[q]).energy, pstall := (s.parts[q]).pstall }
  { s.setPart q x with
    graphs := s.graphs.filter fun g => g.part != q, images := s.images.filter fun i => i.1 != q.val,
    xlats := s.xlats.map fun l => l.filter fun e => e.part != q, pfaults := s.pfaults.filter fun f => f.part != q,
    classes := s.classes.filter fun e => e.part != q, pins := s.pins.filter fun x => x.part != q }

/-- The partition that a PARTITION record names. -/
def Cmd.part (c : Cmd) : Option (Fin 64) := if h : c.arg 8 1 < 64 then (if c.arg 8 1 = 0 then none else some ⟨c.arg 8 1, h⟩) else none

/-- PARTITION_CREATE (R353, R355). -/
def execPartitionCreate (p : Fin 64) (s : State) : Out :=
  command 0x90 (fun s c =>
    match c.part with
    | none => (s, stArg)
    | some q => if s.parts[q].exists_ then (s, stArg) else (s.createPart q, stOk)) p s

/-- PARTITION_DESTROY (R355, R361). -/
def execPartitionDestroy (p : Fin 64) (s : State) : Out :=
  command 0x91 (fun s c =>
    match c.part with
    | none => (s, stArg)
    | some q => if !s.parts[q].exists_ then (s, stArg) else if s.partLive q then (s, stBusy) else (s.destroyPart q, stOk)) p s

/- The fabric (R367, R368). -/

/-- FABRIC_PACKAGE_NUMBER (R367). -/
def execFabricPackageNumber (p : Fin 64) (s : State) : Out :=
  command 0xA0 (fun s c => if 4095 < c.arg 16 2 then (s, stArg) else ({ s with package := c.arg 16 2 }, stOk)) p s

/-- FABRIC_ROUTE (R367). -/
def execFabricRoute (p : Fin 64) (s : State) : Out :=
  command 0xA1 (fun s c =>
    let k := c.arg 16 2
    if 4095 < k || 2 ^ 48 ≤ c.arg 24 8 then (s, stArg)
    else ({ s with routes := (s.routes.filter fun r => r.1 != k) ++ [(k, BitVec.ofNat 48 (c.arg 24 8))] }, stOk)) p s

/-- FABRIC_IMPORT (R367, R368): an entry for a source package and partition that already has one takes its place (DESIGN CHOICE, log). -/
def execFabricImport (p : Fin 64) (s : State) : Out :=
  command 0xA2 (fun s c =>
    let k := c.arg 16 2
    let sp := c.arg 18 1
    let m := c.arg 20 1
    if h : c.arg 19 1 < 64 then
      if 4095 < k || 64 ≤ sp || 4 ≤ m then (s, stArg)
      else
        let e : Import := { pkg := k, srcPart := sp, part := ⟨c.arg 19 1, h⟩, r := m.testBit 0, w := m.testBit 1 }
        ({ s with imports := (s.imports.filter fun i => !(i.pkg == k && i.srcPart == sp)) ++ [e] }, stOk)
    else (s, stArg)) p s

/-- BAD_COMMAND (R361, R396): an unlisted kind, nonzero reserved bytes or a poisoned record; of a listed kind, a parameter or operation
that is not listed. -/
def execBadCommand (p : Fin 64) (s : State) : Out :=
  command 0 (fun s c => (s, if c.legal then stArg else stBad)) p s

end Sys2Proof.Machine
end

