-- ==== Sys2Proof/Machine/Events.lean ====
section
/-! DEFINITION. The event logs (R362): the records of each kind leave the device for a function's event ring. -/

namespace Sys2Proof.Machine

open Sys2Proof

/-- R362: where the next record of a function's event ring lies, and its ESEQ. -/
def State.eventAt (s : State) (p : Fin 64) : Nat × BitVec 32 :=
  let f := s.funcs[p]
  let n := seqAfter f.evWr
  (f.evBase + 64 * (n.toNat % 2 ^ f.evSize), n)

/-- R362: has a function an event ring whose next slot the host has freed. -/
def State.eventRoom (s : State) (p : Fin 64) : Bool :=
  let f := s.funcs[p]
  s.hasRings p && decide (6 ≤ f.evSize) && decide (f.evSize ≤ 16) && (match s.cpBytes p (s.eventAt p).1 4 with
    | some (bs, _) => leNat bs == 0
    | none => false)

/-- R358: the MSI-X vector of an event kind. -/
def Func.vector (f : Func) (kind : Nat) : Nat := (f.evvec.toNat / 2 ^ (5 * kind)) % 32

/-- R362: the oldest event of a function, of the kind given, is written: bytes 63:4, then ESEQ; EVLOG_WR takes it, and the MSI-X message
of the kind is sent. The room that it leaves may let nodes complete. -/
def eventRow (kind : Nat) (p : Fin 64) (s : State) : Out :=
  match s.funcs[p].events with
  | [] => .next s
  | e :: rest =>
    if e.kind != kind || !s.eventRoom p then .next s
    else
      let (a, n) := s.eventAt p
      match (s.cpSeen p a 4).cpWrite p (a + 4) (leBytes 4 kind ++ e.body) with
      | none => .next s
      | some s1 =>
        match s1.cpWrite p a (leBytes 4 n.toNat) with
        | none => .next s
        | some s2 =>
          let f := s2.funcs[p]
          .next (({ s2 with funcs := s2.funcs.set p { f with events := rest, evWr := n } }.answer (.msix p.val (f.vector kind))).completeHeld p)

/-- COMPLETION_EVENT (R362). -/
def execCompletionEvent (p : Fin 64) (s : State) : Out := eventRow 1 p s

/-- COMMAND_EVENT (R362). -/
def execCommandEvent (p : Fin 64) (s : State) : Out := eventRow 2 p s

/-- STRAND_FAULT_EVENT (R341, R362). -/
def execStrandFaultEvent (p : Fin 64) (s : State) : Out := eventRow 3 p s

/-- STALL_EVENT (R302, R362). -/
def execStallEvent (p : Fin 64) (s : State) : Out := eventRow 4 p s

/-- PAGEFAULT_EVENT (R346, R362). -/
def execPagefaultEvent (p : Fin 64) (s : State) : Out := eventRow 5 p s

/-- NOTICE_EVENT (R362). -/
def execNoticeEvent (p : Fin 64) (s : State) : Out := eventRow 6 p s

end Sys2Proof.Machine
end

