-- ==== Sys2Proof/Machine/HostPort.lean ====
section
/-! DEFINITION. The host port and the fabric (R357 to R359, R364 to R368): register writes, the window, ATS invalidation, FLR; flits,
training, lanes, and the accesses of peers. -/

namespace Sys2Proof.Machine

open Sys2Proof

/- Registers (R358). -/

/-- R358: a write of a register of a function. -/
def State.writeReg (s : State) (fn : Fin 64) (off : Nat) (v : W64) : State :=
  let f := s.funcs[fn]
  let put (g : Func) : State := { s with funcs := s.funcs.set fn g }
  let ring (g : Func) : State := if s.partLive fn then s else put g
  if off = 0x18 then ring { f with intakeBase := v.toNat / 4096 * 4096 }
  else if off = 0x20 then ring { f with intakeSize := v.toNat % 32 }
  else if off = 0x30 then ring { f with evBase := v.toNat / 4096 * 4096 }
  else if off = 0x38 then ring { f with evSize := v.toNat % 32 }
  else if off = 0x48 then put { f with evvec := v &&& 0x7FFFFFFE0 }
  else if off = 0x50 then put { f with winbase := v.toNat / 2 ^ 36 * 2 ^ 36 }
  else if off = 0x1018 && fn.val == 0 then
    let h := v.toNat % 256
    if 70 ≤ h && h ≤ 105 then { s with power := { s.power with hot := h } } else s
  else s

/-- R319: a register of the power block. -/
def State.powerReg (s : State) (off : Nat) : W64 :=
  if off = 0 then BitVec.ofNat 64 (s.target % 2 ^ 32)
  else if off = 8 then BitVec.ofNat 64 (s.power.pmeas % 2 ^ 32)
  else if off = 0x10 then BitVec.ofNat 64 (s.curveNow.elim 0 Curve.seq)
  else if off = 0x18 then BitVec.ofNat 64 s.power.hot
  else if off = 0x300 then BitVec.ofNat 64 s.power.account
  else if 0x100 ≤ off && off < 0x300 then BitVec.ofNat 64 (s.parts[(off - 0x100) / 8 % 64]'(Nat.mod_lt _ (by omega))).energy
  else if 0x400 ≤ off && off < 0x600 then BitVec.ofNat 64 (s.parts[(off - 0x400) / 8 % 64]'(Nat.mod_lt _ (by omega))).pstall
  else 0

/-- R11, R319, R358: what a read of a register of a function returns; an offset that names none reads as zero. -/
def State.readReg (s : State) (fn : Fin 64) (off : Nat) : W64 :=
  let f := s.funcs[fn]
  if off = 0 then (if fn.val = 0 then s.bootstat else 0)
  else if off = 8 then BitVec.ofNat 64 (dtime s.tick)
  else if off = 0x10 then BitVec.ofNat 64 fn.val
  else if off = 0x18 then BitVec.ofNat 64 f.intakeBase
  else if off = 0x20 then BitVec.ofNat 64 f.intakeSize
  else if off = 0x28 then f.intakeAcc.setWidth 64
  else if off = 0x30 then BitVec.ofNat 64 f.evBase
  else if off = 0x38 then BitVec.ofNat 64 f.evSize
  else if off = 0x40 then f.evWr.setWidth 64
  else if off = 0x48 then f.evvec
  else if off = 0x50 then BitVec.ofNat 64 f.winbase
  else if 0x1000 ≤ off && off < 0x1800 && fn.val == 0 then s.powerReg (off - 0x1000)
  else 0

/-- R352, R358: an access of `n` bytes to BAR0, a write of `v` or a read: one that is not of 8 aligned bytes completes with Unsupported Request,
as one to a function that is not exposed does; where the device does not enumerate nothing answers. -/
def State.hostAccess (s : State) (fn : Fin 64) (off n : Nat) (v : Option W64) : State :=
  if !s.answers 0 then s
  else if !s.answers fn || n != 8 || off % 8 != 0 || 2 ^ 16 ≤ off then s.answer (.unsupported fn.val)
  else
    match v with
    | some v => s.writeReg fn off v
    | none => s.answer (.data fn.val (leBytes 8 (s.readReg fn off).toNat) false)

/-- HOST_REGISTER_WRITE (R319, R320, R352, R358): a write of 8 bytes. -/
def execHostRegisterWrite (fn : Fin 64) (off : Nat) (v : BitVec 64) (s : State) : Out := .next (s.hostAccess fn off 8 (some v))

/- Accesses of path E (R344, R359). -/

/-- What stops an access of path E: a fault at an address, or a leaf that names no storage. -/
inductive PortStop where
  | fault (a : Nat)
  | noStorage (a : Nat)
deriving DecidableEq, Repr, Inhabited

/-- R211, R344, R359: the pieces of a partition range, translated through the host port's cache, or by walks that are gleaned accesses and
count the poisoned table lines they meet (R374, R396); the yard aperture is no part of it. `fuel` bounds the pieces. -/
def State.portRun (s : State) (p : Fin 64) (write : Bool) : Nat → Nat → Nat → State × Except PortStop (List HPiece)
  | 0, _, _ => (s, .ok [])
  | fuel + 1, a, n =>
    if n = 0 then (s, .ok [])
    else if 2 ^ 48 ≤ a || inAperture a || !s.parts[p].exists_ then (s, .error (.fault a))
    else
      let s0 := s.walkedBy 24 p a
      match s0.fillXlat 24 p a with
      | .error _ => (s0, .error (.fault a))
      | .ok (s1, x) =>
        if (leafFault (s1.leafNow p a x.leaf) write).isSome then (s1, .error (.fault a))
        else if noFrame x.leaf then (s1, .error (.noStorage a))
        else
          match s1.leafTgt p x a with
          | .error _ => (s1, .error (.fault a))
          | .ok (phys, tag, zero) =>
            let k := min n (2 ^ 16 - a % 2 ^ 16)
            let (s2, rest) := s1.portRun p write fuel (a + k) (n - k)
            (s2, rest.map ({ at_ := a, len := k, phys := phys, tag := tag, zero := zero } :: ·))

/-- R359: is a range in BAR2, of a function that the device exposes. -/
def State.inWindow (s : State) (fn : Fin 64) (off n : Nat) : Bool := decide (off + n ≤ 2 ^ 36) && s.answers fn

/-- HOST_WINDOW_READ (R211, R344, R359, R362): a read that faults completes with Completer Abort and is logged. -/
def execHostWindowRead (fn : Fin 64) (off len : Nat) (s : State) : Out :=
  if !s.answers 0 then .next s
  else if !s.inWindow fn off len then .next (s.answer (.unsupported fn.val))
  else
    match s.portRun fn false (len / 2 ^ 16 + 2) ((s.funcs[fn]).winbase + off) len with
    | (s1, .error (.fault a)) => .next ((s1.notice fn 6 a 0).answer (.abort fn.val))
    | (_, .error (.noStorage a)) => .fault (.noStorage a)
    | (s1, .ok ps) =>
      let (bs, bad) := s1.mem.gather ps
      .next ((s1.moved fn ps).answer (.data fn.val bs (!bad.isEmpty)))

/-- HOST_WINDOW_WRITE (R359, R362): a write that faults is dropped and logged. -/
def execHostWindowWrite (fn : Fin 64) (off : Nat) (bs : List Byte) (s : State) : Out :=
  if !s.answers 0 then .next s
  else if !s.inWindow fn off bs.length then .next (s.answer (.unsupported fn.val))
  else
    match s.portRun fn true (bs.length / 2 ^ 16 + 2) ((s.funcs[fn]).winbase + off) bs.length with
    | (s1, .error (.fault a)) => .next (s1.notice fn 6 a 0)
    | (_, .error (.noStorage a)) => .fault (.noStorage a)
    | (s1, .ok ps) => .next ((s1.moved fn ps).commitAll (hWrites ps bs []))

/-- ATS_INVALIDATION (R347, R352, R359): no cached translation to a range of host addresses remains; a function that is not exposed has none and
does not answer. -/
def execAtsInvalidation (fn : Fin 64) (base len : Nat) (s : State) : Out :=
  let hit (x : Xlat) : Bool :=
    let n := if x.big then 2 ^ 21 else 2 ^ 16
    x.part == fn && leafTier x.leaf == 2 && decide (leafAddr x.leaf < base + len) && decide (base < leafAddr x.leaf + n)
  if !s.answers fn then .next s
  else .next ({ s with xlats := s.xlats.map fun (l : List Xlat) => l.filter fun x => !hit x }.answer (.atsDone fn.val))

/-- FLR (R364): of a virtual function alone. -/
def execFlr (fn : Fin 64) (s : State) : Out :=
  if fn.val = 0 then .next s
  else
    let s1 := (s.graphs.filter fun g => g.part == fn).foldl (fun s g => s.cancelGraph g.gid) s
    let f := s1.funcs[fn]
    .next { s1 with funcs := s1.funcs.set fn { f with intakeBase := 0, intakeSize := 0, intakeAcc := 0, evBase := 0, evSize := 0, evWr := 0 } }

/- The fabric. -/

/-- R365: a flit of a port with the acknowledgement and STOP that the port now shows. -/
def Port.flit (t : Port) (lseq : W16) (nak : Bool) (type : Nat) (payload : List Byte) : List Byte :=
  let ctl := nak.toNat + 2 * (decide (768 < t.inq.length)).toNat + 4 * type
  let bs := leBytes 2 lseq.toNat ++ leBytes 2 (t.rxNext - 1).toNat ++ leBytes 1 ctl ++ leBytes 3 0 ++
    (payload.take 240 ++ List.replicate (240 - payload.length) 0)
  bs ++ leBytes 8 (crc64 bs).toNat

def State.setPort (s : State) (k : Fin 48) (t : Port) : State := { s with ports := s.ports.set k t }

/-- R366: the sequence number of the oldest payload that is not acknowledged. -/
def Port.oldest (t : Port) : W16 := t.txSeq - BitVec.ofNat 16 t.unacked.length

/-- R366: payloads up to an acknowledged sequence number are let go. -/
def Port.acked (t : Port) (ack : W16) : Port :=
  let n := (ack + 1 - t.oldest).toNat
  if n ≤ t.unacked.length then { t with unacked := t.unacked.drop n } else t

/-- The flits that a port sends again, in order (R366); the first of them carries a NAK that is due. -/
def Port.replay (t : Port) (nak : Bool) : List (List Byte) :=
  t.unacked.zipIdx.map fun u => t.flit (t.oldest + BitVec.ofNat 16 u.2) (nak && u.2 == 0) 1 u.1

/-- R366: what a port sends next: the flits that a NAK asks for, once the partner shows no STOP, else an idle flit, which carries the sequence number of
the last data flit and consumes none (DESIGN CHOICE, log: R365 does not say which). -/
def Port.next (t : Port) (nak : Bool) : List (List Byte) :=
  if t.resend && !t.stopped && !t.unacked.isEmpty then t.replay nak else [t.flit (t.txSeq - 1) nak 0 []]

/-- Flits leave a port. -/
def State.send (s : State) (k : Fin 48) (fs : List (List Byte)) : State := fs.foldl (fun s f => s.answer (.flit k.val f)) s

/-- The die that holds a port (R2). -/
def portDie (k : Fin 48) : Fin 11 := if k.val < 24 then 1 else 2

/-- FLIT_RECEIVE (R365, R366): a data flit of the expected LSEQ whose CRC is correct is accepted; another is discarded, and the next
flit out carries NAK. A NAK has the flits after ACK sent again, once the partner shows no STOP. A wrong CRC is a correctable error of the port's
die (R403). -/
def execFlitReceive (k : Fin 48) (flit : List Byte) (s : State) : Out :=
  let t := s.ports[k]
  if !t.up || flit.length != 256 then .next s
  else if leAt flit 248 8 != (crc64 (flit.take 248)).toNat then .next ((s.countError (portDie k) false 0 0 0 0).send k (t.next true))
  else
    let ctl := leAt flit 4 1
    let t1 : Port := { t.acked (BitVec.ofNat 16 (leAt flit 2 2)) with stopped := ctl.testBit 1 }
    let isData := ctl / 4 % 4 == 1
    let take := isData && leAt flit 0 2 == t1.rxNext.toNat && decide (t1.inq.length < 1024)
    let t2 : Port := if take then { t1 with rxNext := t1.rxNext + 1, inq := t1.inq ++ [(flit.drop 8).take 240] } else t1
    let t3 : Port := { t2 with resend := t2.resend || ctl.testBit 0 }
    .next ((s.setPort k { t3 with resend := t3.resend && t3.stopped }).send k (t3.next (isData && !take)))

/-- R367: the good lanes of a port. -/
def laneCount (l : BitVec 5) : Nat := ((List.range 5).filter fun i => l.getLsbD i).length

/-- The four lanes that a port uses: its good ones, the fallow lane last (R367). -/
def fourLanes (l : BitVec 5) : BitVec 5 := ((List.range 5).filter fun i => l.getLsbD i).take 4 |>.foldl (fun b i => b ||| (1#5 <<< i)) 0

/-- LINK_TRAINING (R366, R367): a port with four good lanes comes up and knows its partner; flits that a failed link lost are still to be
acknowledged, and are sent again once the same partner shows no STOP. -/
def execLinkTraining (k : Fin 48) (peerPkg peerPort : Nat) (lanes : BitVec 5) (s : State) : Out :=
  let t := s.ports[k]
  let good := t.lanes &&& lanes
  if t.up || !s.dieUp (portDie k) then .next s
  else if laneCount good < 4 then .next (s.setPort k { t with lanes := good, active := 0 })
  else
    let t1 := { t with up := true, lanes := good, active := fourLanes good, peer := peerPkg % 4096, peerPort := peerPort }
    if t.peer != peerPkg % 4096 || t.peerPort != peerPort then
      .next (s.setPort k { t1 with txSeq := 0, rxNext := 0, unacked := [], inq := [], stopped := false, resend := false })
    else if t.stopped then .next (s.setPort k { t1 with resend := true })
    else .next ((s.setPort k { t1 with resend := false }).send k (t1.replay false))

/-- LANE_RETIRE (R367): the port trains again with the lanes left. -/
def execLaneRetire (k : Fin 48) (lane : Fin 5) (s : State) : Out :=
  let t := s.ports[k]
  let good := t.lanes &&& ~~~(1#5 <<< lane.val)
  .next (s.setPort k { t with up := false, lanes := good, active := if laneCount good < 4 then 0 else fourLanes good })

/-- R368: the port on which an access of a peer has come in, and on which its answer can leave. -/
def State.peerPort (s : State) (pkg : Nat) : Option (Fin 48) :=
  (List.finRange 48).find? fun k =>
    let t := s.ports[k]
    t.up && t.peer == pkg && !t.inq.isEmpty && !t.stopped && decide (t.unacked.length < 512)

/-- R365, R366: an answer leaves in a data flit. -/
def State.reply (s : State) (k : Fin 48) (code : Nat) (bs : List Byte) (bad : Bool) : State :=
  let t := s.ports[k]
  let pl := Config.payload code bs bad
  let m : HostMsg := match code with | 0 => .peerData t.peer bs bad | 1 => .peerDone t.peer | _ => .peerGated t.peer
  ((s.setPort k { t with txSeq := t.txSeq + 1, unacked := t.unacked ++ [pl] }).answer m).send k [t.flit t.txSeq false 1 pl]

/-- R245, R368: an access of a peer that arrived in a flit is served where an import entry permits it and the local tables translate it;
otherwise it has the gated response. `bad` are the offsets of poisoned bytes that a write brings. -/
def peerServed (srcPkg : Nat) (srcPart : Fin 64) (addr : Nat) (bytes : Option (List Byte)) (bad : List Nat) (len : Nat) (s : State) : Out :=
  match s.peerPort srcPkg with
  | none => .next s
  | some k =>
    let s0 := s.setPort k { s.ports[k] with inq := (s.ports[k]).inq.drop 1 }
    let w := bytes.isSome
    let n := match bytes with | some bs => bs.length | none => len
    match s0.imports.find? fun i => i.pkg == srcPkg && i.srcPart == srcPart.val && (if w then i.w else i.r) with
    | none => .next (s0.reply k 2 [] false)
    | some i =>
      match s0.portRun i.part w (n / 2 ^ 16 + 2) addr n with
      | (s1, .error (.fault a)) => .next ((s1.notice i.part 6 a 0).reply k 2 [] false)
      | (_, .error (.noStorage a)) => .fault (.noStorage a)
      | (s1, .ok ps) =>
        let s2 := s1.moved i.part ps
        match bytes with
        | some bs => .next ((s2.commitAll (hWrites ps bs bad)).reply k 1 [] false)
        | none => let (bs, bad) := s2.mem.gather ps; .next (s2.reply k 0 bs (!bad.isEmpty))

/-- PEER_ACCESS (R245, R368): the access of a peer, with no poison in what it writes. -/
def execPeerAccess (srcPkg : Nat) (srcPart : Fin 64) (addr : Nat) (bytes : Option (List Byte)) (len : Nat) (s : State) : Out :=
  peerServed srcPkg srcPart addr bytes [] len s

end Sys2Proof.Machine
end

