-- ==== Sys2Proof/Machine/Trust.lean ====
section
/-! DEFINITION. The trust die: package reset and boot (R351 to R353, R402, R406, R407), fatal die errors (R404), SPDM (R356). -/

namespace Sys2Proof.Machine

open Sys2Proof

/- Reset. -/

/-- R406 to R408: the repairs of a die that is released: pending fields clear, what is left is counted, and the repair map takes the parts of SRAM
that were marked. -/
def Syndrome.repaired (y : Syndrome) (die : Nat) : Syndrome :=
  let r := y.repair
  let f (lo n : Nat) : Nat := r.toNat / 2 ^ lo % 2 ^ n
  let full := Config.sramFull die (r.extractLsb' 40 8) (r.extractLsb' 48 8)
  let swap := r.getLsbD 15 && !r.getLsbD 21
  let cfail := if swap then f 10 5 else f 16 5
  let new : Nat := full.toNat * 2 ^ 40 + (f 32 8 - f 24 8) * 2 ^ 32 + (if swap || r.getLsbD 21 then 2 ^ 21 else 0) + cfail * 2 ^ 16 + f 5 5 * 2 ^ 5
  { y with repair := BitVec.ofNat 64 new,
           ppr := y.ppr.map fun p => BitVec.ofNat 16 (p.toNat % 256 - p.toNat / 256), pprRows := [],
           mended := y.mended ++ (y.sramRows.filter fun r => decide (4 ≤ r.2)).map Prod.fst,
           sramRows := y.sramRows.filter fun r => decide (r.2 < 4) }

/-- What of memory outlasts a reset: that of the stacks, the silo, the host and peers, not yards and typed buffers. -/
def Mem.kept (m : Mem) : Mem :=
  { cells := m.cells.filter fun e => decide (e.1 < 2 ^ 72), poison := m.poison.filter fun e => decide (e.1 < 2 ^ 66),
    tags := m.tags.filter fun e => decide (e.1 < 2 ^ 72) }

/-- R352: the boot stopped at a stage: dies from there on stay in reset. -/
def State.stopped (s : State) (stage : Nat) : State :=
  { s with
    bootstat := BitVec.ofNat 64 (2 ^ 63 + stage % 16), parts := s.parts.set 0 Partition.init,
    measd := measureDies s.upkeep s.syn (stage - 1) }

/-- R402, R405: a die's registers as a reset leaves them: a power-on restores the repair fields and the repair map alone; the windows of DTIME
begin anew. -/
def Syndrome.afterReset (y : Syndrome) (die : Nat) (power : Bool) : Syndrome :=
  if power then { Syndrome.init die with repair := y.repair, ppr := y.ppr, pprRows := y.pprRows, mended := y.mended,
                                         sramRows := y.sramRows.filter fun r => decide (4 ≤ r.2) }
  else { y with corRows := [], coreErrs := [], retries := [] }

/-- R370, R376, R402: a sparing register as a reset leaves it: USED and SPARE stay, the other fields take their reset values, and the logical banks
the physical ones that are not fallow (DEDUCED, log: R402 keeps the registers, R376 resets these fields). -/
def spReset (r : W32) : W32 := spMake false (spUsed r) 0 (spSpare r) 0

/-- R351, R363, R402, R407: the package reset: `power` says that power was lost, `bad` names the stage whose signature does not verify. -/
def State.packageReset (s : State) (power : Bool) (bad : Option Nat) : State :=
  let n := (bad.getD 12) - 1
  let syn0 := Vector.ofFn fun i : Fin 11 => s.syn[i].afterReset i.val power
  let syn := Vector.ofFn fun i : Fin 11 => if i.val < n then (syn0[i]).repaired i.val else syn0[i]
  let up := Vector.ofFn fun i : Fin 16 => { Upkeep.init i.val with sparing := (s.upkeep[i]).sparing.map spReset }
  let mem : Mem := if power then { cells := [], poison := [], tags := [] } else s.mem.kept
  let b := State.booted mem s.keys syn up (s.clusters.map Cluster.dead) s.nextKey
  let b1 := match bad with | some k => b.stopped k | none => b
  { b1 with cur := s.cur, agenda := s.agenda, free := s.free, hostOut := s.hostOut }

/-- PACKAGE_RESET (R351 to R353, R363, R402, R406). A stage from 2 to 11 may fail. -/
def execPackageReset (power : Bool) (bad : Option Nat) (s : State) : Out :=
  .next (s.packageReset power (bad.filter fun k => decide (2 ≤ k) && decide (k ≤ 11)))

/-- R400, R403, R404: what a fatal error leaves in a die's registers: controller state or a die-to-die interface, with its place; a cause without
data writes the information of the last error alone (DEDUCED, log). -/
def Syndrome.fatalError (y : Syndrome) (cause : BitVec 7) (addr inst : Nat) : Syndrome :=
  let y1 := if cause.toNat ≤ 4 then y.uncorrectable addr (synInfo inst (if cause.toNat = 4 then 0x0E else 0x0F) 4)
            else { y with linfo := synInfo 0 0x10 4 }
  { y1 with fatal := true, fcause := cause }

/-- R404: a fatal error recorded on its die; ERR_FATAL is sent where the host port's die is released, and the package resets. `place` is the state
index and INST where the error names them; an open place stands for those that a report does not name (log). -/
def State.fatal (s : State) (d : Fin 11) (cause : BitVec 7) (place : Option (Nat × Nat)) (bad : Option Nat) : State :=
  let x := place.getD ((Config.freeWord s.free 0).toNat, (Config.freeWord s.free 1).toNat)
  let s1 := { s with free := s.free + 1 }.setSyn d (s.syn[d].fatalError cause x.1 x.2)
  (if s1.answers 0 then s1.answer .errFatal else s1).packageReset false (bad.filter fun k => decide (2 ≤ k) && decide (k ≤ 11))

/-- HEARTBEAT_TIMEOUT (R404): cause 0x05, of a die that has been released. -/
def execHeartbeatTimeout (d : Fin 11) (bad : Option Nat) (s : State) : Out := if s.dieUp d then .next (s.fatal d 5 none bad) else .next s

/-- FATAL_DIE_ERROR (R404). -/
def execFatalDieError (d : Fin 11) (cause : BitVec 7) (bad : Option Nat) (s : State) : Out :=
  if cause = 0 || 6 < cause.toNat || !s.dieUp d then .next s else .next (s.fatal d cause none bad)

/- SPDM (R356). The codes and orders are those of DSP0274. -/


/-- An SPDM answer of a function that has reached `need` of its connection; `next` is where it then stands. -/
def State.spdm (s : State) (fn : Fin 64) (need next : Nat) (code : Nat) (bs : List Byte) : State :=
  let f := s.funcs[fn]
  if !s.answers fn then s
  else if f.spdm < need then s.answer (.doe fn.val 0x7F [4])
  else { s with funcs := s.funcs.set fn { f with spdm := next } }.answer (.doe fn.val code bs)

/-- GET_VERSION (R356): version 1.3 alone. -/
def execGetVersion (fn : Fin 64) (s : State) : Out := .next (s.spdm fn 0 1 0x04 (leBytes 2 0x1300))

/-- GET_CAPABILITIES (R356): CERT_CAP, CHAL_CAP, MEAS_CAP with signature. -/
def execGetCapabilities (fn : Fin 64) (s : State) : Out := .next (s.spdm fn 1 2 0x61 (leBytes 4 0x16))

/-- NEGOTIATE_ALGORITHMS (R356): ECDSA P-256, SHA-256, SHA-256 for measurements. -/
def execNegotiateAlgorithms (fn : Fin 64) (s : State) : Out := .next (s.spdm fn 2 3 0x63 (leBytes 4 2 ++ leBytes 4 0x10 ++ leBytes 4 1))

/-- GET_DIGESTS (R356): slot 0. -/
def execGetDigests (fn : Fin 64) (s : State) : Out := .next (s.spdm fn 3 3 0x01 (leBytes 1 1 ++ digestBytes (sha256 Config.certChain)))

/-- GET_CERTIFICATE (R356): a portion of the chain of slot 0; another slot has the error InvalidRequest. -/
def execGetCertificate (fn : Fin 64) (slot off len : Nat) (s : State) : Out :=
  let bs := (Config.certChain.drop off).take len
  if slot = 0 then .next (s.spdm fn 3 3 0x02 (leBytes 2 bs.length ++ leBytes 2 (Config.certChain.length - off - bs.length) ++ bs))
  else .next (s.spdm fn 3 3 0x7F [1])

/-- A signature's bytes: r then s, each the most significant first (DESIGN CHOICE, log: R356 names the algorithm only). -/
def signBytes (d : BitVec 256) : List Byte := beBytes 32 (Config.sign d).1 ++ beBytes 32 (Config.sign d).2

/-- CHALLENGE (R356): the chain's digest, and a signature of the device key over it and the nonce. -/
def execChallenge (fn : Fin 64) (nonce : BitVec 256) (s : State) : Out :=
  let c := digestBytes (sha256 Config.certChain)
  .next (s.spdm fn 3 3 0x03 (c ++ signBytes (sha256 (c ++ digestBytes nonce))))

/-- R356: the measurement of an index in a function. -/
def State.measurement (s : State) (fn : Fin 64) (i : Nat) : Option (BitVec 256) :=
  let p := s.parts[fn]
  if fn.val = 0 then
    if 1 ≤ i && i ≤ 4 then s.measd[i - 1]? else if 17 ≤ i && i ≤ 32 && p.exists_ then p.meas[i - 17]? else none
  else if 1 ≤ i && i ≤ 16 && p.exists_ then p.meas[i - 1]? else none

/-- The indices that a function reports. -/
def State.measIndices (s : State) (fn : Fin 64) : List Nat := (List.range 33).filter fun i => (s.measurement fn i).isSome

/-- GET_MEASUREMENTS (R356): index 0 asks for their number, 0xFF for all, another for one; one that is absent has the error
InvalidRequest. The answer is signed with the nonce. -/
def execGetMeasurements (fn : Fin 64) (index : Nat) (nonce : BitVec 256) (s : State) : Out :=
  let all := s.measIndices fn
  let body (is : List Nat) : List Byte := is.flatMap fun i => leBytes 1 i ++ digestBytes ((s.measurement fn i).getD 0)
  let answer (bs : List Byte) : Out := .next (s.spdm fn 3 3 0x60 (bs ++ signBytes (sha256 (bs ++ digestBytes nonce))))
  if index = 0 then answer (leBytes 1 all.length)
  else if index = 0xFF then answer (body all)
  else if all.contains index then answer (body [index])
  else .next (s.spdm fn 3 3 0x7F [1])

/-- SPDM_UNSUPPORTED_REQUEST (R356): ERROR UnsupportedRequest. -/
def execSpdmUnsupportedRequest (fn : Fin 64) (code : BitVec 8) (s : State) : Out :=
  if s.answers fn then .next (s.answer (.doe fn.val 0x7F [7, code])) else .next s

end Sys2Proof.Machine
end

