-- ==== Sys2Proof/Machine/Power.lean ====
section
/-! DEFINITION. The power arbiter (R303 to R320): the clearing of the market, curtailment, curve events, gating, migration of hot
work. -/

namespace Sys2Proof.Machine

open Sys2Proof

/- The market (R304 to R306, R320). -/

/-- A cluster in the market: demand, floor and bid in watts, whether it is elastic, its grant; `full` is its demand before R320 lowers
it. -/
structure Bidder where
  q : Nat
  elastic : Bool
  d : Nat
  full : Nat
  f : Nat
  b : Nat
  g : Nat
deriving DecidableEq, Repr, Inhabited

/-- R304, R320: what a held cluster brings to the market. -/
def State.bidder (s : State) (q : Nat) : Option Bidder :=
  match s.cluster? q with
  | none => none
  | some x =>
    match x.holder.bind fun h => s.launch? h.1 with
    | none => none
    | some l =>
      let sts := s.strandsOn q
      let f := x.floorAt l.cur
      let full := if sts.isEmpty then f else x.demandAt l.cur
      let d := if x.fixed then full else max f (full - full * x.lower / 10)
      let prio := sts.foldl (fun m st => max m st.prio.toNat) 0
      some { q := q, elastic := !x.fixed, d := d, full := full, f := f, b := if sts.isEmpty then f else d * (1 + prio), g := f }

/-- R305: one pass over the clusters that want more. -/
def grantPass (spare : Nat) (bs : List Bidder) : List Bidder :=
  let wants (x : Bidder) : Bool := x.elastic && decide (x.g < x.d)
  let sum := (bs.filter wants).foldl (fun n x => n + x.b) 0
  let add (x : Bidder) : Nat := if wants x then min (spare * x.b / max 1 sum) (x.d - x.g) else 0
  if bs.any fun x => add x != 0 then bs.map fun x => { x with g := x.g + add x }
  else (bs.foldl (fun (acc : Nat × List Bidder) x =>
    if wants x && decide (0 < acc.1) then (acc.1 - 1, acc.2 ++ [{ x with g := x.g + 1 }]) else (acc.1, acc.2 ++ [x])) (spare, [])).2

/-- R305: passes while power is spare and wanted; `fuel` bounds them. -/
def grantLoop (pool : Nat) : Nat → List Bidder → List Bidder
  | 0, bs => bs
  | fuel + 1, bs =>
    let sum := bs.foldl (fun n x => n + x.g) 0
    if pool ≤ sum || !(bs.any fun x => x.elastic && decide (x.g < x.d)) then bs else grantLoop pool fuel (grantPass (pool - sum) bs)

/-- R306: the frequency for a grant: the point's at the demand, 800 MHz at the floor, and between them it never falls as the grant
rises. -/
def freqFor (x : Bidder) (volt freq busy total : Nat) : Nat :=
  if x.full ≤ x.g then freq
  else (List.range (x.g - x.f + 1)).foldl (fun m i => max m (if i = 0 then 800 else min freq (Config.grantFreq (x.f + i) volt freq busy total))) 800

/-- R305, R306: what a cleared bid brings its cluster. -/
def State.grantOf (s : State) (b : Bidder) : Option Grant :=
  (s.cluster? b.q).bind fun x => x.holder.bind fun h => (s.launch? h.1).map fun l =>
    { q := b.q, holder := h, watts := b.g, mhz := if x.fixed then none else some (freqFor b l.cur.volt l.cur.freq x.busy x.total) }

/-- R305, R306, R312: the grants of the last clearing take effect, on clusters that the same slots hold; no clock exceeds the FREQ of the
launch's point as it now is. -/
def State.grant (s : State) : State :=
  s.power.grants.foldl (fun s g =>
    match s.cluster? g.q, s.launch? g.holder.1 with
    | some x, some l =>
      if x.holder != some g.holder then s
      else
        match g.mhz with
        | some f => if x.fixed then s else s.setCluster g.q { x with grant := g.watts, mhz := min f l.cur.freq }
        | none => if x.fixed then s.setCluster g.q { x with grant := g.watts } else s
    | _, _ => s) s

/-- R320: the demand of a cluster may be lowered further: it has not come down to the floor. -/
def Bidder.above (b : Bidder) (lower : Nat) : Bool := decide (b.f < b.full - b.full * lower / 10)

/-- R320: temperatures sampled, and the lowering of demands. -/
def State.sample (s : State) (temps : List Nat) : State :=
  { s with clusters := Vector.ofFn fun q : Fin 48 =>
      let x := s.clusters[q]
      let t := temps.getD q.val x.temp
      let more := (s.bidder q.val).any fun b => b.above x.lower
      { x with temp := t, lower := if s.power.hot < t then x.lower + more.toNat else if t + 3 ≤ s.power.hot then x.lower - 1 else x.lower } }

/- Accounts (R319). -/

/-- R318, R319: the energy of a round charged: clusters to their holders' partitions, chaff on a cluster that none holds to the partition
whose work left it, OUTSIDE by traffic, the rest to the device. -/
def State.charge (s : State) (outside : Nat) : State :=
  let owner (q : Nat) : Option (Fin 64) := ((s.cluster? q).bind Cluster.holder).bind fun h => (s.launch? h.1).map Launch.part
  let own (p : Fin 64) : Nat := (List.range 48).foldl (fun n q =>
    if owner q = some p then n + Config.clusterEnergy q s.power.round
    else if owner q = none && ((s.cluster? q).bind Cluster.left) = some p then n + Config.chaffEnergy q s.power.round
    else n) 0
  let out := outside * 10 * 2 ^ 20 / 1000000
  let total := s.parts.foldl (fun n p => n + p.traffic) 0
  let share (p : Fin 64) : Nat := if total = 0 then 0 else out * (s.parts[p]).traffic / total
  let given := (List.finRange 64).foldl (fun n p => n + share p) 0
  { s with
    parts := Vector.ofFn fun p : Fin 64 => { s.parts[p] with energy := (s.parts[p]).energy + own p + share p, traffic := 0 },
    power := { s.power with account := s.power.account + (out - given) } }

/- Curtailment (R311). -/

/-- R311: slows, from the launch that ranks last, while the need exceeds the pool. -/
def State.slowDown (s : State) (pool : Nat) : Nat → State
  | 0 => s
  | fuel + 1 =>
    if s.needOf false ≤ pool then s
    else
      match s.lastOf (s.runningLaunches.filter fun l => !l.cur.fixed && l.lower.isSome) with
      | none => s
      | some l => (s.setPoint l.id (l.lower.getD l.point)).slowDown pool fuel

/-- R311, R362: launches parked, or shed, from the lowest energy class and the last rank, while the floors exceed the pool; an E3 launch
that cannot be parked keeps running, and the shortfall is logged. -/
def State.parkDown (s : State) (pool : Nat) : Nat → List Nat → State
  | 0, _ => s
  | fuel + 1, keep =>
    if s.needOf true ≤ pool then s
    else
      let run := s.runningLaunches.filter fun l => !keep.contains l.id
      let cls := run.foldl (fun m l => min m l.eclass.toNat) 3
      match s.lastOf (run.filter fun l => l.eclass.toNat == cls) with
      | none => if keep.isEmpty then s else s.notice 0 4 (s.needOf true - pool) 0
      | some l =>
        if s.canPark l then (s.park l).parkDown pool fuel keep
        else if l.eclass.toNat < 3 then (s.shed l.id 2).parkDown pool fuel keep
        else s.parkDown pool fuel (l.id :: keep)

/-- R311: is a park event in force that covers a launch. -/
def State.parkCovers (s : State) (l : Launch) : Bool := (s.eventsOn 2).any fun e => decide (l.eclass.toNat ≤ e.cls)

/-- R311: 1.25 × a floor is at most a headroom. -/
def headOk (fl : Nat) (h : Int) : Bool := decide (5 * (fl : Int) ≤ 4 * h)

/-- R311: may a parked launch resume. -/
def State.mayResume (s : State) (pool : Nat) (l : Launch) : Bool :=
  let fl := s.launchDraw true l (l.ops.getD l.lowest default)
  l.parkDone && !l.resuming && !s.parkCovers l && s.power.headf.length == 100 && s.power.headf.all (headOk fl) &&
    headOk fl ((pool : Int) - (s.needOf true : Int))

/-- R311: parked launches resume, from the highest energy class and the first rank. -/
def State.resumeUp (s : State) (pool : Nat) : State :=
  let ls := (s.liveLaunches.filter fun l => l.parked && !l.resuming).insertionSort fun a b =>
    decide (b.eclass < a.eclass) || (a.eclass == b.eclass && !keyLt (s.launchRank b) (s.launchRank a))
  ls.foldl (fun s l =>
    match s.launch? l.id with
    | none => s
    | some l => if s.mayResume pool l then
        let s1 := s.setPoint l.id l.lowest
        match s1.launch? l.id with | some m => s1.resume m | none => s1
      else s) s

/-- R311: one raise a round. -/
def State.raise (s : State) (pool : Nat) : State :=
  if (s.liveLaunches.any fun l => l.parked && !l.resuming) || !(s.eventsOn 1).isEmpty then s
  else
    match s.firstOf (s.runningLaunches.filter fun l => l.higher.isSome) with
    | none => s
    | some l =>
      let j := l.higher.getD l.point
      let up : Int := s.launchDraw false l (l.ops.getD j default) - s.launchDraw false l l.cur
      if s.power.head.length == 100 && s.power.head.all (fun h => decide (up ≤ h)) && decide ((s.needOf false : Int) + up ≤ pool) then s.setPoint l.id j
      else s

/-- R311: curtailment after a clearing, and the headrooms of the round. -/
def State.curtail (s : State) (pool : Nat) : State :=
  let n := s.launches.length
  let s1 := (s.slowDown pool (8 * n + 1)).parkDown pool (2 * n + 1) []
  let s2 := (s1.resumeUp pool).raise pool
  let w := s2.power
  { s2 with power := { w with
      head := (w.head ++ [(pool : Int) - (s2.needOf false : Int)]).drop (w.head.length - 99),
      headf := (w.headf ++ [(pool : Int) - (s2.needOf true : Int)]).drop (w.headf.length - 99) } }

/-- MARKET_CLEAR (R303 to R306, R311 to R314, R319, R320): once in every 10 µs of DTIME: the grants of the clearing before take effect, and
those of this one are worked out. `pmeas`, `outside` and `temps` are what was
measured over the round just ended. -/
def execMarketClear (pmeas outside : Nat) (temps : List Nat) (s : State) : Out :=
  if dtime s.tick / 10000 ≤ s.power.round then .next s
  else
    let s1 := (s.grant.charge outside).sample temps
    let pool := s1.target - outside
    let bs := grantLoop pool (pool + 1) ((List.range 48).filterMap s1.bidder)
    let s2 := s1.curtail pool
    .next { s2 with
      clusters := s2.clusters.map fun x => { x with busy := 0, total := 0 },
      power := { s2.power with pmeas := pmeas, pool := pool, round := s2.power.round + 1, grants := bs.filterMap s1.grantOf } }

/- Curve events (R315). -/

/-- R315: an event of the curve in force that has come and not acted: it acts once. -/
def curveEvent (grade seq ev : Nat) (act : CurveEvent → State → State) (s : State) : Out :=
  match s.curveNow with
  | none => .next s
  | some c =>
    match c.events[ev]? with
    | none => .next s
    | some e =>
      if c.seq != seq || e.grade != grade || e.acted || dtime s.tick < c.start + e.off * 1000000 then .next s
      else
        let done : Curve := { c with events := c.events.set ev { e with acted := true } }
        .next (act e { s with power := { s.power with curves := s.power.curves.map fun o => if o.seq = seq then done else o } })

/-- CURVE_SLOW_EVENT (R315): every elastic launch moves to its point of lowest demand. -/
def execCurveSlowEvent (seq ev : Nat) (s : State) : Out :=
  curveEvent 1 seq ev (fun _ s => (s.runningLaunches.filter fun l => !l.cur.fixed).foldl (fun s l => s.setPoint l.id l.lowest) s) s

/-- CURVE_PARK_EVENT (R315, R311): every running launch of the class or lower is parked; one whose images the park area cannot hold is
shed, unless it is E3. -/
def execCurveParkEvent (seq ev : Nat) (s : State) : Out :=
  curveEvent 2 seq ev (fun e s => ((s.runningLaunches.filter fun l => decide (l.eclass.toNat ≤ e.cls)).map Launch.id).foldl (fun s id =>
    match s.launch? id with
    | none => s
    | some l => if s.canPark l then s.park l else if l.eclass.toNat < 3 then s.shed id 2 else s) s) s

/-- CURVE_SHED_EVENT (R267, R314, R315): every launch of the class or lower is shed. -/
def execCurveShedEvent (seq ev : Nat) (s : State) : Out :=
  curveEvent 3 seq ev (fun e s => (s.liveLaunches.filter fun l => decide (l.eclass.toNat ≤ e.cls) && decide (l.eclass.toNat < 3)).foldl
    (fun s l => s.shed l.id 2) s) s

/- Gating (R317, R318). -/

/-- R317: may a cluster be gated: nothing stands on it or is being placed on it, and its image has somewhere to go. -/
def State.mayGate (s : State) (q : Fin 48) : Bool :=
  let x := s.clusters[q]
  !x.gated && s.clusterFree q.val && (match x.holder.bind fun h => s.launch? h.1 with
    | some l => if l.parked then false else s.canVacate 65536 q.val
    | none => true)

/-- CLUSTER_GATE (R223, R317): the remote port closes, the image of the slot on the cluster leaves, the power is removed. The cluster of a
parked launch is gated once its image has left for the silo. -/
def execClusterGate (q : Fin 48) (s : State) : Out :=
  if !s.mayGate q then .next s
  else
    let s1 := s.unplace q.val
    let x := s1.clusters[q]
    .next { s1 with clusters := s1.clusters.set q { x with holder := none, yard := none, gated := true, left := (s.heldPart x.holder).or x.left } }

/-- CLUSTER_POWER_UP (R317): a gated cluster that has been acquired is powered, its die being powered, and accepts accesses. -/
def execClusterPowerUp (q : Fin 48) (s : State) : Out :=
  let x := s.clusters[q]
  let d : Fin 8 := ⟨q.val / 6, by omega⟩
  if !x.gated || x.holder.isNone || !s.diePower[d] then .next s else .next { s with clusters := s.clusters.set q { x with gated := false } }

/-- The clusters of a die. -/
def dieClusters (d : Fin 8) : List (Fin 48) := (List.finRange 48).filter fun q => q.val / 6 == d.val

/-- DIE_GATE (R318): all six clusters of the die are gated, and no die has been gated for 250 µs. -/
def execDieGate (d : Fin 8) (s : State) : Out :=
  if !s.diePower[d] || !((dieClusters d).all fun q => (s.clusters[q]).gated && (s.clusters[q]).holder.isNone) || dtime s.tick < s.power.nextGate then
    .next s
  else .next { s with diePower := s.diePower.set d false, power := { s.power with nextGate := dtime s.tick + 250000 } }

/-- DIE_POWER_UP (R318): one of the die's clusters has been acquired. -/
def execDiePowerUp (d : Fin 8) (s : State) : Out :=
  if s.diePower[d] || !((dieClusters d).any fun q => (s.clusters[q]).holder.isSome) then .next s else .next { s with diePower := s.diePower.set d true }

/- Hot work (R320). -/

/-- R320: the cooler free cluster to which a hot one's work may move. -/
def State.coolest (s : State) (id q : Nat) : Option Nat :=
  let t := ((s.cluster? q).elim 0 Cluster.temp)
  (((s.freeClusters id).filter fun k => match s.cluster? k with
    | some x => decide (x.temp + 5 ≤ t) && decide (x.temp < s.power.hot)
    | none => false).foldl (fun b k => match b with
    | none => some k
    | some o => if (s.cluster? k).elim 0 Cluster.temp < (s.cluster? o).elim 0 Cluster.temp then some k else b) none)

/-- R320: the first hot cluster whose work may migrate, its launch and slot, and where to. -/
def State.hotWork (s : State) : Option (Nat × Nat × Nat × Nat) :=
  (List.range 48).findSome? fun q =>
    match s.cluster? q with
    | none => none
    | some x =>
      match x.holder with
      | none => none
      | some (id, k) =>
        if x.temp ≤ s.power.hot || (s.strandsOn q).isEmpty || s.leaving q || dtime s.tick < x.placed + 5000000 || !s.canEvict q then none
        else (s.coolest id q).map fun t => (q, id, k, t)

/-- The slots whose work is to move and has left its cluster. -/
def State.movedOff (s : State) : Option (Launch × Nat × Nat × Nat) :=
  s.launches.findSome? fun l => l.slots.zipIdx.findSome? fun sl =>
    match sl.1.goal, sl.1.cluster with
    | some t, some q => if s.clusterFree q then some (l, sl.2, q, t) else none
    | _, _ => none

/-- R320: a slot whose work has left takes the cluster chosen for it, where that is still free and the point still allows the slot (R269). -/
def State.moveSlot (s : State) (l : Launch) (k q t : Nat) : State :=
  let s1 := s.setLaunch { l with slots := l.slots.modify k fun x => { x with goal := none } }
  if (s.freeClusters l.id).contains t && decide (k ≤ l.cur.tm1) then
    match s1.cluster? q, s1.launch? l.id with
    | some x, some l1 =>
      let s2 := s1.setCluster q { x with holder := none, yard := none, left := some l.part }
      (s2.setLaunch { l1 with slots := l1.slots.modify k fun y => { y with cluster := none } }).acquire l.id k t x.fixed x.volt
    | _, _ => s1
  else s1

/-- HOT_MIGRATION (R320): once in every millisecond the work of one hot cluster is pre-empted, to move to the coolest free cluster; once it
has left, its slot is placed there. -/
def execHotMigration (s : State) : Out :=
  match s.movedOff with
  | some (l, k, q, t) => .next (s.moveSlot l k q t)
  | none =>
    if dtime s.tick / 1000000 ≤ s.power.moved then .next s
    else
      let s1 := { s with power := { s.power with moved := dtime s.tick / 1000000 } }
      match s1.hotWork with
      | none => .next s1
      | some (q, id, k, t) =>
        match s1.launch? id with
        | none => .next s1
        | some l =>
          let s2 := s1.setLaunch { l with slots := l.slots.modify k fun x => { x with goal := some t } }
          .next (s2.evict q)

end Sys2Proof.Machine
end

