-- ==== Sys2Proof/Machine/Scrub.lean ====
section
/-! DEFINITION. Errors found in SRAM, registers, engines, links and the silo (R390 to R395, R400, R401, R403 to R405, R408): what they poison, fault
or restart, what they count, which parts they wear. -/

namespace Sys2Proof.Machine

open Sys2Proof

/-- R408: the lines of a silo device's row, as the row of 4 KiB that the interleave gives it (DESIGN CHOICE, log: no row size is given). -/
def siloRow (line : Nat) : List Nat := (List.range 64).map fun i => siloAddr (64 * (line / 64 * 64 + i)) / 64

/-- R401, R408: a silo row is marked for repair, once; PPRPEND saturates. -/
def Syndrome.pprMark (y : Syndrome) (i : Fin 8) (row : Nat) : Syndrome :=
  if y.pprRows.contains row then y
  else
    let p := y.ppr[i]
    let pend : W16 := if p >>> 8 = 0xFF#16 then 0xFF else p >>> 8 + 1
    { y with pprRows := row :: y.pprRows, ppr := y.ppr.set i ((pend <<< 8) ||| (p &&& 0xFF)) }

/-- SILO_SCRUB (R395, R391, R392, R408): a line of the silo is read through; an error in it that cannot be corrected poisons its row until the row is
repaired. -/
def execSiloScrub (line : Nat) (err : Option Bool) (s : State) : Out :=
  let l := siloAddr (64 * line) / 64
  match err with
  | none => .next s
  | some bad =>
    let dev := 64 * line / 4096 % 16
    let d := siloDie dev
    if 2 ^ 35 ≤ line || s.mem.bad l || !s.dieUp d then .next s
    else
      let s1 := s.countError d bad (64 * line) dev 2 1
      if bad then .next ((s1.setSyn d ((s1.syn[d]).pprMark ⟨dev % 8, Nat.mod_lt _ (by omega)⟩ (line / 64))).commit (MWrite.mark (siloRow line)))
      else .next { s1 with wback := s1.wback ++ [l] }

/-- R390, R393: what an uncorrectable error in a core's or an engine's store does, by the unit codes of R400. For an engine an index from
1,024 on names data, a lower one control state: a record restarts from its progress, which it keeps (R327), a packet from its beginning. -/
def State.sramPoison (s : State) (unit : BitVec 4) (c : Fin 192) (i : Nat) : State :=
  let onSt (f : Strand → Strand) : State := match s.ctxOn c with | some st => s.putStrand (f st) | none => s
  match unit.toNat with
  | 3 => s.commit (MWrite.mark (s.sramLine unit c i).toList)
  | 4 => s.commit (MWrite.mark (s.sramLine unit c i).toList)
  | 5 => s.onTb c fun tb => tb.markRows [i / 256 % 1024]
  | 6 => s.commit (MWrite.mark (s.sramLine unit c i).toList)
  | 7 =>
    { s with halted := s.halted.map fun h =>
        if h.place == .granary (clusterOf c).val (i / 2048 % 8) then { h with badLines := (i % 2048) :: h.badLines } else h }
  | 8 => onSt fun st => { st with xbad := (st.xbad ||| (1#32 <<< (i % 32))) &&& ~~~1#32 }
  | 9 => onSt fun st =>
      let r := i / 16 % 16
      if i < 256 then { st with vbad := poisonRow st.vbad r i } else { st with pbad := poisonRow st.pbad r i }
  | 10 => s.onTb c fun tb =>
      let m := 1#256 <<< (i % 256)
      match i / 256 % 4 with
      | 0 => { tb with wp0 := { tb.wp0 with colBad := tb.wp0.colBad ||| m } }
      | 1 => { tb with wp1 := { tb.wp1 with colBad := tb.wp1.colBad ||| m } }
      | 2 => { tb with sp0 := { tb.sp0 with colBad := tb.sp0.colBad ||| m } }
      | _ => { tb with sp1 := { tb.sp1 with colBad := tb.sp1.colBad ||| m } }
  | 11 => s.stateFault c (slotOfNat i)
  | 12 => if 1024 ≤ i then s.hurtChan i else s
  | 13 => if 1024 ≤ i then s.hurtQuarry i else s.restartPacket ⟨i % 16, Nat.mod_lt _ (by omega)⟩ (i / 16)
  | _ => s

/-- R400: the KIND of an error of a unit; that of the data of an engine is a poisoned line. -/
def unitKind (unit i : Nat) : Nat := if unit = 11 then 2 else if (unit = 12 || unit = 13) && i < 1024 then 3 else if unit = 14 || unit = 15 then 4 else 1

/-- R403: the die on which an error of a unit counts. A link or controller of the compute dies is named by a core of its die; from 65,536 on an index
names one of any die (DESIGN CHOICE, log: no numbers are given). -/
def scrubDie (u : Nat) (c : Fin 192) (i : Nat) : Fin 11 :=
  if u = 12 then (if i / 8 % 24 < 12 then 1 else 2)
  else if u = 13 then stackDie ⟨i % 16, Nat.mod_lt _ (by omega)⟩
  else if (u = 14 || u = 15) && 65536 ≤ i then ⟨(i / 65536 - 1) % 11, Nat.mod_lt _ (by omega)⟩
  else coreDie c

/-- R400: INST of an error: the core, the haul engine, the quarry engine among those of all stacks, the interface or controller. -/
def scrubInst (u : Nat) (c : Fin 192) (i : Nat) : Nat :=
  if u < 12 then c.val else if u = 12 then i / 8 % 24 else if u = 13 then i % 16 * 16 + i / 16 % 16 else i % 65536

/-- R404: the cause of an uncorrectable error of a link, or of a controller of a die. -/
def scrubCause (u : Nat) (d : Fin 11) : BitVec 7 := if u = 14 then 4 else if d = 0 then 2 else if d.val < 3 then 1 else 3

/-- R405: what the thresholds of parts make of an error in a unit of a die. -/
def State.wear (s : State) (u : Nat) (d : Fin 11) (c : Fin 192) (i : Nat) (bad : Bool) : State :=
  if u = 11 || u = 14 then s
  else
    let row := (u * 65536 + scrubInst u c i) * 2 ^ 20 + i % 2 ^ 20
    let s1 := { s with free := s.free + 1 }.setSyn d (s.syn[d].sramError row (Config.sramColumn row s.free) bad)
    if bad || decide (9 < u) || u = 6 || u = 7 then s1
    else
      let (y1, worn) := (s1.syn[d]).coreError c.val (dtime s1.tick)
      if worn then (s1.setSyn d y1).markCore c else s1.setSyn d y1

/-- R403 to R405: a beat of a link retried: it counts, and where it marks a TSV for which the die has no spare left the error is fatal. -/
def State.retried (s : State) (d : Fin 11) (i : Nat) : State :=
  let (y, spent) := (s.syn[d]).beatRetry i (dtime s.tick)
  if spent then (s.setSyn d y).fatal d 4 (some (i, i)) none else s.setSyn d y

/-- SRAM_SCRUB (R390 to R393, R395, R401, R403 to R405): a buffer line, yard line, register, plane column, or the data or state of an engine, a
link or a controller is read through; an error in control state is found by its parity. A retried beat of a link counts as a correctable
error (DEDUCED, log); an error of the units 14 and 15 that cannot be corrected is fatal. -/
def execSramScrub (unit : BitVec 4) (c : Fin 192) (i : Nat) (err : Option Bool) (s : State) : Out :=
  match err with
  | none => .next s
  | some bad =>
    let u := unit.toNat
    let d := scrubDie u c i
    let inst := scrubInst u c i
    if u < 3 || s.sramWasBad unit c i || !s.dieUp d then .next s
    else if 13 < u && bad then .next (s.fatal d (scrubCause u d) (some (inst, inst)) none)
    else
      let s1 := (s.countError d bad i inst u (unitKind u i)).wear u d c i bad
      if u = 14 then .next (s1.retried d inst)
      else if !bad then .next s1
      else
        let s2 := s1.sramPoison unit c i
        .next (if u = 11 then s2.markCore c else s2)

end Sys2Proof.Machine
end

