-- ==== Sys2Proof/Machine/Dispatch.lean ====
section
/-! DEFINITION. Dispatch: one arm per constructor of Instr. -/

namespace Sys2Proof.Machine

def exec (i : Instr) (s : State) : Host.Outcome State Fault Refusal :=
  match i with
  | .add r d a b => Sys2Proof.Machine.execAdd r d a b s
  | .sub r d a b => Sys2Proof.Machine.execSub r d a b s
  | .mul r d a b => Sys2Proof.Machine.execMul r d a b s
  | .mulh r d a b => Sys2Proof.Machine.execMulh r d a b s
  | .mulhu r d a b => Sys2Proof.Machine.execMulhu r d a b s
  | .div r d a b => Sys2Proof.Machine.execDiv r d a b s
  | .divu r d a b => Sys2Proof.Machine.execDivu r d a b s
  | .rem r d a b => Sys2Proof.Machine.execRem r d a b s
  | .remu r d a b => Sys2Proof.Machine.execRemu r d a b s
  | .and_ r d a b => Sys2Proof.Machine.execAnd r d a b s
  | .or_ r d a b => Sys2Proof.Machine.execOr r d a b s
  | .xor_ r d a b => Sys2Proof.Machine.execXor r d a b s
  | .andn r d a b => Sys2Proof.Machine.execAndn r d a b s
  | .shl r d a b => Sys2Proof.Machine.execShl r d a b s
  | .shr r d a b => Sys2Proof.Machine.execShr r d a b s
  | .shra r d a b => Sys2Proof.Machine.execShra r d a b s
  | .ror r d a b => Sys2Proof.Machine.execRor r d a b s
  | .min_ r d a b => Sys2Proof.Machine.execMin r d a b s
  | .max_ r d a b => Sys2Proof.Machine.execMax r d a b s
  | .minu r d a b => Sys2Proof.Machine.execMinu r d a b s
  | .maxu r d a b => Sys2Proof.Machine.execMaxu r d a b s
  | .slt r d a b => Sys2Proof.Machine.execSlt r d a b s
  | .sltu r d a b => Sys2Proof.Machine.execSltu r d a b s
  | .seq r d a b => Sys2Proof.Machine.execSeq r d a b s
  | .sne r d a b => Sys2Proof.Machine.execSne r d a b s
  | .clz r d a => Sys2Proof.Machine.execClz r d a s
  | .ctz r d a => Sys2Proof.Machine.execCtz r d a s
  | .popc r d a => Sys2Proof.Machine.execPopc r d a s
  | .sext r d a w => Sys2Proof.Machine.execSext r d a w s
  | .zext r d a w => Sys2Proof.Machine.execZext r d a w s
  | .cmov r d a b => Sys2Proof.Machine.execCmov r d a b s
  | .addi r d a n => Sys2Proof.Machine.execAddi r d a n s
  | .andi r d a n => Sys2Proof.Machine.execAndi r d a n s
  | .ori r d a n => Sys2Proof.Machine.execOri r d a n s
  | .xori r d a n => Sys2Proof.Machine.execXori r d a n s
  | .shli r d a n => Sys2Proof.Machine.execShli r d a n s
  | .shri r d a n => Sys2Proof.Machine.execShri r d a n s
  | .shrai r d a n => Sys2Proof.Machine.execShrai r d a n s
  | .slti r d a n => Sys2Proof.Machine.execSlti r d a n s
  | .sltiu r d a n => Sys2Proof.Machine.execSltiu r d a n s
  | .movh r d h z n => Sys2Proof.Machine.execMovh r d h z n s
  | .muli r d a n => Sys2Proof.Machine.execMuli r d a n s
  | .beq r a b o => Sys2Proof.Machine.execBeq r a b o s
  | .bne r a b o => Sys2Proof.Machine.execBne r a b o s
  | .blt r a b o => Sys2Proof.Machine.execBlt r a b o s
  | .bge r a b o => Sys2Proof.Machine.execBge r a b o s
  | .bltu r a b o => Sys2Proof.Machine.execBltu r a b o s
  | .bgeu r a b o => Sys2Proof.Machine.execBgeu r a b o s
  | .bpany r n o => Sys2Proof.Machine.execBpany r n o s
  | .bpall r n o => Sys2Proof.Machine.execBpall r n o s
  | .jmp r o => Sys2Proof.Machine.execJmp r o s
  | .call r o => Sys2Proof.Machine.execCall r o s
  | .jr r d a n => Sys2Proof.Machine.execJr r d a n s
  | .loop r a o => Sys2Proof.Machine.execLoop r a o s
  | .lbuf r a l => Sys2Proof.Machine.execLbuf r a l s
  | .ld r d a y p o => Sys2Proof.Machine.execLd r d a y p o s
  | .ldu r d a y p o => Sys2Proof.Machine.execLdu r d a y p o s
  | .st r y a z p o => Sys2Proof.Machine.execSt r y a z p o s
  | .ldk r d a y o => Sys2Proof.Machine.execLdk r d a y o s
  | .amoadd r d a b q l c z p => Sys2Proof.Machine.execAmoadd r d a b q l c z p s
  | .amoand r d a b q l c z p => Sys2Proof.Machine.execAmoand r d a b q l c z p s
  | .amoor r d a b q l c z p => Sys2Proof.Machine.execAmoor r d a b q l c z p s
  | .amoxor r d a b q l c z p => Sys2Proof.Machine.execAmoxor r d a b q l c z p s
  | .amomin r d a b q l c z p => Sys2Proof.Machine.execAmomin r d a b q l c z p s
  | .amomax r d a b q l c z p => Sys2Proof.Machine.execAmomax r d a b q l c z p s
  | .amominu r d a b q l c z p => Sys2Proof.Machine.execAmominu r d a b q l c z p s
  | .amomaxu r d a b q l c z p => Sys2Proof.Machine.execAmomaxu r d a b q l c z p s
  | .amoswap r d a b q l c z p => Sys2Proof.Machine.execAmoswap r d a b q l c z p s
  | .cas r d a b q l c z p => Sys2Proof.Machine.execCas r d a b q l c z p s
  | .fence r c => Sys2Proof.Machine.execFence r c s
  | .fencex r b a c => Sys2Proof.Machine.execFencex r b a c s
  | .fencek r => Sys2Proof.Machine.execFencek r s
  | .watch r a => Sys2Proof.Machine.execWatch r a s
  | .waita r d a => Sys2Proof.Machine.execWaita r d a s
  | .sig r f => Sys2Proof.Machine.execSig r f s
  | .waitf r f n => Sys2Proof.Machine.execWaitf r f n s
  | .send r a b q => Sys2Proof.Machine.execSend r a b q s
  | .recv r d => Sys2Proof.Machine.execRecv r d s
  | .csrr r d c => Sys2Proof.Machine.execCsrr r d c s
  | .csrw r a c => Sys2Proof.Machine.execCsrw r a c s
  | .sow r a p => Sys2Proof.Machine.execSow r a p s
  | .join r a => Sys2Proof.Machine.execJoin r a s
  | .done_ r => Sys2Proof.Machine.execDone r s
  | .yield r => Sys2Proof.Machine.execYield r s
  | .trap r n => Sys2Proof.Machine.execTrap r n s
  | .tret r => Sys2Proof.Machine.execTret r s
  | .locq r d a m => Sys2Proof.Machine.execLocq r d a m s
  | .mts r a t => Sys2Proof.Machine.execMts r a t s
  | .nop r => Sys2Proof.Machine.execNop r s
  | .vadd r d a b p => Sys2Proof.Machine.execVadd r d a b p s
  | .vsub r d a b p => Sys2Proof.Machine.execVsub r d a b p s
  | .vmul r d a b p => Sys2Proof.Machine.execVmul r d a b p s
  | .vfma r d a b p => Sys2Proof.Machine.execVfma r d a b p s
  | .vfms r d a b p => Sys2Proof.Machine.execVfms r d a b p s
  | .vmin r d a b p => Sys2Proof.Machine.execVmin r d a b p s
  | .vmax r d a b p => Sys2Proof.Machine.execVmax r d a b p s
  | .vabs r d a p => Sys2Proof.Machine.execVabs r d a p s
  | .vneg r d a p => Sys2Proof.Machine.execVneg r d a p s
  | .viadd r d a b p => Sys2Proof.Machine.execViadd r d a b p s
  | .visub r d a b p => Sys2Proof.Machine.execVisub r d a b p s
  | .vimul r d a b p => Sys2Proof.Machine.execVimul r d a b p s
  | .vimulh r d a b p => Sys2Proof.Machine.execVimulh r d a b p s
  | .vand r d a b p => Sys2Proof.Machine.execVand r d a b p s
  | .vor r d a b p => Sys2Proof.Machine.execVor r d a b p s
  | .vxor r d a b p => Sys2Proof.Machine.execVxor r d a b p s
  | .vandn r d a b p => Sys2Proof.Machine.execVandn r d a b p s
  | .vshl r d a b p => Sys2Proof.Machine.execVshl r d a b p s
  | .vshr r d a b p => Sys2Proof.Machine.execVshr r d a b p s
  | .vshra r d a b p => Sys2Proof.Machine.execVshra r d a b p s
  | .vimin r d a b p => Sys2Proof.Machine.execVimin r d a b p s
  | .vimax r d a b p => Sys2Proof.Machine.execVimax r d a b p s
  | .viminu r d a b p => Sys2Proof.Machine.execViminu r d a b p s
  | .vimaxu r d a b p => Sys2Proof.Machine.execVimaxu r d a b p s
  | .viadds r d a b p => Sys2Proof.Machine.execViadds r d a b p s
  | .visubs r d a b p => Sys2Proof.Machine.execVisubs r d a b p s
  | .vcmp r d a b p c => Sys2Proof.Machine.execVcmp r d a b p c s
  | .vsel r d a b y => Sys2Proof.Machine.execVsel r d a b y s
  | .vexp2 r d a p => Sys2Proof.Machine.execVexp2 r d a p s
  | .vlog2 r d a p => Sys2Proof.Machine.execVlog2 r d a p s
  | .vrcp r d a p => Sys2Proof.Machine.execVrcp r d a p s
  | .vrsq r d a p => Sys2Proof.Machine.execVrsq r d a p s
  | .vsqrt r d a p => Sys2Proof.Machine.execVsqrt r d a p s
  | .vsin r d a p => Sys2Proof.Machine.execVsin r d a p s
  | .vcos r d a p => Sys2Proof.Machine.execVcos r d a p s
  | .vtanh r d a p => Sys2Proof.Machine.execVtanh r d a p s
  | .vsigm r d a p => Sys2Proof.Machine.execVsigm r d a p s
  | .vcvt r d a t p f m y => Sys2Proof.Machine.execVcvt r d a t p f m y s
  | .vqmx r d a y p f => Sys2Proof.Machine.execVqmx r d a y p f s
  | .vdqmx r d a y p f m x => Sys2Proof.Machine.execVdqmx r d a y p f m x s
  | .vrotr r d a p n => Sys2Proof.Machine.execVrotr r d a p n s
  | .vrotc r d a p n => Sys2Proof.Machine.execVrotc r d a p n s
  | .vbcr r d a p n => Sys2Proof.Machine.execVbcr r d a p n s
  | .vbcc r d a p n => Sys2Proof.Machine.execVbcc r d a p n s
  | .vredr r d a p o => Sys2Proof.Machine.execVredr r d a p o s
  | .vredc r d a p o => Sys2Proof.Machine.execVredc r d a p o s
  | .vscanr r d a p o => Sys2Proof.Machine.execVscanr r d a p o s
  | .vscanc r d a p o => Sys2Proof.Machine.execVscanc r d a p o s
  | .vtrn r d a p => Sys2Proof.Machine.execVtrn r d a p s
  | .vld r v a y p o => Sys2Proof.Machine.execVld r v a y p o s
  | .vst r v a y p o => Sys2Proof.Machine.execVst r v a y p o s
  | .vldk r v a p o => Sys2Proof.Machine.execVldk r v a p o s
  | .vmovq r v p => Sys2Proof.Machine.execVmovq r v p s
  | .vret r a w c => Sys2Proof.Machine.execVret r a w c s
  | .vimm r d h p l => Sys2Proof.Machine.execVimm r d h p l s
  | .vimmHi r d h p l => Sys2Proof.Machine.execVimmHi r d h p l s
  | .pand r d a b => Sys2Proof.Machine.execPand r d a b s
  | .por r d a b => Sys2Proof.Machine.execPor r d a b s
  | .pxor r d a b => Sys2Proof.Machine.execPxor r d a b s
  | .pandn r d a b => Sys2Proof.Machine.execPandn r d a b s
  | .pnot r d a => Sys2Proof.Machine.execPnot r d a s
  | .pset r d => Sys2Proof.Machine.execPset r d s
  | .pclr r d => Sys2Proof.Machine.execPclr r d s
  | .vsetsh r v => Sys2Proof.Machine.execVsetsh r v s
  | .vsetshReg r a => Sys2Proof.Machine.execVsetshReg r a s
  | .vsig r f => Sys2Proof.Machine.execVsig r f s
  | .vwaitf r f n => Sys2Proof.Machine.execVwaitf r f n s
  | .vlbuf r a l => Sys2Proof.Machine.execVlbuf r a l s
  | .vnop r => Sys2Proof.Machine.execVnop r s
  | .end_ r => Sys2Proof.Machine.execEnd r s
  | .mwl r w y m p => Sys2Proof.Machine.execMwl r w y m p s
  | .mswap r w y => Sys2Proof.Machine.execMswap r w y s
  | .mscl r w y m => Sys2Proof.Machine.execMscl r w y m s
  | .mma r w y a t c => Sys2Proof.Machine.execMma r w y a t c s
  | .mmas r w y a t c => Sys2Proof.Machine.execMmas r w y a t c s
  | .mzero r w y t c => Sys2Proof.Machine.execMzero r w y t c s
  | .mdrain r w y a t c f => Sys2Proof.Machine.execMdrain r w y a t c f s
  | .mrep r k n => Sys2Proof.Machine.execMrep r k n s
  | .mseta r w y m => Sys2Proof.Machine.execMseta r w y m s
  | .msetaImm r w y m n => Sys2Proof.Machine.execMsetaImm r w y m n s
  | .madda r w y m n => Sys2Proof.Machine.execMadda r w y m n s
  | .mnop r w y => Sys2Proof.Machine.execMnop r w y s
  | .acopy r d a b k e y => Sys2Proof.Machine.execAcopy r d a b k e y s
  | .acopy2 r d a b k e y => Sys2Proof.Machine.execAcopy2 r d a b k e y s
  | .agath r d a b k e y => Sys2Proof.Machine.execAgath r d a b k e y s
  | .ascat r d a b k e y => Sys2Proof.Machine.execAscat r d a b k e y s
  | .amcast r d a b k e y => Sys2Proof.Machine.execAmcast r d a b k e y s
  | .amcastSet r d a b k e y => Sys2Proof.Machine.execAmcastSet r d a b k e y s
  | .anote r a b k => Sys2Proof.Machine.execAnote r a b k s
  | .twait r k => Sys2Proof.Machine.execTwait r k s
  | .tpend r d k => Sys2Proof.Machine.execTpend r d k s
  | .haulgo r a b => Sys2Proof.Machine.execHaulgo r a b s
  | .qpost r a b => Sys2Proof.Machine.execQpost r a b s
  | .hadd r d a b => Sys2Proof.Machine.execHadd r d a b s
  | .haddQueue r d a h p => Sys2Proof.Machine.execHaddQueue r d a h p s
  | .haddi r d a n => Sys2Proof.Machine.execHaddi r d a n s
  | .hmovh r d h z n => Sys2Proof.Machine.execHmovh r d h z n s
  | .hsend r q a b => Sys2Proof.Machine.execHsend r q a b s
  | .hsig r f => Sys2Proof.Machine.execHsig r f s
  | .hwaitf r f n => Sys2Proof.Machine.execHwaitf r f n s
  | .hlbuf r a l => Sys2Proof.Machine.execHlbuf r a l s
  | .abfmt r a u k => Sys2Proof.Machine.execAbfmt r a u k s
  | .hnop r => Sys2Proof.Machine.execHnop r s
  | .wordNotInstruction why => Sys2Proof.Machine.execWordNotInstruction why s
  | .instructionFetch why => Sys2Proof.Machine.execInstructionFetch why s
  | .vResultLand core n => Sys2Proof.Machine.execVResultLand core n s
  | .mWordComplete core n => Sys2Proof.Machine.execMWordComplete core n s
  | .requestEnqueue core stack => Sys2Proof.Machine.execRequestEnqueue core stack s
  | .calendarSlotStart stack errs => Sys2Proof.Machine.execCalendarSlotStart stack errs s
  | .hbmReadLand stack n => Sys2Proof.Machine.execHbmReadLand stack n s
  | .hbmWritePerformed stack => Sys2Proof.Machine.execHbmWritePerformed stack s
  | .atomicResponse core => Sys2Proof.Machine.execAtomicResponse core s
  | .constFill core n => Sys2Proof.Machine.execConstFill core n s
  | .copyBytesLand core n j => Sys2Proof.Machine.execCopyBytesLand core n j s
  | .anoteWrite core n => Sys2Proof.Machine.execAnoteWrite core n s
  | .waitaTimeout core => Sys2Proof.Machine.execWaitaTimeout core s
  | .handlerEntry core => Sys2Proof.Machine.execHandlerEntry core s
  | .engineFault core => Sys2Proof.Machine.execEngineFault core s
  | .preemptionRequest core => Sys2Proof.Machine.execPreemptionRequest core s
  | .copyAbort core => Sys2Proof.Machine.execCopyAbort core s
  | .granarySwap core => Sys2Proof.Machine.execGranarySwap core s
  | .saveAreaMove sid launch slot => Sys2Proof.Machine.execSaveAreaMove sid launch slot s
  | .strandResume n => Sys2Proof.Machine.execStrandResume n s
  | .strandStart n => Sys2Proof.Machine.execStrandStart n s
  | .scheduleDecision => Sys2Proof.Machine.execScheduleDecision s
  | .psliceExpiry cluster => Sys2Proof.Machine.execPsliceExpiry cluster s
  | .vtUpdate => Sys2Proof.Machine.execVtUpdate s
  | .haulRecordRead chan => Sys2Proof.Machine.execHaulRecordRead chan s
  | .copy chan n => Sys2Proof.Machine.execCopy chan n s
  | .copy2d chan n => Sys2Proof.Machine.execCopy2d chan n s
  | .fill chan n => Sys2Proof.Machine.execFill chan n s
  | .pack chan n => Sys2Proof.Machine.execPack chan n s
  | .unpack chan n => Sys2Proof.Machine.execUnpack chan n s
  | .reduce chan n => Sys2Proof.Machine.execReduce chan n s
  | .reduceArrival cluster n => Sys2Proof.Machine.execReduceArrival cluster n s
  | .migrate chan n => Sys2Proof.Machine.execMigrate chan n s
  | .stow chan n => Sys2Proof.Machine.execStow chan n s
  | .note chan n => Sys2Proof.Machine.execNote chan n s
  | .scoutPass chan refused => Sys2Proof.Machine.execScoutPass chan refused s
  | .tableWalk engine part addr wr refused => Sys2Proof.Machine.execTableWalk engine part addr wr refused s
  | .slabSend core stack => Sys2Proof.Machine.execSlabSend core stack s
  | .slabArrival stack => Sys2Proof.Machine.execSlabArrival stack s
  | .gsum stack => Sys2Proof.Machine.execGsum stack s
  | .gsearch stack => Sys2Proof.Machine.execGsearch stack s
  | .subquery stack => Sys2Proof.Machine.execSubquery stack s
  | .gsearchMerge stack n => Sys2Proof.Machine.execGsearchMerge stack n s
  | .submit part => Sys2Proof.Machine.execSubmit part s
  | .cancel part => Sys2Proof.Machine.execCancel part s
  | .verdict part => Sys2Proof.Machine.execVerdict part s
  | .invalidate part => Sys2Proof.Machine.execInvalidate part s
  | .setPtroot part => Sys2Proof.Machine.execSetPtroot part s
  | .setShare part => Sys2Proof.Machine.execSetShare part s
  | .setPslice part => Sys2Proof.Machine.execSetPslice part s
  | .setSeedQueues part => Sys2Proof.Machine.execSetSeedQueues part s
  | .setStagingPool part => Sys2Proof.Machine.execSetStagingPool part s
  | .setSaveArea part => Sys2Proof.Machine.execSetSaveArea part s
  | .setParkArea part => Sys2Proof.Machine.execSetParkArea part s
  | .curve part => Sys2Proof.Machine.execCurve part s
  | .keyinst part => Sys2Proof.Machine.execKeyinst part s
  | .extend part => Sys2Proof.Machine.execExtend part s
  | .partitionCreate part => Sys2Proof.Machine.execPartitionCreate part s
  | .partitionDestroy part => Sys2Proof.Machine.execPartitionDestroy part s
  | .fabricPackageNumber part => Sys2Proof.Machine.execFabricPackageNumber part s
  | .fabricRoute part => Sys2Proof.Machine.execFabricRoute part s
  | .fabricImport part => Sys2Proof.Machine.execFabricImport part s
  | .nodeStaging graph node refused => Sys2Proof.Machine.execNodeStaging graph node refused s
  | .launch graph node => Sys2Proof.Machine.execLaunch graph node s
  | .launchEnd launch => Sys2Proof.Machine.execLaunchEnd launch s
  | .stagedCopyBack launch => Sys2Proof.Machine.execStagedCopyBack launch s
  | .completionEvent part => Sys2Proof.Machine.execCompletionEvent part s
  | .commandEvent part => Sys2Proof.Machine.execCommandEvent part s
  | .strandFaultEvent part => Sys2Proof.Machine.execStrandFaultEvent part s
  | .stallEvent part => Sys2Proof.Machine.execStallEvent part s
  | .pagefaultEvent part => Sys2Proof.Machine.execPagefaultEvent part s
  | .noticeEvent part => Sys2Proof.Machine.execNoticeEvent part s
  | .hostRegisterWrite fn off val => Sys2Proof.Machine.execHostRegisterWrite fn off val s
  | .hostWindowRead fn off len => Sys2Proof.Machine.execHostWindowRead fn off len s
  | .hostWindowWrite fn off bytes => Sys2Proof.Machine.execHostWindowWrite fn off bytes s
  | .atsInvalidation fn base len => Sys2Proof.Machine.execAtsInvalidation fn base len s
  | .flr fn => Sys2Proof.Machine.execFlr fn s
  | .packageReset powerOn bad => Sys2Proof.Machine.execPackageReset powerOn bad s
  | .getVersion fn => Sys2Proof.Machine.execGetVersion fn s
  | .getCapabilities fn => Sys2Proof.Machine.execGetCapabilities fn s
  | .negotiateAlgorithms fn => Sys2Proof.Machine.execNegotiateAlgorithms fn s
  | .getDigests fn => Sys2Proof.Machine.execGetDigests fn s
  | .getCertificate fn slot off len => Sys2Proof.Machine.execGetCertificate fn slot off len s
  | .challenge fn nonce => Sys2Proof.Machine.execChallenge fn nonce s
  | .getMeasurements fn index nonce => Sys2Proof.Machine.execGetMeasurements fn index nonce s
  | .spdmUnsupportedRequest fn code => Sys2Proof.Machine.execSpdmUnsupportedRequest fn code s
  | .syndromeRead fn dw0 dw1 => Sys2Proof.Machine.execSyndromeRead fn dw0 dw1 s
  | .syndromeClear fn dw0 dw1 => Sys2Proof.Machine.execSyndromeClear fn dw0 dw1 s
  | .flitReceive port flit => Sys2Proof.Machine.execFlitReceive port flit s
  | .linkTraining port peerPkg peerPort lanes => Sys2Proof.Machine.execLinkTraining port peerPkg peerPort lanes s
  | .laneRetire port lane => Sys2Proof.Machine.execLaneRetire port lane s
  | .peerAccess srcPkg srcPart addr bytes len => Sys2Proof.Machine.execPeerAccess srcPkg srcPart addr bytes len s
  | .marketClear pmeas outside temps => Sys2Proof.Machine.execMarketClear pmeas outside temps s
  | .curveSlowEvent seq ev => Sys2Proof.Machine.execCurveSlowEvent seq ev s
  | .curveParkEvent seq ev => Sys2Proof.Machine.execCurveParkEvent seq ev s
  | .curveShedEvent seq ev => Sys2Proof.Machine.execCurveShedEvent seq ev s
  | .droopStretch cluster cycles => Sys2Proof.Machine.execDroopStretch cluster cycles s
  | .guardBreach cluster cycles => Sys2Proof.Machine.execGuardBreach cluster cycles s
  | .stallHoldEnd core => Sys2Proof.Machine.execStallHoldEnd core s
  | .clusterGate cluster => Sys2Proof.Machine.execClusterGate cluster s
  | .dieGate die => Sys2Proof.Machine.execDieGate die s
  | .diePowerUp die => Sys2Proof.Machine.execDiePowerUp die s
  | .hotMigration => Sys2Proof.Machine.execHotMigration s
  | .bankRetire stack pc bank => Sys2Proof.Machine.execBankRetire stack pc bank s
  | .siloScrub line err => Sys2Proof.Machine.execSiloScrub line err s
  | .sramScrub unit core index err => Sys2Proof.Machine.execSramScrub unit core index err s
  | .eccWriteback line => Sys2Proof.Machine.execEccWriteback line s
  | .heartbeatTimeout die bad => Sys2Proof.Machine.execHeartbeatTimeout die bad s
  | .fatalDieError die cause bad => Sys2Proof.Machine.execFatalDieError die cause bad s
  | .accessResponse core n => Sys2Proof.Machine.execAccessResponse core n s
  | .preIssueRead core => Sys2Proof.Machine.execPreIssueRead core s
  | .constantPathDiscard core => Sys2Proof.Machine.execConstantPathDiscard core s
  | .clusterPowerUp cluster => Sys2Proof.Machine.execClusterPowerUp cluster s
  | .badCommand part => Sys2Proof.Machine.execBadCommand part s

end Sys2Proof.Machine
end

