-- ==== Sys2Proof/Machine/Agenda.lean ====
section
/-! DEFINITION. What happens next. The agenda names the moves to come; where it names none, the model's own order of moves for the
present tick stands in: what is due, what may happen by itself, the slots in the order of R58 and R88, the clock. -/

namespace Sys2Proof.Machine

open Sys2Proof

/- The clock (R9, R296, R297, R299). -/

/-- R297, R299: the phase units of a cluster's present cycle: 1,600 MHz-ticks, a quarter more for a stretched one. In fixed timing cycles are
those of the reference: the stretched ones of a breach fall within its hold. -/
def Cluster.period (k : Cluster) : Nat := if k.stretch = 0 || k.fixed then 1600 else 2000

/-- Does a cluster begin a cycle with the next tick. -/
def Cluster.turns (k : Cluster) : Bool := decide (k.period ≤ k.phase + k.mhz)

/-- R297: a cycle of a cluster passes; four unstretched cycles follow a run of stretched ones. -/
def Cluster.turn (k : Cluster) (busy : Nat) : Cluster :=
  { k with
    phase := k.phase + k.mhz - k.period, cyc := k.cyc + 1, recent := [], busy := k.busy + busy, total := k.total + 4,
    stretch := k.stretch - 1, calm := if k.stretch = 0 then k.calm - 1 else if k.stretch = 1 then 4 else 0 }

/-- R304: has a core issued a word in its cluster's present cycle. -/
def State.issuedNow (s : State) (c : Fin 192) : Bool :=
  s.cores[c].strand.isSome && !s.held c && s.cores[c].issued == s.cyc c + 1

/-- R299: a cycle in which a stall wire holds a core does not count for it. R230: with a new cycle the entries of passed requests are
free. -/
def Core.lagAt (k0 : Core) (cyc : Nat) : Core :=
  let k := { k0 with passed := [] }
  match k.hold with
  | some (f, t) => if f < cyc && cyc ≤ t then { k with lag := k.lag + 1 } else k
  | none => k

/-- The next tick of the package's 1.6 GHz time base (R9): clusters whose cycle ends begin another; the partitions that are active are those
of the tick's end (R288). -/
def State.tickOver (s : State) : State :=
  { s with
    tick := s.tick + 1,
    parts := s.activate.parts,
    clusters := Vector.ofFn fun q : Fin 48 =>
      let k := s.clusters[q]
      if k.turns then k.turn (((List.finRange 192).filter fun c => c.val / 4 == q.val && s.issuedNow c).length) else { k with phase := k.phase + k.mhz },
    cores := Vector.ofFn fun c : Fin 192 =>
      let k := s.clusters[clusterOf c]
      if k.turns then (s.cores[c]).lagAt (k.cyc + 1) else s.cores[c] }

/- What is due. -/

/-- The moves of a core whose time has come (R77, R173, R299, R338). -/
def State.dueOn (s : State) (c : Fin 192) : List Event :=
  let cyc := s.cyc c
  let hold : List Event := match (s.cores[c]).hold with
    | some (_, t) => if t < s.clusters[clusterOf c].cyc then [.stallHoldEnd c] else []
    | none => []
  match s.strand? c with
  | none => hold
  | some st =>
    hold ++ ((st.vpend.findIdx? fun w => decide (w.due ≤ cyc)).map fun i => Event.vResultLand c i).toList ++
      ((st.mpend.findIdx? fun w => decide (w.due ≤ cyc)).map fun i => Event.mWordComplete c i).toList ++
      (match st.trapAt with | some t => if t.due ≤ cyc then [Event.handlerEntry c] else [] | none => [])

/-- The moves of a stack whose time has come (R230, R231). -/
def State.dueAt (s : State) (k : Fin 16) : List Event :=
  let q := s.hbm[k]
  (if q.started ≤ s.tick then [.calendarSlotStart k []] else []) ++
    (let c := slotOwner (s.tick % 400)
     if ((s.cores[c]).slabs.find? fun b => b.stack == k.val).any Slab.go && (s.quarry[k]).room then [.slabSend c k] else []) ++
    ((q.reads.findIdx? fun r => decide (r.due ≤ s.tick)).map fun i => Event.hbmReadLand k i).toList ++
    (match q.writes with | w :: _ => if w.due ≤ s.tick then [.hbmWritePerformed k] else [] | [] => [])

/-- What the spec fixes to the present cycle or tick and has not come about: the clock waits for it. The measurements that a clearing
takes are not the package's own: those of the round before stand in, and nothing outside. -/
def State.due (s : State) : List Event :=
  (if s.vtUs < dtime s.tick / 1000 then [.vtUpdate] else []) ++
    (if s.power.round < dtime s.tick / 10000 then [.marketClear s.power.pmeas 0 []] else []) ++
    (List.finRange 16).flatMap s.dueAt ++ (List.finRange 192).flatMap s.dueOn ++
    (List.finRange 16).flatMap fun k => ((s.errorBanks k).filter fun b => s.mayRetire k b.1 b.2).map fun b => Event.bankRetire k b.1 b.2

/- What may happen by itself. -/

/-- Pieces of copies that land without a calendar slot, and notes that may be written (R194, R206). -/
def State.copyMoves (s : State) (c : Fin 192) (st : Strand) : List Event :=
  st.copies.zipIdx.flatMap fun k =>
    if k.1.kind = 6 then
      (match k.1.segs.head? with
        | some g => if st.noteReady k.1 && g.st.isReady && (!g.toHbm || ((s.cores[c]).requested st.sid k.1.cid).isEmpty) then [.anoteWrite c k.2] else []
        | none => [])
    else k.1.segs.zipIdx.filterMap fun g =>
      if g.1.toHbm then none
      else match g.1.st, g.1.src with
        | .ready _ _, _ => some (.copyBytesLand c k.2 g.2)
        | .idle, some a => if isHbm a then none else some (.copyBytesLand c k.2 g.2)
        | _, _ => none

/-- What the strand on a core is met with (R118, R120, R190, R321, R325, R342). -/
def State.strandMoves (s : State) (c : Fin 192) (st : Strand) : List Event :=
  (match st.pre with | some p => if p.ready != 0 && p.ready ≤ s.cyc c then [.preIssueRead c] else [] | none => []) ++
    (match st.fk with | some (_ + 1) => [.constantPathDiscard c] | _ => []) ++
    (match st.sleep.bind Sleep.ends with | some e => if e ≤ dtime s.tick && !(s.mons[c]).hit && !s.held c then [.waitaTimeout c] else [] | none => []) ++
    (if st.phase == .running && !st.handler && st.trapAt.isNone && !st.efaultAddr.isEmpty then [.engineFault c] else []) ++
    (if st.phase == .running && st.trapAt.isNone && s.preqs.any (fun r => r.sid == st.sid) then [.preemptionRequest c] else []) ++
    (if st.phase != .running && st.vpend.isEmpty && st.mpend.isEmpty && (st.phase != .dying || st.accs.isEmpty) then [.copyAbort c] else []) ++
    s.copyMoves c st

/-- What a core is met with. -/
def State.coreMoves (s : State) (c : Fin 192) : List Event :=
  let k := s.cores[c]
  let accs := (s.accsOf c).map Prod.snd
  ((List.finRange 16).filter fun q => k.reqs.any (fun r => r.stack == q.val && r.bound.isNone) && decide ((k.boundOn q.val).length < 16)).map
      (fun q => Event.requestEnqueue c q) ++
    (accs.zipIdx.filterMap fun a => match a.1.op with
      | .load _ _ => if isHbm a.1.addr then none else some (Event.accessResponse c a.2)
      | .store _ => if isHbm a.1.addr then none else some (Event.accessResponse c a.2)
      | _ => none) ++
    (if accs.any fun a => match a.op with | .amo _ _ _ => !isHbm a.addr || a.performed | _ => false then [.atomicResponse c] else []) ++
    (k.kfills.zipIdx.filterMap fun f => if f.1.data.isSome || f.1.disc || !isHbm (64 * f.1.line) then some (Event.constFill c f.2) else none) ++
    (match s.strand? c with | some st => s.strandMoves c st | none => [])

/-- What quarry logic does (R246). -/
def State.quarryMoves (s : State) (k : Fin 16) : List Event :=
  let q := s.quarry[k]
  (if q.transit.isEmpty then [] else [.slabArrival k]) ++
    (match q.head with | some (b, j) => if !q.free then [] else if pktKind (packetOf b.data j) = 2 then [.gsearch k] else [.gsum k] | none => []) ++
    (if q.subs.isEmpty then [] else [.subquery k]) ++
    (q.queries.zipIdx.filterMap fun y => if y.1.reps.all Option.isSome then some (.gsearchMerge k y.2) else none)

/-- Packets that are in progress complete (R246). -/
def State.sumMoves (s : State) : List Move :=
  (List.finRange 16).filterMap fun k => if (s.quarry[k]).sums.isEmpty then none else some (.sumDone k 0)

/-- A record in progress goes on by the step of its kind (R210). -/
def recMove (c : Fin 192) (i : Nat) : Nat → Event
  | 1 => .copy c i
  | 2 => .copy2d c i
  | 3 => .fill c i
  | 4 => .pack c i
  | 5 => .unpack c i
  | 6 => .reduce c i
  | 7 => .migrate c i
  | 8 => .stow c i
  | _ => .note c i

/-- R209: would a read of a channel's record line find something to do: it was not read yet, or the line has changed. -/
def State.lineMoved (s : State) (c : Fin 192) : Bool :=
  let k := s.chans[c]
  !k.waiting || (match s.haulTgt (engOf c) k.part (s.chanLaunch k) k.at_ false with
    | .ok (phys, _, _) =>
      let ctl := leNat (s.mem.bytesAt (s.physKey k.part phys) phys 8)
      s.mem.bad (lineOf phys) || (ctl % 2 == 1 && (match k.seq with | some q => BitVec.ofNat 32 (ctl / 2 ^ 32) == q + 1 | none => true))
    | .error _ => true)

/-- What a haul channel does. -/
def State.chanMoves (s : State) (c : Fin 192) : List Event :=
  let k := s.chans[c]
  if !k.busy then []
  else
    (if s.mayRead k && s.lineMoved c then [.haulRecordRead c] else []) ++
      (k.recs.zipIdx.filterMap fun r => if r.1.status.isNone && !s.recWaits k r.1 then some (recMove c r.2 r.1.kind) else none) ++
      ((s.chanNeeds c).map fun n => Event.tableWalk (engOf c) k.part n.1 n.2.1 false) ++
      (match s.scoutNext c with | some _ => [.scoutPass c false] | none => [])

/-- R224: source lines at their banks. -/
def State.arrivalMoves (s : State) : List Event :=
  (List.finRange 48).flatMap fun q => ((s.arrivals.filter fun a => a.cluster == q.val).zipIdx).map fun a => Event.reduceArrival q a.2

/-- The command that a partition's next intake record is (R361). -/
def rowMove (p : Fin 64) : Nat → Event
  | 1 => .submit p
  | 2 => .cancel p
  | 3 => .verdict p
  | 4 => .invalidate p
  | 0x50 => .setPtroot p
  | 0x51 => .setShare p
  | 0x52 => .setPslice p
  | 0x53 => .setSeedQueues p
  | 0x54 => .setStagingPool p
  | 0x55 => .setSaveArea p
  | 0x56 => .setParkArea p
  | 6 => .curve p
  | 7 => .keyinst p
  | 8 => .extend p
  | 0x90 => .partitionCreate p
  | 0x91 => .partitionDestroy p
  | 0xA0 => .fabricPackageNumber p
  | 0xA1 => .fabricRoute p
  | 0xA2 => .fabricImport p
  | _ => .badCommand p

/-- The event record of a kind (R362). -/
def kindMove (p : Fin 64) : Nat → Event
  | 1 => .completionEvent p
  | 2 => .commandEvent p
  | 3 => .strandFaultEvent p
  | 4 => .stallEvent p
  | 5 => .pagefaultEvent p
  | _ => .noticeEvent p

/-- A partition's intake queue and event ring. -/
def State.partMoves (s : State) (p : Fin 64) : List Event :=
  (match s.nextCmd p with | some c => [rowMove p c.row] | none => []) ++
    (match s.funcs[p].events with | e :: _ => if s.eventRoom p then [kindMove p e.kind] else [] | [] => [])

/-- Graphs, launches and the moves of contexts and images (R276 to R279, R313, R328). -/
def State.launchMoves (s : State) : List Event :=
  (s.graphs.flatMap fun g => g.nodes.zipIdx.filterMap fun n => match n.1.st with
    | .eligible _ => some (Event.nodeStaging g.gid n.2 false)
    | .staged => some (.launch g.gid n.2)
    | .launched id => if (s.launch? id).any fun l => !l.unsown.isEmpty then some (.launch g.gid n.2) else none
    | _ => none) ++
    (s.launches.flatMap fun l =>
      (if l.ending != .live || s.launchOver l then [Event.launchEnd l.id] else []) ++
        (if l.ending == .ending 1 then [.stagedCopyBack l.id] else []) ++
        (if s.seedDue l then [.saveAreaMove 0 l.id 0] else []) ++
        (l.slots.zipIdx.filterMap fun sl =>
          if (match sl.1.img with | some (_, w) => !w | none => false) || (l.resuming && l.parkImgs.any fun g => g.slot == sl.2) ||
              (l.parked && !l.resuming && sl.1.cluster.isSome && s.launchHalted l.id) then some (.saveAreaMove 0 l.id sl.2) else none))

/-- R328: halted contexts leave their cores, for the granary first, and the granary where they are wanted elsewhere. -/
def State.contextMoves (s : State) : List Event :=
  s.halted.filterMap fun h =>
    let parked := (s.launch? h.st.launch).any Launch.parked
    match h.place with
    | .core c => if ((s.clusters[clusterOf (coreOf c)]).granary.toList.any Option.isNone) then some (.granarySwap (coreOf c)) else some (.saveAreaMove h.st.sid 0 0)
    | .granary q _ =>
      if parked || s.placing.any (fun p => (p.sids.zip p.cores).any fun x => x.1 == h.st.sid && x.2 / 4 != q) then some (.saveAreaMove h.st.sid 0 0) else none
    | .save _ => if parked then some (.saveAreaMove h.st.sid 0 0) else none
    | .silo _ => none

/-- The scheduler (R286 to R290). -/
def State.schedMoves (s : State) : List Event :=
  (if !s.cands.isEmpty || s.parts.toList.any fun p => p.queues.toList.any fun q => !q.isEmpty then [.scheduleDecision] else []) ++
    (s.placing.zipIdx.map fun p => if p.1.seed.isSome then .strandStart p.2 else .strandResume p.2) ++
    ((List.finRange 48).filter fun q => match s.strandsOn q.val with
      | [] => false
      | st :: _ => !s.leaving q.val && decide ((s.clusters[q]).acquired + 1000 * (s.parts[st.part]).pslice < dtime s.tick)).map fun q => Event.psliceExpiry q

/-- R315: the move of a curve event. -/
def gradeMove (seq ev : Nat) : Nat → Event
  | 1 => .curveSlowEvent seq ev
  | 2 => .curveParkEvent seq ev
  | _ => .curveShedEvent seq ev

/-- Power (R312, R315, R317, R318, R320): free clusters are gated, and those of slots above the launch's point. -/
def State.powerMoves (s : State) : List Event :=
  (match s.curveNow with
    | some c => c.events.zipIdx.filterMap fun e =>
        if !e.1.acted && decide (c.start + e.1.off * 1000000 ≤ dtime s.tick) then some (gradeMove c.seq e.2 e.1.grade) else none
    | none => []) ++
    ((List.finRange 48).filterMap fun q =>
      let x := s.clusters[q]
      if x.gated then (if x.holder.isSome && s.diePower[(⟨q.val / 6, by omega⟩ : Fin 8)] then some (Event.clusterPowerUp q) else none)
      else if s.mayGate q && (match x.holder with | none => true | some (id, k) => (s.launch? id).any fun l => decide (l.cur.tm1 < k)) then
        some (.clusterGate q) else none) ++
    ((List.finRange 8).filterMap fun d =>
      if s.diePower[d] then (if ((dieClusters d).all fun q => (s.clusters[q]).gated && (s.clusters[q]).holder.isNone) && decide (s.power.nextGate ≤ dtime s.tick)
        then some (Event.dieGate d) else none)
      else if (dieClusters d).any fun q => (s.clusters[q]).holder.isSome then some (.diePowerUp d) else none) ++
    (if s.movedOff.isSome || decide (s.power.moved < dtime s.tick / 1000000) then [.hotMigration] else [])

/-- What may happen by itself, each at most once in the tick. -/
def State.internals (s : State) : List Event :=
  (List.finRange 192).flatMap s.coreMoves ++ (List.finRange 16).flatMap s.quarryMoves ++ s.arrivalMoves ++ (List.finRange 192).flatMap s.chanMoves ++
    (List.finRange 64).flatMap s.partMoves ++ s.launchMoves ++ s.contextMoves ++ s.schedMoves ++ s.powerMoves

/- The slots. -/

/-- R58: is a word one that waits for a flag, so that it follows the cycle's signals. -/
def waitsFlag : Instr → Bool
  | .waitf _ _ _ => true
  | .vwaitf _ _ _ => true
  | .hwaitf _ _ _ => true
  | .mwl _ w _ _ _ => w != 0
  | .mswap _ w _ => w != 0
  | .mscl _ w _ _ => w != 0
  | .mma _ w _ _ _ _ => w != 0
  | .mmas _ w _ _ _ _ => w != 0
  | .mzero _ w _ _ _ => w != 0
  | .mdrain _ w _ _ _ _ _ => w != 0
  | .mseta _ w _ _ => w != 0
  | .msetaImm _ w _ _ _ => w != 0
  | .madda _ w _ _ _ => w != 0
  | .mnop _ w _ => w != 0
  | _ => false

/-- R50, R51, R88: the step that a slot takes at its PC: the instruction there, or what stands in its way. A word that the decoder rejects is
no instruction: its reserved bits come before R184's ILLEGAL for a word that may not follow MREP (DESIGN CHOICE, log). -/
def State.slotInstr (s : State) (st : Strand) (sl : Slot) : Instr :=
  match s.fetch st sl with
  | .error why => .instructionFetch why
  | .ok w =>
    match decodeWord sl w with
    | .error why => .wordNotInstruction why
    | .ok i => i

/-- R57, R174: the flag to which an M word that waits gives its signal in its issue cycle: that of a word whose bound is 0. -/
def promptSignal : Instr → BitVec 4
  | .mswap _ w f => if w = 0 then 0 else f
  | .mseta _ w f _ => if w = 0 then 0 else f
  | .msetaImm _ w f _ _ => if w = 0 then 0 else f
  | .madda _ w f _ _ => if w = 0 then 0 else f
  | .mnop _ w f => if w = 0 then 0 else f
  | _ => 0

/-- R58, R88: the place of a slot's word among those of the cycle: the words that wait for flags follow the others, each kind in the
order S, V, M, H. -/
def State.place (s : State) (st : Strand) (sl : Slot) : Nat := (if waitsFlag (s.slotInstr st sl) then 4 else 0) + sl.num

/-- The slots of a strand in the order of their words. -/
def State.inOrder (s : State) (st : Strand) : List Slot :=
  let slots : List Slot := [.s, .v, .m, .h]
  slots.filter (fun sl => decide (s.place st sl < 4)) ++ slots.filter fun sl => decide (4 ≤ s.place st sl)

/-- A core whose slot tries its word. -/
def State.cued (s : State) (c : Fin 192) (sl : Slot) : State := { s with cur := { core := c, slot := sl } }

/-- What is left when a slot tries its word, whatever stands before it. -/
def State.tried (s : State) (c : Fin 192) (sl : Slot) : State :=
  match s.strand? c with
  | none => s
  | some st =>
    match exec (s.slotInstr st sl) (s.cued c sl) with
    | .next t => t
    | _ => s

/-- The strand of a core with the writes of the present cycle. -/
def State.settled (s : State) (c : Fin 192) : Option Strand := (s.strand? c).map fun st => st.settle (s.cyc c)

/-- A core as its slots find it in the present cycle. -/
def State.coreNow (s : State) (c : Fin 192) : Core := { s.cores[c] with strand := s.settled c }

/-- R262: would a slot's word do something in the present cycle: issue, trap, or begin what it waits for. -/
def State.stirs (s : State) (c : Fin 192) (sl : Slot) : Bool :=
  (s.strand? c).any fun st => s.mayTry c st sl && (s.tried c sl).coreNow c != s.coreNow c

/-- Does a core's strand stand at a trap, or at its end by one. -/
def State.trapped (s : State) (c : Fin 192) : Bool := (s.strand? c).any fun st => st.trapAt.isSome || st.phase == .dying

/-- R338: the slots of a core whose words raise traps in the present cycle, as its words follow one another. -/
def State.trappers (s : State) (c : Fin 192) : List Slot :=
  match s.strand? c with
  | none => []
  | some st =>
    ((s.inOrder st).foldl (fun (acc : State × List Slot) sl =>
      let t := acc.1.tried c sl
      if t.trapped c then (acc.1, acc.2 ++ [sl]) else (t, acc.2)) (s.setSt c { st with trapAt := none }, [])).2

/-- R55: does the rendezvous of a slot's word complete now. -/
def State.rvNow (s : State) (c : Fin 192) (sl : Slot) : Bool :=
  (s.settled c).any fun st =>
    (match s.fetch st sl with | .ok w => rvBit w | .error _ => false) && !st.handler && st.named sl && !st.rvGo.get sl &&
      s.mayTry c st sl && s.allMeet st (s.cyc c)

/-- R55, R338: does the rendezvous of a slot's word complete now with another slot that raises a trap. -/
def State.rvSpoiled (s : State) (c : Fin 192) (sl : Slot) : Bool :=
  s.rvNow c sl && (s.trappers c).any fun o => o != sl && (s.settled c).any fun st => st.named o

/-- R58: the signal of an M word that waits for a flag and issues in the present cycle is one of the cycle's signals: it comes before that
of H and before the waits. It is given ahead of the word where the word issues once those have gone. DEDUCED (log). -/
def State.ahead (s : State) (c : Fin 192) : State :=
  match s.settled c with
  | none => s
  | some st =>
    if !s.mayTry c st .m || (s.cores[c]).given == s.cyc c + 1 then s
    else
      let f := promptSignal (s.slotInstr st .m)
      if f = 0 || !st.canSignal f then s
      else
        let t := s.setCore c { s.cores[c] with strand := some (st.signal f), given := s.cyc c + 1 }
        let before := (s.inOrder st).filter fun sl => sl != .m && decide (s.place st sl < s.place st .m)
        if (before.foldl (fun t sl => t.tried c sl) t).stirs c .m then t else s

/-- R58, R88: does the word of another slot of the core come before that of a slot, and would it do something. -/
def State.awaits (s : State) (c : Fin 192) (sl : Slot) : Bool :=
  (s.strand? c).any fun st =>
    [Slot.s, .v, .m, .h].any fun o => s.mayTry c st o && decide (s.place st o < s.place st sl) && s.stirs c o

/-- The slots that may try their words, in their order. -/
def State.slotMoves (s : State) : List Move :=
  (List.finRange 192).flatMap fun c =>
    match s.strand? c with
    | none => []
    | some st => ((s.inOrder st).filter fun sl => s.mayTry c st sl).map fun sl => .issue c sl

/-- R262: the slots of a core whose words would do something yet, where its clock is fixed and the cycle ends with this tick. -/
def State.untried (s : State) (c : Fin 192) : List Slot :=
  let q := s.clusters[clusterOf c]
  if q.fixed && q.turns then [Slot.s, .v, .m, .h].filter fun sl => s.stirs c sl else []

/-- A tick passes once nothing is due and no word in fixed-timing mode is left that would do something in the cycle that ends (R262). -/
def tickMove (s : State) : Out :=
  if s.due.isEmpty && (List.finRange 192).all fun c => (s.untried c).isEmpty then .next s.tickOver else .next s

/-- The model's own order of moves for the present tick: first what is due, and once nothing is, the rest. -/
def State.autoMoves (s : State) : List Move :=
  match s.due with
  | [] => s.internals.map .event ++ s.sumMoves ++ s.slotMoves ++ [.clock]
  | ds => ds.map .event

/-- The next move and those after it. -/
def State.upcoming (s : State) : Move × List Move :=
  match s.agenda with
  | m :: rest => (m, rest)
  | [] =>
    match s.autoMoves with
    | m :: rest => (m, rest)
    | [] => (.clock, [])

/- Moves. -/

/-- A slot whose turn it is tries the word at its PC (R50, R51, R58, R88). A word whose rendezvous another slot's trap spoils does not
issue (R338); one that traps itself by a signal of the same cycle traps whether or not that signal is given in the end (DEDUCED, log). -/
def issueMove (c : Fin 192) (sl : Slot) (s : State) : Out :=
  match s.strand? c with
  | none => .next s
  | some st =>
    if s.awaits c sl then .next s
    else
      let s1 := if 3 ≤ s.place st sl then s.ahead c else s
      if s1.rvSpoiled c sl && !(s1.tried c sl).trapped c then
        if (s1.trappers c).contains sl then .next (s1.raiseTrap c (st.settle (s.cyc c)) sl .flagOverflow 0) else .next s1
      else exec (s.slotInstr st sl) (s1.cued c sl)

/-- An event comes about: the meaning that `exec` gives its row of the opcode table. -/
def occur (e : Event) (s : State) : Out :=
  match e with
  | .vResultLand core i => execVResultLand core i s
  | .mWordComplete core i => execMWordComplete core i s
  | .requestEnqueue core stack => execRequestEnqueue core stack s
  | .calendarSlotStart stack errs => execCalendarSlotStart stack errs s
  | .hbmReadLand stack i => execHbmReadLand stack i s
  | .hbmWritePerformed stack => execHbmWritePerformed stack s
  | .atomicResponse core => execAtomicResponse core s
  | .constFill core i => execConstFill core i s
  | .copyBytesLand core i j => execCopyBytesLand core i j s
  | .anoteWrite core i => execAnoteWrite core i s
  | .waitaTimeout core => execWaitaTimeout core s
  | .handlerEntry core => execHandlerEntry core s
  | .engineFault core => execEngineFault core s
  | .preemptionRequest core => execPreemptionRequest core s
  | .copyAbort core => execCopyAbort core s
  | .granarySwap core => execGranarySwap core s
  | .saveAreaMove sid launch slot => execSaveAreaMove sid launch slot s
  | .strandResume i => execStrandResume i s
  | .strandStart i => execStrandStart i s
  | .scheduleDecision => execScheduleDecision s
  | .psliceExpiry cluster => execPsliceExpiry cluster s
  | .vtUpdate => execVtUpdate s
  | .haulRecordRead chan => execHaulRecordRead chan s
  | .copy chan i => execCopy chan i s
  | .copy2d chan i => execCopy2d chan i s
  | .fill chan i => execFill chan i s
  | .pack chan i => execPack chan i s
  | .unpack chan i => execUnpack chan i s
  | .reduce chan i => execReduce chan i s
  | .reduceArrival cluster i => execReduceArrival cluster i s
  | .migrate chan i => execMigrate chan i s
  | .stow chan i => execStow chan i s
  | .note chan i => execNote chan i s
  | .scoutPass chan refused => execScoutPass chan refused s
  | .tableWalk engine part addr wr refused => execTableWalk engine part addr wr refused s
  | .slabSend core stack => execSlabSend core stack s
  | .slabArrival stack => execSlabArrival stack s
  | .gsum stack => execGsum stack s
  | .gsearch stack => execGsearch stack s
  | .subquery stack => execSubquery stack s
  | .gsearchMerge stack i => execGsearchMerge stack i s
  | .submit part => execSubmit part s
  | .cancel part => execCancel part s
  | .verdict part => execVerdict part s
  | .invalidate part => execInvalidate part s
  | .setPtroot part => execSetPtroot part s
  | .setShare part => execSetShare part s
  | .setPslice part => execSetPslice part s
  | .setSeedQueues part => execSetSeedQueues part s
  | .setStagingPool part => execSetStagingPool part s
  | .setSaveArea part => execSetSaveArea part s
  | .setParkArea part => execSetParkArea part s
  | .curve part => execCurve part s
  | .keyinst part => execKeyinst part s
  | .extend part => execExtend part s
  | .partitionCreate part => execPartitionCreate part s
  | .partitionDestroy part => execPartitionDestroy part s
  | .fabricPackageNumber part => execFabricPackageNumber part s
  | .fabricRoute part => execFabricRoute part s
  | .fabricImport part => execFabricImport part s
  | .nodeStaging graph node refused => execNodeStaging graph node refused s
  | .launch graph node => execLaunch graph node s
  | .launchEnd launch => execLaunchEnd launch s
  | .stagedCopyBack launch => execStagedCopyBack launch s
  | .completionEvent part => execCompletionEvent part s
  | .commandEvent part => execCommandEvent part s
  | .strandFaultEvent part => execStrandFaultEvent part s
  | .stallEvent part => execStallEvent part s
  | .pagefaultEvent part => execPagefaultEvent part s
  | .noticeEvent part => execNoticeEvent part s
  | .hostRegisterWrite fn off val => execHostRegisterWrite fn off val s
  | .hostWindowRead fn off len => execHostWindowRead fn off len s
  | .hostWindowWrite fn off bytes => execHostWindowWrite fn off bytes s
  | .atsInvalidation fn base len => execAtsInvalidation fn base len s
  | .flr fn => execFlr fn s
  | .packageReset powerOn bad => execPackageReset powerOn bad s
  | .getVersion fn => execGetVersion fn s
  | .getCapabilities fn => execGetCapabilities fn s
  | .negotiateAlgorithms fn => execNegotiateAlgorithms fn s
  | .getDigests fn => execGetDigests fn s
  | .getCertificate fn slot off len => execGetCertificate fn slot off len s
  | .challenge fn nonce => execChallenge fn nonce s
  | .getMeasurements fn index nonce => execGetMeasurements fn index nonce s
  | .spdmUnsupportedRequest fn code => execSpdmUnsupportedRequest fn code s
  | .syndromeRead fn dw0 dw1 => execSyndromeRead fn dw0 dw1 s
  | .syndromeClear fn dw0 dw1 => execSyndromeClear fn dw0 dw1 s
  | .flitReceive port flit => execFlitReceive port flit s
  | .linkTraining port peerPkg peerPort lanes => execLinkTraining port peerPkg peerPort lanes s
  | .laneRetire port lane => execLaneRetire port lane s
  | .peerAccess srcPkg srcPart addr bytes len => execPeerAccess srcPkg srcPart addr bytes len s
  | .marketClear pmeas outside temps => execMarketClear pmeas outside temps s
  | .curveSlowEvent seq ev => execCurveSlowEvent seq ev s
  | .curveParkEvent seq ev => execCurveParkEvent seq ev s
  | .curveShedEvent seq ev => execCurveShedEvent seq ev s
  | .droopStretch cluster cycles => execDroopStretch cluster cycles s
  | .guardBreach cluster cycles => execGuardBreach cluster cycles s
  | .stallHoldEnd core => execStallHoldEnd core s
  | .clusterGate cluster => execClusterGate cluster s
  | .dieGate die => execDieGate die s
  | .diePowerUp die => execDiePowerUp die s
  | .hotMigration => execHotMigration s
  | .bankRetire stack pc bank => execBankRetire stack pc bank s
  | .siloScrub line err => execSiloScrub line err s
  | .sramScrub unit core index err => execSramScrub unit core index err s
  | .eccWriteback line => execEccWriteback line s
  | .heartbeatTimeout die bad => execHeartbeatTimeout die bad s
  | .fatalDieError die cause bad => execFatalDieError die cause bad s
  | .accessResponse core i => execAccessResponse core i s
  | .preIssueRead core => execPreIssueRead core s
  | .constantPathDiscard core => execConstantPathDiscard core s
  | .clusterPowerUp cluster => execClusterPowerUp cluster s
  | .badCommand part => execBadCommand part s

/-- A move made. -/
def perform (m : Move) (s : State) : Out :=
  match m with
  | .issue c sl => issueMove c sl s
  | .event e => occur e s
  | .clock => tickMove s
  | .hostRegister fn off n v => .next (s.hostAccess fn off n v)
  | .preempt launch gang => .next (s.preemptFrom launch gang)
  | .peerMarked pkg part addr bs bad => peerServed pkg part addr (some bs) bad bs.length s
  | .heat k hot => .next (s.setUpkeep k { s.upkeep[k] with hot := hot })
  | .sumStart k => .next (s.sumStart k)
  | .sumDone k i => .next (s.sumDone k i)

/- A word placed by hand. -/

/-- The field through which a word placed by hand is fetched: entry 255, 64 KiB of stack 0 from device address 2^32 on, executable, with
no key. -/
def handField : FieldEnt :=
  { idx := 255, vbase := 2 ^ 32, lsz := 0, permR := true, permW := true, permX := true, ord := 0, tier := 0, konst := false, staged := false,
    key := 1, ilv := 0, pbase := 0, peer := 0, partbase := 0, slot := none }

/-- The launch of a word placed by hand. -/
def handLaunch (id yard : Nat) : Launch :=
  { id := id, graph := 0, node := 0, part := 0, order := 0, fields := [handField], heads := List.replicate 16 (2 ^ 32),
    ops := [{ tm1 := 0, variant := 0, freq := 1600, volt := 2 }], opmask := 1, point := 0, prioceil := 7, eclass := 3, deadline := 0, haulch := 0,
    banksW := Vector.replicate 32 0, banksA := Vector.replicate 32 0, mgroups := List.replicate 32 [], task := 0, live := 1, nextIndex := 1, unsown := [],
    perIndex := [(0, 1)], sown := [], slots := [{ LSlot.fresh yard with cluster := some 0, prev := some 0 }], staged := [], disc := [],
    ending := .live, parked := false, resuming := false, parkHeld := 0, parkSeed := none, parkImgs := [], kept := [], given := [], asked := false, macs := 0, bytes := 0 }

/-- A strand on core 0 of a launch of its own, at a word of memory that one slot is to try next, the others having ended. What system software
does by submitting a graph (R263 to R286) stands here in its place. -/
def State.placeWord (s : State) (sl : Slot) (w : W32) : State :=
  let l := handLaunch (s.lastLaunch + 1) (s.nextObj + 1)
  let sd : Seed := { addr := 0, entry := 0, frame := 0, flags := 0, place := 0, phys := 0 }
  let d : StrandId := { sid := s.nextSid + 1, index := 0, member := 0, gang := s.nextSid, prio := 0, level := 0, volt := 2 }
  let st := Strand.start l d sd (l.headsOf 0) false (s.cyc 0) (TBuf.fresh s.nextObj l)
  let g : Gang := { gid := s.nextSid, launch := l.id, level := 0, size := 1, slots := [0], sids := [s.nextSid + 1], table := l.mgroups }
  { s with
    mem := s.mem.apply { addr := 0, data := (leBytes 4 w.toNat).map some, marks := [], tag := 0 },
    launches := l :: s.launches, lastLaunch := l.id, gangs := g :: s.gangs, nextSid := s.nextSid + 2, nextObj := s.nextObj + 2,
    clusters := s.clusters.set 0 { s.clusters[(0 : Fin 48)] with holder := some (l.id, 0), yard := some (s.nextObj + 1), gated := false, mhz := 1600 },
    cores := s.cores.set 0 { s.cores[(0 : Fin 192)] with strand := some { st with ended := ⟨sl != .s, sl != .v, sl != .m, sl != .h⟩ } },
    agenda := [.issue 0 sl] }

end Sys2Proof.Machine
end

