-- ==== Sys2Proof/Machine/Step.lean ====
section
/-! DEFINITION. The step of the package, and a word placed where the next step fetches it. -/

namespace Sys2Proof.Machine

open Sys2Proof

/-- One step: the next move of the agenda. -/
def step (s : State) : Host.Outcome State Fault Refusal :=
  perform s.upcoming.1 { s with agenda := s.upcoming.2 }

/-- A word of the opcode table stored where the next step fetches it, in the first slot whose map holds it. -/
def State.withFetchWord (s : State) (_nbits w : Nat) : State :=
  s.placeWord (((decodeAny (BitVec.ofNat 32 w)).map Prod.fst).getD .s) (BitVec.ofNat 32 w)

end Sys2Proof.Machine
end

