-- ==== Sys2Proof/Laws/Encoding.lean ====
section
/-! SUPPORT. Fields of encoded words: what `fld` and `rvBit` read from a word put together by `Instr.encode`, one lemma for each
layout of R78 to R82. -/

namespace Sys2Proof.Laws

open Sys2Proof

theorem bv_extract_hi {m n : Nat} (x : BitVec m) (y : BitVec n) (lo len : Nat) (h : n ≤ lo) :
    (x ++ y).extractLsb' lo len = x.extractLsb' (lo - n) len := BitVec.extractLsb'_append_eq_of_le h

theorem bv_extract_lo {m n : Nat} (x : BitVec m) (y : BitVec n) (lo len : Nat) (h : lo + len ≤ n) :
    (x ++ y).extractLsb' lo len = y.extractLsb' lo len := BitVec.extractLsb'_append_eq_of_add_le h

theorem bv_extract_all {n : Nat} (y : BitVec n) : y.extractLsb' 0 n = y := by simp

theorem bv_bit_hi {m n : Nat} (x : BitVec m) (y : BitVec n) (i : Nat) (h : n ≤ i) : (x ++ y).getLsbD i = x.getLsbD (i - n) := by
  rw [BitVec.getLsbD_append]; simp [Nat.not_lt.mpr h]

theorem checked_ok {legal zero : Bool} {i : Instr} (h : legal = true) (hz : zero = true) : checked legal zero i = .ok i := by
  rw [h, hz]; rfl

theorem word_1_6_5_5_5_10 (r : Bool) (x0 : BitVec 6) (x1 : BitVec 5) (x2 : BitVec 5) (x3 : BitVec 5) (x4 : BitVec 10) :
    rvBit (BitVec.ofBool r ++ x0 ++ x1 ++ x2 ++ x3 ++ x4) = r ∧
    fld (BitVec.ofBool r ++ x0 ++ x1 ++ x2 ++ x3 ++ x4) 25 6 = x0 ∧
    fld (BitVec.ofBool r ++ x0 ++ x1 ++ x2 ++ x3 ++ x4) 20 5 = x1 ∧
    fld (BitVec.ofBool r ++ x0 ++ x1 ++ x2 ++ x3 ++ x4) 15 5 = x2 ∧
    fld (BitVec.ofBool r ++ x0 ++ x1 ++ x2 ++ x3 ++ x4) 10 5 = x3 ∧
    fld (BitVec.ofBool r ++ x0 ++ x1 ++ x2 ++ x3 ++ x4) 0 10 = x4 := by
  simp (disch := decide) only [fld, rvBit, bv_extract_hi, bv_extract_lo, bv_bit_hi, bv_extract_all, Nat.sub_self, Nat.reduceSub,
    BitVec.getLsbD_ofBool, and_self, decide_true, Bool.true_and]

theorem word_1_6_5_5_15 (r : Bool) (x0 : BitVec 6) (x1 : BitVec 5) (x2 : BitVec 5) (x3 : BitVec 15) :
    rvBit (BitVec.ofBool r ++ x0 ++ x1 ++ x2 ++ x3) = r ∧
    fld (BitVec.ofBool r ++ x0 ++ x1 ++ x2 ++ x3) 25 6 = x0 ∧
    fld (BitVec.ofBool r ++ x0 ++ x1 ++ x2 ++ x3) 20 5 = x1 ∧
    fld (BitVec.ofBool r ++ x0 ++ x1 ++ x2 ++ x3) 15 5 = x2 ∧
    fld (BitVec.ofBool r ++ x0 ++ x1 ++ x2 ++ x3) 0 15 = x3 := by
  simp (disch := decide) only [fld, rvBit, bv_extract_hi, bv_extract_lo, bv_bit_hi, bv_extract_all, Nat.sub_self, Nat.reduceSub,
    BitVec.getLsbD_ofBool, and_self, decide_true, Bool.true_and]

theorem word_1_6_5_5_2_7_6 (r : Bool) (x0 : BitVec 6) (x1 : BitVec 5) (x2 : BitVec 5) (x3 : BitVec 2) (x4 : BitVec 7) (x5 : BitVec 6) :
    rvBit (BitVec.ofBool r ++ x0 ++ x1 ++ x2 ++ x3 ++ x4 ++ x5) = r ∧
    fld (BitVec.ofBool r ++ x0 ++ x1 ++ x2 ++ x3 ++ x4 ++ x5) 25 6 = x0 ∧
    fld (BitVec.ofBool r ++ x0 ++ x1 ++ x2 ++ x3 ++ x4 ++ x5) 20 5 = x1 ∧
    fld (BitVec.ofBool r ++ x0 ++ x1 ++ x2 ++ x3 ++ x4 ++ x5) 15 5 = x2 ∧
    fld (BitVec.ofBool r ++ x0 ++ x1 ++ x2 ++ x3 ++ x4 ++ x5) 13 2 = x3 ∧
    fld (BitVec.ofBool r ++ x0 ++ x1 ++ x2 ++ x3 ++ x4 ++ x5) 6 7 = x4 ∧
    fld (BitVec.ofBool r ++ x0 ++ x1 ++ x2 ++ x3 ++ x4 ++ x5) 0 6 = x5 := by
  simp (disch := decide) only [fld, rvBit, bv_extract_hi, bv_extract_lo, bv_bit_hi, bv_extract_all, Nat.sub_self, Nat.reduceSub,
    BitVec.getLsbD_ofBool, and_self, decide_true, Bool.true_and]

theorem word_1_6_5_2_1_1_16 (r : Bool) (x0 : BitVec 6) (x1 : BitVec 5) (x2 : BitVec 2) (x3 : BitVec 1) (x4 : BitVec 1) (x5 : BitVec 16) :
    rvBit (BitVec.ofBool r ++ x0 ++ x1 ++ x2 ++ x3 ++ x4 ++ x5) = r ∧
    fld (BitVec.ofBool r ++ x0 ++ x1 ++ x2 ++ x3 ++ x4 ++ x5) 25 6 = x0 ∧
    fld (BitVec.ofBool r ++ x0 ++ x1 ++ x2 ++ x3 ++ x4 ++ x5) 20 5 = x1 ∧
    fld (BitVec.ofBool r ++ x0 ++ x1 ++ x2 ++ x3 ++ x4 ++ x5) 18 2 = x2 ∧
    fld (BitVec.ofBool r ++ x0 ++ x1 ++ x2 ++ x3 ++ x4 ++ x5) 17 1 = x3 ∧
    fld (BitVec.ofBool r ++ x0 ++ x1 ++ x2 ++ x3 ++ x4 ++ x5) 16 1 = x4 ∧
    fld (BitVec.ofBool r ++ x0 ++ x1 ++ x2 ++ x3 ++ x4 ++ x5) 0 16 = x5 := by
  simp (disch := decide) only [fld, rvBit, bv_extract_hi, bv_extract_lo, bv_bit_hi, bv_extract_all, Nat.sub_self, Nat.reduceSub,
    BitVec.getLsbD_ofBool, and_self, decide_true, Bool.true_and]

theorem word_1_6_4_6_15 (r : Bool) (x0 : BitVec 6) (x1 : BitVec 4) (x2 : BitVec 6) (x3 : BitVec 15) :
    rvBit (BitVec.ofBool r ++ x0 ++ x1 ++ x2 ++ x3) = r ∧
    fld (BitVec.ofBool r ++ x0 ++ x1 ++ x2 ++ x3) 25 6 = x0 ∧
    fld (BitVec.ofBool r ++ x0 ++ x1 ++ x2 ++ x3) 21 4 = x1 ∧
    fld (BitVec.ofBool r ++ x0 ++ x1 ++ x2 ++ x3) 15 6 = x2 ∧
    fld (BitVec.ofBool r ++ x0 ++ x1 ++ x2 ++ x3) 0 15 = x3 := by
  simp (disch := decide) only [fld, rvBit, bv_extract_hi, bv_extract_lo, bv_bit_hi, bv_extract_all, Nat.sub_self, Nat.reduceSub,
    BitVec.getLsbD_ofBool, and_self, decide_true, Bool.true_and]

theorem word_1_6_25 (r : Bool) (x0 : BitVec 6) (x1 : BitVec 25) :
    rvBit (BitVec.ofBool r ++ x0 ++ x1) = r ∧
    fld (BitVec.ofBool r ++ x0 ++ x1) 25 6 = x0 ∧
    fld (BitVec.ofBool r ++ x0 ++ x1) 0 25 = x1 := by
  simp (disch := decide) only [fld, rvBit, bv_extract_hi, bv_extract_lo, bv_bit_hi, bv_extract_all, Nat.sub_self, Nat.reduceSub,
    BitVec.getLsbD_ofBool, and_self, decide_true, Bool.true_and]

theorem word_1_6_5_6_14 (r : Bool) (x0 : BitVec 6) (x1 : BitVec 5) (x2 : BitVec 6) (x3 : BitVec 14) :
    rvBit (BitVec.ofBool r ++ x0 ++ x1 ++ x2 ++ x3) = r ∧
    fld (BitVec.ofBool r ++ x0 ++ x1 ++ x2 ++ x3) 25 6 = x0 ∧
    fld (BitVec.ofBool r ++ x0 ++ x1 ++ x2 ++ x3) 20 5 = x1 ∧
    fld (BitVec.ofBool r ++ x0 ++ x1 ++ x2 ++ x3) 14 6 = x2 ∧
    fld (BitVec.ofBool r ++ x0 ++ x1 ++ x2 ++ x3) 0 14 = x3 := by
  simp (disch := decide) only [fld, rvBit, bv_extract_hi, bv_extract_lo, bv_bit_hi, bv_extract_all, Nat.sub_self, Nat.reduceSub,
    BitVec.getLsbD_ofBool, and_self, decide_true, Bool.true_and]

theorem word_1_6_5_5_2_3_10 (r : Bool) (x0 : BitVec 6) (x1 : BitVec 5) (x2 : BitVec 5) (x3 : BitVec 2) (x4 : BitVec 3) (x5 : BitVec 10) :
    rvBit (BitVec.ofBool r ++ x0 ++ x1 ++ x2 ++ x3 ++ x4 ++ x5) = r ∧
    fld (BitVec.ofBool r ++ x0 ++ x1 ++ x2 ++ x3 ++ x4 ++ x5) 25 6 = x0 ∧
    fld (BitVec.ofBool r ++ x0 ++ x1 ++ x2 ++ x3 ++ x4 ++ x5) 20 5 = x1 ∧
    fld (BitVec.ofBool r ++ x0 ++ x1 ++ x2 ++ x3 ++ x4 ++ x5) 15 5 = x2 ∧
    fld (BitVec.ofBool r ++ x0 ++ x1 ++ x2 ++ x3 ++ x4 ++ x5) 13 2 = x3 ∧
    fld (BitVec.ofBool r ++ x0 ++ x1 ++ x2 ++ x3 ++ x4 ++ x5) 10 3 = x4 ∧
    fld (BitVec.ofBool r ++ x0 ++ x1 ++ x2 ++ x3 ++ x4 ++ x5) 0 10 = x5 := by
  simp (disch := decide) only [fld, rvBit, bv_extract_hi, bv_extract_lo, bv_bit_hi, bv_extract_all, Nat.sub_self, Nat.reduceSub,
    BitVec.getLsbD_ofBool, and_self, decide_true, Bool.true_and]

theorem word_1_6_5_5_5_4_1_1_2_1_1 (r : Bool) (x0 : BitVec 6) (x1 : BitVec 5) (x2 : BitVec 5) (x3 : BitVec 5) (x4 : BitVec 4) (x5 : BitVec 1) (x6 : BitVec 1) (x7 : BitVec 2) (x8 : BitVec 1) (x9 : BitVec 1) :
    rvBit (BitVec.ofBool r ++ x0 ++ x1 ++ x2 ++ x3 ++ x4 ++ x5 ++ x6 ++ x7 ++ x8 ++ x9) = r ∧
    fld (BitVec.ofBool r ++ x0 ++ x1 ++ x2 ++ x3 ++ x4 ++ x5 ++ x6 ++ x7 ++ x8 ++ x9) 25 6 = x0 ∧
    fld (BitVec.ofBool r ++ x0 ++ x1 ++ x2 ++ x3 ++ x4 ++ x5 ++ x6 ++ x7 ++ x8 ++ x9) 20 5 = x1 ∧
    fld (BitVec.ofBool r ++ x0 ++ x1 ++ x2 ++ x3 ++ x4 ++ x5 ++ x6 ++ x7 ++ x8 ++ x9) 15 5 = x2 ∧
    fld (BitVec.ofBool r ++ x0 ++ x1 ++ x2 ++ x3 ++ x4 ++ x5 ++ x6 ++ x7 ++ x8 ++ x9) 10 5 = x3 ∧
    fld (BitVec.ofBool r ++ x0 ++ x1 ++ x2 ++ x3 ++ x4 ++ x5 ++ x6 ++ x7 ++ x8 ++ x9) 6 4 = x4 ∧
    fld (BitVec.ofBool r ++ x0 ++ x1 ++ x2 ++ x3 ++ x4 ++ x5 ++ x6 ++ x7 ++ x8 ++ x9) 5 1 = x5 ∧
    fld (BitVec.ofBool r ++ x0 ++ x1 ++ x2 ++ x3 ++ x4 ++ x5 ++ x6 ++ x7 ++ x8 ++ x9) 4 1 = x6 ∧
    fld (BitVec.ofBool r ++ x0 ++ x1 ++ x2 ++ x3 ++ x4 ++ x5 ++ x6 ++ x7 ++ x8 ++ x9) 2 2 = x7 ∧
    fld (BitVec.ofBool r ++ x0 ++ x1 ++ x2 ++ x3 ++ x4 ++ x5 ++ x6 ++ x7 ++ x8 ++ x9) 1 1 = x8 ∧
    fld (BitVec.ofBool r ++ x0 ++ x1 ++ x2 ++ x3 ++ x4 ++ x5 ++ x6 ++ x7 ++ x8 ++ x9) 0 1 = x9 := by
  simp (disch := decide) only [fld, rvBit, bv_extract_hi, bv_extract_lo, bv_bit_hi, bv_extract_all, Nat.sub_self, Nat.reduceSub,
    BitVec.getLsbD_ofBool, and_self, decide_true, Bool.true_and]

theorem word_1_6_14_2_9 (r : Bool) (x0 : BitVec 6) (x1 : BitVec 14) (x2 : BitVec 2) (x3 : BitVec 9) :
    rvBit (BitVec.ofBool r ++ x0 ++ x1 ++ x2 ++ x3) = r ∧
    fld (BitVec.ofBool r ++ x0 ++ x1 ++ x2 ++ x3) 25 6 = x0 ∧
    fld (BitVec.ofBool r ++ x0 ++ x1 ++ x2 ++ x3) 11 14 = x1 ∧
    fld (BitVec.ofBool r ++ x0 ++ x1 ++ x2 ++ x3) 9 2 = x2 ∧
    fld (BitVec.ofBool r ++ x0 ++ x1 ++ x2 ++ x3) 0 9 = x3 := by
  simp (disch := decide) only [fld, rvBit, bv_extract_hi, bv_extract_lo, bv_bit_hi, bv_extract_all, Nat.sub_self, Nat.reduceSub,
    BitVec.getLsbD_ofBool, and_self, decide_true, Bool.true_and]

theorem word_1_6_7_7_2_9 (r : Bool) (x0 : BitVec 6) (x1 : BitVec 7) (x2 : BitVec 7) (x3 : BitVec 2) (x4 : BitVec 9) :
    rvBit (BitVec.ofBool r ++ x0 ++ x1 ++ x2 ++ x3 ++ x4) = r ∧
    fld (BitVec.ofBool r ++ x0 ++ x1 ++ x2 ++ x3 ++ x4) 25 6 = x0 ∧
    fld (BitVec.ofBool r ++ x0 ++ x1 ++ x2 ++ x3 ++ x4) 18 7 = x1 ∧
    fld (BitVec.ofBool r ++ x0 ++ x1 ++ x2 ++ x3 ++ x4) 11 7 = x2 ∧
    fld (BitVec.ofBool r ++ x0 ++ x1 ++ x2 ++ x3 ++ x4) 9 2 = x3 ∧
    fld (BitVec.ofBool r ++ x0 ++ x1 ++ x2 ++ x3 ++ x4) 0 9 = x4 := by
  simp (disch := decide) only [fld, rvBit, bv_extract_hi, bv_extract_lo, bv_bit_hi, bv_extract_all, Nat.sub_self, Nat.reduceSub,
    BitVec.getLsbD_ofBool, and_self, decide_true, Bool.true_and]

theorem word_1_6_4_21 (r : Bool) (x0 : BitVec 6) (x1 : BitVec 4) (x2 : BitVec 21) :
    rvBit (BitVec.ofBool r ++ x0 ++ x1 ++ x2) = r ∧
    fld (BitVec.ofBool r ++ x0 ++ x1 ++ x2) 25 6 = x0 ∧
    fld (BitVec.ofBool r ++ x0 ++ x1 ++ x2) 21 4 = x1 ∧
    fld (BitVec.ofBool r ++ x0 ++ x1 ++ x2) 0 21 = x2 := by
  simp (disch := decide) only [fld, rvBit, bv_extract_hi, bv_extract_lo, bv_bit_hi, bv_extract_all, Nat.sub_self, Nat.reduceSub,
    BitVec.getLsbD_ofBool, and_self, decide_true, Bool.true_and]

theorem word_1_6_4_8_13 (r : Bool) (x0 : BitVec 6) (x1 : BitVec 4) (x2 : BitVec 8) (x3 : BitVec 13) :
    rvBit (BitVec.ofBool r ++ x0 ++ x1 ++ x2 ++ x3) = r ∧
    fld (BitVec.ofBool r ++ x0 ++ x1 ++ x2 ++ x3) 25 6 = x0 ∧
    fld (BitVec.ofBool r ++ x0 ++ x1 ++ x2 ++ x3) 21 4 = x1 ∧
    fld (BitVec.ofBool r ++ x0 ++ x1 ++ x2 ++ x3) 13 8 = x2 ∧
    fld (BitVec.ofBool r ++ x0 ++ x1 ++ x2 ++ x3) 0 13 = x3 := by
  simp (disch := decide) only [fld, rvBit, bv_extract_hi, bv_extract_lo, bv_bit_hi, bv_extract_all, Nat.sub_self, Nat.reduceSub,
    BitVec.getLsbD_ofBool, and_self, decide_true, Bool.true_and]

theorem word_1_6_5_5_5_8_2 (r : Bool) (x0 : BitVec 6) (x1 : BitVec 5) (x2 : BitVec 5) (x3 : BitVec 5) (x4 : BitVec 8) (x5 : BitVec 2) :
    rvBit (BitVec.ofBool r ++ x0 ++ x1 ++ x2 ++ x3 ++ x4 ++ x5) = r ∧
    fld (BitVec.ofBool r ++ x0 ++ x1 ++ x2 ++ x3 ++ x4 ++ x5) 25 6 = x0 ∧
    fld (BitVec.ofBool r ++ x0 ++ x1 ++ x2 ++ x3 ++ x4 ++ x5) 20 5 = x1 ∧
    fld (BitVec.ofBool r ++ x0 ++ x1 ++ x2 ++ x3 ++ x4 ++ x5) 15 5 = x2 ∧
    fld (BitVec.ofBool r ++ x0 ++ x1 ++ x2 ++ x3 ++ x4 ++ x5) 10 5 = x3 ∧
    fld (BitVec.ofBool r ++ x0 ++ x1 ++ x2 ++ x3 ++ x4 ++ x5) 2 8 = x4 ∧
    fld (BitVec.ofBool r ++ x0 ++ x1 ++ x2 ++ x3 ++ x4 ++ x5) 0 2 = x5 := by
  simp (disch := decide) only [fld, rvBit, bv_extract_hi, bv_extract_lo, bv_bit_hi, bv_extract_all, Nat.sub_self, Nat.reduceSub,
    BitVec.getLsbD_ofBool, and_self, decide_true, Bool.true_and]

theorem word_1_6_5_20 (r : Bool) (x0 : BitVec 6) (x1 : BitVec 5) (x2 : BitVec 20) :
    rvBit (BitVec.ofBool r ++ x0 ++ x1 ++ x2) = r ∧
    fld (BitVec.ofBool r ++ x0 ++ x1 ++ x2) 25 6 = x0 ∧
    fld (BitVec.ofBool r ++ x0 ++ x1 ++ x2) 20 5 = x1 ∧
    fld (BitVec.ofBool r ++ x0 ++ x1 ++ x2) 0 20 = x2 := by
  simp (disch := decide) only [fld, rvBit, bv_extract_hi, bv_extract_lo, bv_bit_hi, bv_extract_all, Nat.sub_self, Nat.reduceSub,
    BitVec.getLsbD_ofBool, and_self, decide_true, Bool.true_and]

theorem word_1_6_5_10_10 (r : Bool) (x0 : BitVec 6) (x1 : BitVec 5) (x2 : BitVec 10) (x3 : BitVec 10) :
    rvBit (BitVec.ofBool r ++ x0 ++ x1 ++ x2 ++ x3) = r ∧
    fld (BitVec.ofBool r ++ x0 ++ x1 ++ x2 ++ x3) 25 6 = x0 ∧
    fld (BitVec.ofBool r ++ x0 ++ x1 ++ x2 ++ x3) 20 5 = x1 ∧
    fld (BitVec.ofBool r ++ x0 ++ x1 ++ x2 ++ x3) 10 10 = x2 ∧
    fld (BitVec.ofBool r ++ x0 ++ x1 ++ x2 ++ x3) 0 10 = x3 := by
  simp (disch := decide) only [fld, rvBit, bv_extract_hi, bv_extract_lo, bv_bit_hi, bv_extract_all, Nat.sub_self, Nat.reduceSub,
    BitVec.getLsbD_ofBool, and_self, decide_true, Bool.true_and]

theorem word_1_6_5_5_12_3 (r : Bool) (x0 : BitVec 6) (x1 : BitVec 5) (x2 : BitVec 5) (x3 : BitVec 12) (x4 : BitVec 3) :
    rvBit (BitVec.ofBool r ++ x0 ++ x1 ++ x2 ++ x3 ++ x4) = r ∧
    fld (BitVec.ofBool r ++ x0 ++ x1 ++ x2 ++ x3 ++ x4) 25 6 = x0 ∧
    fld (BitVec.ofBool r ++ x0 ++ x1 ++ x2 ++ x3 ++ x4) 20 5 = x1 ∧
    fld (BitVec.ofBool r ++ x0 ++ x1 ++ x2 ++ x3 ++ x4) 15 5 = x2 ∧
    fld (BitVec.ofBool r ++ x0 ++ x1 ++ x2 ++ x3 ++ x4) 3 12 = x3 ∧
    fld (BitVec.ofBool r ++ x0 ++ x1 ++ x2 ++ x3 ++ x4) 0 3 = x4 := by
  simp (disch := decide) only [fld, rvBit, bv_extract_hi, bv_extract_lo, bv_bit_hi, bv_extract_all, Nat.sub_self, Nat.reduceSub,
    BitVec.getLsbD_ofBool, and_self, decide_true, Bool.true_and]

theorem word_1_6_15_10 (r : Bool) (x0 : BitVec 6) (x1 : BitVec 15) (x2 : BitVec 10) :
    rvBit (BitVec.ofBool r ++ x0 ++ x1 ++ x2) = r ∧
    fld (BitVec.ofBool r ++ x0 ++ x1 ++ x2) 25 6 = x0 ∧
    fld (BitVec.ofBool r ++ x0 ++ x1 ++ x2) 10 15 = x1 ∧
    fld (BitVec.ofBool r ++ x0 ++ x1 ++ x2) 0 10 = x2 := by
  simp (disch := decide) only [fld, rvBit, bv_extract_hi, bv_extract_lo, bv_bit_hi, bv_extract_all, Nat.sub_self, Nat.reduceSub,
    BitVec.getLsbD_ofBool, and_self, decide_true, Bool.true_and]

theorem word_1_6_5_5_14_1 (r : Bool) (x0 : BitVec 6) (x1 : BitVec 5) (x2 : BitVec 5) (x3 : BitVec 14) (x4 : BitVec 1) :
    rvBit (BitVec.ofBool r ++ x0 ++ x1 ++ x2 ++ x3 ++ x4) = r ∧
    fld (BitVec.ofBool r ++ x0 ++ x1 ++ x2 ++ x3 ++ x4) 25 6 = x0 ∧
    fld (BitVec.ofBool r ++ x0 ++ x1 ++ x2 ++ x3 ++ x4) 20 5 = x1 ∧
    fld (BitVec.ofBool r ++ x0 ++ x1 ++ x2 ++ x3 ++ x4) 15 5 = x2 ∧
    fld (BitVec.ofBool r ++ x0 ++ x1 ++ x2 ++ x3 ++ x4) 1 14 = x3 ∧
    fld (BitVec.ofBool r ++ x0 ++ x1 ++ x2 ++ x3 ++ x4) 0 1 = x4 := by
  simp (disch := decide) only [fld, rvBit, bv_extract_hi, bv_extract_lo, bv_bit_hi, bv_extract_all, Nat.sub_self, Nat.reduceSub,
    BitVec.getLsbD_ofBool, and_self, decide_true, Bool.true_and]

theorem word_1_6_5_5_13_2 (r : Bool) (x0 : BitVec 6) (x1 : BitVec 5) (x2 : BitVec 5) (x3 : BitVec 13) (x4 : BitVec 2) :
    rvBit (BitVec.ofBool r ++ x0 ++ x1 ++ x2 ++ x3 ++ x4) = r ∧
    fld (BitVec.ofBool r ++ x0 ++ x1 ++ x2 ++ x3 ++ x4) 25 6 = x0 ∧
    fld (BitVec.ofBool r ++ x0 ++ x1 ++ x2 ++ x3 ++ x4) 20 5 = x1 ∧
    fld (BitVec.ofBool r ++ x0 ++ x1 ++ x2 ++ x3 ++ x4) 15 5 = x2 ∧
    fld (BitVec.ofBool r ++ x0 ++ x1 ++ x2 ++ x3 ++ x4) 2 13 = x3 ∧
    fld (BitVec.ofBool r ++ x0 ++ x1 ++ x2 ++ x3 ++ x4) 0 2 = x4 := by
  simp (disch := decide) only [fld, rvBit, bv_extract_hi, bv_extract_lo, bv_bit_hi, bv_extract_all, Nat.sub_self, Nat.reduceSub,
    BitVec.getLsbD_ofBool, and_self, decide_true, Bool.true_and]

theorem word_1_6_4_4_4_4_9 (r : Bool) (x0 : BitVec 6) (x1 : BitVec 4) (x2 : BitVec 4) (x3 : BitVec 4) (x4 : BitVec 4) (x5 : BitVec 9) :
    rvBit (BitVec.ofBool r ++ x0 ++ x1 ++ x2 ++ x3 ++ x4 ++ x5) = r ∧
    fld (BitVec.ofBool r ++ x0 ++ x1 ++ x2 ++ x3 ++ x4 ++ x5) 25 6 = x0 ∧
    fld (BitVec.ofBool r ++ x0 ++ x1 ++ x2 ++ x3 ++ x4 ++ x5) 21 4 = x1 ∧
    fld (BitVec.ofBool r ++ x0 ++ x1 ++ x2 ++ x3 ++ x4 ++ x5) 17 4 = x2 ∧
    fld (BitVec.ofBool r ++ x0 ++ x1 ++ x2 ++ x3 ++ x4 ++ x5) 13 4 = x3 ∧
    fld (BitVec.ofBool r ++ x0 ++ x1 ++ x2 ++ x3 ++ x4 ++ x5) 9 4 = x4 ∧
    fld (BitVec.ofBool r ++ x0 ++ x1 ++ x2 ++ x3 ++ x4 ++ x5) 0 9 = x5 := by
  simp (disch := decide) only [fld, rvBit, bv_extract_hi, bv_extract_lo, bv_bit_hi, bv_extract_all, Nat.sub_self, Nat.reduceSub,
    BitVec.getLsbD_ofBool, and_self, decide_true, Bool.true_and]

theorem word_1_6_4_4_4_4_5_4 (r : Bool) (x0 : BitVec 6) (x1 : BitVec 4) (x2 : BitVec 4) (x3 : BitVec 4) (x4 : BitVec 4) (x5 : BitVec 5) (x6 : BitVec 4) :
    rvBit (BitVec.ofBool r ++ x0 ++ x1 ++ x2 ++ x3 ++ x4 ++ x5 ++ x6) = r ∧
    fld (BitVec.ofBool r ++ x0 ++ x1 ++ x2 ++ x3 ++ x4 ++ x5 ++ x6) 25 6 = x0 ∧
    fld (BitVec.ofBool r ++ x0 ++ x1 ++ x2 ++ x3 ++ x4 ++ x5 ++ x6) 21 4 = x1 ∧
    fld (BitVec.ofBool r ++ x0 ++ x1 ++ x2 ++ x3 ++ x4 ++ x5 ++ x6) 17 4 = x2 ∧
    fld (BitVec.ofBool r ++ x0 ++ x1 ++ x2 ++ x3 ++ x4 ++ x5 ++ x6) 13 4 = x3 ∧
    fld (BitVec.ofBool r ++ x0 ++ x1 ++ x2 ++ x3 ++ x4 ++ x5 ++ x6) 9 4 = x4 ∧
    fld (BitVec.ofBool r ++ x0 ++ x1 ++ x2 ++ x3 ++ x4 ++ x5 ++ x6) 4 5 = x5 ∧
    fld (BitVec.ofBool r ++ x0 ++ x1 ++ x2 ++ x3 ++ x4 ++ x5 ++ x6) 0 4 = x6 := by
  simp (disch := decide) only [fld, rvBit, bv_extract_hi, bv_extract_lo, bv_bit_hi, bv_extract_all, Nat.sub_self, Nat.reduceSub,
    BitVec.getLsbD_ofBool, and_self, decide_true, Bool.true_and]

theorem word_1_6_4_4_4_4_4_2_1_2 (r : Bool) (x0 : BitVec 6) (x1 : BitVec 4) (x2 : BitVec 4) (x3 : BitVec 4) (x4 : BitVec 4) (x5 : BitVec 4) (x6 : BitVec 2) (x7 : BitVec 1) (x8 : BitVec 2) :
    rvBit (BitVec.ofBool r ++ x0 ++ x1 ++ x2 ++ x3 ++ x4 ++ x5 ++ x6 ++ x7 ++ x8) = r ∧
    fld (BitVec.ofBool r ++ x0 ++ x1 ++ x2 ++ x3 ++ x4 ++ x5 ++ x6 ++ x7 ++ x8) 25 6 = x0 ∧
    fld (BitVec.ofBool r ++ x0 ++ x1 ++ x2 ++ x3 ++ x4 ++ x5 ++ x6 ++ x7 ++ x8) 21 4 = x1 ∧
    fld (BitVec.ofBool r ++ x0 ++ x1 ++ x2 ++ x3 ++ x4 ++ x5 ++ x6 ++ x7 ++ x8) 17 4 = x2 ∧
    fld (BitVec.ofBool r ++ x0 ++ x1 ++ x2 ++ x3 ++ x4 ++ x5 ++ x6 ++ x7 ++ x8) 13 4 = x3 ∧
    fld (BitVec.ofBool r ++ x0 ++ x1 ++ x2 ++ x3 ++ x4 ++ x5 ++ x6 ++ x7 ++ x8) 9 4 = x4 ∧
    fld (BitVec.ofBool r ++ x0 ++ x1 ++ x2 ++ x3 ++ x4 ++ x5 ++ x6 ++ x7 ++ x8) 5 4 = x5 ∧
    fld (BitVec.ofBool r ++ x0 ++ x1 ++ x2 ++ x3 ++ x4 ++ x5 ++ x6 ++ x7 ++ x8) 3 2 = x6 ∧
    fld (BitVec.ofBool r ++ x0 ++ x1 ++ x2 ++ x3 ++ x4 ++ x5 ++ x6 ++ x7 ++ x8) 2 1 = x7 ∧
    fld (BitVec.ofBool r ++ x0 ++ x1 ++ x2 ++ x3 ++ x4 ++ x5 ++ x6 ++ x7 ++ x8) 0 2 = x8 := by
  simp (disch := decide) only [fld, rvBit, bv_extract_hi, bv_extract_lo, bv_bit_hi, bv_extract_all, Nat.sub_self, Nat.reduceSub,
    BitVec.getLsbD_ofBool, and_self, decide_true, Bool.true_and]

theorem word_1_6_4_4_4_4_4_5 (r : Bool) (x0 : BitVec 6) (x1 : BitVec 4) (x2 : BitVec 4) (x3 : BitVec 4) (x4 : BitVec 4) (x5 : BitVec 4) (x6 : BitVec 5) :
    rvBit (BitVec.ofBool r ++ x0 ++ x1 ++ x2 ++ x3 ++ x4 ++ x5 ++ x6) = r ∧
    fld (BitVec.ofBool r ++ x0 ++ x1 ++ x2 ++ x3 ++ x4 ++ x5 ++ x6) 25 6 = x0 ∧
    fld (BitVec.ofBool r ++ x0 ++ x1 ++ x2 ++ x3 ++ x4 ++ x5 ++ x6) 21 4 = x1 ∧
    fld (BitVec.ofBool r ++ x0 ++ x1 ++ x2 ++ x3 ++ x4 ++ x5 ++ x6) 17 4 = x2 ∧
    fld (BitVec.ofBool r ++ x0 ++ x1 ++ x2 ++ x3 ++ x4 ++ x5 ++ x6) 13 4 = x3 ∧
    fld (BitVec.ofBool r ++ x0 ++ x1 ++ x2 ++ x3 ++ x4 ++ x5 ++ x6) 9 4 = x4 ∧
    fld (BitVec.ofBool r ++ x0 ++ x1 ++ x2 ++ x3 ++ x4 ++ x5 ++ x6) 5 4 = x5 ∧
    fld (BitVec.ofBool r ++ x0 ++ x1 ++ x2 ++ x3 ++ x4 ++ x5 ++ x6) 0 5 = x6 := by
  simp (disch := decide) only [fld, rvBit, bv_extract_hi, bv_extract_lo, bv_bit_hi, bv_extract_all, Nat.sub_self, Nat.reduceSub,
    BitVec.getLsbD_ofBool, and_self, decide_true, Bool.true_and]

theorem word_1_6_4_4_4_4_3_6 (r : Bool) (x0 : BitVec 6) (x1 : BitVec 4) (x2 : BitVec 4) (x3 : BitVec 4) (x4 : BitVec 4) (x5 : BitVec 3) (x6 : BitVec 6) :
    rvBit (BitVec.ofBool r ++ x0 ++ x1 ++ x2 ++ x3 ++ x4 ++ x5 ++ x6) = r ∧
    fld (BitVec.ofBool r ++ x0 ++ x1 ++ x2 ++ x3 ++ x4 ++ x5 ++ x6) 25 6 = x0 ∧
    fld (BitVec.ofBool r ++ x0 ++ x1 ++ x2 ++ x3 ++ x4 ++ x5 ++ x6) 21 4 = x1 ∧
    fld (BitVec.ofBool r ++ x0 ++ x1 ++ x2 ++ x3 ++ x4 ++ x5 ++ x6) 17 4 = x2 ∧
    fld (BitVec.ofBool r ++ x0 ++ x1 ++ x2 ++ x3 ++ x4 ++ x5 ++ x6) 13 4 = x3 ∧
    fld (BitVec.ofBool r ++ x0 ++ x1 ++ x2 ++ x3 ++ x4 ++ x5 ++ x6) 9 4 = x4 ∧
    fld (BitVec.ofBool r ++ x0 ++ x1 ++ x2 ++ x3 ++ x4 ++ x5 ++ x6) 6 3 = x5 ∧
    fld (BitVec.ofBool r ++ x0 ++ x1 ++ x2 ++ x3 ++ x4 ++ x5 ++ x6) 0 6 = x6 := by
  simp (disch := decide) only [fld, rvBit, bv_extract_hi, bv_extract_lo, bv_bit_hi, bv_extract_all, Nat.sub_self, Nat.reduceSub,
    BitVec.getLsbD_ofBool, and_self, decide_true, Bool.true_and]

theorem word_1_6_4_5_3_4_9 (r : Bool) (x0 : BitVec 6) (x1 : BitVec 4) (x2 : BitVec 5) (x3 : BitVec 3) (x4 : BitVec 4) (x5 : BitVec 9) :
    rvBit (BitVec.ofBool r ++ x0 ++ x1 ++ x2 ++ x3 ++ x4 ++ x5) = r ∧
    fld (BitVec.ofBool r ++ x0 ++ x1 ++ x2 ++ x3 ++ x4 ++ x5) 25 6 = x0 ∧
    fld (BitVec.ofBool r ++ x0 ++ x1 ++ x2 ++ x3 ++ x4 ++ x5) 21 4 = x1 ∧
    fld (BitVec.ofBool r ++ x0 ++ x1 ++ x2 ++ x3 ++ x4 ++ x5) 16 5 = x2 ∧
    fld (BitVec.ofBool r ++ x0 ++ x1 ++ x2 ++ x3 ++ x4 ++ x5) 13 3 = x3 ∧
    fld (BitVec.ofBool r ++ x0 ++ x1 ++ x2 ++ x3 ++ x4 ++ x5) 9 4 = x4 ∧
    fld (BitVec.ofBool r ++ x0 ++ x1 ++ x2 ++ x3 ++ x4 ++ x5) 0 9 = x5 := by
  simp (disch := decide) only [fld, rvBit, bv_extract_hi, bv_extract_lo, bv_bit_hi, bv_extract_all, Nat.sub_self, Nat.reduceSub,
    BitVec.getLsbD_ofBool, and_self, decide_true, Bool.true_and]

theorem word_1_6_4_8_4_9 (r : Bool) (x0 : BitVec 6) (x1 : BitVec 4) (x2 : BitVec 8) (x3 : BitVec 4) (x4 : BitVec 9) :
    rvBit (BitVec.ofBool r ++ x0 ++ x1 ++ x2 ++ x3 ++ x4) = r ∧
    fld (BitVec.ofBool r ++ x0 ++ x1 ++ x2 ++ x3 ++ x4) 25 6 = x0 ∧
    fld (BitVec.ofBool r ++ x0 ++ x1 ++ x2 ++ x3 ++ x4) 21 4 = x1 ∧
    fld (BitVec.ofBool r ++ x0 ++ x1 ++ x2 ++ x3 ++ x4) 13 8 = x2 ∧
    fld (BitVec.ofBool r ++ x0 ++ x1 ++ x2 ++ x3 ++ x4) 9 4 = x3 ∧
    fld (BitVec.ofBool r ++ x0 ++ x1 ++ x2 ++ x3 ++ x4) 0 9 = x4 := by
  simp (disch := decide) only [fld, rvBit, bv_extract_hi, bv_extract_lo, bv_bit_hi, bv_extract_all, Nat.sub_self, Nat.reduceSub,
    BitVec.getLsbD_ofBool, and_self, decide_true, Bool.true_and]

theorem word_1_6_4_4_8_6_3 (r : Bool) (x0 : BitVec 6) (x1 : BitVec 4) (x2 : BitVec 4) (x3 : BitVec 8) (x4 : BitVec 6) (x5 : BitVec 3) :
    rvBit (BitVec.ofBool r ++ x0 ++ x1 ++ x2 ++ x3 ++ x4 ++ x5) = r ∧
    fld (BitVec.ofBool r ++ x0 ++ x1 ++ x2 ++ x3 ++ x4 ++ x5) 25 6 = x0 ∧
    fld (BitVec.ofBool r ++ x0 ++ x1 ++ x2 ++ x3 ++ x4 ++ x5) 21 4 = x1 ∧
    fld (BitVec.ofBool r ++ x0 ++ x1 ++ x2 ++ x3 ++ x4 ++ x5) 17 4 = x2 ∧
    fld (BitVec.ofBool r ++ x0 ++ x1 ++ x2 ++ x3 ++ x4 ++ x5) 9 8 = x3 ∧
    fld (BitVec.ofBool r ++ x0 ++ x1 ++ x2 ++ x3 ++ x4 ++ x5) 3 6 = x4 ∧
    fld (BitVec.ofBool r ++ x0 ++ x1 ++ x2 ++ x3 ++ x4 ++ x5) 0 3 = x5 := by
  simp (disch := decide) only [fld, rvBit, bv_extract_hi, bv_extract_lo, bv_bit_hi, bv_extract_all, Nat.sub_self, Nat.reduceSub,
    BitVec.getLsbD_ofBool, and_self, decide_true, Bool.true_and]

theorem word_1_6_4_8_4_8_1 (r : Bool) (x0 : BitVec 6) (x1 : BitVec 4) (x2 : BitVec 8) (x3 : BitVec 4) (x4 : BitVec 8) (x5 : BitVec 1) :
    rvBit (BitVec.ofBool r ++ x0 ++ x1 ++ x2 ++ x3 ++ x4 ++ x5) = r ∧
    fld (BitVec.ofBool r ++ x0 ++ x1 ++ x2 ++ x3 ++ x4 ++ x5) 25 6 = x0 ∧
    fld (BitVec.ofBool r ++ x0 ++ x1 ++ x2 ++ x3 ++ x4 ++ x5) 21 4 = x1 ∧
    fld (BitVec.ofBool r ++ x0 ++ x1 ++ x2 ++ x3 ++ x4 ++ x5) 13 8 = x2 ∧
    fld (BitVec.ofBool r ++ x0 ++ x1 ++ x2 ++ x3 ++ x4 ++ x5) 9 4 = x3 ∧
    fld (BitVec.ofBool r ++ x0 ++ x1 ++ x2 ++ x3 ++ x4 ++ x5) 1 8 = x4 ∧
    fld (BitVec.ofBool r ++ x0 ++ x1 ++ x2 ++ x3 ++ x4 ++ x5) 0 1 = x5 := by
  simp (disch := decide) only [fld, rvBit, bv_extract_hi, bv_extract_lo, bv_bit_hi, bv_extract_all, Nat.sub_self, Nat.reduceSub,
    BitVec.getLsbD_ofBool, and_self, decide_true, Bool.true_and]

theorem word_1_6_4_4_4_10_3 (r : Bool) (x0 : BitVec 6) (x1 : BitVec 4) (x2 : BitVec 4) (x3 : BitVec 4) (x4 : BitVec 10) (x5 : BitVec 3) :
    rvBit (BitVec.ofBool r ++ x0 ++ x1 ++ x2 ++ x3 ++ x4 ++ x5) = r ∧
    fld (BitVec.ofBool r ++ x0 ++ x1 ++ x2 ++ x3 ++ x4 ++ x5) 25 6 = x0 ∧
    fld (BitVec.ofBool r ++ x0 ++ x1 ++ x2 ++ x3 ++ x4 ++ x5) 21 4 = x1 ∧
    fld (BitVec.ofBool r ++ x0 ++ x1 ++ x2 ++ x3 ++ x4 ++ x5) 17 4 = x2 ∧
    fld (BitVec.ofBool r ++ x0 ++ x1 ++ x2 ++ x3 ++ x4 ++ x5) 13 4 = x3 ∧
    fld (BitVec.ofBool r ++ x0 ++ x1 ++ x2 ++ x3 ++ x4 ++ x5) 3 10 = x4 ∧
    fld (BitVec.ofBool r ++ x0 ++ x1 ++ x2 ++ x3 ++ x4 ++ x5) 0 3 = x5 := by
  simp (disch := decide) only [fld, rvBit, bv_extract_hi, bv_extract_lo, bv_bit_hi, bv_extract_all, Nat.sub_self, Nat.reduceSub,
    BitVec.getLsbD_ofBool, and_self, decide_true, Bool.true_and]

theorem word_1_6_4_4_14_3 (r : Bool) (x0 : BitVec 6) (x1 : BitVec 4) (x2 : BitVec 4) (x3 : BitVec 14) (x4 : BitVec 3) :
    rvBit (BitVec.ofBool r ++ x0 ++ x1 ++ x2 ++ x3 ++ x4) = r ∧
    fld (BitVec.ofBool r ++ x0 ++ x1 ++ x2 ++ x3 ++ x4) 25 6 = x0 ∧
    fld (BitVec.ofBool r ++ x0 ++ x1 ++ x2 ++ x3 ++ x4) 21 4 = x1 ∧
    fld (BitVec.ofBool r ++ x0 ++ x1 ++ x2 ++ x3 ++ x4) 17 4 = x2 ∧
    fld (BitVec.ofBool r ++ x0 ++ x1 ++ x2 ++ x3 ++ x4) 3 14 = x3 ∧
    fld (BitVec.ofBool r ++ x0 ++ x1 ++ x2 ++ x3 ++ x4) 0 3 = x4 := by
  simp (disch := decide) only [fld, rvBit, bv_extract_hi, bv_extract_lo, bv_bit_hi, bv_extract_all, Nat.sub_self, Nat.reduceSub,
    BitVec.getLsbD_ofBool, and_self, decide_true, Bool.true_and]

theorem word_1_6_4_18_3 (r : Bool) (x0 : BitVec 6) (x1 : BitVec 4) (x2 : BitVec 18) (x3 : BitVec 3) :
    rvBit (BitVec.ofBool r ++ x0 ++ x1 ++ x2 ++ x3) = r ∧
    fld (BitVec.ofBool r ++ x0 ++ x1 ++ x2 ++ x3) 25 6 = x0 ∧
    fld (BitVec.ofBool r ++ x0 ++ x1 ++ x2 ++ x3) 21 4 = x1 ∧
    fld (BitVec.ofBool r ++ x0 ++ x1 ++ x2 ++ x3) 3 18 = x2 ∧
    fld (BitVec.ofBool r ++ x0 ++ x1 ++ x2 ++ x3) 0 3 = x3 := by
  simp (disch := decide) only [fld, rvBit, bv_extract_hi, bv_extract_lo, bv_bit_hi, bv_extract_all, Nat.sub_self, Nat.reduceSub,
    BitVec.getLsbD_ofBool, and_self, decide_true, Bool.true_and]

theorem word_1_6_12_13 (r : Bool) (x0 : BitVec 6) (x1 : BitVec 12) (x2 : BitVec 13) :
    rvBit (BitVec.ofBool r ++ x0 ++ x1 ++ x2) = r ∧
    fld (BitVec.ofBool r ++ x0 ++ x1 ++ x2) 25 6 = x0 ∧
    fld (BitVec.ofBool r ++ x0 ++ x1 ++ x2) 13 12 = x1 ∧
    fld (BitVec.ofBool r ++ x0 ++ x1 ++ x2) 0 13 = x2 := by
  simp (disch := decide) only [fld, rvBit, bv_extract_hi, bv_extract_lo, bv_bit_hi, bv_extract_all, Nat.sub_self, Nat.reduceSub,
    BitVec.getLsbD_ofBool, and_self, decide_true, Bool.true_and]

theorem word_1_6_4_4_3_1_13 (r : Bool) (x0 : BitVec 6) (x1 : BitVec 4) (x2 : BitVec 4) (x3 : BitVec 3) (x4 : BitVec 1) (x5 : BitVec 13) :
    rvBit (BitVec.ofBool r ++ x0 ++ x1 ++ x2 ++ x3 ++ x4 ++ x5) = r ∧
    fld (BitVec.ofBool r ++ x0 ++ x1 ++ x2 ++ x3 ++ x4 ++ x5) 25 6 = x0 ∧
    fld (BitVec.ofBool r ++ x0 ++ x1 ++ x2 ++ x3 ++ x4 ++ x5) 21 4 = x1 ∧
    fld (BitVec.ofBool r ++ x0 ++ x1 ++ x2 ++ x3 ++ x4 ++ x5) 17 4 = x2 ∧
    fld (BitVec.ofBool r ++ x0 ++ x1 ++ x2 ++ x3 ++ x4 ++ x5) 14 3 = x3 ∧
    fld (BitVec.ofBool r ++ x0 ++ x1 ++ x2 ++ x3 ++ x4 ++ x5) 13 1 = x4 ∧
    fld (BitVec.ofBool r ++ x0 ++ x1 ++ x2 ++ x3 ++ x4 ++ x5) 0 13 = x5 := by
  simp (disch := decide) only [fld, rvBit, bv_extract_hi, bv_extract_lo, bv_bit_hi, bv_extract_all, Nat.sub_self, Nat.reduceSub,
    BitVec.getLsbD_ofBool, and_self, decide_true, Bool.true_and]

theorem word_1_6_4_4_17 (r : Bool) (x0 : BitVec 6) (x1 : BitVec 4) (x2 : BitVec 4) (x3 : BitVec 17) :
    rvBit (BitVec.ofBool r ++ x0 ++ x1 ++ x2 ++ x3) = r ∧
    fld (BitVec.ofBool r ++ x0 ++ x1 ++ x2 ++ x3) 25 6 = x0 ∧
    fld (BitVec.ofBool r ++ x0 ++ x1 ++ x2 ++ x3) 21 4 = x1 ∧
    fld (BitVec.ofBool r ++ x0 ++ x1 ++ x2 ++ x3) 17 4 = x2 ∧
    fld (BitVec.ofBool r ++ x0 ++ x1 ++ x2 ++ x3) 0 17 = x3 := by
  simp (disch := decide) only [fld, rvBit, bv_extract_hi, bv_extract_lo, bv_bit_hi, bv_extract_all, Nat.sub_self, Nat.reduceSub,
    BitVec.getLsbD_ofBool, and_self, decide_true, Bool.true_and]

theorem word_1_6_4_4_3_14 (r : Bool) (x0 : BitVec 6) (x1 : BitVec 4) (x2 : BitVec 4) (x3 : BitVec 3) (x4 : BitVec 14) :
    rvBit (BitVec.ofBool r ++ x0 ++ x1 ++ x2 ++ x3 ++ x4) = r ∧
    fld (BitVec.ofBool r ++ x0 ++ x1 ++ x2 ++ x3 ++ x4) 25 6 = x0 ∧
    fld (BitVec.ofBool r ++ x0 ++ x1 ++ x2 ++ x3 ++ x4) 21 4 = x1 ∧
    fld (BitVec.ofBool r ++ x0 ++ x1 ++ x2 ++ x3 ++ x4) 17 4 = x2 ∧
    fld (BitVec.ofBool r ++ x0 ++ x1 ++ x2 ++ x3 ++ x4) 14 3 = x3 ∧
    fld (BitVec.ofBool r ++ x0 ++ x1 ++ x2 ++ x3 ++ x4) 0 14 = x4 := by
  simp (disch := decide) only [fld, rvBit, bv_extract_hi, bv_extract_lo, bv_bit_hi, bv_extract_all, Nat.sub_self, Nat.reduceSub,
    BitVec.getLsbD_ofBool, and_self, decide_true, Bool.true_and]

theorem word_1_6_4_4_3_2_3_9 (r : Bool) (x0 : BitVec 6) (x1 : BitVec 4) (x2 : BitVec 4) (x3 : BitVec 3) (x4 : BitVec 2) (x5 : BitVec 3) (x6 : BitVec 9) :
    rvBit (BitVec.ofBool r ++ x0 ++ x1 ++ x2 ++ x3 ++ x4 ++ x5 ++ x6) = r ∧
    fld (BitVec.ofBool r ++ x0 ++ x1 ++ x2 ++ x3 ++ x4 ++ x5 ++ x6) 25 6 = x0 ∧
    fld (BitVec.ofBool r ++ x0 ++ x1 ++ x2 ++ x3 ++ x4 ++ x5 ++ x6) 21 4 = x1 ∧
    fld (BitVec.ofBool r ++ x0 ++ x1 ++ x2 ++ x3 ++ x4 ++ x5 ++ x6) 17 4 = x2 ∧
    fld (BitVec.ofBool r ++ x0 ++ x1 ++ x2 ++ x3 ++ x4 ++ x5 ++ x6) 14 3 = x3 ∧
    fld (BitVec.ofBool r ++ x0 ++ x1 ++ x2 ++ x3 ++ x4 ++ x5 ++ x6) 12 2 = x4 ∧
    fld (BitVec.ofBool r ++ x0 ++ x1 ++ x2 ++ x3 ++ x4 ++ x5 ++ x6) 9 3 = x5 ∧
    fld (BitVec.ofBool r ++ x0 ++ x1 ++ x2 ++ x3 ++ x4 ++ x5 ++ x6) 0 9 = x6 := by
  simp (disch := decide) only [fld, rvBit, bv_extract_hi, bv_extract_lo, bv_bit_hi, bv_extract_all, Nat.sub_self, Nat.reduceSub,
    BitVec.getLsbD_ofBool, and_self, decide_true, Bool.true_and]

theorem word_1_6_4_4_3_2_3_4_5 (r : Bool) (x0 : BitVec 6) (x1 : BitVec 4) (x2 : BitVec 4) (x3 : BitVec 3) (x4 : BitVec 2) (x5 : BitVec 3) (x6 : BitVec 4) (x7 : BitVec 5) :
    rvBit (BitVec.ofBool r ++ x0 ++ x1 ++ x2 ++ x3 ++ x4 ++ x5 ++ x6 ++ x7) = r ∧
    fld (BitVec.ofBool r ++ x0 ++ x1 ++ x2 ++ x3 ++ x4 ++ x5 ++ x6 ++ x7) 25 6 = x0 ∧
    fld (BitVec.ofBool r ++ x0 ++ x1 ++ x2 ++ x3 ++ x4 ++ x5 ++ x6 ++ x7) 21 4 = x1 ∧
    fld (BitVec.ofBool r ++ x0 ++ x1 ++ x2 ++ x3 ++ x4 ++ x5 ++ x6 ++ x7) 17 4 = x2 ∧
    fld (BitVec.ofBool r ++ x0 ++ x1 ++ x2 ++ x3 ++ x4 ++ x5 ++ x6 ++ x7) 14 3 = x3 ∧
    fld (BitVec.ofBool r ++ x0 ++ x1 ++ x2 ++ x3 ++ x4 ++ x5 ++ x6 ++ x7) 12 2 = x4 ∧
    fld (BitVec.ofBool r ++ x0 ++ x1 ++ x2 ++ x3 ++ x4 ++ x5 ++ x6 ++ x7) 9 3 = x5 ∧
    fld (BitVec.ofBool r ++ x0 ++ x1 ++ x2 ++ x3 ++ x4 ++ x5 ++ x6 ++ x7) 5 4 = x6 ∧
    fld (BitVec.ofBool r ++ x0 ++ x1 ++ x2 ++ x3 ++ x4 ++ x5 ++ x6 ++ x7) 0 5 = x7 := by
  simp (disch := decide) only [fld, rvBit, bv_extract_hi, bv_extract_lo, bv_bit_hi, bv_extract_all, Nat.sub_self, Nat.reduceSub,
    BitVec.getLsbD_ofBool, and_self, decide_true, Bool.true_and]

theorem word_1_6_8_8_9 (r : Bool) (x0 : BitVec 6) (x1 : BitVec 8) (x2 : BitVec 8) (x3 : BitVec 9) :
    rvBit (BitVec.ofBool r ++ x0 ++ x1 ++ x2 ++ x3) = r ∧
    fld (BitVec.ofBool r ++ x0 ++ x1 ++ x2 ++ x3) 25 6 = x0 ∧
    fld (BitVec.ofBool r ++ x0 ++ x1 ++ x2 ++ x3) 17 8 = x1 ∧
    fld (BitVec.ofBool r ++ x0 ++ x1 ++ x2 ++ x3) 9 8 = x2 ∧
    fld (BitVec.ofBool r ++ x0 ++ x1 ++ x2 ++ x3) 0 9 = x3 := by
  simp (disch := decide) only [fld, rvBit, bv_extract_hi, bv_extract_lo, bv_bit_hi, bv_extract_all, Nat.sub_self, Nat.reduceSub,
    BitVec.getLsbD_ofBool, and_self, decide_true, Bool.true_and]

theorem word_1_6_5_5_5_3_3_3_1 (r : Bool) (x0 : BitVec 6) (x1 : BitVec 5) (x2 : BitVec 5) (x3 : BitVec 5) (x4 : BitVec 3) (x5 : BitVec 3) (x6 : BitVec 3) (x7 : BitVec 1) :
    rvBit (BitVec.ofBool r ++ x0 ++ x1 ++ x2 ++ x3 ++ x4 ++ x5 ++ x6 ++ x7) = r ∧
    fld (BitVec.ofBool r ++ x0 ++ x1 ++ x2 ++ x3 ++ x4 ++ x5 ++ x6 ++ x7) 25 6 = x0 ∧
    fld (BitVec.ofBool r ++ x0 ++ x1 ++ x2 ++ x3 ++ x4 ++ x5 ++ x6 ++ x7) 20 5 = x1 ∧
    fld (BitVec.ofBool r ++ x0 ++ x1 ++ x2 ++ x3 ++ x4 ++ x5 ++ x6 ++ x7) 15 5 = x2 ∧
    fld (BitVec.ofBool r ++ x0 ++ x1 ++ x2 ++ x3 ++ x4 ++ x5 ++ x6 ++ x7) 10 5 = x3 ∧
    fld (BitVec.ofBool r ++ x0 ++ x1 ++ x2 ++ x3 ++ x4 ++ x5 ++ x6 ++ x7) 7 3 = x4 ∧
    fld (BitVec.ofBool r ++ x0 ++ x1 ++ x2 ++ x3 ++ x4 ++ x5 ++ x6 ++ x7) 4 3 = x5 ∧
    fld (BitVec.ofBool r ++ x0 ++ x1 ++ x2 ++ x3 ++ x4 ++ x5 ++ x6 ++ x7) 1 3 = x6 ∧
    fld (BitVec.ofBool r ++ x0 ++ x1 ++ x2 ++ x3 ++ x4 ++ x5 ++ x6 ++ x7) 0 1 = x7 := by
  simp (disch := decide) only [fld, rvBit, bv_extract_hi, bv_extract_lo, bv_bit_hi, bv_extract_all, Nat.sub_self, Nat.reduceSub,
    BitVec.getLsbD_ofBool, and_self, decide_true, Bool.true_and]

theorem word_1_6_5_5_5_3_7 (r : Bool) (x0 : BitVec 6) (x1 : BitVec 5) (x2 : BitVec 5) (x3 : BitVec 5) (x4 : BitVec 3) (x5 : BitVec 7) :
    rvBit (BitVec.ofBool r ++ x0 ++ x1 ++ x2 ++ x3 ++ x4 ++ x5) = r ∧
    fld (BitVec.ofBool r ++ x0 ++ x1 ++ x2 ++ x3 ++ x4 ++ x5) 25 6 = x0 ∧
    fld (BitVec.ofBool r ++ x0 ++ x1 ++ x2 ++ x3 ++ x4 ++ x5) 20 5 = x1 ∧
    fld (BitVec.ofBool r ++ x0 ++ x1 ++ x2 ++ x3 ++ x4 ++ x5) 15 5 = x2 ∧
    fld (BitVec.ofBool r ++ x0 ++ x1 ++ x2 ++ x3 ++ x4 ++ x5) 10 5 = x3 ∧
    fld (BitVec.ofBool r ++ x0 ++ x1 ++ x2 ++ x3 ++ x4 ++ x5) 7 3 = x4 ∧
    fld (BitVec.ofBool r ++ x0 ++ x1 ++ x2 ++ x3 ++ x4 ++ x5) 0 7 = x5 := by
  simp (disch := decide) only [fld, rvBit, bv_extract_hi, bv_extract_lo, bv_bit_hi, bv_extract_all, Nat.sub_self, Nat.reduceSub,
    BitVec.getLsbD_ofBool, and_self, decide_true, Bool.true_and]

theorem word_1_6_8_17 (r : Bool) (x0 : BitVec 6) (x1 : BitVec 8) (x2 : BitVec 17) :
    rvBit (BitVec.ofBool r ++ x0 ++ x1 ++ x2) = r ∧
    fld (BitVec.ofBool r ++ x0 ++ x1 ++ x2) 25 6 = x0 ∧
    fld (BitVec.ofBool r ++ x0 ++ x1 ++ x2) 17 8 = x1 ∧
    fld (BitVec.ofBool r ++ x0 ++ x1 ++ x2) 0 17 = x2 := by
  simp (disch := decide) only [fld, rvBit, bv_extract_hi, bv_extract_lo, bv_bit_hi, bv_extract_all, Nat.sub_self, Nat.reduceSub,
    BitVec.getLsbD_ofBool, and_self, decide_true, Bool.true_and]

theorem word_1_6_5_10_3_7 (r : Bool) (x0 : BitVec 6) (x1 : BitVec 5) (x2 : BitVec 10) (x3 : BitVec 3) (x4 : BitVec 7) :
    rvBit (BitVec.ofBool r ++ x0 ++ x1 ++ x2 ++ x3 ++ x4) = r ∧
    fld (BitVec.ofBool r ++ x0 ++ x1 ++ x2 ++ x3 ++ x4) 25 6 = x0 ∧
    fld (BitVec.ofBool r ++ x0 ++ x1 ++ x2 ++ x3 ++ x4) 20 5 = x1 ∧
    fld (BitVec.ofBool r ++ x0 ++ x1 ++ x2 ++ x3 ++ x4) 10 10 = x2 ∧
    fld (BitVec.ofBool r ++ x0 ++ x1 ++ x2 ++ x3 ++ x4) 7 3 = x3 ∧
    fld (BitVec.ofBool r ++ x0 ++ x1 ++ x2 ++ x3 ++ x4) 0 7 = x4 := by
  simp (disch := decide) only [fld, rvBit, bv_extract_hi, bv_extract_lo, bv_bit_hi, bv_extract_all, Nat.sub_self, Nat.reduceSub,
    BitVec.getLsbD_ofBool, and_self, decide_true, Bool.true_and]

theorem word_1_6_5_5_5_1_9 (r : Bool) (x0 : BitVec 6) (x1 : BitVec 5) (x2 : BitVec 5) (x3 : BitVec 5) (x4 : BitVec 1) (x5 : BitVec 9) :
    rvBit (BitVec.ofBool r ++ x0 ++ x1 ++ x2 ++ x3 ++ x4 ++ x5) = r ∧
    fld (BitVec.ofBool r ++ x0 ++ x1 ++ x2 ++ x3 ++ x4 ++ x5) 25 6 = x0 ∧
    fld (BitVec.ofBool r ++ x0 ++ x1 ++ x2 ++ x3 ++ x4 ++ x5) 20 5 = x1 ∧
    fld (BitVec.ofBool r ++ x0 ++ x1 ++ x2 ++ x3 ++ x4 ++ x5) 15 5 = x2 ∧
    fld (BitVec.ofBool r ++ x0 ++ x1 ++ x2 ++ x3 ++ x4 ++ x5) 10 5 = x3 ∧
    fld (BitVec.ofBool r ++ x0 ++ x1 ++ x2 ++ x3 ++ x4 ++ x5) 9 1 = x4 ∧
    fld (BitVec.ofBool r ++ x0 ++ x1 ++ x2 ++ x3 ++ x4 ++ x5) 0 9 = x5 := by
  simp (disch := decide) only [fld, rvBit, bv_extract_hi, bv_extract_lo, bv_bit_hi, bv_extract_all, Nat.sub_self, Nat.reduceSub,
    BitVec.getLsbD_ofBool, and_self, decide_true, Bool.true_and]

theorem word_1_6_5_5_5_1_1_1_7 (r : Bool) (x0 : BitVec 6) (x1 : BitVec 5) (x2 : BitVec 5) (x3 : BitVec 5) (x4 : BitVec 1) (x5 : BitVec 1) (x6 : BitVec 1) (x7 : BitVec 7) :
    rvBit (BitVec.ofBool r ++ x0 ++ x1 ++ x2 ++ x3 ++ x4 ++ x5 ++ x6 ++ x7) = r ∧
    fld (BitVec.ofBool r ++ x0 ++ x1 ++ x2 ++ x3 ++ x4 ++ x5 ++ x6 ++ x7) 25 6 = x0 ∧
    fld (BitVec.ofBool r ++ x0 ++ x1 ++ x2 ++ x3 ++ x4 ++ x5 ++ x6 ++ x7) 20 5 = x1 ∧
    fld (BitVec.ofBool r ++ x0 ++ x1 ++ x2 ++ x3 ++ x4 ++ x5 ++ x6 ++ x7) 15 5 = x2 ∧
    fld (BitVec.ofBool r ++ x0 ++ x1 ++ x2 ++ x3 ++ x4 ++ x5 ++ x6 ++ x7) 10 5 = x3 ∧
    fld (BitVec.ofBool r ++ x0 ++ x1 ++ x2 ++ x3 ++ x4 ++ x5 ++ x6 ++ x7) 9 1 = x4 ∧
    fld (BitVec.ofBool r ++ x0 ++ x1 ++ x2 ++ x3 ++ x4 ++ x5 ++ x6 ++ x7) 8 1 = x5 ∧
    fld (BitVec.ofBool r ++ x0 ++ x1 ++ x2 ++ x3 ++ x4 ++ x5 ++ x6 ++ x7) 7 1 = x6 ∧
    fld (BitVec.ofBool r ++ x0 ++ x1 ++ x2 ++ x3 ++ x4 ++ x5 ++ x6 ++ x7) 0 7 = x7 := by
  simp (disch := decide) only [fld, rvBit, bv_extract_hi, bv_extract_lo, bv_bit_hi, bv_extract_all, Nat.sub_self, Nat.reduceSub,
    BitVec.getLsbD_ofBool, and_self, decide_true, Bool.true_and]

theorem word_1_6_2_3_5_5_10 (r : Bool) (x0 : BitVec 6) (x1 : BitVec 2) (x2 : BitVec 3) (x3 : BitVec 5) (x4 : BitVec 5) (x5 : BitVec 10) :
    rvBit (BitVec.ofBool r ++ x0 ++ x1 ++ x2 ++ x3 ++ x4 ++ x5) = r ∧
    fld (BitVec.ofBool r ++ x0 ++ x1 ++ x2 ++ x3 ++ x4 ++ x5) 25 6 = x0 ∧
    fld (BitVec.ofBool r ++ x0 ++ x1 ++ x2 ++ x3 ++ x4 ++ x5) 23 2 = x1 ∧
    fld (BitVec.ofBool r ++ x0 ++ x1 ++ x2 ++ x3 ++ x4 ++ x5) 20 3 = x2 ∧
    fld (BitVec.ofBool r ++ x0 ++ x1 ++ x2 ++ x3 ++ x4 ++ x5) 15 5 = x3 ∧
    fld (BitVec.ofBool r ++ x0 ++ x1 ++ x2 ++ x3 ++ x4 ++ x5) 10 5 = x4 ∧
    fld (BitVec.ofBool r ++ x0 ++ x1 ++ x2 ++ x3 ++ x4 ++ x5) 0 10 = x5 := by
  simp (disch := decide) only [fld, rvBit, bv_extract_hi, bv_extract_lo, bv_bit_hi, bv_extract_all, Nat.sub_self, Nat.reduceSub,
    BitVec.getLsbD_ofBool, and_self, decide_true, Bool.true_and]

theorem word_1_6_5_1_5_14 (r : Bool) (x0 : BitVec 6) (x1 : BitVec 5) (x2 : BitVec 1) (x3 : BitVec 5) (x4 : BitVec 14) :
    rvBit (BitVec.ofBool r ++ x0 ++ x1 ++ x2 ++ x3 ++ x4) = r ∧
    fld (BitVec.ofBool r ++ x0 ++ x1 ++ x2 ++ x3 ++ x4) 25 6 = x0 ∧
    fld (BitVec.ofBool r ++ x0 ++ x1 ++ x2 ++ x3 ++ x4) 20 5 = x1 ∧
    fld (BitVec.ofBool r ++ x0 ++ x1 ++ x2 ++ x3 ++ x4) 19 1 = x2 ∧
    fld (BitVec.ofBool r ++ x0 ++ x1 ++ x2 ++ x3 ++ x4) 14 5 = x3 ∧
    fld (BitVec.ofBool r ++ x0 ++ x1 ++ x2 ++ x3 ++ x4) 0 14 = x4 := by
  simp (disch := decide) only [fld, rvBit, bv_extract_hi, bv_extract_lo, bv_bit_hi, bv_extract_all, Nat.sub_self, Nat.reduceSub,
    BitVec.getLsbD_ofBool, and_self, decide_true, Bool.true_and]

theorem word_1_6_12_13_top (r : Bool) (x0 : BitVec 6) (x1 : BitVec 12) (x2 : BitVec 13) :
    fld (BitVec.ofBool r ++ x0 ++ x1 ++ x2) 20 5 = x1.extractLsb' 7 5 := by
  simp (disch := decide) only [fld, bv_extract_hi, bv_extract_lo, Nat.reduceSub]

end Sys2Proof.Laws
end

