-- ==== Sys2Proof/Laws/PerInstr.lean ====
section
/-! SUPPORT. Decoding an encoded instruction gives it back, one lemma per constructor of `Instr` (R54, R78 to R88). -/

namespace Sys2Proof.Laws

open Sys2Proof

/-- In each slot whose words it belongs to, the word of a well-formed instruction decodes to it (AMCAST_SET, whose word is that
of AMCAST, to that). -/
def RoundTrip.Statement (i : Instr) : Prop :=
  ∀ (k : Slot) (w : BitVec 32), i.wf = true → i.inSlot k = true → i.encode = some w → decodeWord k w = .ok i.asDecoded

theorem roundTrip_of {i : Instr} {w : BitVec 32} (k : Slot) (he : i.encode = some w) (hs : ∀ j, i.inSlot j = true → j = k)
    (hd : i.wf = true → decodeWord k w = .ok i.asDecoded) : RoundTrip.Statement i := by
  intro j v hw hj h
  rw [he] at h
  cases h
  rw [hs j hj]
  exact hd hw

theorem roundTrip_none {i : Instr} (he : i.encode = none) : RoundTrip.Statement i := by
  intro j v _ _ h
  rw [he] at h
  cases h

theorem RoundTrip.add (r : Bool) (d : BitVec 5) (a : BitVec 5) (b : BitVec 5) : RoundTrip.Statement (.add r d a b) :=
  roundTrip_of .s rfl (fun k h => by cases k <;> first | rfl | exact (Bool.false_ne_true h).elim) fun hw => by
    obtain ⟨h0, h1, h2, h3, h4, h5⟩ := word_1_6_5_5_5_10 r (1#6) d a b (0#10)
    show decodeS _ = _; delta decodeS; rw [h1]
    show decodeSfn1 _ = _; delta decodeSfn1; rw [h5]
    show checked _ _ _ = _; rw [h0, h2, h3, h4]
    exact checked_ok hw rfl

theorem RoundTrip.sub (r : Bool) (d : BitVec 5) (a : BitVec 5) (b : BitVec 5) : RoundTrip.Statement (.sub r d a b) :=
  roundTrip_of .s rfl (fun k h => by cases k <;> first | rfl | exact (Bool.false_ne_true h).elim) fun hw => by
    obtain ⟨h0, h1, h2, h3, h4, h5⟩ := word_1_6_5_5_5_10 r (1#6) d a b (1#10)
    show decodeS _ = _; delta decodeS; rw [h1]
    show decodeSfn1 _ = _; delta decodeSfn1; rw [h5]
    show checked _ _ _ = _; rw [h0, h2, h3, h4]
    exact checked_ok hw rfl

theorem RoundTrip.mul (r : Bool) (d : BitVec 5) (a : BitVec 5) (b : BitVec 5) : RoundTrip.Statement (.mul r d a b) :=
  roundTrip_of .s rfl (fun k h => by cases k <;> first | rfl | exact (Bool.false_ne_true h).elim) fun hw => by
    obtain ⟨h0, h1, h2, h3, h4, h5⟩ := word_1_6_5_5_5_10 r (1#6) d a b (2#10)
    show decodeS _ = _; delta decodeS; rw [h1]
    show decodeSfn1 _ = _; delta decodeSfn1; rw [h5]
    show checked _ _ _ = _; rw [h0, h2, h3, h4]
    exact checked_ok hw rfl

theorem RoundTrip.mulh (r : Bool) (d : BitVec 5) (a : BitVec 5) (b : BitVec 5) : RoundTrip.Statement (.mulh r d a b) :=
  roundTrip_of .s rfl (fun k h => by cases k <;> first | rfl | exact (Bool.false_ne_true h).elim) fun hw => by
    obtain ⟨h0, h1, h2, h3, h4, h5⟩ := word_1_6_5_5_5_10 r (1#6) d a b (3#10)
    show decodeS _ = _; delta decodeS; rw [h1]
    show decodeSfn1 _ = _; delta decodeSfn1; rw [h5]
    show checked _ _ _ = _; rw [h0, h2, h3, h4]
    exact checked_ok hw rfl

theorem RoundTrip.mulhu (r : Bool) (d : BitVec 5) (a : BitVec 5) (b : BitVec 5) : RoundTrip.Statement (.mulhu r d a b) :=
  roundTrip_of .s rfl (fun k h => by cases k <;> first | rfl | exact (Bool.false_ne_true h).elim) fun hw => by
    obtain ⟨h0, h1, h2, h3, h4, h5⟩ := word_1_6_5_5_5_10 r (1#6) d a b (4#10)
    show decodeS _ = _; delta decodeS; rw [h1]
    show decodeSfn1 _ = _; delta decodeSfn1; rw [h5]
    show checked _ _ _ = _; rw [h0, h2, h3, h4]
    exact checked_ok hw rfl

theorem RoundTrip.div (r : Bool) (d : BitVec 5) (a : BitVec 5) (b : BitVec 5) : RoundTrip.Statement (.div r d a b) :=
  roundTrip_of .s rfl (fun k h => by cases k <;> first | rfl | exact (Bool.false_ne_true h).elim) fun hw => by
    obtain ⟨h0, h1, h2, h3, h4, h5⟩ := word_1_6_5_5_5_10 r (1#6) d a b (5#10)
    show decodeS _ = _; delta decodeS; rw [h1]
    show decodeSfn1 _ = _; delta decodeSfn1; rw [h5]
    show checked _ _ _ = _; rw [h0, h2, h3, h4]
    exact checked_ok hw rfl

theorem RoundTrip.divu (r : Bool) (d : BitVec 5) (a : BitVec 5) (b : BitVec 5) : RoundTrip.Statement (.divu r d a b) :=
  roundTrip_of .s rfl (fun k h => by cases k <;> first | rfl | exact (Bool.false_ne_true h).elim) fun hw => by
    obtain ⟨h0, h1, h2, h3, h4, h5⟩ := word_1_6_5_5_5_10 r (1#6) d a b (6#10)
    show decodeS _ = _; delta decodeS; rw [h1]
    show decodeSfn1 _ = _; delta decodeSfn1; rw [h5]
    show checked _ _ _ = _; rw [h0, h2, h3, h4]
    exact checked_ok hw rfl

theorem RoundTrip.rem (r : Bool) (d : BitVec 5) (a : BitVec 5) (b : BitVec 5) : RoundTrip.Statement (.rem r d a b) :=
  roundTrip_of .s rfl (fun k h => by cases k <;> first | rfl | exact (Bool.false_ne_true h).elim) fun hw => by
    obtain ⟨h0, h1, h2, h3, h4, h5⟩ := word_1_6_5_5_5_10 r (1#6) d a b (7#10)
    show decodeS _ = _; delta decodeS; rw [h1]
    show decodeSfn1 _ = _; delta decodeSfn1; rw [h5]
    show checked _ _ _ = _; rw [h0, h2, h3, h4]
    exact checked_ok hw rfl

theorem RoundTrip.remu (r : Bool) (d : BitVec 5) (a : BitVec 5) (b : BitVec 5) : RoundTrip.Statement (.remu r d a b) :=
  roundTrip_of .s rfl (fun k h => by cases k <;> first | rfl | exact (Bool.false_ne_true h).elim) fun hw => by
    obtain ⟨h0, h1, h2, h3, h4, h5⟩ := word_1_6_5_5_5_10 r (1#6) d a b (8#10)
    show decodeS _ = _; delta decodeS; rw [h1]
    show decodeSfn1 _ = _; delta decodeSfn1; rw [h5]
    show checked _ _ _ = _; rw [h0, h2, h3, h4]
    exact checked_ok hw rfl

theorem RoundTrip.and_ (r : Bool) (d : BitVec 5) (a : BitVec 5) (b : BitVec 5) : RoundTrip.Statement (.and_ r d a b) :=
  roundTrip_of .s rfl (fun k h => by cases k <;> first | rfl | exact (Bool.false_ne_true h).elim) fun hw => by
    obtain ⟨h0, h1, h2, h3, h4, h5⟩ := word_1_6_5_5_5_10 r (1#6) d a b (9#10)
    show decodeS _ = _; delta decodeS; rw [h1]
    show decodeSfn1 _ = _; delta decodeSfn1; rw [h5]
    show checked _ _ _ = _; rw [h0, h2, h3, h4]
    exact checked_ok hw rfl

theorem RoundTrip.or_ (r : Bool) (d : BitVec 5) (a : BitVec 5) (b : BitVec 5) : RoundTrip.Statement (.or_ r d a b) :=
  roundTrip_of .s rfl (fun k h => by cases k <;> first | rfl | exact (Bool.false_ne_true h).elim) fun hw => by
    obtain ⟨h0, h1, h2, h3, h4, h5⟩ := word_1_6_5_5_5_10 r (1#6) d a b (10#10)
    show decodeS _ = _; delta decodeS; rw [h1]
    show decodeSfn1 _ = _; delta decodeSfn1; rw [h5]
    show checked _ _ _ = _; rw [h0, h2, h3, h4]
    exact checked_ok hw rfl

theorem RoundTrip.xor_ (r : Bool) (d : BitVec 5) (a : BitVec 5) (b : BitVec 5) : RoundTrip.Statement (.xor_ r d a b) :=
  roundTrip_of .s rfl (fun k h => by cases k <;> first | rfl | exact (Bool.false_ne_true h).elim) fun hw => by
    obtain ⟨h0, h1, h2, h3, h4, h5⟩ := word_1_6_5_5_5_10 r (1#6) d a b (11#10)
    show decodeS _ = _; delta decodeS; rw [h1]
    show decodeSfn1 _ = _; delta decodeSfn1; rw [h5]
    show checked _ _ _ = _; rw [h0, h2, h3, h4]
    exact checked_ok hw rfl

theorem RoundTrip.andn (r : Bool) (d : BitVec 5) (a : BitVec 5) (b : BitVec 5) : RoundTrip.Statement (.andn r d a b) :=
  roundTrip_of .s rfl (fun k h => by cases k <;> first | rfl | exact (Bool.false_ne_true h).elim) fun hw => by
    obtain ⟨h0, h1, h2, h3, h4, h5⟩ := word_1_6_5_5_5_10 r (1#6) d a b (12#10)
    show decodeS _ = _; delta decodeS; rw [h1]
    show decodeSfn1 _ = _; delta decodeSfn1; rw [h5]
    show checked _ _ _ = _; rw [h0, h2, h3, h4]
    exact checked_ok hw rfl

theorem RoundTrip.shl (r : Bool) (d : BitVec 5) (a : BitVec 5) (b : BitVec 5) : RoundTrip.Statement (.shl r d a b) :=
  roundTrip_of .s rfl (fun k h => by cases k <;> first | rfl | exact (Bool.false_ne_true h).elim) fun hw => by
    obtain ⟨h0, h1, h2, h3, h4, h5⟩ := word_1_6_5_5_5_10 r (1#6) d a b (13#10)
    show decodeS _ = _; delta decodeS; rw [h1]
    show decodeSfn1 _ = _; delta decodeSfn1; rw [h5]
    show checked _ _ _ = _; rw [h0, h2, h3, h4]
    exact checked_ok hw rfl

theorem RoundTrip.shr (r : Bool) (d : BitVec 5) (a : BitVec 5) (b : BitVec 5) : RoundTrip.Statement (.shr r d a b) :=
  roundTrip_of .s rfl (fun k h => by cases k <;> first | rfl | exact (Bool.false_ne_true h).elim) fun hw => by
    obtain ⟨h0, h1, h2, h3, h4, h5⟩ := word_1_6_5_5_5_10 r (1#6) d a b (14#10)
    show decodeS _ = _; delta decodeS; rw [h1]
    show decodeSfn1 _ = _; delta decodeSfn1; rw [h5]
    show checked _ _ _ = _; rw [h0, h2, h3, h4]
    exact checked_ok hw rfl

theorem RoundTrip.shra (r : Bool) (d : BitVec 5) (a : BitVec 5) (b : BitVec 5) : RoundTrip.Statement (.shra r d a b) :=
  roundTrip_of .s rfl (fun k h => by cases k <;> first | rfl | exact (Bool.false_ne_true h).elim) fun hw => by
    obtain ⟨h0, h1, h2, h3, h4, h5⟩ := word_1_6_5_5_5_10 r (1#6) d a b (15#10)
    show decodeS _ = _; delta decodeS; rw [h1]
    show decodeSfn1 _ = _; delta decodeSfn1; rw [h5]
    show checked _ _ _ = _; rw [h0, h2, h3, h4]
    exact checked_ok hw rfl

theorem RoundTrip.ror (r : Bool) (d : BitVec 5) (a : BitVec 5) (b : BitVec 5) : RoundTrip.Statement (.ror r d a b) :=
  roundTrip_of .s rfl (fun k h => by cases k <;> first | rfl | exact (Bool.false_ne_true h).elim) fun hw => by
    obtain ⟨h0, h1, h2, h3, h4, h5⟩ := word_1_6_5_5_5_10 r (1#6) d a b (16#10)
    show decodeS _ = _; delta decodeS; rw [h1]
    show decodeSfn1 _ = _; delta decodeSfn1; rw [h5]
    show checked _ _ _ = _; rw [h0, h2, h3, h4]
    exact checked_ok hw rfl

theorem RoundTrip.min_ (r : Bool) (d : BitVec 5) (a : BitVec 5) (b : BitVec 5) : RoundTrip.Statement (.min_ r d a b) :=
  roundTrip_of .s rfl (fun k h => by cases k <;> first | rfl | exact (Bool.false_ne_true h).elim) fun hw => by
    obtain ⟨h0, h1, h2, h3, h4, h5⟩ := word_1_6_5_5_5_10 r (1#6) d a b (17#10)
    show decodeS _ = _; delta decodeS; rw [h1]
    show decodeSfn1 _ = _; delta decodeSfn1; rw [h5]
    show checked _ _ _ = _; rw [h0, h2, h3, h4]
    exact checked_ok hw rfl

theorem RoundTrip.max_ (r : Bool) (d : BitVec 5) (a : BitVec 5) (b : BitVec 5) : RoundTrip.Statement (.max_ r d a b) :=
  roundTrip_of .s rfl (fun k h => by cases k <;> first | rfl | exact (Bool.false_ne_true h).elim) fun hw => by
    obtain ⟨h0, h1, h2, h3, h4, h5⟩ := word_1_6_5_5_5_10 r (1#6) d a b (18#10)
    show decodeS _ = _; delta decodeS; rw [h1]
    show decodeSfn1 _ = _; delta decodeSfn1; rw [h5]
    show checked _ _ _ = _; rw [h0, h2, h3, h4]
    exact checked_ok hw rfl

theorem RoundTrip.minu (r : Bool) (d : BitVec 5) (a : BitVec 5) (b : BitVec 5) : RoundTrip.Statement (.minu r d a b) :=
  roundTrip_of .s rfl (fun k h => by cases k <;> first | rfl | exact (Bool.false_ne_true h).elim) fun hw => by
    obtain ⟨h0, h1, h2, h3, h4, h5⟩ := word_1_6_5_5_5_10 r (1#6) d a b (19#10)
    show decodeS _ = _; delta decodeS; rw [h1]
    show decodeSfn1 _ = _; delta decodeSfn1; rw [h5]
    show checked _ _ _ = _; rw [h0, h2, h3, h4]
    exact checked_ok hw rfl

theorem RoundTrip.maxu (r : Bool) (d : BitVec 5) (a : BitVec 5) (b : BitVec 5) : RoundTrip.Statement (.maxu r d a b) :=
  roundTrip_of .s rfl (fun k h => by cases k <;> first | rfl | exact (Bool.false_ne_true h).elim) fun hw => by
    obtain ⟨h0, h1, h2, h3, h4, h5⟩ := word_1_6_5_5_5_10 r (1#6) d a b (20#10)
    show decodeS _ = _; delta decodeS; rw [h1]
    show decodeSfn1 _ = _; delta decodeSfn1; rw [h5]
    show checked _ _ _ = _; rw [h0, h2, h3, h4]
    exact checked_ok hw rfl

theorem RoundTrip.slt (r : Bool) (d : BitVec 5) (a : BitVec 5) (b : BitVec 5) : RoundTrip.Statement (.slt r d a b) :=
  roundTrip_of .s rfl (fun k h => by cases k <;> first | rfl | exact (Bool.false_ne_true h).elim) fun hw => by
    obtain ⟨h0, h1, h2, h3, h4, h5⟩ := word_1_6_5_5_5_10 r (1#6) d a b (21#10)
    show decodeS _ = _; delta decodeS; rw [h1]
    show decodeSfn1 _ = _; delta decodeSfn1; rw [h5]
    show checked _ _ _ = _; rw [h0, h2, h3, h4]
    exact checked_ok hw rfl

theorem RoundTrip.sltu (r : Bool) (d : BitVec 5) (a : BitVec 5) (b : BitVec 5) : RoundTrip.Statement (.sltu r d a b) :=
  roundTrip_of .s rfl (fun k h => by cases k <;> first | rfl | exact (Bool.false_ne_true h).elim) fun hw => by
    obtain ⟨h0, h1, h2, h3, h4, h5⟩ := word_1_6_5_5_5_10 r (1#6) d a b (22#10)
    show decodeS _ = _; delta decodeS; rw [h1]
    show decodeSfn1 _ = _; delta decodeSfn1; rw [h5]
    show checked _ _ _ = _; rw [h0, h2, h3, h4]
    exact checked_ok hw rfl

theorem RoundTrip.seq (r : Bool) (d : BitVec 5) (a : BitVec 5) (b : BitVec 5) : RoundTrip.Statement (.seq r d a b) :=
  roundTrip_of .s rfl (fun k h => by cases k <;> first | rfl | exact (Bool.false_ne_true h).elim) fun hw => by
    obtain ⟨h0, h1, h2, h3, h4, h5⟩ := word_1_6_5_5_5_10 r (1#6) d a b (23#10)
    show decodeS _ = _; delta decodeS; rw [h1]
    show decodeSfn1 _ = _; delta decodeSfn1; rw [h5]
    show checked _ _ _ = _; rw [h0, h2, h3, h4]
    exact checked_ok hw rfl

theorem RoundTrip.sne (r : Bool) (d : BitVec 5) (a : BitVec 5) (b : BitVec 5) : RoundTrip.Statement (.sne r d a b) :=
  roundTrip_of .s rfl (fun k h => by cases k <;> first | rfl | exact (Bool.false_ne_true h).elim) fun hw => by
    obtain ⟨h0, h1, h2, h3, h4, h5⟩ := word_1_6_5_5_5_10 r (1#6) d a b (24#10)
    show decodeS _ = _; delta decodeS; rw [h1]
    show decodeSfn1 _ = _; delta decodeSfn1; rw [h5]
    show checked _ _ _ = _; rw [h0, h2, h3, h4]
    exact checked_ok hw rfl

theorem RoundTrip.clz (r : Bool) (d : BitVec 5) (a : BitVec 5) : RoundTrip.Statement (.clz r d a) :=
  roundTrip_of .s rfl (fun k h => by cases k <;> first | rfl | exact (Bool.false_ne_true h).elim) fun hw => by
    obtain ⟨h0, h1, h2, h3, h4, h5⟩ := word_1_6_5_5_5_10 r (1#6) d a (0#5) (25#10)
    show decodeS _ = _; delta decodeS; rw [h1]
    show decodeSfn1 _ = _; delta decodeSfn1; rw [h5]
    show checked _ _ _ = _; rw [h0, h2, h3, h4]
    exact checked_ok hw rfl

theorem RoundTrip.ctz (r : Bool) (d : BitVec 5) (a : BitVec 5) : RoundTrip.Statement (.ctz r d a) :=
  roundTrip_of .s rfl (fun k h => by cases k <;> first | rfl | exact (Bool.false_ne_true h).elim) fun hw => by
    obtain ⟨h0, h1, h2, h3, h4, h5⟩ := word_1_6_5_5_5_10 r (1#6) d a (0#5) (26#10)
    show decodeS _ = _; delta decodeS; rw [h1]
    show decodeSfn1 _ = _; delta decodeSfn1; rw [h5]
    show checked _ _ _ = _; rw [h0, h2, h3, h4]
    exact checked_ok hw rfl

theorem RoundTrip.popc (r : Bool) (d : BitVec 5) (a : BitVec 5) : RoundTrip.Statement (.popc r d a) :=
  roundTrip_of .s rfl (fun k h => by cases k <;> first | rfl | exact (Bool.false_ne_true h).elim) fun hw => by
    obtain ⟨h0, h1, h2, h3, h4, h5⟩ := word_1_6_5_5_5_10 r (1#6) d a (0#5) (27#10)
    show decodeS _ = _; delta decodeS; rw [h1]
    show decodeSfn1 _ = _; delta decodeSfn1; rw [h5]
    show checked _ _ _ = _; rw [h0, h2, h3, h4]
    exact checked_ok hw rfl

theorem RoundTrip.sext (r : Bool) (d : BitVec 5) (a : BitVec 5) (w : BitVec 5) : RoundTrip.Statement (.sext r d a w) :=
  roundTrip_of .s rfl (fun k h => by cases k <;> first | rfl | exact (Bool.false_ne_true h).elim) fun hw => by
    obtain ⟨h0, h1, h2, h3, h4, h5⟩ := word_1_6_5_5_5_10 r (1#6) d a w (28#10)
    show decodeS _ = _; delta decodeS; rw [h1]
    show decodeSfn1 _ = _; delta decodeSfn1; rw [h5]
    show checked _ _ _ = _; rw [h0, h2, h3, h4]
    exact checked_ok hw rfl

theorem RoundTrip.zext (r : Bool) (d : BitVec 5) (a : BitVec 5) (w : BitVec 5) : RoundTrip.Statement (.zext r d a w) :=
  roundTrip_of .s rfl (fun k h => by cases k <;> first | rfl | exact (Bool.false_ne_true h).elim) fun hw => by
    obtain ⟨h0, h1, h2, h3, h4, h5⟩ := word_1_6_5_5_5_10 r (1#6) d a w (29#10)
    show decodeS _ = _; delta decodeS; rw [h1]
    show decodeSfn1 _ = _; delta decodeSfn1; rw [h5]
    show checked _ _ _ = _; rw [h0, h2, h3, h4]
    exact checked_ok hw rfl

theorem RoundTrip.cmov (r : Bool) (d : BitVec 5) (a : BitVec 5) (b : BitVec 5) : RoundTrip.Statement (.cmov r d a b) :=
  roundTrip_of .s rfl (fun k h => by cases k <;> first | rfl | exact (Bool.false_ne_true h).elim) fun hw => by
    obtain ⟨h0, h1, h2, h3, h4, h5⟩ := word_1_6_5_5_5_10 r (1#6) d a b (30#10)
    show decodeS _ = _; delta decodeS; rw [h1]
    show decodeSfn1 _ = _; delta decodeSfn1; rw [h5]
    show checked _ _ _ = _; rw [h0, h2, h3, h4]
    exact checked_ok hw rfl

theorem RoundTrip.addi (r : Bool) (d : BitVec 5) (a : BitVec 5) (i : BitVec 15) : RoundTrip.Statement (.addi r d a i) :=
  roundTrip_of .s rfl (fun k h => by cases k <;> first | rfl | exact (Bool.false_ne_true h).elim) fun hw => by
    obtain ⟨h0, h1, h2, h3, h4⟩ := word_1_6_5_5_15 r (2#6) d a i
    show decodeS _ = _; delta decodeS; rw [h1]
    show checked _ _ _ = _; rw [h0, h2, h3, h4]
    exact checked_ok hw rfl

theorem RoundTrip.andi (r : Bool) (d : BitVec 5) (a : BitVec 5) (i : BitVec 15) : RoundTrip.Statement (.andi r d a i) :=
  roundTrip_of .s rfl (fun k h => by cases k <;> first | rfl | exact (Bool.false_ne_true h).elim) fun hw => by
    obtain ⟨h0, h1, h2, h3, h4⟩ := word_1_6_5_5_15 r (3#6) d a i
    show decodeS _ = _; delta decodeS; rw [h1]
    show checked _ _ _ = _; rw [h0, h2, h3, h4]
    exact checked_ok hw rfl

theorem RoundTrip.ori (r : Bool) (d : BitVec 5) (a : BitVec 5) (i : BitVec 15) : RoundTrip.Statement (.ori r d a i) :=
  roundTrip_of .s rfl (fun k h => by cases k <;> first | rfl | exact (Bool.false_ne_true h).elim) fun hw => by
    obtain ⟨h0, h1, h2, h3, h4⟩ := word_1_6_5_5_15 r (4#6) d a i
    show decodeS _ = _; delta decodeS; rw [h1]
    show checked _ _ _ = _; rw [h0, h2, h3, h4]
    exact checked_ok hw rfl

theorem RoundTrip.xori (r : Bool) (d : BitVec 5) (a : BitVec 5) (i : BitVec 15) : RoundTrip.Statement (.xori r d a i) :=
  roundTrip_of .s rfl (fun k h => by cases k <;> first | rfl | exact (Bool.false_ne_true h).elim) fun hw => by
    obtain ⟨h0, h1, h2, h3, h4⟩ := word_1_6_5_5_15 r (5#6) d a i
    show decodeS _ = _; delta decodeS; rw [h1]
    show checked _ _ _ = _; rw [h0, h2, h3, h4]
    exact checked_ok hw rfl

theorem RoundTrip.shli (r : Bool) (d : BitVec 5) (a : BitVec 5) (n : BitVec 6) : RoundTrip.Statement (.shli r d a n) :=
  roundTrip_of .s rfl (fun k h => by cases k <;> first | rfl | exact (Bool.false_ne_true h).elim) fun hw => by
    obtain ⟨h0, h1, h2, h3, h4, h5, h6⟩ := word_1_6_5_5_2_7_6 r (6#6) d a (0#2) (0#7) n
    show decodeS _ = _; delta decodeS; rw [h1]
    show decodeSfn6 _ = _; delta decodeSfn6; rw [h4]
    show checked _ _ _ = _; rw [h0, h2, h3, h5, h6]
    exact checked_ok hw rfl

theorem RoundTrip.shri (r : Bool) (d : BitVec 5) (a : BitVec 5) (n : BitVec 6) : RoundTrip.Statement (.shri r d a n) :=
  roundTrip_of .s rfl (fun k h => by cases k <;> first | rfl | exact (Bool.false_ne_true h).elim) fun hw => by
    obtain ⟨h0, h1, h2, h3, h4, h5, h6⟩ := word_1_6_5_5_2_7_6 r (6#6) d a (1#2) (0#7) n
    show decodeS _ = _; delta decodeS; rw [h1]
    show decodeSfn6 _ = _; delta decodeSfn6; rw [h4]
    show checked _ _ _ = _; rw [h0, h2, h3, h5, h6]
    exact checked_ok hw rfl

theorem RoundTrip.shrai (r : Bool) (d : BitVec 5) (a : BitVec 5) (n : BitVec 6) : RoundTrip.Statement (.shrai r d a n) :=
  roundTrip_of .s rfl (fun k h => by cases k <;> first | rfl | exact (Bool.false_ne_true h).elim) fun hw => by
    obtain ⟨h0, h1, h2, h3, h4, h5, h6⟩ := word_1_6_5_5_2_7_6 r (6#6) d a (2#2) (0#7) n
    show decodeS _ = _; delta decodeS; rw [h1]
    show decodeSfn6 _ = _; delta decodeSfn6; rw [h4]
    show checked _ _ _ = _; rw [h0, h2, h3, h5, h6]
    exact checked_ok hw rfl

theorem RoundTrip.slti (r : Bool) (d : BitVec 5) (a : BitVec 5) (i : BitVec 15) : RoundTrip.Statement (.slti r d a i) :=
  roundTrip_of .s rfl (fun k h => by cases k <;> first | rfl | exact (Bool.false_ne_true h).elim) fun hw => by
    obtain ⟨h0, h1, h2, h3, h4⟩ := word_1_6_5_5_15 r (7#6) d a i
    show decodeS _ = _; delta decodeS; rw [h1]
    show checked _ _ _ = _; rw [h0, h2, h3, h4]
    exact checked_ok hw rfl

theorem RoundTrip.sltiu (r : Bool) (d : BitVec 5) (a : BitVec 5) (i : BitVec 15) : RoundTrip.Statement (.sltiu r d a i) :=
  roundTrip_of .s rfl (fun k h => by cases k <;> first | rfl | exact (Bool.false_ne_true h).elim) fun hw => by
    obtain ⟨h0, h1, h2, h3, h4⟩ := word_1_6_5_5_15 r (8#6) d a i
    show decodeS _ = _; delta decodeS; rw [h1]
    show checked _ _ _ = _; rw [h0, h2, h3, h4]
    exact checked_ok hw rfl

theorem RoundTrip.movh (r : Bool) (d : BitVec 5) (h : BitVec 2) (z : BitVec 1) (i : BitVec 16) : RoundTrip.Statement (.movh r d h z i) :=
  roundTrip_of .s rfl (fun k h => by cases k <;> first | rfl | exact (Bool.false_ne_true h).elim) fun hw => by
    obtain ⟨h0, h1, h2, h3, h4, h5, h6⟩ := word_1_6_5_2_1_1_16 r (9#6) d h z (0#1) i
    show decodeS _ = _; delta decodeS; rw [h1]
    show checked _ _ _ = _; rw [h0, h2, h3, h4, h5, h6]
    exact checked_ok hw rfl

theorem RoundTrip.muli (r : Bool) (d : BitVec 5) (a : BitVec 5) (i : BitVec 15) : RoundTrip.Statement (.muli r d a i) :=
  roundTrip_of .s rfl (fun k h => by cases k <;> first | rfl | exact (Bool.false_ne_true h).elim) fun hw => by
    obtain ⟨h0, h1, h2, h3, h4⟩ := word_1_6_5_5_15 r (10#6) d a i
    show decodeS _ = _; delta decodeS; rw [h1]
    show checked _ _ _ = _; rw [h0, h2, h3, h4]
    exact checked_ok hw rfl

theorem RoundTrip.beq (r : Bool) (a : BitVec 5) (b : BitVec 5) (o : BitVec 15) : RoundTrip.Statement (.beq r a b o) :=
  roundTrip_of .s rfl (fun k h => by cases k <;> first | rfl | exact (Bool.false_ne_true h).elim) fun hw => by
    obtain ⟨h0, h1, h2, h3, h4⟩ := word_1_6_5_5_15 r (16#6) a b o
    show decodeS _ = _; delta decodeS; rw [h1]
    show checked _ _ _ = _; rw [h0, h2, h3, h4]
    exact checked_ok hw rfl

theorem RoundTrip.bne (r : Bool) (a : BitVec 5) (b : BitVec 5) (o : BitVec 15) : RoundTrip.Statement (.bne r a b o) :=
  roundTrip_of .s rfl (fun k h => by cases k <;> first | rfl | exact (Bool.false_ne_true h).elim) fun hw => by
    obtain ⟨h0, h1, h2, h3, h4⟩ := word_1_6_5_5_15 r (17#6) a b o
    show decodeS _ = _; delta decodeS; rw [h1]
    show checked _ _ _ = _; rw [h0, h2, h3, h4]
    exact checked_ok hw rfl

theorem RoundTrip.blt (r : Bool) (a : BitVec 5) (b : BitVec 5) (o : BitVec 15) : RoundTrip.Statement (.blt r a b o) :=
  roundTrip_of .s rfl (fun k h => by cases k <;> first | rfl | exact (Bool.false_ne_true h).elim) fun hw => by
    obtain ⟨h0, h1, h2, h3, h4⟩ := word_1_6_5_5_15 r (18#6) a b o
    show decodeS _ = _; delta decodeS; rw [h1]
    show checked _ _ _ = _; rw [h0, h2, h3, h4]
    exact checked_ok hw rfl

theorem RoundTrip.bge (r : Bool) (a : BitVec 5) (b : BitVec 5) (o : BitVec 15) : RoundTrip.Statement (.bge r a b o) :=
  roundTrip_of .s rfl (fun k h => by cases k <;> first | rfl | exact (Bool.false_ne_true h).elim) fun hw => by
    obtain ⟨h0, h1, h2, h3, h4⟩ := word_1_6_5_5_15 r (19#6) a b o
    show decodeS _ = _; delta decodeS; rw [h1]
    show checked _ _ _ = _; rw [h0, h2, h3, h4]
    exact checked_ok hw rfl

theorem RoundTrip.bltu (r : Bool) (a : BitVec 5) (b : BitVec 5) (o : BitVec 15) : RoundTrip.Statement (.bltu r a b o) :=
  roundTrip_of .s rfl (fun k h => by cases k <;> first | rfl | exact (Bool.false_ne_true h).elim) fun hw => by
    obtain ⟨h0, h1, h2, h3, h4⟩ := word_1_6_5_5_15 r (20#6) a b o
    show decodeS _ = _; delta decodeS; rw [h1]
    show checked _ _ _ = _; rw [h0, h2, h3, h4]
    exact checked_ok hw rfl

theorem RoundTrip.bgeu (r : Bool) (a : BitVec 5) (b : BitVec 5) (o : BitVec 15) : RoundTrip.Statement (.bgeu r a b o) :=
  roundTrip_of .s rfl (fun k h => by cases k <;> first | rfl | exact (Bool.false_ne_true h).elim) fun hw => by
    obtain ⟨h0, h1, h2, h3, h4⟩ := word_1_6_5_5_15 r (21#6) a b o
    show decodeS _ = _; delta decodeS; rw [h1]
    show checked _ _ _ = _; rw [h0, h2, h3, h4]
    exact checked_ok hw rfl

theorem RoundTrip.bpany (r : Bool) (n : BitVec 4) (o : BitVec 15) : RoundTrip.Statement (.bpany r n o) :=
  roundTrip_of .s rfl (fun k h => by cases k <;> first | rfl | exact (Bool.false_ne_true h).elim) fun hw => by
    obtain ⟨h0, h1, h2, h3, h4⟩ := word_1_6_4_6_15 r (22#6) n (0#6) o
    show decodeS _ = _; delta decodeS; rw [h1]
    show checked _ _ _ = _; rw [h0, h2, h3, h4]
    exact checked_ok hw rfl

theorem RoundTrip.bpall (r : Bool) (n : BitVec 4) (o : BitVec 15) : RoundTrip.Statement (.bpall r n o) :=
  roundTrip_of .s rfl (fun k h => by cases k <;> first | rfl | exact (Bool.false_ne_true h).elim) fun hw => by
    obtain ⟨h0, h1, h2, h3, h4⟩ := word_1_6_4_6_15 r (23#6) n (0#6) o
    show decodeS _ = _; delta decodeS; rw [h1]
    show checked _ _ _ = _; rw [h0, h2, h3, h4]
    exact checked_ok hw rfl

theorem RoundTrip.jmp (r : Bool) (o : BitVec 25) : RoundTrip.Statement (.jmp r o) :=
  roundTrip_of .s rfl (fun k h => by cases k <;> first | rfl | exact (Bool.false_ne_true h).elim) fun hw => by
    obtain ⟨h0, h1, h2⟩ := word_1_6_25 r (24#6) o
    show decodeS _ = _; delta decodeS; rw [h1]
    show checked _ _ _ = _; rw [h0, h2]
    exact checked_ok hw rfl

theorem RoundTrip.call (r : Bool) (o : BitVec 25) : RoundTrip.Statement (.call r o) :=
  roundTrip_of .s rfl (fun k h => by cases k <;> first | rfl | exact (Bool.false_ne_true h).elim) fun hw => by
    obtain ⟨h0, h1, h2⟩ := word_1_6_25 r (25#6) o
    show decodeS _ = _; delta decodeS; rw [h1]
    show checked _ _ _ = _; rw [h0, h2]
    exact checked_ok hw rfl

theorem RoundTrip.jr (r : Bool) (d : BitVec 5) (a : BitVec 5) (i : BitVec 15) : RoundTrip.Statement (.jr r d a i) :=
  roundTrip_of .s rfl (fun k h => by cases k <;> first | rfl | exact (Bool.false_ne_true h).elim) fun hw => by
    obtain ⟨h0, h1, h2, h3, h4⟩ := word_1_6_5_5_15 r (26#6) d a i
    show decodeS _ = _; delta decodeS; rw [h1]
    show checked _ _ _ = _; rw [h0, h2, h3, h4]
    exact checked_ok hw rfl

theorem RoundTrip.loop (r : Bool) (a : BitVec 5) (o : BitVec 15) : RoundTrip.Statement (.loop r a o) :=
  roundTrip_of .s rfl (fun k h => by cases k <;> first | rfl | exact (Bool.false_ne_true h).elim) fun hw => by
    obtain ⟨h0, h1, h2, h3, h4⟩ := word_1_6_5_5_15 r (27#6) a (0#5) o
    show decodeS _ = _; delta decodeS; rw [h1]
    show checked _ _ _ = _; rw [h0, h2, h3, h4]
    exact checked_ok hw rfl

theorem RoundTrip.lbuf (r : Bool) (a : BitVec 5) (l : BitVec 6) : RoundTrip.Statement (.lbuf r a l) :=
  roundTrip_of .s rfl (fun k h => by cases k <;> first | rfl | exact (Bool.false_ne_true h).elim) fun hw => by
    obtain ⟨h0, h1, h2, h3, h4⟩ := word_1_6_5_6_14 r (28#6) a l (0#14)
    show decodeS _ = _; delta decodeS; rw [h1]
    show checked _ _ _ = _; rw [h0, h2, h3, h4]
    exact checked_ok hw rfl

theorem RoundTrip.ld (r : Bool) (d : BitVec 5) (a : BitVec 5) (s : BitVec 2) (p : BitVec 3) (o : BitVec 10) : RoundTrip.Statement (.ld r d a s p o) :=
  roundTrip_of .s rfl (fun k h => by cases k <;> first | rfl | exact (Bool.false_ne_true h).elim) fun hw => by
    obtain ⟨h0, h1, h2, h3, h4, h5, h6⟩ := word_1_6_5_5_2_3_10 r (32#6) d a s p o
    show decodeS _ = _; delta decodeS; rw [h1]
    show checked _ _ _ = _; rw [h0, h2, h3, h4, h5, h6]
    exact checked_ok hw rfl

theorem RoundTrip.ldu (r : Bool) (d : BitVec 5) (a : BitVec 5) (s : BitVec 2) (p : BitVec 3) (o : BitVec 10) : RoundTrip.Statement (.ldu r d a s p o) :=
  roundTrip_of .s rfl (fun k h => by cases k <;> first | rfl | exact (Bool.false_ne_true h).elim) fun hw => by
    obtain ⟨h0, h1, h2, h3, h4, h5, h6⟩ := word_1_6_5_5_2_3_10 r (33#6) d a s p o
    show decodeS _ = _; delta decodeS; rw [h1]
    show checked _ _ _ = _; rw [h0, h2, h3, h4, h5, h6]
    exact checked_ok hw rfl

theorem RoundTrip.st (r : Bool) (s : BitVec 5) (a : BitVec 5) (z : BitVec 2) (p : BitVec 3) (o : BitVec 10) : RoundTrip.Statement (.st r s a z p o) :=
  roundTrip_of .s rfl (fun k h => by cases k <;> first | rfl | exact (Bool.false_ne_true h).elim) fun hw => by
    obtain ⟨h0, h1, h2, h3, h4, h5, h6⟩ := word_1_6_5_5_2_3_10 r (34#6) s a z p o
    show decodeS _ = _; delta decodeS; rw [h1]
    show checked _ _ _ = _; rw [h0, h2, h3, h4, h5, h6]
    exact checked_ok hw rfl

theorem RoundTrip.ldk (r : Bool) (d : BitVec 5) (a : BitVec 5) (s : BitVec 2) (o : BitVec 10) : RoundTrip.Statement (.ldk r d a s o) :=
  roundTrip_of .s rfl (fun k h => by cases k <;> first | rfl | exact (Bool.false_ne_true h).elim) fun hw => by
    obtain ⟨h0, h1, h2, h3, h4, h5, h6⟩ := word_1_6_5_5_2_3_10 r (35#6) d a s (0#3) o
    show decodeS _ = _; delta decodeS; rw [h1]
    show checked _ _ _ = _; rw [h0, h2, h3, h4, h5, h6]
    exact checked_ok hw rfl

theorem RoundTrip.amoadd (r : Bool) (d : BitVec 5) (a : BitVec 5) (b : BitVec 5) (q : BitVec 1) (l : BitVec 1) (c : BitVec 2) (z : BitVec 1) (p : BitVec 1) : RoundTrip.Statement (.amoadd r d a b q l c z p) :=
  roundTrip_of .s rfl (fun k h => by cases k <;> first | rfl | exact (Bool.false_ne_true h).elim) fun hw => by
    obtain ⟨h0, h1, h2, h3, h4, h5, h6, h7, h8, h9, h10⟩ := word_1_6_5_5_5_4_1_1_2_1_1 r (36#6) d a b (0#4) q l c z p
    show decodeS _ = _; delta decodeS; rw [h1]
    show decodeSfn36 _ = _; delta decodeSfn36; rw [h5]
    show checked _ _ _ = _; rw [h0, h2, h3, h4, h6, h7, h8, h9, h10]
    exact checked_ok hw rfl

theorem RoundTrip.amoand (r : Bool) (d : BitVec 5) (a : BitVec 5) (b : BitVec 5) (q : BitVec 1) (l : BitVec 1) (c : BitVec 2) (z : BitVec 1) (p : BitVec 1) : RoundTrip.Statement (.amoand r d a b q l c z p) :=
  roundTrip_of .s rfl (fun k h => by cases k <;> first | rfl | exact (Bool.false_ne_true h).elim) fun hw => by
    obtain ⟨h0, h1, h2, h3, h4, h5, h6, h7, h8, h9, h10⟩ := word_1_6_5_5_5_4_1_1_2_1_1 r (36#6) d a b (1#4) q l c z p
    show decodeS _ = _; delta decodeS; rw [h1]
    show decodeSfn36 _ = _; delta decodeSfn36; rw [h5]
    show checked _ _ _ = _; rw [h0, h2, h3, h4, h6, h7, h8, h9, h10]
    exact checked_ok hw rfl

theorem RoundTrip.amoor (r : Bool) (d : BitVec 5) (a : BitVec 5) (b : BitVec 5) (q : BitVec 1) (l : BitVec 1) (c : BitVec 2) (z : BitVec 1) (p : BitVec 1) : RoundTrip.Statement (.amoor r d a b q l c z p) :=
  roundTrip_of .s rfl (fun k h => by cases k <;> first | rfl | exact (Bool.false_ne_true h).elim) fun hw => by
    obtain ⟨h0, h1, h2, h3, h4, h5, h6, h7, h8, h9, h10⟩ := word_1_6_5_5_5_4_1_1_2_1_1 r (36#6) d a b (2#4) q l c z p
    show decodeS _ = _; delta decodeS; rw [h1]
    show decodeSfn36 _ = _; delta decodeSfn36; rw [h5]
    show checked _ _ _ = _; rw [h0, h2, h3, h4, h6, h7, h8, h9, h10]
    exact checked_ok hw rfl

theorem RoundTrip.amoxor (r : Bool) (d : BitVec 5) (a : BitVec 5) (b : BitVec 5) (q : BitVec 1) (l : BitVec 1) (c : BitVec 2) (z : BitVec 1) (p : BitVec 1) : RoundTrip.Statement (.amoxor r d a b q l c z p) :=
  roundTrip_of .s rfl (fun k h => by cases k <;> first | rfl | exact (Bool.false_ne_true h).elim) fun hw => by
    obtain ⟨h0, h1, h2, h3, h4, h5, h6, h7, h8, h9, h10⟩ := word_1_6_5_5_5_4_1_1_2_1_1 r (36#6) d a b (3#4) q l c z p
    show decodeS _ = _; delta decodeS; rw [h1]
    show decodeSfn36 _ = _; delta decodeSfn36; rw [h5]
    show checked _ _ _ = _; rw [h0, h2, h3, h4, h6, h7, h8, h9, h10]
    exact checked_ok hw rfl

theorem RoundTrip.amomin (r : Bool) (d : BitVec 5) (a : BitVec 5) (b : BitVec 5) (q : BitVec 1) (l : BitVec 1) (c : BitVec 2) (z : BitVec 1) (p : BitVec 1) : RoundTrip.Statement (.amomin r d a b q l c z p) :=
  roundTrip_of .s rfl (fun k h => by cases k <;> first | rfl | exact (Bool.false_ne_true h).elim) fun hw => by
    obtain ⟨h0, h1, h2, h3, h4, h5, h6, h7, h8, h9, h10⟩ := word_1_6_5_5_5_4_1_1_2_1_1 r (36#6) d a b (4#4) q l c z p
    show decodeS _ = _; delta decodeS; rw [h1]
    show decodeSfn36 _ = _; delta decodeSfn36; rw [h5]
    show checked _ _ _ = _; rw [h0, h2, h3, h4, h6, h7, h8, h9, h10]
    exact checked_ok hw rfl

theorem RoundTrip.amomax (r : Bool) (d : BitVec 5) (a : BitVec 5) (b : BitVec 5) (q : BitVec 1) (l : BitVec 1) (c : BitVec 2) (z : BitVec 1) (p : BitVec 1) : RoundTrip.Statement (.amomax r d a b q l c z p) :=
  roundTrip_of .s rfl (fun k h => by cases k <;> first | rfl | exact (Bool.false_ne_true h).elim) fun hw => by
    obtain ⟨h0, h1, h2, h3, h4, h5, h6, h7, h8, h9, h10⟩ := word_1_6_5_5_5_4_1_1_2_1_1 r (36#6) d a b (5#4) q l c z p
    show decodeS _ = _; delta decodeS; rw [h1]
    show decodeSfn36 _ = _; delta decodeSfn36; rw [h5]
    show checked _ _ _ = _; rw [h0, h2, h3, h4, h6, h7, h8, h9, h10]
    exact checked_ok hw rfl

theorem RoundTrip.amominu (r : Bool) (d : BitVec 5) (a : BitVec 5) (b : BitVec 5) (q : BitVec 1) (l : BitVec 1) (c : BitVec 2) (z : BitVec 1) (p : BitVec 1) : RoundTrip.Statement (.amominu r d a b q l c z p) :=
  roundTrip_of .s rfl (fun k h => by cases k <;> first | rfl | exact (Bool.false_ne_true h).elim) fun hw => by
    obtain ⟨h0, h1, h2, h3, h4, h5, h6, h7, h8, h9, h10⟩ := word_1_6_5_5_5_4_1_1_2_1_1 r (36#6) d a b (6#4) q l c z p
    show decodeS _ = _; delta decodeS; rw [h1]
    show decodeSfn36 _ = _; delta decodeSfn36; rw [h5]
    show checked _ _ _ = _; rw [h0, h2, h3, h4, h6, h7, h8, h9, h10]
    exact checked_ok hw rfl

theorem RoundTrip.amomaxu (r : Bool) (d : BitVec 5) (a : BitVec 5) (b : BitVec 5) (q : BitVec 1) (l : BitVec 1) (c : BitVec 2) (z : BitVec 1) (p : BitVec 1) : RoundTrip.Statement (.amomaxu r d a b q l c z p) :=
  roundTrip_of .s rfl (fun k h => by cases k <;> first | rfl | exact (Bool.false_ne_true h).elim) fun hw => by
    obtain ⟨h0, h1, h2, h3, h4, h5, h6, h7, h8, h9, h10⟩ := word_1_6_5_5_5_4_1_1_2_1_1 r (36#6) d a b (7#4) q l c z p
    show decodeS _ = _; delta decodeS; rw [h1]
    show decodeSfn36 _ = _; delta decodeSfn36; rw [h5]
    show checked _ _ _ = _; rw [h0, h2, h3, h4, h6, h7, h8, h9, h10]
    exact checked_ok hw rfl

theorem RoundTrip.amoswap (r : Bool) (d : BitVec 5) (a : BitVec 5) (b : BitVec 5) (q : BitVec 1) (l : BitVec 1) (c : BitVec 2) (z : BitVec 1) (p : BitVec 1) : RoundTrip.Statement (.amoswap r d a b q l c z p) :=
  roundTrip_of .s rfl (fun k h => by cases k <;> first | rfl | exact (Bool.false_ne_true h).elim) fun hw => by
    obtain ⟨h0, h1, h2, h3, h4, h5, h6, h7, h8, h9, h10⟩ := word_1_6_5_5_5_4_1_1_2_1_1 r (36#6) d a b (8#4) q l c z p
    show decodeS _ = _; delta decodeS; rw [h1]
    show decodeSfn36 _ = _; delta decodeSfn36; rw [h5]
    show checked _ _ _ = _; rw [h0, h2, h3, h4, h6, h7, h8, h9, h10]
    exact checked_ok hw rfl

theorem RoundTrip.cas (r : Bool) (d : BitVec 5) (a : BitVec 5) (b : BitVec 5) (q : BitVec 1) (l : BitVec 1) (c : BitVec 2) (z : BitVec 1) (p : BitVec 1) : RoundTrip.Statement (.cas r d a b q l c z p) :=
  roundTrip_of .s rfl (fun k h => by cases k <;> first | rfl | exact (Bool.false_ne_true h).elim) fun hw => by
    obtain ⟨h0, h1, h2, h3, h4, h5, h6, h7, h8, h9, h10⟩ := word_1_6_5_5_5_4_1_1_2_1_1 r (37#6) d a b (0#4) q l c z p
    show decodeS _ = _; delta decodeS; rw [h1]
    show checked _ _ _ = _; rw [h0, h2, h3, h4, h5, h6, h7, h8, h9, h10]
    exact checked_ok hw rfl

theorem RoundTrip.fence (r : Bool) (c : BitVec 2) : RoundTrip.Statement (.fence r c) :=
  roundTrip_of .s rfl (fun k h => by cases k <;> first | rfl | exact (Bool.false_ne_true h).elim) fun hw => by
    obtain ⟨h0, h1, h2, h3, h4⟩ := word_1_6_14_2_9 r (38#6) (0#14) c (0#9)
    show decodeS _ = _; delta decodeS; rw [h1]
    show checked _ _ _ = _; rw [h0, h2, h3, h4]
    exact checked_ok hw rfl

theorem RoundTrip.fencex (r : Bool) (b : BitVec 7) (a : BitVec 7) (c : BitVec 2) : RoundTrip.Statement (.fencex r b a c) :=
  roundTrip_of .s rfl (fun k h => by cases k <;> first | rfl | exact (Bool.false_ne_true h).elim) fun hw => by
    obtain ⟨h0, h1, h2, h3, h4, h5⟩ := word_1_6_7_7_2_9 r (39#6) b a c (0#9)
    show decodeS _ = _; delta decodeS; rw [h1]
    show checked _ _ _ = _; rw [h0, h2, h3, h4, h5]
    exact checked_ok hw rfl

theorem RoundTrip.fencek (r : Bool) : RoundTrip.Statement (.fencek r) :=
  roundTrip_of .s rfl (fun k h => by cases k <;> first | rfl | exact (Bool.false_ne_true h).elim) fun hw => by
    obtain ⟨h0, h1, h2⟩ := word_1_6_25 r (40#6) (0#25)
    show decodeS _ = _; delta decodeS; rw [h1]
    show checked _ _ _ = _; rw [h0, h2]
    exact checked_ok hw rfl

theorem RoundTrip.watch (r : Bool) (a : BitVec 5) : RoundTrip.Statement (.watch r a) :=
  roundTrip_of .s rfl (fun k h => by cases k <;> first | rfl | exact (Bool.false_ne_true h).elim) fun hw => by
    obtain ⟨h0, h1, h2, h3, h4⟩ := word_1_6_5_5_15 r (41#6) (0#5) a (0#15)
    show decodeS _ = _; delta decodeS; rw [h1]
    show checked _ _ _ = _; rw [h0, h2, h3, h4]
    exact checked_ok hw rfl

theorem RoundTrip.waita (r : Bool) (d : BitVec 5) (a : BitVec 5) : RoundTrip.Statement (.waita r d a) :=
  roundTrip_of .s rfl (fun k h => by cases k <;> first | rfl | exact (Bool.false_ne_true h).elim) fun hw => by
    obtain ⟨h0, h1, h2, h3, h4⟩ := word_1_6_5_5_15 r (42#6) d a (0#15)
    show decodeS _ = _; delta decodeS; rw [h1]
    show checked _ _ _ = _; rw [h0, h2, h3, h4]
    exact checked_ok hw rfl

theorem RoundTrip.sig (r : Bool) (f : BitVec 4) : RoundTrip.Statement (.sig r f) :=
  roundTrip_of .s rfl (fun k h => by cases k <;> first | rfl | exact (Bool.false_ne_true h).elim) fun hw => by
    obtain ⟨h0, h1, h2, h3⟩ := word_1_6_4_21 r (48#6) f (0#21)
    show decodeS _ = _; delta decodeS; rw [h1]
    show checked _ _ _ = _; rw [h0, h2, h3]
    exact checked_ok hw rfl

theorem RoundTrip.waitf (r : Bool) (f : BitVec 4) (n : BitVec 8) : RoundTrip.Statement (.waitf r f n) :=
  roundTrip_of .s rfl (fun k h => by cases k <;> first | rfl | exact (Bool.false_ne_true h).elim) fun hw => by
    obtain ⟨h0, h1, h2, h3, h4⟩ := word_1_6_4_8_13 r (49#6) f n (0#13)
    show decodeS _ = _; delta decodeS; rw [h1]
    show checked _ _ _ = _; rw [h0, h2, h3, h4]
    exact checked_ok hw rfl

theorem RoundTrip.send (r : Bool) (a : BitVec 5) (b : BitVec 5) (q : BitVec 2) : RoundTrip.Statement (.send r a b q) :=
  roundTrip_of .s rfl (fun k h => by cases k <;> first | rfl | exact (Bool.false_ne_true h).elim) fun hw => by
    obtain ⟨h0, h1, h2, h3, h4, h5, h6⟩ := word_1_6_5_5_5_8_2 r (50#6) (0#5) a b (0#8) q
    show decodeS _ = _; delta decodeS; rw [h1]
    show checked _ _ _ = _; rw [h0, h2, h3, h4, h5, h6]
    exact checked_ok hw rfl

theorem RoundTrip.recv (r : Bool) (d : BitVec 5) : RoundTrip.Statement (.recv r d) :=
  roundTrip_of .s rfl (fun k h => by cases k <;> first | rfl | exact (Bool.false_ne_true h).elim) fun hw => by
    obtain ⟨h0, h1, h2, h3⟩ := word_1_6_5_20 r (51#6) d (0#20)
    show decodeS _ = _; delta decodeS; rw [h1]
    show checked _ _ _ = _; rw [h0, h2, h3]
    exact checked_ok hw rfl

theorem RoundTrip.csrr (r : Bool) (d : BitVec 5) (c : BitVec 10) : RoundTrip.Statement (.csrr r d c) :=
  roundTrip_of .s rfl (fun k h => by cases k <;> first | rfl | exact (Bool.false_ne_true h).elim) fun hw => by
    obtain ⟨h0, h1, h2, h3, h4⟩ := word_1_6_5_10_10 r (52#6) d (0#10) c
    show decodeS _ = _; delta decodeS; rw [h1]
    show checked _ _ _ = _; rw [h0, h2, h3, h4]
    exact checked_ok hw rfl

theorem RoundTrip.csrw (r : Bool) (a : BitVec 5) (c : BitVec 10) : RoundTrip.Statement (.csrw r a c) :=
  roundTrip_of .s rfl (fun k h => by cases k <;> first | rfl | exact (Bool.false_ne_true h).elim) fun hw => by
    obtain ⟨h0, h1, h2, h3, h4, h5⟩ := word_1_6_5_5_5_10 r (53#6) (0#5) a (0#5) c
    show decodeS _ = _; delta decodeS; rw [h1]
    show checked _ _ _ = _; rw [h0, h2, h3, h4, h5]
    exact checked_ok hw rfl

theorem RoundTrip.sow (r : Bool) (a : BitVec 5) (p : BitVec 3) : RoundTrip.Statement (.sow r a p) :=
  roundTrip_of .s rfl (fun k h => by cases k <;> first | rfl | exact (Bool.false_ne_true h).elim) fun hw => by
    obtain ⟨h0, h1, h2, h3, h4, h5⟩ := word_1_6_5_5_12_3 r (54#6) (0#5) a (0#12) p
    show decodeS _ = _; delta decodeS; rw [h1]
    show checked _ _ _ = _; rw [h0, h2, h3, h4, h5]
    exact checked_ok hw rfl

theorem RoundTrip.join (r : Bool) (a : BitVec 5) : RoundTrip.Statement (.join r a) :=
  roundTrip_of .s rfl (fun k h => by cases k <;> first | rfl | exact (Bool.false_ne_true h).elim) fun hw => by
    obtain ⟨h0, h1, h2, h3, h4⟩ := word_1_6_5_5_15 r (55#6) (0#5) a (0#15)
    show decodeS _ = _; delta decodeS; rw [h1]
    show checked _ _ _ = _; rw [h0, h2, h3, h4]
    exact checked_ok hw rfl

theorem RoundTrip.done_ (r : Bool) : RoundTrip.Statement (.done_ r) :=
  roundTrip_of .s rfl (fun k h => by cases k <;> first | rfl | exact (Bool.false_ne_true h).elim) fun hw => by
    obtain ⟨h0, h1, h2⟩ := word_1_6_25 r (56#6) (0#25)
    show decodeS _ = _; delta decodeS; rw [h1]
    show checked _ _ _ = _; rw [h0, h2]
    exact checked_ok hw rfl

theorem RoundTrip.yield (r : Bool) : RoundTrip.Statement (.yield r) :=
  roundTrip_of .s rfl (fun k h => by cases k <;> first | rfl | exact (Bool.false_ne_true h).elim) fun hw => by
    obtain ⟨h0, h1, h2⟩ := word_1_6_25 r (57#6) (0#25)
    show decodeS _ = _; delta decodeS; rw [h1]
    show checked _ _ _ = _; rw [h0, h2]
    exact checked_ok hw rfl

theorem RoundTrip.trap (r : Bool) (i : BitVec 10) : RoundTrip.Statement (.trap r i) :=
  roundTrip_of .s rfl (fun k h => by cases k <;> first | rfl | exact (Bool.false_ne_true h).elim) fun hw => by
    obtain ⟨h0, h1, h2, h3⟩ := word_1_6_15_10 r (58#6) (0#15) i
    show decodeS _ = _; delta decodeS; rw [h1]
    show checked _ _ _ = _; rw [h0, h2, h3]
    exact checked_ok hw rfl

theorem RoundTrip.tret (r : Bool) : RoundTrip.Statement (.tret r) :=
  roundTrip_of .s rfl (fun k h => by cases k <;> first | rfl | exact (Bool.false_ne_true h).elim) fun hw => by
    obtain ⟨h0, h1, h2⟩ := word_1_6_25 r (59#6) (0#25)
    show decodeS _ = _; delta decodeS; rw [h1]
    show checked _ _ _ = _; rw [h0, h2]
    exact checked_ok hw rfl

theorem RoundTrip.locq (r : Bool) (d : BitVec 5) (a : BitVec 5) (m : BitVec 1) : RoundTrip.Statement (.locq r d a m) :=
  roundTrip_of .s rfl (fun k h => by cases k <;> first | rfl | exact (Bool.false_ne_true h).elim) fun hw => by
    obtain ⟨h0, h1, h2, h3, h4, h5⟩ := word_1_6_5_5_14_1 r (60#6) d a (0#14) m
    show decodeS _ = _; delta decodeS; rw [h1]
    show checked _ _ _ = _; rw [h0, h2, h3, h4, h5]
    exact checked_ok hw rfl

theorem RoundTrip.mts (r : Bool) (a : BitVec 5) (t : BitVec 2) : RoundTrip.Statement (.mts r a t) :=
  roundTrip_of .s rfl (fun k h => by cases k <;> first | rfl | exact (Bool.false_ne_true h).elim) fun hw => by
    obtain ⟨h0, h1, h2, h3, h4, h5⟩ := word_1_6_5_5_13_2 r (61#6) (0#5) a (0#13) t
    show decodeS _ = _; delta decodeS; rw [h1]
    show checked _ _ _ = _; rw [h0, h2, h3, h4, h5]
    exact checked_ok hw rfl

theorem RoundTrip.nop (r : Bool) : RoundTrip.Statement (.nop r) :=
  roundTrip_of .s rfl (fun k h => by cases k <;> first | rfl | exact (Bool.false_ne_true h).elim) fun hw => by
    obtain ⟨h0, h1, h2⟩ := word_1_6_25 r (62#6) (0#25)
    show decodeS _ = _; delta decodeS; rw [h1]
    show checked _ _ _ = _; rw [h0, h2]
    exact checked_ok hw rfl

theorem RoundTrip.vadd (r : Bool) (d : BitVec 4) (a : BitVec 4) (b : BitVec 4) (p : BitVec 4) : RoundTrip.Statement (.vadd r d a b p) :=
  roundTrip_of .v rfl (fun k h => by cases k <;> first | rfl | exact (Bool.false_ne_true h).elim) fun hw => by
    obtain ⟨h0, h1, h2, h3, h4, h5, h6⟩ := word_1_6_4_4_4_4_9 r (1#6) d a b p (0#9)
    show decodeV _ = _; delta decodeV; rw [h1]
    show decodeVfn1 _ = _; delta decodeVfn1; rw [h6]
    show checked _ _ _ = _; rw [h0, h2, h3, h4, h5]
    exact checked_ok hw rfl

theorem RoundTrip.vsub (r : Bool) (d : BitVec 4) (a : BitVec 4) (b : BitVec 4) (p : BitVec 4) : RoundTrip.Statement (.vsub r d a b p) :=
  roundTrip_of .v rfl (fun k h => by cases k <;> first | rfl | exact (Bool.false_ne_true h).elim) fun hw => by
    obtain ⟨h0, h1, h2, h3, h4, h5, h6⟩ := word_1_6_4_4_4_4_9 r (1#6) d a b p (1#9)
    show decodeV _ = _; delta decodeV; rw [h1]
    show decodeVfn1 _ = _; delta decodeVfn1; rw [h6]
    show checked _ _ _ = _; rw [h0, h2, h3, h4, h5]
    exact checked_ok hw rfl

theorem RoundTrip.vmul (r : Bool) (d : BitVec 4) (a : BitVec 4) (b : BitVec 4) (p : BitVec 4) : RoundTrip.Statement (.vmul r d a b p) :=
  roundTrip_of .v rfl (fun k h => by cases k <;> first | rfl | exact (Bool.false_ne_true h).elim) fun hw => by
    obtain ⟨h0, h1, h2, h3, h4, h5, h6⟩ := word_1_6_4_4_4_4_9 r (1#6) d a b p (2#9)
    show decodeV _ = _; delta decodeV; rw [h1]
    show decodeVfn1 _ = _; delta decodeVfn1; rw [h6]
    show checked _ _ _ = _; rw [h0, h2, h3, h4, h5]
    exact checked_ok hw rfl

theorem RoundTrip.vfma (r : Bool) (d : BitVec 4) (a : BitVec 4) (b : BitVec 4) (p : BitVec 4) : RoundTrip.Statement (.vfma r d a b p) :=
  roundTrip_of .v rfl (fun k h => by cases k <;> first | rfl | exact (Bool.false_ne_true h).elim) fun hw => by
    obtain ⟨h0, h1, h2, h3, h4, h5, h6⟩ := word_1_6_4_4_4_4_9 r (1#6) d a b p (3#9)
    show decodeV _ = _; delta decodeV; rw [h1]
    show decodeVfn1 _ = _; delta decodeVfn1; rw [h6]
    show checked _ _ _ = _; rw [h0, h2, h3, h4, h5]
    exact checked_ok hw rfl

theorem RoundTrip.vfms (r : Bool) (d : BitVec 4) (a : BitVec 4) (b : BitVec 4) (p : BitVec 4) : RoundTrip.Statement (.vfms r d a b p) :=
  roundTrip_of .v rfl (fun k h => by cases k <;> first | rfl | exact (Bool.false_ne_true h).elim) fun hw => by
    obtain ⟨h0, h1, h2, h3, h4, h5, h6⟩ := word_1_6_4_4_4_4_9 r (1#6) d a b p (4#9)
    show decodeV _ = _; delta decodeV; rw [h1]
    show decodeVfn1 _ = _; delta decodeVfn1; rw [h6]
    show checked _ _ _ = _; rw [h0, h2, h3, h4, h5]
    exact checked_ok hw rfl

theorem RoundTrip.vmin (r : Bool) (d : BitVec 4) (a : BitVec 4) (b : BitVec 4) (p : BitVec 4) : RoundTrip.Statement (.vmin r d a b p) :=
  roundTrip_of .v rfl (fun k h => by cases k <;> first | rfl | exact (Bool.false_ne_true h).elim) fun hw => by
    obtain ⟨h0, h1, h2, h3, h4, h5, h6⟩ := word_1_6_4_4_4_4_9 r (1#6) d a b p (5#9)
    show decodeV _ = _; delta decodeV; rw [h1]
    show decodeVfn1 _ = _; delta decodeVfn1; rw [h6]
    show checked _ _ _ = _; rw [h0, h2, h3, h4, h5]
    exact checked_ok hw rfl

theorem RoundTrip.vmax (r : Bool) (d : BitVec 4) (a : BitVec 4) (b : BitVec 4) (p : BitVec 4) : RoundTrip.Statement (.vmax r d a b p) :=
  roundTrip_of .v rfl (fun k h => by cases k <;> first | rfl | exact (Bool.false_ne_true h).elim) fun hw => by
    obtain ⟨h0, h1, h2, h3, h4, h5, h6⟩ := word_1_6_4_4_4_4_9 r (1#6) d a b p (6#9)
    show decodeV _ = _; delta decodeV; rw [h1]
    show decodeVfn1 _ = _; delta decodeVfn1; rw [h6]
    show checked _ _ _ = _; rw [h0, h2, h3, h4, h5]
    exact checked_ok hw rfl

theorem RoundTrip.vabs (r : Bool) (d : BitVec 4) (a : BitVec 4) (p : BitVec 4) : RoundTrip.Statement (.vabs r d a p) :=
  roundTrip_of .v rfl (fun k h => by cases k <;> first | rfl | exact (Bool.false_ne_true h).elim) fun hw => by
    obtain ⟨h0, h1, h2, h3, h4, h5, h6⟩ := word_1_6_4_4_4_4_9 r (1#6) d a (0#4) p (7#9)
    show decodeV _ = _; delta decodeV; rw [h1]
    show decodeVfn1 _ = _; delta decodeVfn1; rw [h6]
    show checked _ _ _ = _; rw [h0, h2, h3, h4, h5]
    exact checked_ok hw rfl

theorem RoundTrip.vneg (r : Bool) (d : BitVec 4) (a : BitVec 4) (p : BitVec 4) : RoundTrip.Statement (.vneg r d a p) :=
  roundTrip_of .v rfl (fun k h => by cases k <;> first | rfl | exact (Bool.false_ne_true h).elim) fun hw => by
    obtain ⟨h0, h1, h2, h3, h4, h5, h6⟩ := word_1_6_4_4_4_4_9 r (1#6) d a (0#4) p (8#9)
    show decodeV _ = _; delta decodeV; rw [h1]
    show decodeVfn1 _ = _; delta decodeVfn1; rw [h6]
    show checked _ _ _ = _; rw [h0, h2, h3, h4, h5]
    exact checked_ok hw rfl

theorem RoundTrip.viadd (r : Bool) (d : BitVec 4) (a : BitVec 4) (b : BitVec 4) (p : BitVec 4) : RoundTrip.Statement (.viadd r d a b p) :=
  roundTrip_of .v rfl (fun k h => by cases k <;> first | rfl | exact (Bool.false_ne_true h).elim) fun hw => by
    obtain ⟨h0, h1, h2, h3, h4, h5, h6⟩ := word_1_6_4_4_4_4_9 r (2#6) d a b p (0#9)
    show decodeV _ = _; delta decodeV; rw [h1]
    show decodeVfn2 _ = _; delta decodeVfn2; rw [h6]
    show checked _ _ _ = _; rw [h0, h2, h3, h4, h5]
    exact checked_ok hw rfl

theorem RoundTrip.visub (r : Bool) (d : BitVec 4) (a : BitVec 4) (b : BitVec 4) (p : BitVec 4) : RoundTrip.Statement (.visub r d a b p) :=
  roundTrip_of .v rfl (fun k h => by cases k <;> first | rfl | exact (Bool.false_ne_true h).elim) fun hw => by
    obtain ⟨h0, h1, h2, h3, h4, h5, h6⟩ := word_1_6_4_4_4_4_9 r (2#6) d a b p (1#9)
    show decodeV _ = _; delta decodeV; rw [h1]
    show decodeVfn2 _ = _; delta decodeVfn2; rw [h6]
    show checked _ _ _ = _; rw [h0, h2, h3, h4, h5]
    exact checked_ok hw rfl

theorem RoundTrip.vimul (r : Bool) (d : BitVec 4) (a : BitVec 4) (b : BitVec 4) (p : BitVec 4) : RoundTrip.Statement (.vimul r d a b p) :=
  roundTrip_of .v rfl (fun k h => by cases k <;> first | rfl | exact (Bool.false_ne_true h).elim) fun hw => by
    obtain ⟨h0, h1, h2, h3, h4, h5, h6⟩ := word_1_6_4_4_4_4_9 r (2#6) d a b p (2#9)
    show decodeV _ = _; delta decodeV; rw [h1]
    show decodeVfn2 _ = _; delta decodeVfn2; rw [h6]
    show checked _ _ _ = _; rw [h0, h2, h3, h4, h5]
    exact checked_ok hw rfl

theorem RoundTrip.vimulh (r : Bool) (d : BitVec 4) (a : BitVec 4) (b : BitVec 4) (p : BitVec 4) : RoundTrip.Statement (.vimulh r d a b p) :=
  roundTrip_of .v rfl (fun k h => by cases k <;> first | rfl | exact (Bool.false_ne_true h).elim) fun hw => by
    obtain ⟨h0, h1, h2, h3, h4, h5, h6⟩ := word_1_6_4_4_4_4_9 r (2#6) d a b p (3#9)
    show decodeV _ = _; delta decodeV; rw [h1]
    show decodeVfn2 _ = _; delta decodeVfn2; rw [h6]
    show checked _ _ _ = _; rw [h0, h2, h3, h4, h5]
    exact checked_ok hw rfl

theorem RoundTrip.vand (r : Bool) (d : BitVec 4) (a : BitVec 4) (b : BitVec 4) (p : BitVec 4) : RoundTrip.Statement (.vand r d a b p) :=
  roundTrip_of .v rfl (fun k h => by cases k <;> first | rfl | exact (Bool.false_ne_true h).elim) fun hw => by
    obtain ⟨h0, h1, h2, h3, h4, h5, h6⟩ := word_1_6_4_4_4_4_9 r (2#6) d a b p (4#9)
    show decodeV _ = _; delta decodeV; rw [h1]
    show decodeVfn2 _ = _; delta decodeVfn2; rw [h6]
    show checked _ _ _ = _; rw [h0, h2, h3, h4, h5]
    exact checked_ok hw rfl

theorem RoundTrip.vor (r : Bool) (d : BitVec 4) (a : BitVec 4) (b : BitVec 4) (p : BitVec 4) : RoundTrip.Statement (.vor r d a b p) :=
  roundTrip_of .v rfl (fun k h => by cases k <;> first | rfl | exact (Bool.false_ne_true h).elim) fun hw => by
    obtain ⟨h0, h1, h2, h3, h4, h5, h6⟩ := word_1_6_4_4_4_4_9 r (2#6) d a b p (5#9)
    show decodeV _ = _; delta decodeV; rw [h1]
    show decodeVfn2 _ = _; delta decodeVfn2; rw [h6]
    show checked _ _ _ = _; rw [h0, h2, h3, h4, h5]
    exact checked_ok hw rfl

theorem RoundTrip.vxor (r : Bool) (d : BitVec 4) (a : BitVec 4) (b : BitVec 4) (p : BitVec 4) : RoundTrip.Statement (.vxor r d a b p) :=
  roundTrip_of .v rfl (fun k h => by cases k <;> first | rfl | exact (Bool.false_ne_true h).elim) fun hw => by
    obtain ⟨h0, h1, h2, h3, h4, h5, h6⟩ := word_1_6_4_4_4_4_9 r (2#6) d a b p (6#9)
    show decodeV _ = _; delta decodeV; rw [h1]
    show decodeVfn2 _ = _; delta decodeVfn2; rw [h6]
    show checked _ _ _ = _; rw [h0, h2, h3, h4, h5]
    exact checked_ok hw rfl

theorem RoundTrip.vandn (r : Bool) (d : BitVec 4) (a : BitVec 4) (b : BitVec 4) (p : BitVec 4) : RoundTrip.Statement (.vandn r d a b p) :=
  roundTrip_of .v rfl (fun k h => by cases k <;> first | rfl | exact (Bool.false_ne_true h).elim) fun hw => by
    obtain ⟨h0, h1, h2, h3, h4, h5, h6⟩ := word_1_6_4_4_4_4_9 r (2#6) d a b p (7#9)
    show decodeV _ = _; delta decodeV; rw [h1]
    show decodeVfn2 _ = _; delta decodeVfn2; rw [h6]
    show checked _ _ _ = _; rw [h0, h2, h3, h4, h5]
    exact checked_ok hw rfl

theorem RoundTrip.vshl (r : Bool) (d : BitVec 4) (a : BitVec 4) (b : BitVec 4) (p : BitVec 4) : RoundTrip.Statement (.vshl r d a b p) :=
  roundTrip_of .v rfl (fun k h => by cases k <;> first | rfl | exact (Bool.false_ne_true h).elim) fun hw => by
    obtain ⟨h0, h1, h2, h3, h4, h5, h6⟩ := word_1_6_4_4_4_4_9 r (2#6) d a b p (8#9)
    show decodeV _ = _; delta decodeV; rw [h1]
    show decodeVfn2 _ = _; delta decodeVfn2; rw [h6]
    show checked _ _ _ = _; rw [h0, h2, h3, h4, h5]
    exact checked_ok hw rfl

theorem RoundTrip.vshr (r : Bool) (d : BitVec 4) (a : BitVec 4) (b : BitVec 4) (p : BitVec 4) : RoundTrip.Statement (.vshr r d a b p) :=
  roundTrip_of .v rfl (fun k h => by cases k <;> first | rfl | exact (Bool.false_ne_true h).elim) fun hw => by
    obtain ⟨h0, h1, h2, h3, h4, h5, h6⟩ := word_1_6_4_4_4_4_9 r (2#6) d a b p (9#9)
    show decodeV _ = _; delta decodeV; rw [h1]
    show decodeVfn2 _ = _; delta decodeVfn2; rw [h6]
    show checked _ _ _ = _; rw [h0, h2, h3, h4, h5]
    exact checked_ok hw rfl

theorem RoundTrip.vshra (r : Bool) (d : BitVec 4) (a : BitVec 4) (b : BitVec 4) (p : BitVec 4) : RoundTrip.Statement (.vshra r d a b p) :=
  roundTrip_of .v rfl (fun k h => by cases k <;> first | rfl | exact (Bool.false_ne_true h).elim) fun hw => by
    obtain ⟨h0, h1, h2, h3, h4, h5, h6⟩ := word_1_6_4_4_4_4_9 r (2#6) d a b p (10#9)
    show decodeV _ = _; delta decodeV; rw [h1]
    show decodeVfn2 _ = _; delta decodeVfn2; rw [h6]
    show checked _ _ _ = _; rw [h0, h2, h3, h4, h5]
    exact checked_ok hw rfl

theorem RoundTrip.vimin (r : Bool) (d : BitVec 4) (a : BitVec 4) (b : BitVec 4) (p : BitVec 4) : RoundTrip.Statement (.vimin r d a b p) :=
  roundTrip_of .v rfl (fun k h => by cases k <;> first | rfl | exact (Bool.false_ne_true h).elim) fun hw => by
    obtain ⟨h0, h1, h2, h3, h4, h5, h6⟩ := word_1_6_4_4_4_4_9 r (2#6) d a b p (11#9)
    show decodeV _ = _; delta decodeV; rw [h1]
    show decodeVfn2 _ = _; delta decodeVfn2; rw [h6]
    show checked _ _ _ = _; rw [h0, h2, h3, h4, h5]
    exact checked_ok hw rfl

theorem RoundTrip.vimax (r : Bool) (d : BitVec 4) (a : BitVec 4) (b : BitVec 4) (p : BitVec 4) : RoundTrip.Statement (.vimax r d a b p) :=
  roundTrip_of .v rfl (fun k h => by cases k <;> first | rfl | exact (Bool.false_ne_true h).elim) fun hw => by
    obtain ⟨h0, h1, h2, h3, h4, h5, h6⟩ := word_1_6_4_4_4_4_9 r (2#6) d a b p (12#9)
    show decodeV _ = _; delta decodeV; rw [h1]
    show decodeVfn2 _ = _; delta decodeVfn2; rw [h6]
    show checked _ _ _ = _; rw [h0, h2, h3, h4, h5]
    exact checked_ok hw rfl

theorem RoundTrip.viminu (r : Bool) (d : BitVec 4) (a : BitVec 4) (b : BitVec 4) (p : BitVec 4) : RoundTrip.Statement (.viminu r d a b p) :=
  roundTrip_of .v rfl (fun k h => by cases k <;> first | rfl | exact (Bool.false_ne_true h).elim) fun hw => by
    obtain ⟨h0, h1, h2, h3, h4, h5, h6⟩ := word_1_6_4_4_4_4_9 r (2#6) d a b p (13#9)
    show decodeV _ = _; delta decodeV; rw [h1]
    show decodeVfn2 _ = _; delta decodeVfn2; rw [h6]
    show checked _ _ _ = _; rw [h0, h2, h3, h4, h5]
    exact checked_ok hw rfl

theorem RoundTrip.vimaxu (r : Bool) (d : BitVec 4) (a : BitVec 4) (b : BitVec 4) (p : BitVec 4) : RoundTrip.Statement (.vimaxu r d a b p) :=
  roundTrip_of .v rfl (fun k h => by cases k <;> first | rfl | exact (Bool.false_ne_true h).elim) fun hw => by
    obtain ⟨h0, h1, h2, h3, h4, h5, h6⟩ := word_1_6_4_4_4_4_9 r (2#6) d a b p (14#9)
    show decodeV _ = _; delta decodeV; rw [h1]
    show decodeVfn2 _ = _; delta decodeVfn2; rw [h6]
    show checked _ _ _ = _; rw [h0, h2, h3, h4, h5]
    exact checked_ok hw rfl

theorem RoundTrip.viadds (r : Bool) (d : BitVec 4) (a : BitVec 4) (b : BitVec 4) (p : BitVec 4) : RoundTrip.Statement (.viadds r d a b p) :=
  roundTrip_of .v rfl (fun k h => by cases k <;> first | rfl | exact (Bool.false_ne_true h).elim) fun hw => by
    obtain ⟨h0, h1, h2, h3, h4, h5, h6⟩ := word_1_6_4_4_4_4_9 r (2#6) d a b p (15#9)
    show decodeV _ = _; delta decodeV; rw [h1]
    show decodeVfn2 _ = _; delta decodeVfn2; rw [h6]
    show checked _ _ _ = _; rw [h0, h2, h3, h4, h5]
    exact checked_ok hw rfl

theorem RoundTrip.visubs (r : Bool) (d : BitVec 4) (a : BitVec 4) (b : BitVec 4) (p : BitVec 4) : RoundTrip.Statement (.visubs r d a b p) :=
  roundTrip_of .v rfl (fun k h => by cases k <;> first | rfl | exact (Bool.false_ne_true h).elim) fun hw => by
    obtain ⟨h0, h1, h2, h3, h4, h5, h6⟩ := word_1_6_4_4_4_4_9 r (2#6) d a b p (16#9)
    show decodeV _ = _; delta decodeV; rw [h1]
    show decodeVfn2 _ = _; delta decodeVfn2; rw [h6]
    show checked _ _ _ = _; rw [h0, h2, h3, h4, h5]
    exact checked_ok hw rfl

theorem RoundTrip.vcmp (r : Bool) (d : BitVec 4) (a : BitVec 4) (b : BitVec 4) (p : BitVec 4) (c : BitVec 4) : RoundTrip.Statement (.vcmp r d a b p c) :=
  roundTrip_of .v rfl (fun k h => by cases k <;> first | rfl | exact (Bool.false_ne_true h).elim) fun hw => by
    obtain ⟨h0, h1, h2, h3, h4, h5, h6, h7⟩ := word_1_6_4_4_4_4_5_4 r (3#6) d a b p (0#5) c
    show decodeV _ = _; delta decodeV; rw [h1]
    show checked _ _ _ = _; rw [h0, h2, h3, h4, h5, h6, h7]
    exact checked_ok hw rfl

theorem RoundTrip.vsel (r : Bool) (d : BitVec 4) (a : BitVec 4) (b : BitVec 4) (s : BitVec 4) : RoundTrip.Statement (.vsel r d a b s) :=
  roundTrip_of .v rfl (fun k h => by cases k <;> first | rfl | exact (Bool.false_ne_true h).elim) fun hw => by
    obtain ⟨h0, h1, h2, h3, h4, h5, h6⟩ := word_1_6_4_4_4_4_9 r (4#6) d a b s (0#9)
    show decodeV _ = _; delta decodeV; rw [h1]
    show checked _ _ _ = _; rw [h0, h2, h3, h4, h5, h6]
    exact checked_ok hw rfl

theorem RoundTrip.vexp2 (r : Bool) (d : BitVec 4) (a : BitVec 4) (p : BitVec 4) : RoundTrip.Statement (.vexp2 r d a p) :=
  roundTrip_of .v rfl (fun k h => by cases k <;> first | rfl | exact (Bool.false_ne_true h).elim) fun hw => by
    obtain ⟨h0, h1, h2, h3, h4, h5, h6⟩ := word_1_6_4_4_4_4_9 r (5#6) d a (0#4) p (0#9)
    show decodeV _ = _; delta decodeV; rw [h1]
    show decodeVfn5 _ = _; delta decodeVfn5; rw [h6]
    show checked _ _ _ = _; rw [h0, h2, h3, h4, h5]
    exact checked_ok hw rfl

theorem RoundTrip.vlog2 (r : Bool) (d : BitVec 4) (a : BitVec 4) (p : BitVec 4) : RoundTrip.Statement (.vlog2 r d a p) :=
  roundTrip_of .v rfl (fun k h => by cases k <;> first | rfl | exact (Bool.false_ne_true h).elim) fun hw => by
    obtain ⟨h0, h1, h2, h3, h4, h5, h6⟩ := word_1_6_4_4_4_4_9 r (5#6) d a (0#4) p (1#9)
    show decodeV _ = _; delta decodeV; rw [h1]
    show decodeVfn5 _ = _; delta decodeVfn5; rw [h6]
    show checked _ _ _ = _; rw [h0, h2, h3, h4, h5]
    exact checked_ok hw rfl

theorem RoundTrip.vrcp (r : Bool) (d : BitVec 4) (a : BitVec 4) (p : BitVec 4) : RoundTrip.Statement (.vrcp r d a p) :=
  roundTrip_of .v rfl (fun k h => by cases k <;> first | rfl | exact (Bool.false_ne_true h).elim) fun hw => by
    obtain ⟨h0, h1, h2, h3, h4, h5, h6⟩ := word_1_6_4_4_4_4_9 r (5#6) d a (0#4) p (2#9)
    show decodeV _ = _; delta decodeV; rw [h1]
    show decodeVfn5 _ = _; delta decodeVfn5; rw [h6]
    show checked _ _ _ = _; rw [h0, h2, h3, h4, h5]
    exact checked_ok hw rfl

theorem RoundTrip.vrsq (r : Bool) (d : BitVec 4) (a : BitVec 4) (p : BitVec 4) : RoundTrip.Statement (.vrsq r d a p) :=
  roundTrip_of .v rfl (fun k h => by cases k <;> first | rfl | exact (Bool.false_ne_true h).elim) fun hw => by
    obtain ⟨h0, h1, h2, h3, h4, h5, h6⟩ := word_1_6_4_4_4_4_9 r (5#6) d a (0#4) p (3#9)
    show decodeV _ = _; delta decodeV; rw [h1]
    show decodeVfn5 _ = _; delta decodeVfn5; rw [h6]
    show checked _ _ _ = _; rw [h0, h2, h3, h4, h5]
    exact checked_ok hw rfl

theorem RoundTrip.vsqrt (r : Bool) (d : BitVec 4) (a : BitVec 4) (p : BitVec 4) : RoundTrip.Statement (.vsqrt r d a p) :=
  roundTrip_of .v rfl (fun k h => by cases k <;> first | rfl | exact (Bool.false_ne_true h).elim) fun hw => by
    obtain ⟨h0, h1, h2, h3, h4, h5, h6⟩ := word_1_6_4_4_4_4_9 r (5#6) d a (0#4) p (4#9)
    show decodeV _ = _; delta decodeV; rw [h1]
    show decodeVfn5 _ = _; delta decodeVfn5; rw [h6]
    show checked _ _ _ = _; rw [h0, h2, h3, h4, h5]
    exact checked_ok hw rfl

theorem RoundTrip.vsin (r : Bool) (d : BitVec 4) (a : BitVec 4) (p : BitVec 4) : RoundTrip.Statement (.vsin r d a p) :=
  roundTrip_of .v rfl (fun k h => by cases k <;> first | rfl | exact (Bool.false_ne_true h).elim) fun hw => by
    obtain ⟨h0, h1, h2, h3, h4, h5, h6⟩ := word_1_6_4_4_4_4_9 r (5#6) d a (0#4) p (5#9)
    show decodeV _ = _; delta decodeV; rw [h1]
    show decodeVfn5 _ = _; delta decodeVfn5; rw [h6]
    show checked _ _ _ = _; rw [h0, h2, h3, h4, h5]
    exact checked_ok hw rfl

theorem RoundTrip.vcos (r : Bool) (d : BitVec 4) (a : BitVec 4) (p : BitVec 4) : RoundTrip.Statement (.vcos r d a p) :=
  roundTrip_of .v rfl (fun k h => by cases k <;> first | rfl | exact (Bool.false_ne_true h).elim) fun hw => by
    obtain ⟨h0, h1, h2, h3, h4, h5, h6⟩ := word_1_6_4_4_4_4_9 r (5#6) d a (0#4) p (6#9)
    show decodeV _ = _; delta decodeV; rw [h1]
    show decodeVfn5 _ = _; delta decodeVfn5; rw [h6]
    show checked _ _ _ = _; rw [h0, h2, h3, h4, h5]
    exact checked_ok hw rfl

theorem RoundTrip.vtanh (r : Bool) (d : BitVec 4) (a : BitVec 4) (p : BitVec 4) : RoundTrip.Statement (.vtanh r d a p) :=
  roundTrip_of .v rfl (fun k h => by cases k <;> first | rfl | exact (Bool.false_ne_true h).elim) fun hw => by
    obtain ⟨h0, h1, h2, h3, h4, h5, h6⟩ := word_1_6_4_4_4_4_9 r (5#6) d a (0#4) p (7#9)
    show decodeV _ = _; delta decodeV; rw [h1]
    show decodeVfn5 _ = _; delta decodeVfn5; rw [h6]
    show checked _ _ _ = _; rw [h0, h2, h3, h4, h5]
    exact checked_ok hw rfl

theorem RoundTrip.vsigm (r : Bool) (d : BitVec 4) (a : BitVec 4) (p : BitVec 4) : RoundTrip.Statement (.vsigm r d a p) :=
  roundTrip_of .v rfl (fun k h => by cases k <;> first | rfl | exact (Bool.false_ne_true h).elim) fun hw => by
    obtain ⟨h0, h1, h2, h3, h4, h5, h6⟩ := word_1_6_4_4_4_4_9 r (5#6) d a (0#4) p (8#9)
    show decodeV _ = _; delta decodeV; rw [h1]
    show decodeVfn5 _ = _; delta decodeVfn5; rw [h6]
    show checked _ _ _ = _; rw [h0, h2, h3, h4, h5]
    exact checked_ok hw rfl

theorem RoundTrip.vcvt (r : Bool) (d : BitVec 4) (a : BitVec 4) (t : BitVec 4) (p : BitVec 4) (f : BitVec 4) (m : BitVec 2) (s : BitVec 1) : RoundTrip.Statement (.vcvt r d a t p f m s) :=
  roundTrip_of .v rfl (fun k h => by cases k <;> first | rfl | exact (Bool.false_ne_true h).elim) fun hw => by
    obtain ⟨h0, h1, h2, h3, h4, h5, h6, h7, h8, h9⟩ := word_1_6_4_4_4_4_4_2_1_2 r (6#6) d a t p f m s (0#2)
    show decodeV _ = _; delta decodeV; rw [h1]
    show checked _ _ _ = _; rw [h0, h2, h3, h4, h5, h6, h7, h8, h9]
    exact checked_ok hw rfl

theorem RoundTrip.vqmx (r : Bool) (d : BitVec 4) (a : BitVec 4) (s : BitVec 4) (p : BitVec 4) (f : BitVec 4) : RoundTrip.Statement (.vqmx r d a s p f) :=
  roundTrip_of .v rfl (fun k h => by cases k <;> first | rfl | exact (Bool.false_ne_true h).elim) fun hw => by
    obtain ⟨h0, h1, h2, h3, h4, h5, h6, h7⟩ := word_1_6_4_4_4_4_4_5 r (7#6) d a s p f (0#5)
    show decodeV _ = _; delta decodeV; rw [h1]
    show checked _ _ _ = _; rw [h0, h2, h3, h4, h5, h6, h7]
    exact checked_ok hw rfl

theorem RoundTrip.vdqmx (r : Bool) (d : BitVec 4) (a : BitVec 4) (s : BitVec 4) (p : BitVec 4) (f : BitVec 4) (m : BitVec 2) (x : BitVec 1) : RoundTrip.Statement (.vdqmx r d a s p f m x) :=
  roundTrip_of .v rfl (fun k h => by cases k <;> first | rfl | exact (Bool.false_ne_true h).elim) fun hw => by
    obtain ⟨h0, h1, h2, h3, h4, h5, h6, h7, h8, h9⟩ := word_1_6_4_4_4_4_4_2_1_2 r (8#6) d a s p f m x (0#2)
    show decodeV _ = _; delta decodeV; rw [h1]
    show checked _ _ _ = _; rw [h0, h2, h3, h4, h5, h6, h7, h8, h9]
    exact checked_ok hw rfl

theorem RoundTrip.vrotr (r : Bool) (d : BitVec 4) (a : BitVec 4) (p : BitVec 4) (n : BitVec 6) : RoundTrip.Statement (.vrotr r d a p n) :=
  roundTrip_of .v rfl (fun k h => by cases k <;> first | rfl | exact (Bool.false_ne_true h).elim) fun hw => by
    obtain ⟨h0, h1, h2, h3, h4, h5, h6, h7⟩ := word_1_6_4_4_4_4_3_6 r (9#6) d a (0#4) p (0#3) n
    show decodeV _ = _; delta decodeV; rw [h1]
    show checked _ _ _ = _; rw [h0, h2, h3, h4, h5, h6, h7]
    exact checked_ok hw rfl

theorem RoundTrip.vrotc (r : Bool) (d : BitVec 4) (a : BitVec 4) (p : BitVec 4) (n : BitVec 4) : RoundTrip.Statement (.vrotc r d a p n) :=
  roundTrip_of .v rfl (fun k h => by cases k <;> first | rfl | exact (Bool.false_ne_true h).elim) fun hw => by
    obtain ⟨h0, h1, h2, h3, h4, h5, h6, h7⟩ := word_1_6_4_4_4_4_5_4 r (10#6) d a (0#4) p (0#5) n
    show decodeV _ = _; delta decodeV; rw [h1]
    show checked _ _ _ = _; rw [h0, h2, h3, h4, h5, h6, h7]
    exact checked_ok hw rfl

theorem RoundTrip.vbcr (r : Bool) (d : BitVec 4) (a : BitVec 4) (p : BitVec 4) (n : BitVec 6) : RoundTrip.Statement (.vbcr r d a p n) :=
  roundTrip_of .v rfl (fun k h => by cases k <;> first | rfl | exact (Bool.false_ne_true h).elim) fun hw => by
    obtain ⟨h0, h1, h2, h3, h4, h5, h6, h7⟩ := word_1_6_4_4_4_4_3_6 r (11#6) d a (0#4) p (0#3) n
    show decodeV _ = _; delta decodeV; rw [h1]
    show checked _ _ _ = _; rw [h0, h2, h3, h4, h5, h6, h7]
    exact checked_ok hw rfl

theorem RoundTrip.vbcc (r : Bool) (d : BitVec 4) (a : BitVec 4) (p : BitVec 4) (n : BitVec 4) : RoundTrip.Statement (.vbcc r d a p n) :=
  roundTrip_of .v rfl (fun k h => by cases k <;> first | rfl | exact (Bool.false_ne_true h).elim) fun hw => by
    obtain ⟨h0, h1, h2, h3, h4, h5, h6, h7⟩ := word_1_6_4_4_4_4_5_4 r (12#6) d a (0#4) p (0#5) n
    show decodeV _ = _; delta decodeV; rw [h1]
    show checked _ _ _ = _; rw [h0, h2, h3, h4, h5, h6, h7]
    exact checked_ok hw rfl

theorem RoundTrip.vredr (r : Bool) (d : BitVec 4) (a : BitVec 4) (p : BitVec 4) (o : BitVec 3) : RoundTrip.Statement (.vredr r d a p o) :=
  roundTrip_of .v rfl (fun k h => by cases k <;> first | rfl | exact (Bool.false_ne_true h).elim) fun hw => by
    obtain ⟨h0, h1, h2, h3, h4, h5, h6, h7⟩ := word_1_6_4_4_4_4_3_6 r (13#6) d a (0#4) p o (0#6)
    show decodeV _ = _; delta decodeV; rw [h1]
    show checked _ _ _ = _; rw [h0, h2, h3, h4, h5, h6, h7]
    exact checked_ok hw rfl

theorem RoundTrip.vredc (r : Bool) (d : BitVec 4) (a : BitVec 4) (p : BitVec 4) (o : BitVec 3) : RoundTrip.Statement (.vredc r d a p o) :=
  roundTrip_of .v rfl (fun k h => by cases k <;> first | rfl | exact (Bool.false_ne_true h).elim) fun hw => by
    obtain ⟨h0, h1, h2, h3, h4, h5, h6, h7⟩ := word_1_6_4_4_4_4_3_6 r (14#6) d a (0#4) p o (0#6)
    show decodeV _ = _; delta decodeV; rw [h1]
    show checked _ _ _ = _; rw [h0, h2, h3, h4, h5, h6, h7]
    exact checked_ok hw rfl

theorem RoundTrip.vscanr (r : Bool) (d : BitVec 4) (a : BitVec 4) (p : BitVec 4) (o : BitVec 3) : RoundTrip.Statement (.vscanr r d a p o) :=
  roundTrip_of .v rfl (fun k h => by cases k <;> first | rfl | exact (Bool.false_ne_true h).elim) fun hw => by
    obtain ⟨h0, h1, h2, h3, h4, h5, h6, h7⟩ := word_1_6_4_4_4_4_3_6 r (15#6) d a (0#4) p o (0#6)
    show decodeV _ = _; delta decodeV; rw [h1]
    show checked _ _ _ = _; rw [h0, h2, h3, h4, h5, h6, h7]
    exact checked_ok hw rfl

theorem RoundTrip.vscanc (r : Bool) (d : BitVec 4) (a : BitVec 4) (p : BitVec 4) (o : BitVec 3) : RoundTrip.Statement (.vscanc r d a p o) :=
  roundTrip_of .v rfl (fun k h => by cases k <;> first | rfl | exact (Bool.false_ne_true h).elim) fun hw => by
    obtain ⟨h0, h1, h2, h3, h4, h5, h6, h7⟩ := word_1_6_4_4_4_4_3_6 r (16#6) d a (0#4) p o (0#6)
    show decodeV _ = _; delta decodeV; rw [h1]
    show checked _ _ _ = _; rw [h0, h2, h3, h4, h5, h6, h7]
    exact checked_ok hw rfl

theorem RoundTrip.vtrn (r : Bool) (d : BitVec 4) (a : BitVec 4) (p : BitVec 4) : RoundTrip.Statement (.vtrn r d a p) :=
  roundTrip_of .v rfl (fun k h => by cases k <;> first | rfl | exact (Bool.false_ne_true h).elim) fun hw => by
    obtain ⟨h0, h1, h2, h3, h4, h5, h6⟩ := word_1_6_4_4_4_4_9 r (17#6) d a (0#4) p (0#9)
    show decodeV _ = _; delta decodeV; rw [h1]
    show checked _ _ _ = _; rw [h0, h2, h3, h4, h5, h6]
    exact checked_ok hw rfl

theorem RoundTrip.vld (r : Bool) (v : BitVec 4) (a : BitVec 5) (s : BitVec 3) (p : BitVec 4) (o : BitVec 9) : RoundTrip.Statement (.vld r v a s p o) :=
  roundTrip_of .v rfl (fun k h => by cases k <;> first | rfl | exact (Bool.false_ne_true h).elim) fun hw => by
    obtain ⟨h0, h1, h2, h3, h4, h5, h6⟩ := word_1_6_4_5_3_4_9 r (18#6) v a s p o
    show decodeV _ = _; delta decodeV; rw [h1]
    show checked _ _ _ = _; rw [h0, h2, h3, h4, h5, h6]
    exact checked_ok hw rfl

theorem RoundTrip.vst (r : Bool) (v : BitVec 4) (a : BitVec 5) (s : BitVec 3) (p : BitVec 4) (o : BitVec 9) : RoundTrip.Statement (.vst r v a s p o) :=
  roundTrip_of .v rfl (fun k h => by cases k <;> first | rfl | exact (Bool.false_ne_true h).elim) fun hw => by
    obtain ⟨h0, h1, h2, h3, h4, h5, h6⟩ := word_1_6_4_5_3_4_9 r (19#6) v a s p o
    show decodeV _ = _; delta decodeV; rw [h1]
    show checked _ _ _ = _; rw [h0, h2, h3, h4, h5, h6]
    exact checked_ok hw rfl

theorem RoundTrip.vldk (r : Bool) (v : BitVec 4) (a : BitVec 5) (p : BitVec 4) (o : BitVec 9) : RoundTrip.Statement (.vldk r v a p o) :=
  roundTrip_of .v rfl (fun k h => by cases k <;> first | rfl | exact (Bool.false_ne_true h).elim) fun hw => by
    obtain ⟨h0, h1, h2, h3, h4, h5, h6⟩ := word_1_6_4_5_3_4_9 r (20#6) v a (0#3) p o
    show decodeV _ = _; delta decodeV; rw [h1]
    show checked _ _ _ = _; rw [h0, h2, h3, h4, h5, h6]
    exact checked_ok (show (_ && true) = true by rw [Bool.and_true]; exact hw) rfl

theorem RoundTrip.vmovq (r : Bool) (v : BitVec 4) (p : BitVec 4) : RoundTrip.Statement (.vmovq r v p) :=
  roundTrip_of .v rfl (fun k h => by cases k <;> first | rfl | exact (Bool.false_ne_true h).elim) fun hw => by
    obtain ⟨h0, h1, h2, h3, h4, h5⟩ := word_1_6_4_8_4_9 r (21#6) v (0#8) p (0#9)
    show decodeV _ = _; delta decodeV; rw [h1]
    show checked _ _ _ = _; rw [h0, h2, h3, h4, h5]
    exact checked_ok hw rfl

theorem RoundTrip.vret (r : Bool) (a : BitVec 4) (w : BitVec 4) (c : BitVec 6) : RoundTrip.Statement (.vret r a w c) :=
  roundTrip_of .v rfl (fun k h => by cases k <;> first | rfl | exact (Bool.false_ne_true h).elim) fun hw => by
    obtain ⟨h0, h1, h2, h3, h4, h5, h6⟩ := word_1_6_4_4_8_6_3 r (22#6) a w (0#8) c (0#3)
    show decodeV _ = _; delta decodeV; rw [h1]
    show checked _ _ _ = _; rw [h0, h2, h3, h4, h5, h6]
    exact checked_ok hw rfl

theorem RoundTrip.vimm (r : Bool) (d : BitVec 4) (h : BitVec 8) (p : BitVec 4) (l : BitVec 8) : RoundTrip.Statement (.vimm r d h p l) :=
  roundTrip_of .v rfl (fun k h => by cases k <;> first | rfl | exact (Bool.false_ne_true h).elim) fun hw => by
    obtain ⟨h0, h1, h2, h3, h4, h5, h6⟩ := word_1_6_4_8_4_8_1 r (23#6) d h p l (0#1)
    show decodeV _ = _; delta decodeV; rw [h1]
    show decodeVfn23 _ = _; delta decodeVfn23; rw [h6]
    show checked _ _ _ = _; rw [h0, h2, h3, h4, h5]
    exact checked_ok hw rfl

theorem RoundTrip.vimmHi (r : Bool) (d : BitVec 4) (h : BitVec 8) (p : BitVec 4) (l : BitVec 8) : RoundTrip.Statement (.vimmHi r d h p l) :=
  roundTrip_of .v rfl (fun k h => by cases k <;> first | rfl | exact (Bool.false_ne_true h).elim) fun hw => by
    obtain ⟨h0, h1, h2, h3, h4, h5, h6⟩ := word_1_6_4_8_4_8_1 r (23#6) d h p l (1#1)
    show decodeV _ = _; delta decodeV; rw [h1]
    show decodeVfn23 _ = _; delta decodeVfn23; rw [h6]
    show checked _ _ _ = _; rw [h0, h2, h3, h4, h5]
    exact checked_ok hw rfl

theorem RoundTrip.pand (r : Bool) (d : BitVec 4) (a : BitVec 4) (b : BitVec 4) : RoundTrip.Statement (.pand r d a b) :=
  roundTrip_of .v rfl (fun k h => by cases k <;> first | rfl | exact (Bool.false_ne_true h).elim) fun hw => by
    obtain ⟨h0, h1, h2, h3, h4, h5, h6⟩ := word_1_6_4_4_4_10_3 r (24#6) d a b (0#10) (0#3)
    show decodeV _ = _; delta decodeV; rw [h1]
    show decodeVfn24 _ = _; delta decodeVfn24; rw [h6]
    show checked _ _ _ = _; rw [h0, h2, h3, h4, h5]
    exact checked_ok hw rfl

theorem RoundTrip.por (r : Bool) (d : BitVec 4) (a : BitVec 4) (b : BitVec 4) : RoundTrip.Statement (.por r d a b) :=
  roundTrip_of .v rfl (fun k h => by cases k <;> first | rfl | exact (Bool.false_ne_true h).elim) fun hw => by
    obtain ⟨h0, h1, h2, h3, h4, h5, h6⟩ := word_1_6_4_4_4_10_3 r (24#6) d a b (0#10) (1#3)
    show decodeV _ = _; delta decodeV; rw [h1]
    show decodeVfn24 _ = _; delta decodeVfn24; rw [h6]
    show checked _ _ _ = _; rw [h0, h2, h3, h4, h5]
    exact checked_ok hw rfl

theorem RoundTrip.pxor (r : Bool) (d : BitVec 4) (a : BitVec 4) (b : BitVec 4) : RoundTrip.Statement (.pxor r d a b) :=
  roundTrip_of .v rfl (fun k h => by cases k <;> first | rfl | exact (Bool.false_ne_true h).elim) fun hw => by
    obtain ⟨h0, h1, h2, h3, h4, h5, h6⟩ := word_1_6_4_4_4_10_3 r (24#6) d a b (0#10) (2#3)
    show decodeV _ = _; delta decodeV; rw [h1]
    show decodeVfn24 _ = _; delta decodeVfn24; rw [h6]
    show checked _ _ _ = _; rw [h0, h2, h3, h4, h5]
    exact checked_ok hw rfl

theorem RoundTrip.pandn (r : Bool) (d : BitVec 4) (a : BitVec 4) (b : BitVec 4) : RoundTrip.Statement (.pandn r d a b) :=
  roundTrip_of .v rfl (fun k h => by cases k <;> first | rfl | exact (Bool.false_ne_true h).elim) fun hw => by
    obtain ⟨h0, h1, h2, h3, h4, h5, h6⟩ := word_1_6_4_4_4_10_3 r (24#6) d a b (0#10) (3#3)
    show decodeV _ = _; delta decodeV; rw [h1]
    show decodeVfn24 _ = _; delta decodeVfn24; rw [h6]
    show checked _ _ _ = _; rw [h0, h2, h3, h4, h5]
    exact checked_ok hw rfl

theorem RoundTrip.pnot (r : Bool) (d : BitVec 4) (a : BitVec 4) : RoundTrip.Statement (.pnot r d a) :=
  roundTrip_of .v rfl (fun k h => by cases k <;> first | rfl | exact (Bool.false_ne_true h).elim) fun hw => by
    obtain ⟨h0, h1, h2, h3, h4, h5⟩ := word_1_6_4_4_14_3 r (24#6) d a (0#14) (4#3)
    show decodeV _ = _; delta decodeV; rw [h1]
    show decodeVfn24 _ = _; delta decodeVfn24; rw [h5]
    show checked _ _ _ = _; rw [h0, h2, h3, h4]
    exact checked_ok hw rfl

theorem RoundTrip.pset (r : Bool) (d : BitVec 4) : RoundTrip.Statement (.pset r d) :=
  roundTrip_of .v rfl (fun k h => by cases k <;> first | rfl | exact (Bool.false_ne_true h).elim) fun hw => by
    obtain ⟨h0, h1, h2, h3, h4⟩ := word_1_6_4_18_3 r (24#6) d (0#18) (5#3)
    show decodeV _ = _; delta decodeV; rw [h1]
    show decodeVfn24 _ = _; delta decodeVfn24; rw [h4]
    show checked _ _ _ = _; rw [h0, h2, h3]
    exact checked_ok hw rfl

theorem RoundTrip.pclr (r : Bool) (d : BitVec 4) : RoundTrip.Statement (.pclr r d) :=
  roundTrip_of .v rfl (fun k h => by cases k <;> first | rfl | exact (Bool.false_ne_true h).elim) fun hw => by
    obtain ⟨h0, h1, h2, h3, h4⟩ := word_1_6_4_18_3 r (24#6) d (0#18) (6#3)
    show decodeV _ = _; delta decodeV; rw [h1]
    show decodeVfn24 _ = _; delta decodeVfn24; rw [h4]
    show checked _ _ _ = _; rw [h0, h2, h3]
    exact checked_ok hw rfl

theorem RoundTrip.vsetsh (r : Bool) (v : BitVec 13) : RoundTrip.Statement (.vsetsh r v) :=
  roundTrip_of .v rfl (fun k h => by cases k <;> first | rfl | exact (Bool.false_ne_true h).elim) fun hw => by
    obtain ⟨h0, h1, h2, h3⟩ := word_1_6_12_13 r (26#6) (0#12) v
    have h4 := word_1_6_12_13_top r (26#6) (0#12) v
    show decodeV _ = _; delta decodeV; rw [h1]
    show (if fld _ 20 5 == 0 then checked _ _ _ else _) = _
    rw [h4, h0, h2, h3]
    exact checked_ok hw rfl

theorem RoundTrip.vsetshReg (r : Bool) (a : BitVec 5) : RoundTrip.Statement (.vsetshReg r a) :=
  roundTrip_of .v rfl (fun k h => by cases k <;> first | rfl | exact (Bool.false_ne_true h).elim) fun hw => by
    obtain ⟨h0, h1, h2, h3⟩ := word_1_6_5_20 r (26#6) a (0#20)
    have ha : (a == 0) = false := by
      cases h : a == 0 with
      | false => rfl
      | true => rw [eq_of_beq h] at hw; exact hw.symm
    show decodeV _ = _; delta decodeV; rw [h1]
    show (if fld _ 20 5 == 0 then _ else checked _ _ _) = _
    rw [h2, ha, h0, h3]
    exact checked_ok hw rfl

theorem RoundTrip.vsig (r : Bool) (f : BitVec 4) : RoundTrip.Statement (.vsig r f) :=
  roundTrip_of .v rfl (fun k h => by cases k <;> first | rfl | exact (Bool.false_ne_true h).elim) fun hw => by
    obtain ⟨h0, h1, h2, h3⟩ := word_1_6_4_21 r (27#6) f (0#21)
    show decodeV _ = _; delta decodeV; rw [h1]
    show checked _ _ _ = _; rw [h0, h2, h3]
    exact checked_ok hw rfl

theorem RoundTrip.vwaitf (r : Bool) (f : BitVec 4) (n : BitVec 8) : RoundTrip.Statement (.vwaitf r f n) :=
  roundTrip_of .v rfl (fun k h => by cases k <;> first | rfl | exact (Bool.false_ne_true h).elim) fun hw => by
    obtain ⟨h0, h1, h2, h3, h4⟩ := word_1_6_4_8_13 r (28#6) f n (0#13)
    show decodeV _ = _; delta decodeV; rw [h1]
    show checked _ _ _ = _; rw [h0, h2, h3, h4]
    exact checked_ok hw rfl

theorem RoundTrip.vlbuf (r : Bool) (a : BitVec 5) (l : BitVec 6) : RoundTrip.Statement (.vlbuf r a l) :=
  roundTrip_of .v rfl (fun k h => by cases k <;> first | rfl | exact (Bool.false_ne_true h).elim) fun hw => by
    obtain ⟨h0, h1, h2, h3, h4⟩ := word_1_6_5_6_14 r (29#6) a l (0#14)
    show decodeV _ = _; delta decodeV; rw [h1]
    show checked _ _ _ = _; rw [h0, h2, h3, h4]
    exact checked_ok hw rfl

theorem RoundTrip.vnop (r : Bool) : RoundTrip.Statement (.vnop r) :=
  roundTrip_of .v rfl (fun k h => by cases k <;> first | rfl | exact (Bool.false_ne_true h).elim) fun hw => by
    obtain ⟨h0, h1, h2⟩ := word_1_6_25 r (30#6) (0#25)
    show decodeV _ = _; delta decodeV; rw [h1]
    show checked _ _ _ = _; rw [h0, h2]
    exact checked_ok hw rfl

theorem RoundTrip.end_ (r : Bool) : RoundTrip.Statement (.end_ r) := by
  intro k w hw hk h
  cases h
  cases k with
  | s => exact (Bool.false_ne_true hk).elim
  | v =>
      obtain ⟨h0, h1, h2⟩ := word_1_6_25 r (63#6) (0#25)
      show decodeV _ = _; delta decodeV; rw [h1]
      show checked _ _ _ = _; rw [h0, h2]
      exact checked_ok hw rfl
  | m =>
      obtain ⟨h0, h1, h2⟩ := word_1_6_25 r (63#6) (0#25)
      show decodeM _ = _; delta decodeM; rw [h1]
      show checked _ _ _ = _; rw [h0, h2]
      exact checked_ok hw rfl
  | h =>
      obtain ⟨h0, h1, h2⟩ := word_1_6_25 r (63#6) (0#25)
      show decodeH _ = _; delta decodeH; rw [h1]
      show checked _ _ _ = _; rw [h0, h2]
      exact checked_ok hw rfl

theorem RoundTrip.mwl (r : Bool) (w : BitVec 4) (s : BitVec 4) (m : BitVec 3) (p : BitVec 1) : RoundTrip.Statement (.mwl r w s m p) :=
  roundTrip_of .m rfl (fun k h => by cases k <;> first | rfl | exact (Bool.false_ne_true h).elim) fun hw => by
    obtain ⟨h0, h1, h2, h3, h4, h5, h6⟩ := word_1_6_4_4_3_1_13 r (1#6) w s m p (0#13)
    show decodeM _ = _; delta decodeM; rw [h1]
    show checked _ _ _ = _; rw [h0, h2, h3, h4, h5, h6]
    exact checked_ok hw rfl

theorem RoundTrip.mswap (r : Bool) (w : BitVec 4) (s : BitVec 4) : RoundTrip.Statement (.mswap r w s) :=
  roundTrip_of .m rfl (fun k h => by cases k <;> first | rfl | exact (Bool.false_ne_true h).elim) fun hw => by
    obtain ⟨h0, h1, h2, h3, h4⟩ := word_1_6_4_4_17 r (2#6) w s (0#17)
    show decodeM _ = _; delta decodeM; rw [h1]
    show checked _ _ _ = _; rw [h0, h2, h3, h4]
    exact checked_ok hw rfl

theorem RoundTrip.mscl (r : Bool) (w : BitVec 4) (s : BitVec 4) (m : BitVec 3) : RoundTrip.Statement (.mscl r w s m) :=
  roundTrip_of .m rfl (fun k h => by cases k <;> first | rfl | exact (Bool.false_ne_true h).elim) fun hw => by
    obtain ⟨h0, h1, h2, h3, h4, h5⟩ := word_1_6_4_4_3_14 r (3#6) w s m (0#14)
    show decodeM _ = _; delta decodeM; rw [h1]
    show checked _ _ _ = _; rw [h0, h2, h3, h4, h5]
    exact checked_ok hw rfl

theorem RoundTrip.mma (r : Bool) (w : BitVec 4) (s : BitVec 4) (a : BitVec 3) (t : BitVec 2) (c : BitVec 3) : RoundTrip.Statement (.mma r w s a t c) :=
  roundTrip_of .m rfl (fun k h => by cases k <;> first | rfl | exact (Bool.false_ne_true h).elim) fun hw => by
    obtain ⟨h0, h1, h2, h3, h4, h5, h6, h7⟩ := word_1_6_4_4_3_2_3_9 r (4#6) w s a t c (0#9)
    show decodeM _ = _; delta decodeM; rw [h1]
    show checked _ _ _ = _; rw [h0, h2, h3, h4, h5, h6, h7]
    exact checked_ok hw rfl

theorem RoundTrip.mmas (r : Bool) (w : BitVec 4) (s : BitVec 4) (a : BitVec 3) (t : BitVec 2) (c : BitVec 3) : RoundTrip.Statement (.mmas r w s a t c) :=
  roundTrip_of .m rfl (fun k h => by cases k <;> first | rfl | exact (Bool.false_ne_true h).elim) fun hw => by
    obtain ⟨h0, h1, h2, h3, h4, h5, h6, h7⟩ := word_1_6_4_4_3_2_3_9 r (5#6) w s a t c (0#9)
    show decodeM _ = _; delta decodeM; rw [h1]
    show checked _ _ _ = _; rw [h0, h2, h3, h4, h5, h6, h7]
    exact checked_ok hw rfl

theorem RoundTrip.mzero (r : Bool) (w : BitVec 4) (s : BitVec 4) (t : BitVec 2) (c : BitVec 3) : RoundTrip.Statement (.mzero r w s t c) :=
  roundTrip_of .m rfl (fun k h => by cases k <;> first | rfl | exact (Bool.false_ne_true h).elim) fun hw => by
    obtain ⟨h0, h1, h2, h3, h4, h5, h6, h7⟩ := word_1_6_4_4_3_2_3_9 r (6#6) w s (0#3) t c (0#9)
    show decodeM _ = _; delta decodeM; rw [h1]
    show checked _ _ _ = _; rw [h0, h2, h3, h4, h5, h6, h7]
    exact checked_ok hw rfl

theorem RoundTrip.mdrain (r : Bool) (w : BitVec 4) (s : BitVec 4) (a : BitVec 3) (t : BitVec 2) (c : BitVec 3) (f : BitVec 4) : RoundTrip.Statement (.mdrain r w s a t c f) :=
  roundTrip_of .m rfl (fun k h => by cases k <;> first | rfl | exact (Bool.false_ne_true h).elim) fun hw => by
    obtain ⟨h0, h1, h2, h3, h4, h5, h6, h7, h8⟩ := word_1_6_4_4_3_2_3_4_5 r (7#6) w s a t c f (0#5)
    show decodeM _ = _; delta decodeM; rw [h1]
    show checked _ _ _ = _; rw [h0, h2, h3, h4, h5, h6, h7, h8]
    exact checked_ok hw rfl

theorem RoundTrip.mrep (r : Bool) (k : BitVec 8) (n : BitVec 9) : RoundTrip.Statement (.mrep r k n) :=
  roundTrip_of .m rfl (fun k h => by cases k <;> first | rfl | exact (Bool.false_ne_true h).elim) fun hw => by
    obtain ⟨h0, h1, h2, h3, h4⟩ := word_1_6_8_8_9 r (8#6) (0#8) k n
    show decodeM _ = _; delta decodeM; rw [h1]
    show checked _ _ _ = _; rw [h0, h2, h3, h4]
    exact checked_ok hw rfl

theorem RoundTrip.mseta (r : Bool) (w : BitVec 4) (s : BitVec 4) (m : BitVec 3) : RoundTrip.Statement (.mseta r w s m) :=
  roundTrip_of .m rfl (fun k h => by cases k <;> first | rfl | exact (Bool.false_ne_true h).elim) fun hw => by
    obtain ⟨h0, h1, h2, h3, h4, h5, h6⟩ := word_1_6_4_4_3_1_13 r (9#6) w s m (0#1) (0#13)
    show decodeM _ = _; delta decodeM; rw [h1]
    show decodeMfn9 _ = _; delta decodeMfn9; rw [h5]
    show checked _ _ _ = _; rw [h0, h2, h3, h4, h6]
    exact checked_ok hw rfl

theorem RoundTrip.msetaImm (r : Bool) (w : BitVec 4) (s : BitVec 4) (m : BitVec 3) (i : BitVec 13) : RoundTrip.Statement (.msetaImm r w s m i) :=
  roundTrip_of .m rfl (fun k h => by cases k <;> first | rfl | exact (Bool.false_ne_true h).elim) fun hw => by
    obtain ⟨h0, h1, h2, h3, h4, h5, h6⟩ := word_1_6_4_4_3_1_13 r (9#6) w s m (1#1) i
    show decodeM _ = _; delta decodeM; rw [h1]
    show decodeMfn9 _ = _; delta decodeMfn9; rw [h5]
    show checked _ _ _ = _; rw [h0, h2, h3, h4, h6]
    exact checked_ok hw rfl

theorem RoundTrip.madda (r : Bool) (w : BitVec 4) (s : BitVec 4) (m : BitVec 3) (i : BitVec 14) : RoundTrip.Statement (.madda r w s m i) :=
  roundTrip_of .m rfl (fun k h => by cases k <;> first | rfl | exact (Bool.false_ne_true h).elim) fun hw => by
    obtain ⟨h0, h1, h2, h3, h4, h5⟩ := word_1_6_4_4_3_14 r (10#6) w s m i
    show decodeM _ = _; delta decodeM; rw [h1]
    show checked _ _ _ = _; rw [h0, h2, h3, h4, h5]
    exact checked_ok hw rfl

theorem RoundTrip.mnop (r : Bool) (w : BitVec 4) (s : BitVec 4) : RoundTrip.Statement (.mnop r w s) :=
  roundTrip_of .m rfl (fun k h => by cases k <;> first | rfl | exact (Bool.false_ne_true h).elim) fun hw => by
    obtain ⟨h0, h1, h2, h3, h4⟩ := word_1_6_4_4_17 r (11#6) w s (0#17)
    show decodeM _ = _; delta decodeM; rw [h1]
    show checked _ _ _ = _; rw [h0, h2, h3, h4]
    exact checked_ok hw rfl

theorem RoundTrip.acopy (r : Bool) (d : BitVec 5) (a : BitVec 5) (b : BitVec 5) (k : BitVec 3) (e : BitVec 3) (s : BitVec 3) : RoundTrip.Statement (.acopy r d a b k e s) :=
  roundTrip_of .h rfl (fun k h => by cases k <;> first | rfl | exact (Bool.false_ne_true h).elim) fun hw => by
    obtain ⟨h0, h1, h2, h3, h4, h5, h6, h7, h8⟩ := word_1_6_5_5_5_3_3_3_1 r (1#6) d a b k e s (0#1)
    show decodeH _ = _; delta decodeH; rw [h1]
    show checked _ _ _ = _; rw [h0, h2, h3, h4, h5, h6, h7, h8]
    exact checked_ok hw rfl

theorem RoundTrip.acopy2 (r : Bool) (d : BitVec 5) (a : BitVec 5) (b : BitVec 5) (k : BitVec 3) (e : BitVec 3) (s : BitVec 3) : RoundTrip.Statement (.acopy2 r d a b k e s) :=
  roundTrip_of .h rfl (fun k h => by cases k <;> first | rfl | exact (Bool.false_ne_true h).elim) fun hw => by
    obtain ⟨h0, h1, h2, h3, h4, h5, h6, h7, h8⟩ := word_1_6_5_5_5_3_3_3_1 r (2#6) d a b k e s (0#1)
    show decodeH _ = _; delta decodeH; rw [h1]
    show checked _ _ _ = _; rw [h0, h2, h3, h4, h5, h6, h7, h8]
    exact checked_ok hw rfl

theorem RoundTrip.agath (r : Bool) (d : BitVec 5) (a : BitVec 5) (b : BitVec 5) (k : BitVec 3) (e : BitVec 3) (s : BitVec 3) : RoundTrip.Statement (.agath r d a b k e s) :=
  roundTrip_of .h rfl (fun k h => by cases k <;> first | rfl | exact (Bool.false_ne_true h).elim) fun hw => by
    obtain ⟨h0, h1, h2, h3, h4, h5, h6, h7, h8⟩ := word_1_6_5_5_5_3_3_3_1 r (3#6) d a b k e s (0#1)
    show decodeH _ = _; delta decodeH; rw [h1]
    show checked _ _ _ = _; rw [h0, h2, h3, h4, h5, h6, h7, h8]
    exact checked_ok hw rfl

theorem RoundTrip.ascat (r : Bool) (d : BitVec 5) (a : BitVec 5) (b : BitVec 5) (k : BitVec 3) (e : BitVec 3) (s : BitVec 3) : RoundTrip.Statement (.ascat r d a b k e s) :=
  roundTrip_of .h rfl (fun k h => by cases k <;> first | rfl | exact (Bool.false_ne_true h).elim) fun hw => by
    obtain ⟨h0, h1, h2, h3, h4, h5, h6, h7, h8⟩ := word_1_6_5_5_5_3_3_3_1 r (4#6) d a b k e s (0#1)
    show decodeH _ = _; delta decodeH; rw [h1]
    show checked _ _ _ = _; rw [h0, h2, h3, h4, h5, h6, h7, h8]
    exact checked_ok hw rfl

theorem RoundTrip.amcast (r : Bool) (d : BitVec 5) (a : BitVec 5) (b : BitVec 5) (k : BitVec 3) (e : BitVec 3) (s : BitVec 3) : RoundTrip.Statement (.amcast r d a b k e s) :=
  roundTrip_of .h rfl (fun k h => by cases k <;> first | rfl | exact (Bool.false_ne_true h).elim) fun hw => by
    obtain ⟨h0, h1, h2, h3, h4, h5, h6, h7, h8⟩ := word_1_6_5_5_5_3_3_3_1 r (5#6) d a b k e s (0#1)
    show decodeH _ = _; delta decodeH; rw [h1]
    show checked _ _ _ = _; rw [h0, h2, h3, h4, h5, h6, h7, h8]
    exact checked_ok hw rfl

theorem RoundTrip.amcastSet (r : Bool) (d : BitVec 5) (a : BitVec 5) (b : BitVec 5) (k : BitVec 3) (e : BitVec 3) (s : BitVec 3) : RoundTrip.Statement (.amcastSet r d a b k e s) :=
  roundTrip_of .h rfl (fun k h => by cases k <;> first | rfl | exact (Bool.false_ne_true h).elim) fun hw => by
    obtain ⟨h0, h1, h2, h3, h4, h5, h6, h7, h8⟩ := word_1_6_5_5_5_3_3_3_1 r (5#6) d a b k e s (0#1)
    show decodeH _ = _; delta decodeH; rw [h1]
    show checked _ _ _ = _; rw [h0, h2, h3, h4, h5, h6, h7, h8]
    exact checked_ok hw rfl

theorem RoundTrip.anote (r : Bool) (a : BitVec 5) (b : BitVec 5) (k : BitVec 3) : RoundTrip.Statement (.anote r a b k) :=
  roundTrip_of .h rfl (fun k h => by cases k <;> first | rfl | exact (Bool.false_ne_true h).elim) fun hw => by
    obtain ⟨h0, h1, h2, h3, h4, h5, h6⟩ := word_1_6_5_5_5_3_7 r (6#6) (0#5) a b k (0#7)
    show decodeH _ = _; delta decodeH; rw [h1]
    show checked _ _ _ = _; rw [h0, h2, h3, h4, h5, h6]
    exact checked_ok hw rfl

theorem RoundTrip.twait (r : Bool) (k : BitVec 8) : RoundTrip.Statement (.twait r k) :=
  roundTrip_of .h rfl (fun k h => by cases k <;> first | rfl | exact (Bool.false_ne_true h).elim) fun hw => by
    obtain ⟨h0, h1, h2, h3⟩ := word_1_6_8_17 r (7#6) k (0#17)
    show decodeH _ = _; delta decodeH; rw [h1]
    show checked _ _ _ = _; rw [h0, h2, h3]
    exact checked_ok hw rfl

theorem RoundTrip.tpend (r : Bool) (d : BitVec 5) (k : BitVec 3) : RoundTrip.Statement (.tpend r d k) :=
  roundTrip_of .h rfl (fun k h => by cases k <;> first | rfl | exact (Bool.false_ne_true h).elim) fun hw => by
    obtain ⟨h0, h1, h2, h3, h4, h5⟩ := word_1_6_5_10_3_7 r (8#6) d (0#10) k (0#7)
    show decodeH _ = _; delta decodeH; rw [h1]
    show checked _ _ _ = _; rw [h0, h2, h3, h4, h5]
    exact checked_ok hw rfl

theorem RoundTrip.haulgo (r : Bool) (a : BitVec 5) (b : BitVec 5) : RoundTrip.Statement (.haulgo r a b) :=
  roundTrip_of .h rfl (fun k h => by cases k <;> first | rfl | exact (Bool.false_ne_true h).elim) fun hw => by
    obtain ⟨h0, h1, h2, h3, h4, h5⟩ := word_1_6_5_5_5_10 r (9#6) (0#5) a b (0#10)
    show decodeH _ = _; delta decodeH; rw [h1]
    show checked _ _ _ = _; rw [h0, h2, h3, h4, h5]
    exact checked_ok hw rfl

theorem RoundTrip.qpost (r : Bool) (a : BitVec 5) (b : BitVec 5) : RoundTrip.Statement (.qpost r a b) :=
  roundTrip_of .h rfl (fun k h => by cases k <;> first | rfl | exact (Bool.false_ne_true h).elim) fun hw => by
    obtain ⟨h0, h1, h2, h3, h4, h5⟩ := word_1_6_5_5_5_10 r (10#6) (0#5) a b (0#10)
    show decodeH _ = _; delta decodeH; rw [h1]
    show checked _ _ _ = _; rw [h0, h2, h3, h4, h5]
    exact checked_ok hw rfl

theorem RoundTrip.hadd (r : Bool) (d : BitVec 5) (a : BitVec 5) (b : BitVec 5) : RoundTrip.Statement (.hadd r d a b) :=
  roundTrip_of .h rfl (fun k h => by cases k <;> first | rfl | exact (Bool.false_ne_true h).elim) fun hw => by
    obtain ⟨h0, h1, h2, h3, h4, h5, h6⟩ := word_1_6_5_5_5_1_9 r (11#6) d a b (0#1) (0#9)
    show decodeH _ = _; delta decodeH; rw [h1]
    show decodeHfn11 _ = _; delta decodeHfn11; rw [h5]
    show checked _ _ _ = _; rw [h0, h2, h3, h4, h6]
    exact checked_ok hw rfl

theorem RoundTrip.haddQueue (r : Bool) (d : BitVec 5) (a : BitVec 5) (h : BitVec 1) (p : BitVec 1) : RoundTrip.Statement (.haddQueue r d a h p) :=
  roundTrip_of .h rfl (fun k h => by cases k <;> first | rfl | exact (Bool.false_ne_true h).elim) fun hw => by
    obtain ⟨h0, h1, h2, h3, h4, h5, h6, h7, h8⟩ := word_1_6_5_5_5_1_1_1_7 r (11#6) d a (0#5) (1#1) h p (0#7)
    show decodeH _ = _; delta decodeH; rw [h1]
    show decodeHfn11 _ = _; delta decodeHfn11; rw [h5]
    show checked _ _ _ = _; rw [h0, h2, h3, h4, h6, h7, h8]
    exact checked_ok hw rfl

theorem RoundTrip.haddi (r : Bool) (d : BitVec 5) (a : BitVec 5) (i : BitVec 15) : RoundTrip.Statement (.haddi r d a i) :=
  roundTrip_of .h rfl (fun k h => by cases k <;> first | rfl | exact (Bool.false_ne_true h).elim) fun hw => by
    obtain ⟨h0, h1, h2, h3, h4⟩ := word_1_6_5_5_15 r (12#6) d a i
    show decodeH _ = _; delta decodeH; rw [h1]
    show checked _ _ _ = _; rw [h0, h2, h3, h4]
    exact checked_ok hw rfl

theorem RoundTrip.hmovh (r : Bool) (d : BitVec 5) (h : BitVec 2) (z : BitVec 1) (i : BitVec 16) : RoundTrip.Statement (.hmovh r d h z i) :=
  roundTrip_of .h rfl (fun k h => by cases k <;> first | rfl | exact (Bool.false_ne_true h).elim) fun hw => by
    obtain ⟨h0, h1, h2, h3, h4, h5, h6⟩ := word_1_6_5_2_1_1_16 r (13#6) d h z (0#1) i
    show decodeH _ = _; delta decodeH; rw [h1]
    show checked _ _ _ = _; rw [h0, h2, h3, h4, h5, h6]
    exact checked_ok hw rfl

theorem RoundTrip.hsend (r : Bool) (q : BitVec 2) (a : BitVec 5) (b : BitVec 5) : RoundTrip.Statement (.hsend r q a b) :=
  roundTrip_of .h rfl (fun k h => by cases k <;> first | rfl | exact (Bool.false_ne_true h).elim) fun hw => by
    obtain ⟨h0, h1, h2, h3, h4, h5, h6⟩ := word_1_6_2_3_5_5_10 r (14#6) q (0#3) a b (0#10)
    show decodeH _ = _; delta decodeH; rw [h1]
    show checked _ _ _ = _; rw [h0, h2, h3, h4, h5, h6]
    exact checked_ok hw rfl

theorem RoundTrip.hsig (r : Bool) (f : BitVec 4) : RoundTrip.Statement (.hsig r f) :=
  roundTrip_of .h rfl (fun k h => by cases k <;> first | rfl | exact (Bool.false_ne_true h).elim) fun hw => by
    obtain ⟨h0, h1, h2, h3⟩ := word_1_6_4_21 r (15#6) f (0#21)
    show decodeH _ = _; delta decodeH; rw [h1]
    show checked _ _ _ = _; rw [h0, h2, h3]
    exact checked_ok hw rfl

theorem RoundTrip.hwaitf (r : Bool) (f : BitVec 4) (n : BitVec 8) : RoundTrip.Statement (.hwaitf r f n) :=
  roundTrip_of .h rfl (fun k h => by cases k <;> first | rfl | exact (Bool.false_ne_true h).elim) fun hw => by
    obtain ⟨h0, h1, h2, h3, h4⟩ := word_1_6_4_8_13 r (16#6) f n (0#13)
    show decodeH _ = _; delta decodeH; rw [h1]
    show checked _ _ _ = _; rw [h0, h2, h3, h4]
    exact checked_ok hw rfl

theorem RoundTrip.hlbuf (r : Bool) (a : BitVec 5) (l : BitVec 6) : RoundTrip.Statement (.hlbuf r a l) :=
  roundTrip_of .h rfl (fun k h => by cases k <;> first | rfl | exact (Bool.false_ne_true h).elim) fun hw => by
    obtain ⟨h0, h1, h2, h3, h4⟩ := word_1_6_5_6_14 r (17#6) a l (0#14)
    show decodeH _ = _; delta decodeH; rw [h1]
    show checked _ _ _ = _; rw [h0, h2, h3, h4]
    exact checked_ok hw rfl

theorem RoundTrip.abfmt (r : Bool) (a : BitVec 5) (u : BitVec 1) (k : BitVec 5) : RoundTrip.Statement (.abfmt r a u k) :=
  roundTrip_of .h rfl (fun k h => by cases k <;> first | rfl | exact (Bool.false_ne_true h).elim) fun hw => by
    obtain ⟨h0, h1, h2, h3, h4, h5⟩ := word_1_6_5_1_5_14 r (18#6) a u k (0#14)
    show decodeH _ = _; delta decodeH; rw [h1]
    show checked _ _ _ = _; rw [h0, h2, h3, h4, h5]
    exact checked_ok hw rfl

theorem RoundTrip.hnop (r : Bool) : RoundTrip.Statement (.hnop r) :=
  roundTrip_of .h rfl (fun k h => by cases k <;> first | rfl | exact (Bool.false_ne_true h).elim) fun hw => by
    obtain ⟨h0, h1, h2⟩ := word_1_6_25 r (19#6) (0#25)
    show decodeH _ = _; delta decodeH; rw [h1]
    show checked _ _ _ = _; rw [h0, h2]
    exact checked_ok hw rfl

theorem RoundTrip.wordNotInstruction (x0 : Reject) : RoundTrip.Statement (.wordNotInstruction x0) := roundTrip_none rfl

theorem RoundTrip.instructionFetch (x0 : FetchFault) : RoundTrip.Statement (.instructionFetch x0) := roundTrip_none rfl

theorem RoundTrip.vResultLand (x0 : Fin 192) (x1 : Nat) : RoundTrip.Statement (.vResultLand x0 x1) := roundTrip_none rfl

theorem RoundTrip.mWordComplete (x0 : Fin 192) (x1 : Nat) : RoundTrip.Statement (.mWordComplete x0 x1) := roundTrip_none rfl

theorem RoundTrip.requestEnqueue (x0 : Fin 192) (x1 : Fin 16) : RoundTrip.Statement (.requestEnqueue x0 x1) := roundTrip_none rfl

theorem RoundTrip.calendarSlotStart (x0 : Fin 16) (x1 : List (Nat × Bool)) : RoundTrip.Statement (.calendarSlotStart x0 x1) := roundTrip_none rfl

theorem RoundTrip.hbmReadLand (x0 : Fin 16) (x1 : Nat) : RoundTrip.Statement (.hbmReadLand x0 x1) := roundTrip_none rfl

theorem RoundTrip.hbmWritePerformed (x0 : Fin 16) : RoundTrip.Statement (.hbmWritePerformed x0) := roundTrip_none rfl

theorem RoundTrip.atomicResponse (x0 : Fin 192) : RoundTrip.Statement (.atomicResponse x0) := roundTrip_none rfl

theorem RoundTrip.constFill (x0 : Fin 192) (x1 : Nat) : RoundTrip.Statement (.constFill x0 x1) := roundTrip_none rfl

theorem RoundTrip.copyBytesLand (x0 : Fin 192) (x1 : Nat) (x2 : Nat) : RoundTrip.Statement (.copyBytesLand x0 x1 x2) := roundTrip_none rfl

theorem RoundTrip.anoteWrite (x0 : Fin 192) (x1 : Nat) : RoundTrip.Statement (.anoteWrite x0 x1) := roundTrip_none rfl

theorem RoundTrip.waitaTimeout (x0 : Fin 192) : RoundTrip.Statement (.waitaTimeout x0) := roundTrip_none rfl

theorem RoundTrip.handlerEntry (x0 : Fin 192) : RoundTrip.Statement (.handlerEntry x0) := roundTrip_none rfl

theorem RoundTrip.engineFault (x0 : Fin 192) : RoundTrip.Statement (.engineFault x0) := roundTrip_none rfl

theorem RoundTrip.preemptionRequest (x0 : Fin 192) : RoundTrip.Statement (.preemptionRequest x0) := roundTrip_none rfl

theorem RoundTrip.copyAbort (x0 : Fin 192) : RoundTrip.Statement (.copyAbort x0) := roundTrip_none rfl

theorem RoundTrip.granarySwap (x0 : Fin 192) : RoundTrip.Statement (.granarySwap x0) := roundTrip_none rfl

theorem RoundTrip.saveAreaMove (x0 : Nat) (x1 : Nat) (x2 : Nat) : RoundTrip.Statement (.saveAreaMove x0 x1 x2) := roundTrip_none rfl

theorem RoundTrip.strandResume (x0 : Nat) : RoundTrip.Statement (.strandResume x0) := roundTrip_none rfl

theorem RoundTrip.strandStart (x0 : Nat) : RoundTrip.Statement (.strandStart x0) := roundTrip_none rfl

theorem RoundTrip.scheduleDecision  : RoundTrip.Statement (.scheduleDecision ) := roundTrip_none rfl

theorem RoundTrip.psliceExpiry (x0 : Fin 48) : RoundTrip.Statement (.psliceExpiry x0) := roundTrip_none rfl

theorem RoundTrip.vtUpdate  : RoundTrip.Statement (.vtUpdate ) := roundTrip_none rfl

theorem RoundTrip.haulRecordRead (x0 : Fin 192) : RoundTrip.Statement (.haulRecordRead x0) := roundTrip_none rfl

theorem RoundTrip.copy (x0 : Fin 192) (x1 : Nat) : RoundTrip.Statement (.copy x0 x1) := roundTrip_none rfl

theorem RoundTrip.copy2d (x0 : Fin 192) (x1 : Nat) : RoundTrip.Statement (.copy2d x0 x1) := roundTrip_none rfl

theorem RoundTrip.fill (x0 : Fin 192) (x1 : Nat) : RoundTrip.Statement (.fill x0 x1) := roundTrip_none rfl

theorem RoundTrip.pack (x0 : Fin 192) (x1 : Nat) : RoundTrip.Statement (.pack x0 x1) := roundTrip_none rfl

theorem RoundTrip.unpack (x0 : Fin 192) (x1 : Nat) : RoundTrip.Statement (.unpack x0 x1) := roundTrip_none rfl

theorem RoundTrip.reduce (x0 : Fin 192) (x1 : Nat) : RoundTrip.Statement (.reduce x0 x1) := roundTrip_none rfl

theorem RoundTrip.reduceArrival (x0 : Fin 48) (x1 : Nat) : RoundTrip.Statement (.reduceArrival x0 x1) := roundTrip_none rfl

theorem RoundTrip.migrate (x0 : Fin 192) (x1 : Nat) : RoundTrip.Statement (.migrate x0 x1) := roundTrip_none rfl

theorem RoundTrip.stow (x0 : Fin 192) (x1 : Nat) : RoundTrip.Statement (.stow x0 x1) := roundTrip_none rfl

theorem RoundTrip.note (x0 : Fin 192) (x1 : Nat) : RoundTrip.Statement (.note x0 x1) := roundTrip_none rfl

theorem RoundTrip.scoutPass (x0 : Fin 192) (x1 : Bool) : RoundTrip.Statement (.scoutPass x0 x1) := roundTrip_none rfl

theorem RoundTrip.tableWalk (x0 : Fin 25) (x1 : Fin 64) (x2 : Nat) (x3 : Bool) (x4 : Bool) : RoundTrip.Statement (.tableWalk x0 x1 x2 x3 x4) := roundTrip_none rfl

theorem RoundTrip.slabSend (x0 : Fin 192) (x1 : Fin 16) : RoundTrip.Statement (.slabSend x0 x1) := roundTrip_none rfl

theorem RoundTrip.slabArrival (x0 : Fin 16) : RoundTrip.Statement (.slabArrival x0) := roundTrip_none rfl

theorem RoundTrip.gsum (x0 : Fin 16) : RoundTrip.Statement (.gsum x0) := roundTrip_none rfl

theorem RoundTrip.gsearch (x0 : Fin 16) : RoundTrip.Statement (.gsearch x0) := roundTrip_none rfl

theorem RoundTrip.subquery (x0 : Fin 16) : RoundTrip.Statement (.subquery x0) := roundTrip_none rfl

theorem RoundTrip.gsearchMerge (x0 : Fin 16) (x1 : Nat) : RoundTrip.Statement (.gsearchMerge x0 x1) := roundTrip_none rfl

theorem RoundTrip.submit (x0 : Fin 64) : RoundTrip.Statement (.submit x0) := roundTrip_none rfl

theorem RoundTrip.cancel (x0 : Fin 64) : RoundTrip.Statement (.cancel x0) := roundTrip_none rfl

theorem RoundTrip.verdict (x0 : Fin 64) : RoundTrip.Statement (.verdict x0) := roundTrip_none rfl

theorem RoundTrip.invalidate (x0 : Fin 64) : RoundTrip.Statement (.invalidate x0) := roundTrip_none rfl

theorem RoundTrip.setPtroot (x0 : Fin 64) : RoundTrip.Statement (.setPtroot x0) := roundTrip_none rfl

theorem RoundTrip.setShare (x0 : Fin 64) : RoundTrip.Statement (.setShare x0) := roundTrip_none rfl

theorem RoundTrip.setPslice (x0 : Fin 64) : RoundTrip.Statement (.setPslice x0) := roundTrip_none rfl

theorem RoundTrip.setSeedQueues (x0 : Fin 64) : RoundTrip.Statement (.setSeedQueues x0) := roundTrip_none rfl

theorem RoundTrip.setStagingPool (x0 : Fin 64) : RoundTrip.Statement (.setStagingPool x0) := roundTrip_none rfl

theorem RoundTrip.setSaveArea (x0 : Fin 64) : RoundTrip.Statement (.setSaveArea x0) := roundTrip_none rfl

theorem RoundTrip.setParkArea (x0 : Fin 64) : RoundTrip.Statement (.setParkArea x0) := roundTrip_none rfl

theorem RoundTrip.curve (x0 : Fin 64) : RoundTrip.Statement (.curve x0) := roundTrip_none rfl

theorem RoundTrip.keyinst (x0 : Fin 64) : RoundTrip.Statement (.keyinst x0) := roundTrip_none rfl

theorem RoundTrip.extend (x0 : Fin 64) : RoundTrip.Statement (.extend x0) := roundTrip_none rfl

theorem RoundTrip.partitionCreate (x0 : Fin 64) : RoundTrip.Statement (.partitionCreate x0) := roundTrip_none rfl

theorem RoundTrip.partitionDestroy (x0 : Fin 64) : RoundTrip.Statement (.partitionDestroy x0) := roundTrip_none rfl

theorem RoundTrip.fabricPackageNumber (x0 : Fin 64) : RoundTrip.Statement (.fabricPackageNumber x0) := roundTrip_none rfl

theorem RoundTrip.fabricRoute (x0 : Fin 64) : RoundTrip.Statement (.fabricRoute x0) := roundTrip_none rfl

theorem RoundTrip.fabricImport (x0 : Fin 64) : RoundTrip.Statement (.fabricImport x0) := roundTrip_none rfl

theorem RoundTrip.nodeStaging (x0 : Nat) (x1 : Nat) (x2 : Bool) : RoundTrip.Statement (.nodeStaging x0 x1 x2) := roundTrip_none rfl

theorem RoundTrip.launch (x0 : Nat) (x1 : Nat) : RoundTrip.Statement (.launch x0 x1) := roundTrip_none rfl

theorem RoundTrip.launchEnd (x0 : Nat) : RoundTrip.Statement (.launchEnd x0) := roundTrip_none rfl

theorem RoundTrip.stagedCopyBack (x0 : Nat) : RoundTrip.Statement (.stagedCopyBack x0) := roundTrip_none rfl

theorem RoundTrip.completionEvent (x0 : Fin 64) : RoundTrip.Statement (.completionEvent x0) := roundTrip_none rfl

theorem RoundTrip.commandEvent (x0 : Fin 64) : RoundTrip.Statement (.commandEvent x0) := roundTrip_none rfl

theorem RoundTrip.strandFaultEvent (x0 : Fin 64) : RoundTrip.Statement (.strandFaultEvent x0) := roundTrip_none rfl

theorem RoundTrip.stallEvent (x0 : Fin 64) : RoundTrip.Statement (.stallEvent x0) := roundTrip_none rfl

theorem RoundTrip.pagefaultEvent (x0 : Fin 64) : RoundTrip.Statement (.pagefaultEvent x0) := roundTrip_none rfl

theorem RoundTrip.noticeEvent (x0 : Fin 64) : RoundTrip.Statement (.noticeEvent x0) := roundTrip_none rfl

theorem RoundTrip.hostRegisterWrite (x0 : Fin 64) (x1 : Nat) (x2 : BitVec 64) : RoundTrip.Statement (.hostRegisterWrite x0 x1 x2) := roundTrip_none rfl

theorem RoundTrip.hostWindowRead (x0 : Fin 64) (x1 : Nat) (x2 : Nat) : RoundTrip.Statement (.hostWindowRead x0 x1 x2) := roundTrip_none rfl

theorem RoundTrip.hostWindowWrite (x0 : Fin 64) (x1 : Nat) (x2 : List (BitVec 8)) : RoundTrip.Statement (.hostWindowWrite x0 x1 x2) := roundTrip_none rfl

theorem RoundTrip.atsInvalidation (x0 : Fin 64) (x1 : Nat) (x2 : Nat) : RoundTrip.Statement (.atsInvalidation x0 x1 x2) := roundTrip_none rfl

theorem RoundTrip.flr (x0 : Fin 64) : RoundTrip.Statement (.flr x0) := roundTrip_none rfl

theorem RoundTrip.packageReset (x0 : Bool) (x1 : Option Nat) : RoundTrip.Statement (.packageReset x0 x1) := roundTrip_none rfl

theorem RoundTrip.getVersion (x0 : Fin 64) : RoundTrip.Statement (.getVersion x0) := roundTrip_none rfl

theorem RoundTrip.getCapabilities (x0 : Fin 64) : RoundTrip.Statement (.getCapabilities x0) := roundTrip_none rfl

theorem RoundTrip.negotiateAlgorithms (x0 : Fin 64) : RoundTrip.Statement (.negotiateAlgorithms x0) := roundTrip_none rfl

theorem RoundTrip.getDigests (x0 : Fin 64) : RoundTrip.Statement (.getDigests x0) := roundTrip_none rfl

theorem RoundTrip.getCertificate (x0 : Fin 64) (x1 : Nat) (x2 : Nat) (x3 : Nat) : RoundTrip.Statement (.getCertificate x0 x1 x2 x3) := roundTrip_none rfl

theorem RoundTrip.challenge (x0 : Fin 64) (x1 : BitVec 256) : RoundTrip.Statement (.challenge x0 x1) := roundTrip_none rfl

theorem RoundTrip.getMeasurements (x0 : Fin 64) (x1 : Nat) (x2 : BitVec 256) : RoundTrip.Statement (.getMeasurements x0 x1 x2) := roundTrip_none rfl

theorem RoundTrip.spdmUnsupportedRequest (x0 : Fin 64) (x1 : BitVec 8) : RoundTrip.Statement (.spdmUnsupportedRequest x0 x1) := roundTrip_none rfl

theorem RoundTrip.syndromeRead (x0 : Fin 64) (x1 : BitVec 32) (x2 : BitVec 32) : RoundTrip.Statement (.syndromeRead x0 x1 x2) := roundTrip_none rfl

theorem RoundTrip.syndromeClear (x0 : Fin 64) (x1 : BitVec 32) (x2 : BitVec 32) : RoundTrip.Statement (.syndromeClear x0 x1 x2) := roundTrip_none rfl

theorem RoundTrip.flitReceive (x0 : Fin 48) (x1 : List (BitVec 8)) : RoundTrip.Statement (.flitReceive x0 x1) := roundTrip_none rfl

theorem RoundTrip.linkTraining (x0 : Fin 48) (x1 : Nat) (x2 : Nat) (x3 : BitVec 5) : RoundTrip.Statement (.linkTraining x0 x1 x2 x3) := roundTrip_none rfl

theorem RoundTrip.laneRetire (x0 : Fin 48) (x1 : Fin 5) : RoundTrip.Statement (.laneRetire x0 x1) := roundTrip_none rfl

theorem RoundTrip.peerAccess (x0 : Nat) (x1 : Fin 64) (x2 : Nat) (x3 : Option (List (BitVec 8))) (x4 : Nat) : RoundTrip.Statement (.peerAccess x0 x1 x2 x3 x4) := roundTrip_none rfl

theorem RoundTrip.marketClear (x0 : Nat) (x1 : Nat) (x2 : List Nat) : RoundTrip.Statement (.marketClear x0 x1 x2) := roundTrip_none rfl

theorem RoundTrip.curveSlowEvent (x0 : Nat) (x1 : Nat) : RoundTrip.Statement (.curveSlowEvent x0 x1) := roundTrip_none rfl

theorem RoundTrip.curveParkEvent (x0 : Nat) (x1 : Nat) : RoundTrip.Statement (.curveParkEvent x0 x1) := roundTrip_none rfl

theorem RoundTrip.curveShedEvent (x0 : Nat) (x1 : Nat) : RoundTrip.Statement (.curveShedEvent x0 x1) := roundTrip_none rfl

theorem RoundTrip.droopStretch (x0 : Fin 48) (x1 : Nat) : RoundTrip.Statement (.droopStretch x0 x1) := roundTrip_none rfl

theorem RoundTrip.guardBreach (x0 : Fin 48) (x1 : Nat) : RoundTrip.Statement (.guardBreach x0 x1) := roundTrip_none rfl

theorem RoundTrip.stallHoldEnd (x0 : Fin 192) : RoundTrip.Statement (.stallHoldEnd x0) := roundTrip_none rfl

theorem RoundTrip.clusterGate (x0 : Fin 48) : RoundTrip.Statement (.clusterGate x0) := roundTrip_none rfl

theorem RoundTrip.dieGate (x0 : Fin 8) : RoundTrip.Statement (.dieGate x0) := roundTrip_none rfl

theorem RoundTrip.diePowerUp (x0 : Fin 8) : RoundTrip.Statement (.diePowerUp x0) := roundTrip_none rfl

theorem RoundTrip.hotMigration  : RoundTrip.Statement (.hotMigration ) := roundTrip_none rfl

theorem RoundTrip.bankRetire (x0 : Fin 16) (x1 : Fin 64) (x2 : Fin 64) : RoundTrip.Statement (.bankRetire x0 x1 x2) := roundTrip_none rfl

theorem RoundTrip.siloScrub (x0 : Nat) (x1 : Option Bool) : RoundTrip.Statement (.siloScrub x0 x1) := roundTrip_none rfl

theorem RoundTrip.sramScrub (x0 : BitVec 4) (x1 : Fin 192) (x2 : Nat) (x3 : Option Bool) : RoundTrip.Statement (.sramScrub x0 x1 x2 x3) := roundTrip_none rfl

theorem RoundTrip.eccWriteback (x0 : Nat) : RoundTrip.Statement (.eccWriteback x0) := roundTrip_none rfl

theorem RoundTrip.heartbeatTimeout (x0 : Fin 11) (x1 : Option Nat) : RoundTrip.Statement (.heartbeatTimeout x0 x1) := roundTrip_none rfl

theorem RoundTrip.fatalDieError (x0 : Fin 11) (x1 : BitVec 7) (x2 : Option Nat) : RoundTrip.Statement (.fatalDieError x0 x1 x2) := roundTrip_none rfl

theorem RoundTrip.accessResponse (x0 : Fin 192) (x1 : Nat) : RoundTrip.Statement (.accessResponse x0 x1) := roundTrip_none rfl

theorem RoundTrip.preIssueRead (x0 : Fin 192) : RoundTrip.Statement (.preIssueRead x0) := roundTrip_none rfl

theorem RoundTrip.constantPathDiscard (x0 : Fin 192) : RoundTrip.Statement (.constantPathDiscard x0) := roundTrip_none rfl

theorem RoundTrip.clusterPowerUp (x0 : Fin 48) : RoundTrip.Statement (.clusterPowerUp x0) := roundTrip_none rfl

theorem RoundTrip.badCommand (x0 : Fin 64) : RoundTrip.Statement (.badCommand x0) := roundTrip_none rfl

end Sys2Proof.Laws
end

