-- ==== Sys2Proof/Safety.lean ====
section
/-! DEFINITION. The terms in which claims are stated: a safe run, one in which no step stops (the machine stops only where a page table
names storage that does not exist, R227; traps, faults of strands and errors of the package are next states); when a word issues; what
an issued word leaves. -/

namespace Sys2Proof.Safety

open Sys2Proof Sys2Proof.Machine

/-- The step answers a next state. -/
def SafeStep (s : State) : Prop := ∃ t, step s = .next t

/-- `n` steps from a state answer next states. -/
def SafeRun (n : Nat) (s : State) : Prop := ∃ t, core.run n s = .next t

/-- A state that steps from another lead to. -/
inductive Reaches (s : State) : State → Prop where
  | refl : Reaches s s
  | step (t u : State) : Reaches s t → step t = .next u → Reaches s u

/-- The strand with which a word of slot `sl` of the current core issues: the strand that stands there with the writes whose cycle has
come, where its slot may try the word (R50, R89, R109, R299, R338, R339), its rendezvous is complete (R55), a word that changes the
flow is not being captured (R105, R163), and S has the registers `regs` landed (R63, R95). `none` where the word does not issue. -/
def issuer (s : State) (sl : Slot) (rv flow : Bool) (regs : List (BitVec 5)) : Option Strand :=
  match s.strand? s.cur.core with
  | none => none
  | some st0 =>
    let cyc := s.cyc s.cur.core
    if s.mayTry s.cur.core (st0.settle cyc) sl then
      match s.passRv s.cur.core (st0.settle cyc) sl rv with
      | none => none
      | some st =>
        if (flow && st.lbLive sl && !(st.lb sl).captured) || (sl == .s && regs.any (st.outstanding cyc)) then none else some st
    else none

/-- R105, R163: the strand with which slot `sl` of the current core takes a word while its loop buffer captures the body. -/
def catches (s : State) (sl : Slot) (rv : Bool) : Option Strand :=
  match s.strand? s.cur.core with
  | none => none
  | some st0 =>
    let st1 := st0.settle (s.cyc s.cur.core)
    match s.passRv s.cur.core st1 sl rv with
    | none => none
    | some st => if s.mayTry s.cur.core st1 sl && st.lbLive sl && !(st.lb sl).captured then some st else none

/-- The cycle in which a word of the current core issues. -/
def now (s : State) : Nat := s.cyc s.cur.core

/-- The current core with strand `st` moved past the word `w` of slot `sl` (R52, R104, R105), and nothing else of the state changed. -/
def moved (s : State) (sl : Slot) (st : Strand) (w : Option W32) (n : Next) (busy : Nat) : State :=
  { s with cores := s.cores.set s.cur.core { s.cores[s.cur.core] with
      strand := some (st.advance sl (now s) w n busy), issued := now s + 1 } }

/-- What a word of slot `sl` leaves whose one effect is a write of an X register, readable `lat` cycles after its issue. -/
def wroteX (s : State) (sl : Slot) (st : Strand) (lat : Nat) (d : BitVec 5) (v : W64) (bad : Bool) : State :=
  moved s sl (st.xlater (now s + lat) d v bad (sl == .s)) (s.word? st sl) .seq 1

/-- What a word of slot `sl` leaves that traps: the strand that would have issued it raises the trap (R338, R341). -/
def trapped (s : State) (sl : Slot) (st : Strand) (cause : Cause) (addr : W64) : State :=
  (s.setSt s.cur.core st).raiseTrap s.cur.core st sl cause addr

/-- What a word of slot `sl` leaves whose one effect is the strand `st'`. -/
def became (s : State) (sl : Slot) (st st' : Strand) : State := moved s sl st' (s.word? st sl) .seq 1

/-- What a V word leaves that will land with these effects `bound` cycles after its issue; every V word takes one free value. -/
def vIssued (s : State) (st st' : Strand) (bound : Nat) (regs : List VRegW) (preds : List PRegW) (ws : List MWrite) (marks : List Nat)
    (fl : FFlags) (busy : Nat) : State :=
  moved { s with free := s.free + 1 } .v (st'.vLater (now s) bound regs preds ws marks fl) (s.word? st .v) .seq busy

/-- R88, R195, R199: what a word of slot `sl` leaves that raises the COND of token `i` of strand `st`, no trap being due: the trap is recorded with
the COND's cause and address, and the COND is cleared. -/
def RaisesCond (s : State) (sl : Slot) (st : Strand) (i : Fin 8) (t : State) : Prop :=
  ∃ (u : Strand) (p : TrapPend), t.strand? s.cur.core = some u ∧ u.trapAt = some p ∧ p.slot = sl ∧ p.cyc = now s ∧
    u.trapcause = (if (st.tok[i]).cond = 1 then Cause.poison else if (st.tok[i]).cond = 2 then Cause.remoteGated else Cause.fieldMiss).code ∧
    u.trapslot = BitVec.ofNat 64 sl.num ∧ u.trappc = st.pc.get sl ∧ u.trapaddr = (st.tok[i]).caddr ∧
    u.tok = st.tok.set i { st.tok[i] with cond := 0 }

/-- R125, R230: the request of a SOW or JOIN for its record has served: that of a record in HBM storage. -/
def RecordMet (st : Strand) (pl : SPlace) : Prop := pl.addr < 2 ^ 40 → ∃ n, st.recReq = some (n, true)

/-- R111, R112: what an atomic stores in its unit of `w` bits: `none` for a CAS that does not match. -/
def amoNew (fn : AmoFn) {w : Nat} (old y : BitVec w) : Option (BitVec w) :=
  match fn with
  | .add => some (old + y)
  | .and => some (old &&& y)
  | .or => some (old ||| y)
  | .xor => some (old ^^^ y)
  | .min => some (if old.toInt ≤ y.toInt then old else y)
  | .max => some (if old.toInt ≤ y.toInt then y else old)
  | .minu => some (if old.toNat ≤ y.toNat then old else y)
  | .maxu => some (if old.toNat ≤ y.toNat then y else old)
  | .swap => some y
  | .cas x => if old = x.setWidth w then some y else none

/-- R111, R112: memory with the unit of `n` bytes at `a` become `v`, or as it was. -/
def UnitBecomes (m m' : Mem) (a n : Nat) {w : Nat} (v : Option (BitVec w)) : Prop :=
  (v = none → m' = m) ∧ ∀ x, v = some x →
    (∀ q, m'.byte q = if a ≤ q ∧ q < a + n then BitVec.ofNat 8 (x.toNat / 256 ^ (q - a)) else m.byte q) ∧ ∀ l, m'.bad l = m.bad l

/-- R194, R195, R199, R206: what a piece of a copy leaves that has landed in cycle `cyc`, no poison being met: its bytes leave the token; the copy whose last
piece it was is in flight no more, and where its token has a COND the notes go that waited for no other copy. -/
def pieceLanded (st : Strand) (k : Copy) (j len cyc : Nat) : Strand :=
  let segs := k.segs.zipIdx.map fun x => if x.2 = j then { x.1 with st := .landed } else x.1
  let t := st.tok[k.tok.toNat]
  let left := (st.copies.map fun o => if o.cid = k.cid then { k with segs := segs } else o).filter fun o =>
    !(o.cid == k.cid && o.segs.all fun x => x.st == .landed)
  { st with
    tok := st.tok.set k.tok.toNat { t with pend := t.pend - len, last := cyc },
    copies := if t.cond ≠ 0 ∧ segs.all (fun x => x.st == .landed) = true then
        left.filter fun n => !(n.kind == 6 && n.tok == k.tok && decide (k.cid < n.cid) &&
          !left.any fun o => o.kind != 6 && o.tok == n.tok && decide (o.cid < n.cid))
      else left }

/-- R221: the writes of the present cycle that stand over a write of a path of a core at an address: in the yard of its cluster and in its
buffers, those of later slots, later cores and the remote port. -/
def laterWrites (s : State) (c : Fin 192) (path a : Nat) : List MWrite :=
  if s.atHome c a then ((s.clusters[clusterOf c]).recent.filter fun l => decide (8 * (c.val % 4) + path < l.rank)).map Landed.w else []

/-- R66: is an element, counted 64r + c, active under the strand's VSHAPE. -/
def active (st : Strand) (e : Fin 1024) : Bool :=
  decide (e.val / 64 ≤ (st.vshape.extractLsb' 0 4).toNat) && decide (e.val % 64 ≤ (st.vshape.extractLsb' 4 6).toNat)

/-- R67, R136: does a V word that issues now under predicate `p` write an element: it is active and its bit, as it reads at the issue
(R77), is 1; predicate 15 is all true. -/
def governed (s : State) (st : Strand) (p : BitVec 4) (e : Fin 1024) : Bool :=
  active st e && (p == 15 || st.predBit (now s) (s.free + 1) p e.val)

/-- R77: an element of a V register as a word that issues now reads it. -/
def elemAt (s : State) (st : Strand) (n : BitVec 4) (e : Fin 1024) : W32 := st.vElem (now s) (s.free + 1) n e

/-- R77: the poison of a row of a V register as a word that issues now reads it. -/
def rowBad (s : State) (st : Strand) (n : BitVec 4) (q : Fin 16) : Bool := (st.vBad (now s) (s.free + 1) n).getLsbD q.val

/-- R67, R77: the poison of a row of a predicate as a word that issues now reads it; predicate 15 has none. -/
def predRowBad (s : State) (st : Strand) (p : BitVec 4) (q : Fin 16) : Bool :=
  p != 15 && (st.predBad (now s) (s.free + 1) p).getLsbD q.val

/-- R136, R137: a pending write of V register `d` that writes the elements of `w` with the values of `val`, its rows wholly, partly or
not at all, with the source poison of `bad`. -/
def WritesReg (g : VRegW) (d : BitVec 4) (w : Fin 1024 → Bool) (val : Fin 1024 → W32) (bad : Fin 16 → Bool) : Prop :=
  g.reg = d ∧ (∀ e : Fin 1024, g.mask.getLsbD e.val = w e) ∧ (∀ e : Fin 1024, w e = true → g.vals[e] = val e) ∧
    (∀ q : Fin 16, g.full.getLsbD q.val = true ↔ ∀ e : Fin 1024, e.val / 64 = q.val → w e = true) ∧
    (∀ q : Fin 16, g.part.getLsbD q.val = true ↔
      (∃ e : Fin 1024, e.val / 64 = q.val ∧ w e = true) ∧ ∃ e : Fin 1024, e.val / 64 = q.val ∧ w e = false) ∧
    ∀ q : Fin 16, (∃ e : Fin 1024, e.val / 64 = q.val ∧ w e = true) → g.bad.getLsbD q.val = bad q

/-- The same of a pending write of P register `d`. -/
def WritesPred (g : PRegW) (d : BitVec 4) (w val : Fin 1024 → Bool) (bad : Fin 16 → Bool) : Prop :=
  g.reg = d ∧ (∀ e : Fin 1024, g.mask.getLsbD e.val = w e) ∧ (∀ e : Fin 1024, w e = true → g.vals.getLsbD e.val = val e) ∧
    (∀ q : Fin 16, g.full.getLsbD q.val = true ↔ ∀ e : Fin 1024, e.val / 64 = q.val → w e = true) ∧
    (∀ q : Fin 16, g.part.getLsbD q.val = true ↔
      (∃ e : Fin 1024, e.val / 64 = q.val ∧ w e = true) ∧ ∃ e : Fin 1024, e.val / 64 = q.val ∧ w e = false) ∧
    ∀ q : Fin 16, (∃ e : Fin 1024, e.val / 64 = q.val ∧ w e = true) → g.bad.getLsbD q.val = bad q

/-- A V word issues and will write the governed elements of `d` under predicate `p`, `bound` cycles on, with the flags of the elements
that it writes (R48); nothing else changes. -/
def IssuesElems (s : State) (st : Strand) (i : Instr) (d p : BitVec 4) (bound busy : Nat) (val : Fin 1024 → W32) (bad : Fin 16 → Bool)
    (fl : Fin 1024 → FFlags) : Prop :=
  ∃ (g : VRegW) (f : FFlags), exec i s = .next (vIssued s st st bound [g] [] [] [] f busy) ∧
    WritesReg g d (governed s st p) val (fun q => bad q || predRowBad s st p q) ∧
    ∀ b < 5, f.getLsbD b = true ↔ ∃ e : Fin 1024, governed s st p e = true ∧ (fl e).getLsbD b = true

/-- R134: the occupancy of a word that works on the active rows. -/
def rowBusy (st : Strand) : Nat := ((st.vshape.extractLsb' 0 4).toNat + 4) / 4

/-- R66, R136: the width of an element type. -/
def etypeWidth (ty : Nat) : Nat := match ty with | 0 => 32 | 1 => 16 | 2 => 32 | 3 => 16 | _ => 8

/-- R28: a result of `w` bits in its container: sign-extended for an integer type, zero above for a floating-point type. -/
def contained (ty : Nat) {w : Nat} (x : BitVec w) : W32 := if 2 ≤ ty then x.signExtend 32 else x.zeroExtend 32

/-- R208, R209, R212, R347: what the completion of a record, alone in its chain, with status `x` and REPORT `rep` leaves, memory being `m` before it:
the status is written where the record's address translates to then; a record whose address has no translation stays, as `kept`. -/
def HaulDone (c : Fin 192) (k : Chan) (l : Option Launch) (r : HaulRec) (x rep : Nat) (m : Mem) (kept : HaulRec) (t : State) : Prop :=
  let done : Chan := if 2 ≤ x ∨ r.next = 0 then k.idle else { k with recs := [] }
  if r.blind then t.mem = m ∧ t.chans[c] = k.idle else
  match t.haulTgt (engOf c) k.part l r.addr true with
  | .error (.walk _) => t.mem = m ∧ t.chans[c].recs = [kept]
  | .error _ => t.mem = m ∧ t.chans[c] = done
  | .ok (phys, tag, _) =>
    let m1 := if rep = 0 then m else m.apply (MWrite.plain (phys + 56) tag (leBytes 8 rep))
    let ctl := leNat (m1.bytesAt tag phys 8)
    t.mem = m1.apply (MWrite.plain phys tag (leBytes 8 (ctl / 2 ^ 16 * 2 ^ 16 + x * 2 ^ 8 + ctl % 2 ^ 8 / 2 * 2))) ∧ t.chans[c] = done

end Sys2Proof.Safety
end

