-- ==== Sys2Proof/Certificates/Slice0/Obligations.lean ====
section
/-! DEFINITION. The statements for the provers. Each `Obligations.<Name>` is a statement; `Sys2Proof.Claims.<Name>` are the parts of those that
have more than one. In a statement about a word, `issuer` names the strand with which the word issues (Safety). -/

open Sys2Proof Sys2Proof.Machine Sys2Proof.Safety

/-- R98, the functions of two registers, each readable after the distance of R95. A poisoned source poisons the result (R96). -/
def Sys2Proof.Claims.RegisterAluOfTwo : Prop :=
  ∀ (s : State) (r : Bool) (d a b : BitVec 5) (st : Strand),
    issuer s .s r false [d, a, b] = some st → st.owns false d = true →
    let x := st.xv a
    let y := st.xv b
    let sh := y.toNat % 64
    let gives (i : Instr) (lat : Nat) (v : W64) : Prop := exec i s = .next (wroteX s .s st lat d v (st.xp a || st.xp b))
    gives (.add r d a b) 1 (BitVec.ofNat 64 (x.toNat + y.toNat)) ∧
    gives (.sub r d a b) 1 (BitVec.ofInt 64 (x.toNat - y.toNat)) ∧
    gives (.mul r d a b) 3 (BitVec.ofNat 64 (x.toNat * y.toNat)) ∧
    gives (.mulh r d a b) 3 (BitVec.ofInt 64 (x.toInt * y.toInt / 2 ^ 64)) ∧
    gives (.mulhu r d a b) 3 (BitVec.ofNat 64 (x.toNat * y.toNat / 2 ^ 64)) ∧
    gives (.div r d a b) 20 (if y = 0 then BitVec.allOnes 64 else BitVec.ofInt 64 (Int.tdiv x.toInt y.toInt)) ∧
    gives (.divu r d a b) 20 (if y = 0 then BitVec.allOnes 64 else BitVec.ofNat 64 (x.toNat / y.toNat)) ∧
    gives (.rem r d a b) 20 (if y = 0 then x else BitVec.ofInt 64 (Int.tmod x.toInt y.toInt)) ∧
    gives (.remu r d a b) 20 (if y = 0 then x else BitVec.ofNat 64 (x.toNat % y.toNat)) ∧
    gives (.and_ r d a b) 1 (x &&& y) ∧
    gives (.or_ r d a b) 1 (x ||| y) ∧
    gives (.xor_ r d a b) 1 (x ^^^ y) ∧
    gives (.andn r d a b) 1 (x &&& ~~~y) ∧
    gives (.shl r d a b) 1 (BitVec.ofNat 64 (x.toNat * 2 ^ sh)) ∧
    gives (.shr r d a b) 1 (BitVec.ofNat 64 (x.toNat / 2 ^ sh)) ∧
    gives (.shra r d a b) 1 (BitVec.ofInt 64 (x.toInt / 2 ^ sh)) ∧
    gives (.ror r d a b) 1 (BitVec.ofNat 64 (x.toNat / 2 ^ sh + x.toNat * 2 ^ (64 - sh))) ∧
    gives (.min_ r d a b) 1 (BitVec.ofInt 64 (min x.toInt y.toInt)) ∧
    gives (.max_ r d a b) 1 (BitVec.ofInt 64 (max x.toInt y.toInt)) ∧
    gives (.minu r d a b) 1 (BitVec.ofNat 64 (min x.toNat y.toNat)) ∧
    gives (.maxu r d a b) 1 (BitVec.ofNat 64 (max x.toNat y.toNat)) ∧
    gives (.slt r d a b) 1 (if x.toInt < y.toInt then 1 else 0) ∧
    gives (.sltu r d a b) 1 (if x.toNat < y.toNat then 1 else 0) ∧
    gives (.seq r d a b) 1 (if x = y then 1 else 0) ∧
    gives (.sne r d a b) 1 (if x ≠ y then 1 else 0)

/-- R98, the functions of one register, and CMOV, which keeps the old value of its register and whose poisoned condition traps. -/
def Sys2Proof.Claims.RegisterAluOfOne : Prop :=
  ∀ (s : State) (r : Bool) (d a : BitVec 5) (st : Strand),
    (issuer s .s r false [d, a] = some st → st.owns false d = true →
      let x := st.xv a
      let gives (i : Instr) (v : W64) : Prop := exec i s = .next (wroteX s .s st 1 d v (st.xp a))
      (∃ n, gives (.clz r d a) (BitVec.ofNat 64 n) ∧ n ≤ 64 ∧ x.toNat < 2 ^ (64 - n) ∧ (n < 64 → x.getLsbD (63 - n) = true)) ∧
      (∃ n, gives (.ctz r d a) (BitVec.ofNat 64 n) ∧ n ≤ 64 ∧ x.toNat % 2 ^ n = 0 ∧ (n < 64 → x.getLsbD n = true)) ∧
      gives (.popc r d a) (BitVec.ofNat 64 (Finset.univ.filter fun i : Fin 64 => x.getLsbD i.val = true).card) ∧
      (∀ w : BitVec 5, w.toNat ≤ 2 →
        gives (.sext r d a w) ((x.extractLsb' 0 (8 * 2 ^ w.toNat)).signExtend 64) ∧
        gives (.zext r d a w) ((x.extractLsb' 0 (8 * 2 ^ w.toNat)).zeroExtend 64))) ∧
    (∀ b : BitVec 5, issuer s .s r false [d, a, b] = some st → st.owns false d = true → st.xp b = false →
      exec (.cmov r d a b) s =
        .next (wroteX s .s st 1 d (if st.xv b ≠ 0 then st.xv a else st.xv d) (st.xp a || st.xp d))) ∧
    (∀ b : BitVec 5, issuer s .s r false [d, a, b] = some st → st.owns false d = true → st.xp b = true →
      exec (.cmov r d a b) s = .next (trapped s .s st .poison 0))

/-- R98. The words of the register ALU: major 0x01, the function in bits 9:0; the second source field of CLZ, CTZ and POPC is reserved; SEXT and ZEXT have
the code of their width there. -/
def Sys2Proof.Claims.RegisterAluEncodings : Prop :=
  ∀ (r : Bool) (d a b : BitVec 5) (n : BitVec 10),
    let word (x : BitVec 5) (fn : BitVec 10) : W32 := BitVec.ofBool r ++ 1#6 ++ d ++ a ++ x ++ fn
    let two : List (BitVec 10 × Instr) := [(0, .add r d a b), (1, .sub r d a b), (2, .mul r d a b), (3, .mulh r d a b), (4, .mulhu r d a b), (5, .div r d a b), (6, .divu r d a b), (7, .rem r d a b),
      (8, .remu r d a b), (9, .and_ r d a b), (10, .or_ r d a b), (11, .xor_ r d a b), (12, .andn r d a b), (13, .shl r d a b), (14, .shr r d a b), (15, .shra r d a b), (16, .ror r d a b),
      (17, .min_ r d a b), (18, .max_ r d a b), (19, .minu r d a b), (20, .maxu r d a b), (21, .slt r d a b), (22, .sltu r d a b), (23, .seq r d a b), (24, .sne r d a b), (30, .cmov r d a b)]
    let one : List (BitVec 10 × Instr) := [(25, .clz r d a), (26, .ctz r d a), (27, .popc r d a)]
    (∀ x ∈ two, decodeWord .s (word b x.1) = .ok x.2) ∧
    (∀ x ∈ one, decodeWord .s (word 0 x.1) = .ok x.2 ∧ (b ≠ 0 → decodeWord .s (word b x.1) = .error .reservedNonzero)) ∧
    (b.toNat ≤ 2 → decodeWord .s (word b 28) = .ok (.sext r d a b) ∧ decodeWord .s (word b 29) = .ok (.zext r d a b)) ∧
    (2 < b.toNat → decodeWord .s (word b 28) = .error .illegal ∧ decodeWord .s (word b 29) = .error .illegal) ∧
    (30 < n.toNat → decodeWord .s (word b n) = .error .illegal)

/-- The register ALU: every function of R98, its result and when it is readable, and its words (R98). -/
def Obligations.RegisterAlu : Prop :=
  Claims.RegisterAluOfTwo ∧ Claims.RegisterAluOfOne ∧ Claims.RegisterAluEncodings

/-- R99 and R100: the immediate forms and MOVH. -/
def Obligations.ImmediateWords : Prop :=
  ∀ (s : State) (r : Bool) (d a : BitVec 5) (st : Strand),
    (issuer s .s r false [d, a] = some st → st.owns false d = true →
      let x := st.xv a
      let gives (i : Instr) (lat : Nat) (v : W64) : Prop := exec i s = .next (wroteX s .s st lat d v (st.xp a))
      (∀ i : BitVec 15,
        gives (.addi r d a i) 1 (BitVec.ofInt 64 (x.toInt + i.toInt)) ∧
        gives (.andi r d a i) 1 (x &&& i.signExtend 64) ∧
        gives (.ori r d a i) 1 (x ||| i.signExtend 64) ∧
        gives (.xori r d a i) 1 (x ^^^ i.signExtend 64) ∧
        gives (.slti r d a i) 1 (if x.toInt < i.toInt then 1 else 0) ∧
        gives (.sltiu r d a i) 1 (if x.toNat < (i.signExtend 64).toNat then 1 else 0) ∧
        gives (.muli r d a i) 3 (BitVec.ofInt 64 (x.toInt * i.toInt))) ∧
      (∀ n : BitVec 6,
        gives (.shli r d a n) 1 (BitVec.ofNat 64 (x.toNat * 2 ^ n.toNat)) ∧
        gives (.shri r d a n) 1 (BitVec.ofNat 64 (x.toNat / 2 ^ n.toNat)) ∧
        gives (.shrai r d a n) 1 (BitVec.ofInt 64 (x.toInt / 2 ^ n.toNat)))) ∧
    (∀ (h : BitVec 2) (z : BitVec 1) (i : BitVec 16),
      issuer s .s r false (if z = 1 then [d] else [d, d]) = some st → st.owns false d = true →
      ∃ v : W64, exec (.movh r d h z i) s = .next (wroteX s .s st 1 d v (z == 0 && st.xp d)) ∧
        v.extractLsb' (16 * h.toNat) 16 = i ∧
        ∀ k < 64, (k < 16 * h.toNat ∨ 16 * h.toNat + 16 ≤ k) → v.getLsbD k = (z == 0 && (st.xv d).getLsbD k))

/-- R61, R63, R95: a write of an X register that S or H issued in cycle `cyc` and that is readable `lat` cycles later. Until then the register is
outstanding (to S, where S wrote it); from then on it reads the value, X0 excepted, and no other register or other state is touched by its landing.
Stated of a strand on which no other write has been left pending. -/
def Sys2Proof.Claims.RegisterWriteLands : Prop :=
  ∀ (st : Strand) (cyc lat t : Nat) (d q : BitVec 5) (v : W64) (bad byS : Bool),
    st.xpend = [] → st.cpend = [] → st.tspend = [] → st.bpend = [] →
    let st1 := st.xlater (cyc + lat) d v bad byS
    (t < cyc + lat → (st1.settle t).xv q = st.xv q ∧ (st1.settle t).xp q = st.xp q ∧
      (byS = true → d ≠ 0 → st1.outstanding t d = true)) ∧
    (cyc + lat ≤ t →
      (st1.settle t).xv q = (if q = d ∧ d ≠ 0 then v else st.xv q) ∧
      (st1.settle t).xp q = (if q = d ∧ d ≠ 0 then bad else st.xp q) ∧
      (st1.settle t).outstanding t q = st.outstanding t q ∧
      (st1.settle t) = { st with x := (st1.settle t).x, xbad := (st1.settle t).xbad }) ∧
    st.xv 0 = 0 ∧ st.xp 0 = false

/-- R61, R62: every word of S that writes a register (R98 to R100, R103, R106, R110, R112, R114, R120, R123, R124, R131) raises XOWN where S does not own
it, before any other effect, whatever else would stop it. -/
def Sys2Proof.Claims.WriteOfUnownedRegisterTraps : Prop :=
  ∀ (s : State) (r : Bool) (d a b : BitVec 5) (st : Strand), st.owns false d = false →
    let traps (i : Instr) : Prop := exec i s = .next (trapped s .s st .xown 0)
    (issuer s .s r false [d, a, b] = some st →
      traps (.add r d a b) ∧ traps (.sub r d a b) ∧ traps (.mul r d a b) ∧ traps (.mulh r d a b) ∧ traps (.mulhu r d a b) ∧ traps (.div r d a b) ∧
      traps (.divu r d a b) ∧ traps (.rem r d a b) ∧ traps (.remu r d a b) ∧ traps (.and_ r d a b) ∧ traps (.or_ r d a b) ∧ traps (.xor_ r d a b) ∧
      traps (.andn r d a b) ∧ traps (.shl r d a b) ∧ traps (.shr r d a b) ∧ traps (.shra r d a b) ∧ traps (.ror r d a b) ∧ traps (.min_ r d a b) ∧
      traps (.max_ r d a b) ∧ traps (.minu r d a b) ∧ traps (.maxu r d a b) ∧ traps (.slt r d a b) ∧ traps (.sltu r d a b) ∧ traps (.seq r d a b) ∧
      traps (.sne r d a b) ∧ traps (.cmov r d a b) ∧
      ∀ (q l z p : BitVec 1) (c : BitVec 2),
        traps (.amoadd r d a b q l c z p) ∧ traps (.amoand r d a b q l c z p) ∧ traps (.amoor r d a b q l c z p) ∧ traps (.amoxor r d a b q l c z p) ∧
        traps (.amomin r d a b q l c z p) ∧ traps (.amomax r d a b q l c z p) ∧ traps (.amominu r d a b q l c z p) ∧
        traps (.amomaxu r d a b q l c z p) ∧ traps (.amoswap r d a b q l c z p) ∧ traps (.cas r d a b q l c z p)) ∧
    (issuer s .s r false [d, a] = some st →
      traps (.clz r d a) ∧ traps (.ctz r d a) ∧ traps (.popc r d a) ∧ (∀ w, traps (.sext r d a w) ∧ traps (.zext r d a w)) ∧
      (∀ i, traps (.addi r d a i) ∧ traps (.andi r d a i) ∧ traps (.ori r d a i) ∧ traps (.xori r d a i) ∧ traps (.slti r d a i) ∧
        traps (.sltiu r d a i) ∧ traps (.muli r d a i)) ∧
      (∀ n, traps (.shli r d a n) ∧ traps (.shri r d a n) ∧ traps (.shrai r d a n)) ∧
      (∀ z p o, traps (.ld r d a z p o) ∧ traps (.ldu r d a z p o)) ∧
      (∀ z o, traps (.ldk r d a z o)) ∧ (∀ m, traps (.locq r d a m)) ∧ (st.sleep = none → traps (.waita r d a))) ∧
    (∀ h z i, issuer s .s r false (if z = 1 then [d] else [d, d]) = some st → traps (.movh r d h z i)) ∧
    (issuer s .s r false [d] = some st → traps (.recv r d) ∧ ∀ n, traps (.csrr r d n)) ∧
    (∀ i, issuer s .s r true [d, a] = some st → traps (.jr r d a i)) ∧
    (∀ o, d = 1 → issuer s .s r true [1] = some st → traps (.call r o))

/-- X register writes land when they are readable; a write of an unowned register raises XOWN first (R61, R62, R63, R95, R97). -/
def Obligations.RegisterWrites : Prop :=
  Claims.RegisterWriteLands ∧ Claims.WriteOfUnownedRegisterTraps

/-- R101: the compare branches. -/
def Sys2Proof.Claims.CompareBranches : Prop :=
  ∀ (s : State) (r : Bool) (a b : BitVec 5) (o : BitVec 15) (st : Strand),
    issuer s .s r true [a, b] = some st →
    let x := st.xv a
    let y := st.xv b
    let goes (i : Instr) (taken : Prop) : Prop :=
      (taken → exec i s = .next (moved s .s st (s.word? st .s) (.jump (BitVec.ofInt 64 (st.pc.s.toNat + 4 * o.toInt)) false) 1)) ∧
      (¬ taken → exec i s = .next (moved s .s st (s.word? st .s) .seq 1))
    let traps (i : Instr) : Prop := exec i s = .next (trapped s .s st .poison 0)
    (st.xp a = false → st.xp b = false →
      goes (.beq r a b o) (x = y) ∧ goes (.bne r a b o) (x ≠ y) ∧
      goes (.blt r a b o) (x.toInt < y.toInt) ∧ goes (.bge r a b o) (y.toInt ≤ x.toInt) ∧
      goes (.bltu r a b o) (x.toNat < y.toNat) ∧ goes (.bgeu r a b o) (y.toNat ≤ x.toNat)) ∧
    (st.xp a = true ∨ st.xp b = true →
      traps (.beq r a b o) ∧ traps (.bne r a b o) ∧ traps (.blt r a b o) ∧ traps (.bge r a b o) ∧ traps (.bltu r a b o) ∧
      traps (.bgeu r a b o))

/-- R102: the predicate branches look at the bits of the active elements, and stop on a poisoned active row; stated where no V word that writes the
predicate is within its bound. -/
def Sys2Proof.Claims.PredicateBranches : Prop :=
  ∀ (s : State) (r : Bool) (n : BitVec 4) (o : BitVec 15) (st : Strand),
    issuer s .s r true [] = some st → (∀ w ∈ st.vpend, ∀ p ∈ w.preds, p.reg ≠ n) →
    let bit (i : Nat) : Bool := (st.p[n.toNat]).getLsbD i
    let act (i : Nat) : Prop := i < 1024 ∧ i / 64 ≤ (st.vshape.extractLsb' 0 4).toNat ∧ i % 64 ≤ (st.vshape.extractLsb' 4 6).toNat
    let s1 := { s with free := s.free + 1 }
    let goes (i : Instr) (taken : Prop) : Prop :=
      (taken → exec i s = .next (moved s1 .s st (s.word? st .s) (.jump (BitVec.ofInt 64 (st.pc.s.toNat + 4 * o.toInt)) false) 1)) ∧
      (¬ taken → exec i s = .next (moved s1 .s st (s.word? st .s) .seq 1))
    ((∀ k ≤ (st.vshape.extractLsb' 0 4).toNat, (st.pbad[n.toNat]).getLsbD k = false) →
      goes (.bpany r n o) (∃ i, act i ∧ bit i = true) ∧ goes (.bpall r n o) (∀ i, act i → bit i = true)) ∧
    ((∃ k ≤ (st.vshape.extractLsb' 0 4).toNat, (st.pbad[n.toNat]).getLsbD k = true) →
      exec (.bpany r n o) s = .next (trapped s .s st .poison 0) ∧
      exec (.bpall r n o) s = .next (trapped s .s st .poison 0))

/-- R103: JMP, CALL and JR; the link is written to X1 or xd and the target of JR is read first. -/
def Sys2Proof.Claims.JumpsAndLinks : Prop :=
  ∀ (s : State) (r : Bool) (st : Strand),
    let link (d : BitVec 5) : Strand := st.xlater (now s + 1) d (BitVec.ofNat 64 (st.pc.s.toNat + 4)) false true
    (∀ o : BitVec 25, issuer s .s r true [] = some st →
      exec (.jmp r o) s = .next (moved s .s st (s.word? st .s) (.jump (BitVec.ofInt 64 (st.pc.s.toNat + 4 * o.toInt)) false) 1)) ∧
    (∀ o : BitVec 25, issuer s .s r true [1] = some st → st.owns false 1 = true →
      exec (.call r o) s =
        .next (moved s .s (link 1) (s.word? st .s) (.jump (BitVec.ofInt 64 (st.pc.s.toNat + 4 * o.toInt)) true) 1)) ∧
    (∀ (d a : BitVec 5) (i : BitVec 15), issuer s .s r true [d, a] = some st → st.owns false d = true → st.xp a = false →
      exec (.jr r d a i) s =
        .next (moved s .s (link d) (s.word? st .s) (.jump (BitVec.ofInt 64 ((st.xv a).toNat + 4 * i.toInt)) false) 1)) ∧
    (∀ (d a : BitVec 5) (i : BitVec 15), issuer s .s r true [d, a] = some st → st.owns false d = true → st.xp a = true →
      exec (.jr r d a i) s = .next (trapped s .s st .poison 0))

/-- Compare branches, predicate branches, jumps and links: targets, links, poison (R101, R102, R103, R66, R77, R96). -/
def Obligations.BranchesAndJumps : Prop :=
  Claims.CompareBranches ∧ Claims.PredicateBranches ∧ Claims.JumpsAndLinks

/-- R104, R105, R163: LOOP pushes a level or skips its body, and is refused with a reach of 0 or less, in a handler or as a fifth level; LBUF, VLBUF and
HLBUF arm their slot's loop buffer or skip the body. -/
def Sys2Proof.Claims.LoopsBegin : Prop :=
  ∀ (s : State) (r : Bool) (a : BitVec 5) (st : Strand),
    let n := st.xv a
    let traps (sl : Slot) (i : Instr) (cause : Cause) : Prop :=
      exec i s = .next (trapped s sl st cause 0)
    (∀ o : BitVec 15, issuer s .s r true [a] = some st →
      (st.handler = true ∨ o.toInt ≤ 0 → traps .s (.loop r a o) .illegal) ∧
      (st.handler = false → 0 < o.toInt → st.xp a = true → traps .s (.loop r a o) .poison) ∧
      (st.handler = false → 0 < o.toInt → st.xp a = false → n = 0 →
        exec (.loop r a o) s =
          .next (moved s .s st (s.word? st .s) (.skip (BitVec.ofNat 64 (st.pc.s.toNat + 4 * (o.toNat + 1)))) 1)) ∧
      (st.handler = false → 0 < o.toInt → st.xp a = false → n ≠ 0 → 4 ≤ st.loops.length → traps .s (.loop r a o) .illegal) ∧
      (st.handler = false → 0 < o.toInt → st.xp a = false → n ≠ 0 → st.loops.length < 4 →
        let l : Loop := { start := BitVec.ofNat 64 (st.pc.s.toNat + 4), last := BitVec.ofNat 64 (st.pc.s.toNat + 4 * o.toNat), remaining := n }
        exec (.loop r a o) s =
          .next (moved s .s { st with loops := l :: st.loops } (s.word? st .s) (.skip (BitVec.ofNat 64 (st.pc.s.toNat + 4))) 1))) ∧
    (∀ l : BitVec 6,
      let arms (s1 : State) (sl : Slot) (left : Strand → Strand) (i : Instr) : Prop :=
        (st.xp a = true → traps sl i .poison) ∧
        (st.xp a = false → n = 0 → exec i s =
          .next (moved s1 sl (left st) (s.word? st sl) (.skip (BitVec.ofNat 64 ((st.pc.get sl).toNat + 4 * (l.toNat + 2)))) 1)) ∧
        (st.xp a = false → n ≠ 0 →
          let b : LBuf := { valid := true, start := BitVec.ofNat 64 ((st.pc.get sl).toNat + 4), remaining := n - 1, len := l.toNat + 1, pos := 0,
                            captured := false, words := List.replicate (l.toNat + 1) none }
          exec i s = .next (moved s1 sl (left (st.setLb b sl)) (s.word? st sl) (.skip (BitVec.ofNat 64 ((st.pc.get sl).toNat + 4))) 1))
      (issuer s .s r true [a] = some st →
        let holds (x : W64) : Prop :=
          (st.pc.s + 4).toNat ≤ x.toNat ∧ x.toNat ≤ (st.pc.s + BitVec.ofNat 64 (4 * (l.toNat + 1))).toNat
        (st.handler = true ∨ (∃ v ∈ st.loops, holds v.last) → traps .s (.lbuf r a l) .illegal) ∧
        (st.handler = false → (∀ v ∈ st.loops, ¬ holds v.last) → arms s .s id (.lbuf r a l))) ∧
      (issuer s .v r true [] = some st → arms { s with free := s.free + 1 } .v id (.vlbuf r a l)) ∧
      (issuer s .h r true [] = some st → arms s .h (fun t => { t with pre := none }) (.hlbuf r a l)))

/-- R105, R163: a word that transfers control or changes the strand's state of flow raises ILLEGAL when a loop buffer captures it; of V and H, a further
VLBUF or HLBUF. -/
def Sys2Proof.Claims.FlowWordsAreNotCaptured : Prop :=
  ∀ (s : State) (r : Bool) (d a b : BitVec 5) (n : BitVec 4) (o i : BitVec 15) (w : BitVec 25) (t : BitVec 10) (l : BitVec 6) (st : Strand),
    let traps (sl : Slot) (x : Instr) : Prop := exec x s = .next (trapped s sl st .illegal 0)
    (catches s .s r = some st →
      traps .s (.beq r a b o) ∧ traps .s (.bne r a b o) ∧ traps .s (.blt r a b o) ∧ traps .s (.bge r a b o) ∧ traps .s (.bltu r a b o) ∧
      traps .s (.bgeu r a b o) ∧ traps .s (.bpany r n o) ∧ traps .s (.bpall r n o) ∧ traps .s (.jmp r w) ∧ traps .s (.call r w) ∧
      traps .s (.jr r d a i) ∧ traps .s (.loop r a o) ∧ traps .s (.lbuf r a l) ∧ traps .s (.done_ r) ∧ traps .s (.yield r) ∧
      traps .s (.trap r t) ∧ traps .s (.tret r)) ∧
    (catches s .v r = some st → traps .v (.vlbuf r a l)) ∧ (catches s .h r = some st → traps .h (.hlbuf r a l)) ∧
    (∀ sl : Slot, sl = .v ∨ sl = .h → s.cur.slot = sl → catches s sl r = some st → traps sl (.end_ r))

/-- R52, R104, R105, R163: where a slot goes after a word that transfers no control. -/
def Sys2Proof.Claims.SlotGoesOn : Prop :=
  ∀ (st : Strand) (sl : Slot) (cyc busy : Nat) (w : Option W32),
    let t := st.advance sl cyc w .seq busy
    let pc := st.pc.get sl
    t.next.get sl = cyc + busy ∧
    -- R55, R339: its rendezvous is spent; a handler's own S words leave that of the interrupted word
    t.rvGo.get sl = (sl == .s && st.handler && st.rvGo.get sl) ∧
    -- no live loop buffer: the next word, or the first of the innermost body that ends here
    (st.lbLive sl = false → (sl ≠ .s ∨ st.handler = true ∨ st.loops = []) → t.pc.get sl = pc + 4 ∧ t.loops = st.loops) ∧
    (∀ l rest, st.lbLive sl = false → sl = .s → st.handler = false → st.loops = l :: rest →
      (pc ≠ l.last → t.pc.get sl = pc + 4 ∧ t.loops = st.loops) ∧
      (pc = l.last → l.remaining ≠ 1 → t.pc.get sl = l.start ∧ t.loops = { l with remaining := l.remaining - 1 } :: rest) ∧
      (pc = l.last → l.remaining = 1 → (∀ m ∈ rest, pc ≠ m.last) → t.pc.get sl = pc + 4 ∧ t.loops = rest)) ∧
    -- a live loop buffer: position by position, pass by pass
    (st.lbLive sl = true →
      let b := st.lb sl
      (b.pos + 1 < b.len → t.pc.get sl = b.start + BitVec.ofNat 64 (4 * (b.pos + 1)) ∧ (t.lb sl).pos = b.pos + 1 ∧ (t.lb sl).valid = true ∧
        (t.lb sl).remaining = b.remaining) ∧
      (b.len ≤ b.pos + 1 → b.remaining ≠ 0 → t.pc.get sl = b.start ∧ (t.lb sl).pos = 0 ∧ (t.lb sl).captured = true ∧
        (t.lb sl).remaining = b.remaining - 1) ∧
      (b.len ≤ b.pos + 1 → b.remaining = 0 → t.pc.get sl = b.start + BitVec.ofNat 64 (4 * b.len) ∧ (t.lb sl).valid = false)) ∧
    -- a transfer of control costs a cycle, and ends the innermost bodies that it leaves
    (∀ target, let u := st.advance sl cyc w (.jump target false) busy
      u.pc.get sl = target ∧ u.next.get sl = cyc + 2 ∧
      (sl = .s → st.handler = false → ∀ l rest, st.loops = l :: rest → l.holds pc = true →
        (l.holds target = true → u.loops = st.loops) ∧ (l.holds target = false → u.loops.length ≤ rest.length)))

/-- LOOP and the loop buffers begin, and where a slot goes after each word (R52, R104, R105, R163, R332). -/
def Obligations.LoopsAndTheNextWord : Prop :=
  Claims.LoopsBegin ∧ Claims.FlowWordsAreNotCaptured ∧ Claims.SlotGoesOn

/-- R95, R96, R106, R107: LD and LDU of the own cluster's yard: an aligned offset below 24 MiB is read at the issue and readable 24 cycles later, a
poisoned unit as a poisoned zero; it stalls while an earlier access through a window has yet to reach its bytes (R221); and where they trap. -/
def Sys2Proof.Claims.YardLoads : Prop :=
  ∀ (s : State) (r : Bool) (d a : BitVec 5) (z : BitVec 2) (o : BitVec 10) (st : Strand),
    issuer s .s r false [d, a] = some st → st.owns false d = true →
    let n : Nat := 2 ^ z.toNat
    let e : W64 := BitVec.ofInt 64 ((st.xv a).toNat + n * o.toInt)
    let q := yardAddr (s.yardOfCore s.cur.core) e.toNat
    let gives (i : Instr) (v : W64) (bad : Bool) : Prop := exec i s = .next (wroteX s .s st 24 d v bad)
    let both (c : Cause) (p : BitVec 3) (x : W64) : Prop :=
      exec (.ld r d a z p o) s = .next (trapped s .s st c x) ∧ exec (.ldu r d a z p o) s = .next (trapped s .s st c x)
    let awaited : Prop := ∃ w ∈ st.accs, w.addr < q + n ∧ q < w.addr + w.size
    (st.xp a = true → ∀ p, both .poison p 0) ∧
    (st.xp a = false → e.toNat % n ≠ 0 → ∀ p, both .misalign p e) ∧
    (st.xp a = false → e.toNat % n = 0 → (∀ p, 2 ≤ p.toNat → both .fieldPerm p e) ∧
      (25165824 ≤ e.toNat → both .fieldMiss 1 e) ∧
      (e.toNat < 25165824 → awaited →
        exec (.ld r d a z 1 o) s = .next (s.setSt s.cur.core st) ∧ exec (.ldu r d a z 1 o) s = .next (s.setSt s.cur.core st)) ∧
      (e.toNat < 25165824 → ¬ awaited →
        (s.mem.bad (q / 64) = false →
          let v := BitVec.ofNat (8 * n) (leNat (s.mem.reads 0 q n))
          gives (.ld r d a z 1 o) (v.signExtend 64) false ∧ gives (.ldu r d a z 1 o) (v.zeroExtend 64) false) ∧
        (s.mem.bad (q / 64) = true → gives (.ld r d a z 1 o) 0 true ∧ gives (.ldu r d a z 1 o) 0 true)))

/-- R106 to R108, R119: ST to the own cluster's yard: the bytes of the unit take the register's low bytes and no other byte changes, the monitors on its
line are triggered; a poisoned register traps or, under policy MARK, poisons the line and stores nothing. R221: what a later slot, a later core of the
cluster or the remote port has written in the same cycle stands over the store. It stalls while an earlier access through a window has yet to reach
its bytes. -/
def Sys2Proof.Claims.YardStores : Prop :=
  ∀ (s : State) (r : Bool) (x a : BitVec 5) (z : BitVec 2) (o : BitVec 10) (st : Strand) (y : Nat),
    issuer s .s r false [x, a] = some st → s.mem.wf = true → (s.clusters[clusterOf s.cur.core]).yard = some y →
    let n : Nat := 2 ^ z.toNat
    let e : W64 := BitVec.ofInt 64 ((st.xv a).toNat + n * o.toInt)
    let q := yardAddr y e.toNat
    let rank := 8 * (s.cur.core.val % 4)
    let k := s.clusters[clusterOf s.cur.core]
    let awaited : Prop := ∃ w ∈ st.accs, w.addr < q + n ∧ q < w.addr + w.size
    let traps (c : Cause) (p : BitVec 3) (t : W64) : Prop := exec (.st r x a z p o) s = .next (trapped s .s st c t)
    (st.xp a = true → ∀ p, traps .poison p 0) ∧
    (st.xp a = false → e.toNat % n ≠ 0 → ∀ p, traps .misalign p e) ∧
    (st.xp a = false → e.toNat % n = 0 →
      (∀ p, 2 ≤ p.toNat → traps .fieldPerm p e) ∧ (25165824 ≤ e.toNat → traps .fieldMiss 1 e) ∧
      (e.toNat < 25165824 → st.xp x = true → st.pmark = false → traps .poison 1 0) ∧
      (e.toNat < 25165824 → (st.xp x = true → st.pmark = true) → awaited → exec (.st r x a z 1 o) s = .next (s.setSt s.cur.core st)) ∧
      (e.toNat < 25165824 → (st.xp x = true → st.pmark = true) → ¬ awaited →
        ∃ m ms w ls, exec (.st r x a z 1 o) s = .next (moved { s with
            mem := m.over ((k.recent.filter fun l => decide (rank < l.rank)).map Landed.w), mons := ms,
            clusters := s.clusters.set (clusterOf s.cur.core) { k with recent := ls } } .s st (s.word? st .s) .seq 1) ∧
          m = s.mem.apply w ∧ (∀ l : Landed, l ∈ ls ↔ l ∈ k.recent ∨ l = { rank := rank, w := w }) ∧ m.wf = true ∧
          (∀ b, m.byte b = if st.xp x = false ∧ q ≤ b ∧ b < q + n then BitVec.ofNat 8 ((st.xv x).toNat / 256 ^ (b - q)) else s.mem.byte b) ∧
          (∀ b, m.key b = if st.xp x = false ∧ q ≤ b ∧ b < q + n then 0 else s.mem.key b) ∧
          (∀ l, m.bad l = (s.mem.bad l || (st.xp x && l == q / 64))) ∧
          (∀ c : Fin 192, ms[c] = if s.mons[c].line = some (q / 64) then { s.mons[c] with hit := true } else s.mons[c])))

/-- Loads and stores of the own cluster's yard: value, poison, traps, and every other byte unchanged (R95, R96, R106, R107, R108, R119). -/
def Obligations.YardAccesses : Prop :=
  Claims.YardLoads ∧ Claims.YardStores

/-- R107, R109 to R114, R230: an S access of the DEV space (an atomic: of either of its spaces) that passes its checks issues: nothing is performed yet.
It is recorded with its address, its key, what it will do, and where S stands should it fail; HBM storage is asked for by a request to its stack. It
holds later S words where it is an atomic or reaches the yard of another cluster. -/
def Sys2Proof.Claims.AccessesIssue : Prop :=
  ∀ (s : State) (r : Bool) (d a b : BitVec 5) (z : BitVec 2) (o : BitVec 10) (st : Strand) (pl : SPlace),
    let c := s.cur.core
    let started (i : Instr) (op : SOp) (dev : W64) (size : Nat) (blocks : Bool) : Prop :=
      let st' := { st with
        accs := st.accs ++ [{ id := st.nextAid, op := op, dev := dev, addr := pl.addr, size := size, blocking := blocks, so := pl.so, tag := pl.tag,
                              slot := pl.slot, performed := false, old := 0, cause := none, inHandler := st.handler, pc := st.pc.s, loops := st.loops,
                              lbuf := st.lbS }],
        nextAid := st.nextAid + 1 }
      (2 ^ 40 ≤ pl.addr → exec i s = .next (moved s .s st' (s.word? st .s) .seq 1)) ∧
      (pl.addr < 2 ^ 40 → ∃ t req, exec i s = .next t ∧ t.strand? c = some (st'.advance .s (now s) (s.word? st .s) .seq 1) ∧
        t.mem = s.mem ∧ t.hbm = s.hbm ∧ t.cores[c].reqs = s.cores[c].reqs ++ [req] ∧ req.stack = pl.addr / 2 ^ 36 ∧ req.addr = pl.addr ∧ req.len = size ∧
        req.who = .acc st.sid st.nextAid)
    let other : Bool := decide (2 ^ 72 ≤ pl.addr) && decide (pl.addr < 2 ^ 96) && decide ((pl.addr - 2 ^ 72) / 2 ^ 25 ≠ s.yardOfCore c)
    let n : Nat := 2 ^ z.toNat
    let e : W64 := BitVec.ofInt 64 ((st.xv a).toNat + n * o.toInt)
    pl.disc = false → st.xp a = false →
    (issuer s .s r false [d, a] = some st → e.toNat % n = 0 → pl.gated = false → s.sStalls c st pl n = false →
      (st.owns false d = true → s.sPlace c st 0 e .r = .ok pl →
        started (.ld r d a z 0 o) (.load d true) e n other ∧ started (.ldu r d a z 0 o) (.load d false) e n other) ∧
      (s.sPlace c st 0 e .w = .ok pl →
        (st.xp d = false → started (.st r d a z 0 o) (.store { addr := pl.addr, data := (leBytes n (st.xv d).toNat).map some, marks := [], tag := pl.tag }) e n other) ∧
        (st.xp d = true → st.pmark = true →
          started (.st r d a z 0 o) (.store { addr := 0, data := [], marks := [pl.addr / 64], tag := 0 }) e n other))) ∧
    (∀ (q l y p : BitVec 1) (k : BitVec 2), issuer s .s r false [d, a, b] = some st → st.owns false d = true → st.xp b = false →
      (l = 1 → st.accs = []) →
      let m := if y = 0 then 4 else 8
      (st.xv a).toNat % m = 0 → s.sPlace c st (p.zeroExtend 3) (st.xv a) .rw = .ok pl → s.sStalls c st pl m = false →
      let amo (i : Instr) (fn : AmoFn) : Prop := started i (.amo fn d (st.xv b)) (st.xv a) m true
      amo (.amoadd r d a b q l k y p) .add ∧ amo (.amoand r d a b q l k y p) .and ∧ amo (.amoor r d a b q l k y p) .or ∧
      amo (.amoxor r d a b q l k y p) .xor ∧ amo (.amomin r d a b q l k y p) .min ∧ amo (.amomax r d a b q l k y p) .max ∧
      amo (.amominu r d a b q l k y p) .minu ∧ amo (.amomaxu r d a b q l k y p) .maxu ∧ amo (.amoswap r d a b q l k y p) .swap ∧
      (st.xp d = false → amo (.cas r d a b q l k y p) (.cas (st.xv d))))

/-- R97, R107, R109, R110, R114: where LD, LDU, ST, LDK and the atomics trap on their operands and their places. A load of a discarded page gives zero
(R389); that it does so after 24 cycles, and that an atomic on such a page raises DISCARDED, are the model's choices (logs 90, 91). -/
def Sys2Proof.Claims.AccessesTrap : Prop :=
  ∀ (s : State) (r : Bool) (d a b : BitVec 5) (z : BitVec 2) (o : BitVec 10) (st : Strand),
    let c := s.cur.core
    let n : Nat := 2 ^ z.toNat
    let e : W64 := BitVec.ofInt 64 ((st.xv a).toNat + n * o.toInt)
    (issuer s .s r false [d, a] = some st → st.owns false d = true → st.xp a = false → e.toNat % n = 0 →
      let traps (i : Instr) (x : Cause) : Prop := exec i s = .next (trapped s .s st x e)
      (∀ x, s.sPlace c st 0 e .r = .error x → traps (.ld r d a z 0 o) x ∧ traps (.ldu r d a z 0 o) x ∧ traps (.ldk r d a z o) x) ∧
      (∀ pl, s.sPlace c st 0 e .r = .ok pl → pl.gated = true → traps (.ld r d a z 0 o) .remoteGated ∧ traps (.ldu r d a z 0 o) .remoteGated) ∧
      (∀ pl, s.sPlace c st 0 e .r = .ok pl → pl.konst = false → traps (.ldk r d a z o) .fieldPerm) ∧
      (∀ pl, s.sPlace c st 0 e .r = .ok pl → pl.konst = true → pl.gated = true →
        (pl.so = true ∨ ∀ l ∈ s.cores[c].kcache, l.line ≠ pl.addr / 64) → traps (.ldk r d a z o) .remoteGated) ∧
      (∀ pl, s.sPlace c st 0 e .r = .ok pl → pl.gated = false → pl.disc = true →
        exec (.ld r d a z 0 o) s = .next (wroteX s .s st 24 d 0 false) ∧ exec (.ldu r d a z 0 o) s = .next (wroteX s .s st 24 d 0 false)) ∧
      (∀ x, s.sPlace c st 0 e .w = .error x → traps (.st r d a z 0 o) x) ∧
      (∀ pl, s.sPlace c st 0 e .w = .ok pl → (pl.gated = true → traps (.st r d a z 0 o) .remoteGated) ∧
        (pl.gated = false → pl.disc = true → traps (.st r d a z 0 o) .discarded))) ∧
    (∀ (q l y p : BitVec 1) (k : BitVec 2), issuer s .s r false [d, a, b] = some st → st.owns false d = true →
      let traps (x : Cause) (t : W64) : Prop :=
        ∀ i ∈ [Instr.amoadd r d a b q l k y p, .amoand r d a b q l k y p, .amoor r d a b q l k y p, .amoxor r d a b q l k y p, .amomin r d a b q l k y p,
          .amomax r d a b q l k y p, .amominu r d a b q l k y p, .amomaxu r d a b q l k y p, .amoswap r d a b q l k y p, .cas r d a b q l k y p],
          exec i s = .next (trapped s .s st x t)
      (st.xp a = true ∨ st.xp b = true → traps .poison 0) ∧
      (st.xp a = false → st.xp b = false →
        (st.xp d = true → exec (.cas r d a b q l k y p) s = .next (trapped s .s st .poison 0)) ∧
        (st.xp d = false → (st.xv a).toNat % (if y = 0 then 4 else 8) ≠ 0 → traps .misalign (st.xv a)) ∧
        (st.xp d = false → (st.xv a).toNat % (if y = 0 then 4 else 8) = 0 →
          (∀ x, s.sPlace c st (p.zeroExtend 3) (st.xv a) .rw = .error x → traps x (st.xv a)) ∧
          (∀ pl, s.sPlace c st (p.zeroExtend 3) (st.xv a) .rw = .ok pl → pl.disc = true → traps .discarded (st.xv a)))))

/-- Accesses of the device space and atomics: what issues, and where they trap (R97, R107, R109, R111, R112, R114, R230). -/
def Obligations.AccessesIssue : Prop :=
  Claims.AccessesIssue ∧ Claims.AccessesTrap

/-- R225 to R228, R317, R368, R379, R389: the field map. An address that no window holds, or beyond the 24 MiB of a yard window or (the model's choice,
log 85) the 2 TiB of the silo, is a FIELD_MISS; a permission that the field lacks a FIELD_PERM; otherwise the window's place is reached, HBM storage
interleaved over 1, 2 or 16 stacks by 2 KiB blocks. -/
def Obligations.FieldMapTranslates : Prop :=
  ∀ (s : State) (l : Launch) (a : W64) (need : Perm),
    ((∀ f ∈ l.fields, ¬ (f.vbase ≤ a.toNat ∧ a.toNat < f.vbase + 2 ^ (f.lsz + 16))) → s.translate l a need = .error .fieldMiss) ∧
    (∀ f ∈ l.fields, f.vbase ≤ a.toNat → a.toNat < f.vbase + 2 ^ (f.lsz + 16) →
      (∀ g ∈ l.fields, g.vbase ≤ a.toNat → a.toNat < g.vbase + 2 ^ (g.lsz + 16) → g = f) →
      let o := a.toNat - f.vbase
      let p := f.pbase * 2 ^ 16
      let s0 := p / 2 ^ 36
      let b0 := p % 2 ^ 36
      let disc := l.disc.contains (f.idx, o / 2 ^ 16)
      let may := match need with
        | .none => true | .r => f.permR | .w => f.permW | .rw => f.permR && f.permW | .x => f.permX
      let goes (phys tag : Nat) (gated disc : Bool) : Prop :=
        s.translate l a need = if may then .ok { addr := phys, tag := tag, gated := gated, disc := disc, fld := f } else .error .fieldPerm
      (∀ k, f.tier = 0 → f.slot = some k →
        (25165824 ≤ p % 2 ^ 25 + o → s.translate l a need = .error .fieldMiss) ∧
        (p % 2 ^ 25 + o < 25165824 → ∀ sl, l.slots[k]? = some sl →
          goes (yardAddr sl.yard (p % 2 ^ 25 + o)) 0
            (match sl.cluster with | some q => if h : q < 48 then s.clusters[q].gated else true | none => true) false)) ∧
      (f.tier = 0 → f.slot = none → s0 < 16 →
        let key := if f.key = 1 then 0 else s.parts[l.part].keyId
        (f.ilv = 0 → goes (s0 * 2 ^ 36 + (b0 + o)) key false disc) ∧
        (f.ilv = 1 → goes ((s0 + o / 2048 % 2) * 2 ^ 36 + (b0 + o / 2048 / 2 * 2048 + o % 2048)) key false disc) ∧
        (f.ilv = 2 → goes ((s0 + o / 2048 % 16) % 16 * 2 ^ 36 + (b0 + o / 2048 / 16 * 2048 + o % 2048)) key false disc)) ∧
      (f.tier = 1 →
        (p + o < 2 ^ 41 → goes (siloAddr (p + o)) (if f.key = 1 then 0 else s.parts[l.part].keyId) false disc) ∧
        (2 ^ 41 ≤ p + o → s.translate l a need = .error .fieldMiss)) ∧
      (f.tier = 2 → goes (hostAddr l.part (p + o)) 0 false disc) ∧
      (f.tier = 3 → goes (peerAddr f.peer (p + o)) 0 (s.peerDown f.peer || Config.peerRefuses f.peer (p + o) s.tick) disc))

/-- R95, R110, R238, R243: LDK of a line that the constant cache holds is readable six cycles later; of another, it is recorded, its line is asked for
once (the model's choice, log 38), and it takes its value when the line is filled. An LDK of an SO field asks for its line anew, and what the path
holds of it, or is being filled, serves no later LDK, and the line that comes for it is not kept. It stalls while its stack's queue is full, or, in an
SO field, an earlier access to one is outstanding. -/
def Sys2Proof.Claims.ConstantLoads : Prop :=
  ∀ (s : State) (r : Bool) (d a : BitVec 5) (z : BitVec 2) (o : BitVec 10) (st : Strand) (pl : SPlace),
    let c := s.cur.core
    let n : Nat := 2 ^ z.toNat
    let e : W64 := BitVec.ofInt 64 ((st.xv a).toNat + n * o.toInt)
    issuer s .s r false [d, a] = some st → st.owns false d = true → st.xp a = false → e.toNat % n = 0 → s.sPlace c st 0 e .r = .ok pl → pl.konst = true →
    (∀ l, pl.so = false → s.cores[c].kcache.find? (fun l => l.line == pl.addr / 64) = some l →
      let v := BitVec.ofNat (8 * n) (leNat ((l.data.drop (pl.addr % 64)).take n))
      exec (.ldk r d a z o) s = .next (wroteX s .s st 6 d (if l.bad then 0 else v.signExtend 64) l.bad)) ∧
    let asks : Prop := pl.gated = false ∧ (pl.so = true ∨ s.cores[c].kcache.find? (fun l => l.line == pl.addr / 64) = none)
    let stalls : Prop := (pl.addr < 2 ^ 40 ∧ s.cores[c].reqStalls (pl.addr / 2 ^ 36) = true) ∨ (pl.so = true ∧ ∃ q ∈ st.accs, q.so = true)
    (asks → stalls → pl.ownYard = false → exec (.ldk r d a z o) s = .next (s.setSt c st)) ∧
    (asks → ¬ stalls → pl.ownYard = false →
      let acc : SAcc := { id := st.nextAid, op := .ldk d, dev := e, addr := pl.addr, size := n, blocking := false, so := pl.so, tag := pl.tag,
                          slot := pl.slot, performed := false, old := 0, cause := none, inHandler := st.handler, pc := st.pc.s, loops := st.loops,
                          lbuf := st.lbS }
      let st' := { st with
        accs := st.accs ++ [acc],
        nextAid := st.nextAid + 1 }
      ∃ t : State, exec (.ldk r d a z o) s = .next t ∧ t.strand? c = some (st'.advance .s (now s) (s.word? st .s) .seq 1) ∧ t.mem = s.mem ∧
        t.cores[c].kcache = (if pl.so then s.cores[c].kcache.filter fun l => l.line != pl.addr / 64 else s.cores[c].kcache) ∧
        let ask : KFill := { id := s.cores[c].nextFill, line := pl.addr / 64, tag := pl.tag, disc := pl.disc, data := none, upto := none, sid := st.sid,
                              since := st.nextAid + 1, keep := !pl.so }
        t.cores[c].kfills =
          if pl.so then (s.cores[c].kfills.map fun f => if f.line == pl.addr / 64 && f.upto.isNone then { f with upto := some st.nextAid } else f) ++ [ask]
          else if s.cores[c].kfills.any (fun f => f.line == pl.addr / 64 && f.upto.isNone) then s.cores[c].kfills
          else s.cores[c].kfills ++ [ask])

/-- R118, R243: the discard of a core's constant path: no line is held, a line being filled serves only the LDK of its strand that issued before, and the
FENCEK may go on. -/
def Sys2Proof.Claims.ConstantPathDiscarded : Prop :=
  ∀ (s : State) (c : Fin 192) (st : Strand) (n : Nat), s.strand? c = some st → (st.settle (s.cyc c)).fk = some (n + 1) →
    let st1 := st.settle (s.cyc c)
    let s1 := s.setSt c { st1 with fk := some 0 }
    let issued (f : KFill) : Nat := match s1.findSid f.sid with | some x => x.nextAid | none => 0
    exec (.constantPathDiscard c) s = .next (s.setCore c { s1.cores[c] with
      kcache := [], kfills := s.cores[c].kfills.map fun f => { f with upto := some (f.upto.getD (issued f)) } })

/-- R110, R118, R156, R243: a line of the constant path is filled: it is held from then on and an LDK that waits for it takes its unit; a fill that a
FENCEK has overtaken, or that an LDK of an SO field asked for, is not held. It waits for the older fills of its line and of lines outside HBM storage.
A line outside HBM storage is read after the earlier accesses of the strand to it; one of a peer package to which no port leads waits (the model's
choice, log 97). The path holds the 1,024 lines that came last (the model's choice, log 98). Stated of a core with one access outstanding. -/
def Sys2Proof.Claims.ConstantLinesFill : Prop :=
  ∀ (s : State) (c : Fin 192) (i : Nat) (f : KFill) (st : Strand) (a : SAcc) (d : BitVec 5), s.cores[c].kfills[i]? = some f → s.cores[c].strand = some st →
    st.accs = [a] → a.op = .ldk d → st.sid = f.sid → (∀ h ∈ s.halted, h.core ≠ c) → s.isHalted st.sid = false →
    let waits : Prop := ∃ o ∈ s.cores[c].kfills, o.id < f.id ∧ (o.line = f.line ∨ (o.data = none ∧ o.disc = false ∧ 2 ^ 40 ≤ 64 * o.line))
    let line : Option (List Byte × Bool) := match f.data with
      | some x => some x
      | none => if f.disc then some (List.replicate 64 0, false) else if 2 ^ 40 ≤ 64 * f.line && !s.peerCut (64 * f.line) && !s.fillBehind f then some (s.mem.reads f.tag (64 * f.line) 64, s.mem.bad f.line) else none
    (waits ∨ line = none → exec (.constFill c i) s = .next s) ∧
    ∀ bs bad, ¬ waits → line = some (bs, bad) → ∃ t, exec (.constFill c i) s = .next t ∧ t.mem = s.mem ∧
      t.cores[c].kfills = s.cores[c].kfills.filter (fun o => o.id != f.id) ∧
      (f.upto = none → f.keep = true → t.cores[c].kcache = ({ line := f.line, data := bs, bad := bad } :: s.cores[c].kcache.filter fun o => o.line != f.line).take 1024) ∧
      (f.upto ≠ none ∨ f.keep = false → t.cores[c].kcache = s.cores[c].kcache) ∧
      (a.addr / 64 = f.line → (∀ n, f.upto = some n → a.id < n) →
        let v := BitVec.ofNat (8 * a.size) (leNat ((bs.drop (a.addr % 64)).take a.size))
        bs.length = 64 → a.addr % 64 + a.size ≤ 64 → t.cores[c].strand = some ({ st with accs := [] }.xlater (s.cyc c + 1) d (if bad then 0 else v.signExtend 64) bad true)) ∧
      (a.addr / 64 ≠ f.line → t.cores[c].strand = some st)

/-- Constant loads hit or wait for their line, lines are filled once, and a discard empties the path (R95, R110, R118, R156, R243). -/
def Obligations.ConstantPath : Prop :=
  Claims.ConstantLoads ∧ Claims.ConstantPathDiscarded ∧ Claims.ConstantLinesFill

/-- R111, R112, R240, R324: an atomic that reaches its target outside HBM storage, every earlier access to its bytes performed, reads its unit as its
strand's S path sees it and writes the function's value there as one action: one to a yard unit that a write of this cycle has reached waits for the
next (R221; the model's choice, log 109). The register takes the old value sign-extended, which the next cycle may read (R63), the image of a halted
strand at once. -/
def Sys2Proof.Claims.AtomicsPerform : Prop :=
  ∀ (s : State) (c : Fin 192) (st : Strand) (a : SAcc) (fn : AmoFn) (d : BitVec 5) (b : W64),
    (s.accsOf c).find? (fun p => match p.2.op with | .amo _ _ _ => true | _ => false) = some (st, a) → a.op = .amo fn d b → a.performed = false →
    2 ^ 40 ≤ a.addr → s.accGated st a = false → (s.view st.sid 0).bad (a.addr / 64) = false → (a.size = 4 ∨ a.size = 8) →
    a.addr % a.size = 0 → st.olderMeets a = false → s.mem.wf = true →
    (s.unitBusy a.addr a.size = true → exec (.atomicResponse c) s = .next s) ∧
    (s.unitBusy a.addr a.size = false →
    let w := 8 * a.size
    let old : BitVec w := BitVec.ofNat w (leNat ((s.view st.sid 0).reads a.tag a.addr a.size))
    let y : BitVec w := b.setWidth w
    let new := amoNew fn old y
    let gone := { st with accs := st.accs.filter fun o => o.id != a.id }
    ∃ t : State, exec (.atomicResponse c) s = .next t ∧
      (s.isHalted st.sid = false →
        UnitBecomes s.mem t.mem a.addr a.size new ∧
        ∀ (k : Fin 192) (st' : Strand), s.cores[k].strand = some st' → st'.sid = st.sid →
          t.cores[k].strand = some (gone.xlater (s.cyc c + 1) d (old.signExtend 64) false true)) ∧
      ∀ h ∈ s.halted, h.st.sid = st.sid → { h with st := gone.xput d (old.signExtend 64) false } ∈ t.halted)

/-- R114, R324: an atomic that finds its unit poisoned or its target gated writes neither memory nor its register; S stands at it again and takes the
trap. -/
def Sys2Proof.Claims.AtomicsFault : Prop :=
  ∀ (s : State) (c : Fin 192) (st : Strand) (a : SAcc) (fn : AmoFn) (d : BitVec 5) (b : W64),
    (s.accsOf c).find? (fun p => match p.2.op with | .amo _ _ _ => true | _ => false) = some (st, a) → a.op = .amo fn d b → a.performed = false →
    2 ^ 40 ≤ a.addr → st.olderMeets a = false → s.unitBusy a.addr a.size = false → s.isHalted st.sid = false → st.trapAt = none →
    st.handler = a.inHandler →
    let back := { st with accs := st.accs.filter fun o => o.id != a.id, pc := { st.pc with s := a.pc }, loops := a.loops, lbS := a.lbuf }
    (s.accGated st a = true → exec (.atomicResponse c) s = .next (s.raiseTrap c back .s .remoteGated a.dev)) ∧
    (s.accGated st a = false → (s.view st.sid 0).bad (a.addr / 64) = true →
      exec (.atomicResponse c) s = .next (s.raiseTrap c back .s .poison a.dev))

/-- R106, R109, R237, R324: a load or store outside HBM storage is performed at its target and answered, not before an older access to its bytes: the
load's register takes the unit, which the next cycle may read (R63), the image of a halted strand at once, a poisoned unit as a poisoned zero; the
store's bytes are written, in a yard last of the cycle (R221); or, where it blocks S and the target's cluster is gated, S stands at it again and
traps; the fault of a pipelined one was found at its issue. An access to a peer package to which no port leads any more waits (the model's choice, log
97). -/
def Sys2Proof.Claims.AccessesAnswered : Prop :=
  ∀ (s : State) (c : Fin 192) (i : Nat) (st : Strand) (a : SAcc), (s.accsOf c)[i]? = some (st, a) → 2 ^ 40 ≤ a.addr →
    let gone := { st with accs := st.accs.filter fun o => o.id != a.id }
    (st.olderMeets a = true ∨ s.peerCut a.addr = true → exec (.accessResponse c i) s = .next s) ∧
    (st.olderMeets a = false → s.peerCut a.addr = false →
    (∀ d sg, a.op = .load d sg → (a.blocking = false ∨ s.accGated st a = false) →
      let v := BitVec.ofNat (8 * a.size) (leNat (s.mem.reads a.tag a.addr a.size))
      let bad := s.mem.bad (a.addr / 64)
      let x := if bad then 0 else if sg then v.signExtend 64 else v.zeroExtend 64
      ∃ t : State, exec (.accessResponse c i) s = .next t ∧
        (s.isHalted st.sid = false → t.mem = s.mem ∧ ∀ (k : Fin 192) (st' : Strand), s.cores[k].strand = some st' → st'.sid = st.sid →
          t.cores[k].strand = some (gone.xlater (s.cyc c + 1) d x bad true)) ∧
        ∀ h ∈ s.halted, h.st.sid = st.sid → { h with st := gone.xput d x bad } ∈ t.halted) ∧
    (∀ w, a.op = .store w → (a.blocking = false ∨ s.accGated st a = false) →
      ∃ t : State, exec (.accessResponse c i) s = .next t ∧
        (s.isHalted st.sid = false → t.mem = s.mem.apply w ∧
          (∀ k : Fin 192, t.mons[k] = (s.mons[k]).see w.touched) ∧
          ∀ (k : Fin 192) (st' : Strand), s.cores[k].strand = some st' → st'.sid = st.sid → t.cores[k].strand = some gone) ∧
        ∀ h ∈ s.halted, h.st.sid = st.sid → { h with st := gone } ∈ t.halted) ∧
    ((∃ d sg, a.op = .load d sg) ∨ (∃ w, a.op = .store w) → a.blocking = true → s.accGated st a = true → s.isHalted st.sid = false → st.trapAt = none →
      st.handler = a.inHandler →
      exec (.accessResponse c i) s =
        .next (s.raiseTrap c { gone with pc := { st.pc with s := a.pc }, loops := a.loops, lbS := a.lbuf } .s .remoteGated a.dev)))

/-- Atomics read and write their unit as one action, loads and stores are answered, gated and poisoned targets trap (R106, R109, R111, R112, R114, R324). -/
def Obligations.AccessesArePerformed : Prop :=
  Claims.AtomicsPerform ∧ Claims.AtomicsFault ∧ Claims.AccessesAnswered

/-- R115 to R118, R199: FENCE and FENCEX let S go on once the accesses before them are performed, FENCEK once the core's constant path has been discarded;
until then S stays where it is, and a FENCEX waits for what stood before it when it was first tried. A FENCEX of a scope too narrow for its paths is
ILLEGAL, one with an empty mask has no effect; one that waited for the A path raises the COND of the lowest token that has one. -/
def Sys2Proof.Claims.Fences : Prop :=
  ∀ (s : State) (r : Bool) (st : Strand), issuer s .s r false [] = some st →
    let c := s.cur.core
    let goes (i : Instr) (st' : Strand) : Prop := exec i s = .next (moved s .s st' (s.word? st .s) .seq 1)
    let waits (i : Instr) (st' : Strand) : Prop := exec i s = .next (s.setSt c st')
    (∀ k, (st.accs = [] → goes (.fence r k) st) ∧ (st.accs ≠ [] → waits (.fence r k) st)) ∧
    (∀ (b a : BitVec 7) (k : BitVec 2),
      let names (j : Nat) : Bool := (b ||| a).getLsbD j
      let narrow := ((names 4 || names 5) && decide (k.toNat < 2)) || (names 6 && k != 3)
      (narrow = true → exec (.fencex r b a k) s = .next (trapped s .s st .illegal 0)) ∧
      (narrow = false → b = 0 ∨ a = 0 → goes (.fencex r b a k) st) ∧
      (narrow = false → b ≠ 0 → a ≠ 0 →
        let f : FenceX := match st.fx with
          | some f => f
          | none => { before := b, after := a, vseq := st.vseq, mseq := st.mseq, cid := st.nextCid, aid := st.nextAid }
        let done : Prop := (f.before.getLsbD 0 = true → ∀ q ∈ st.accs, f.aid ≤ q.id) ∧
          (f.before.getLsbD 1 = true → ∀ w ∈ st.vpend, w.seq < f.vseq → w.writes = []) ∧
          (f.before.getLsbD 2 = true → ∀ w ∈ st.mpend, w.seq < f.mseq → (∃ p, w.eff = .loadW p) ∨ ∃ p, w.eff = .loadS p) ∧
          (f.before.getLsbD 3 = true → ∀ q ∈ st.copies, q.cid < f.cid → q.kind = 6)
        (done → (b.getLsbD 3 = true → ∀ i : Fin 8, (st.tok[i]).cond = 0) → goes (.fencex r b a k) { st with fx := none }) ∧
        (done → b.getLsbD 3 = true → st.handler = false → st.trapAt = none → ∀ i : Fin 8, (st.tok[i]).cond ≠ 0 →
          (∀ j : Fin 8, j < i → (st.tok[j]).cond = 0) → ∃ t, exec (.fencex r b a k) s = .next t ∧ RaisesCond s .s st i t) ∧
        (¬ done → waits (.fencex r b a k) { st with fx := some f }))) ∧
    (st.fk = none → waits (.fencek r) { st with fk := some (now s + 64) }) ∧
    (∀ n, st.fk = some (n + 1) → waits (.fencek r) st) ∧
    (st.fk = some 0 → goes (.fencek r) { st with fk := none })

/-- R119, R120: WATCH arms the monitor on the line of its address; WAITA ends with the event's code in its register and disarms it, or sleeps: code 2
where the monitor was lost, 3 where none is armed, 0 where it is triggered, 1 where the timeout is 0. A WAITA that sleeps is not checked again. -/
def Sys2Proof.Claims.Monitors : Prop :=
  ∀ (s : State) (r : Bool) (d a : BitVec 5) (st : Strand),
    let c := s.cur.core
    (issuer s .s r false [a] = some st →
      (st.xp a = true → exec (.watch r a) s = .next (trapped s .s st .poison 0)) ∧
      (st.xp a = false → (∀ x, s.sPlace c st 0 (st.xv a) .r = .error x → exec (.watch r a) s = .next (trapped s .s st x (st.xv a))) ∧
        ∀ pl, s.sPlace c st 0 (st.xv a) .r = .ok pl →
          (pl.gated = true → exec (.watch r a) s = .next (trapped s .s st .remoteGated (st.xv a))) ∧
          (pl.gated = false → exec (.watch r a) s =
            .next (moved { s with mons := s.mons.set c { line := some (pl.addr / 64), hit := false } } .s { st with mlost := false } (s.word? st .s) .seq 1)))) ∧
    (issuer s .s r false [d, a] = some st →
      let ends (code : W64) : Prop := exec (.waita r d a) s =
        .next (moved { s with mons := s.mons.set c { line := none, hit := false } } .s
          ({ st with sleep := none, mlost := false }.xlater (now s + 1) d code false true) (s.word? st .s) .seq 1)
      let m := s.mons[c]
      (st.sleep = none → st.owns false d = true → st.xp a = true → exec (.waita r d a) s = .next (trapped s .s st .poison 0)) ∧
      (st.sleep = none → st.owns false d = true → st.xp a = false →
        (st.mlost = true → ends 2) ∧
        (st.mlost = false → m.line = none → ends 3) ∧
        (st.mlost = false → m.line ≠ none → m.hit = true → ends 0) ∧
        (st.mlost = false → m.line ≠ none → m.hit = false → st.xv a = 0 → ends 1) ∧
        (st.mlost = false → m.line ≠ none → m.hit = false → st.xv a ≠ 0 →
          exec (.waita r d a) s = .next (s.setSt c { st with sleep := some { word := (s.word? st .s).getD 0, xd := d, since := dtime s.tick, ends := if st.xv a = BitVec.allOnes 64 then none else some (dtime s.tick + (st.xv a).toNat) } }))) ∧
      (st.sleep ≠ none → (m.hit = true → ends 0) ∧ (m.hit = false → exec (.waita r d a) s = .next (s.setSt c st))))

/-- R120: a sleep whose timeout has elapsed ends with code 1; the time slept counts toward the yield interval, and S goes on to the next word. Stated
where the interval is not over; no sleep ends in a cycle in which a stall wire holds the core (R299). -/
def Sys2Proof.Claims.SleepTimesOut : Prop :=
  ∀ (s : State) (c : Fin 192) (st0 : Strand) (z : Sleep) (e : Nat), s.strand? c = some st0 →
    let st := st0.settle (s.cyc c)
    st.sleep = some z → z.ends = some e →
    (s.held c = true → exec (.waitaTimeout c) s = .next s) ∧
    (s.held c = false → e ≤ dtime s.tick → s.mons[c].hit = false → st.slept + (dtime s.tick - z.since) ≤ 20000 →
    let st' := { st with slept := st.slept + (dtime s.tick - z.since), sleep := none, mlost := false }.xlater (s.cyc c + 1) z.xd 1 false true
    exec (.waitaTimeout c) s = .next { s with
      mons := s.mons.set c { line := none, hit := false },
      cores := s.cores.set c { s.cores[c] with strand := some (st'.advance .s (s.cyc c) (s.word? st .s) .seq 1), issued := s.cyc c + 1 } })

/-- Fences wait for what they order; WATCH and WAITA arm, sleep, wake and time out (R115, R116, R117, R118, R119, R120, R244). -/
def Obligations.FencesAndMonitors : Prop :=
  Claims.Fences ∧ Claims.Monitors ∧ Claims.SleepTimesOut

/-- R57, R121, R219: signals and waits of the S and H slots. F0 discards signals and satisfies waits; a flag that holds 255, with what M words have
reserved of it, takes no signal; a wait that is satisfied subtracts its count. -/
def Sys2Proof.Claims.FlagWords : Prop :=
  ∀ (s : State) (r : Bool) (f : BitVec 4) (n : BitVec 8) (st : Strand) (sl : Slot), issuer s sl r false [] = some st →
    let v := st.f[f.toNat]
    let full : Prop := 255 ≤ v.toNat + (st.mpend.filter fun w => w.sig == f).length
    let left (st : Strand) : Strand := match sl with | .h => { st with pre := none } | _ => st
    let goes (i : Instr) (st' : Strand) : Prop := exec i s = .next (moved s sl (left st') (s.word? st sl) .seq 1)
    let sigs (i : Instr) : Prop :=
      (f = 0 → goes i st) ∧ (f ≠ 0 → ¬ full → goes i { st with f := st.f.set f.toNat (v + 1) }) ∧
      (f ≠ 0 → full → exec i s = .next (trapped s sl st .flagOverflow 0))
    let waits (i : Instr) : Prop :=
      (s.waitsHeld s.cur.core = false →
        (f = 0 → goes i st) ∧ (f ≠ 0 → n.toNat ≤ v.toNat → goes i { st with f := st.f.set f.toNat (v - n) }) ∧
        (f ≠ 0 → v.toNat < n.toNat → exec i s = .next (s.setSt s.cur.core st))) ∧
      (s.waitsHeld s.cur.core = true → exec i s = .next (s.setSt s.cur.core st))
    (sl = .s → sigs (.sig r f) ∧ waits (.waitf r f n)) ∧
    (sl = .h → sigs (.hsig r f) ∧ waits (.hwaitf r f n))

/-- R59, R122, R218: SEND and HSEND push two registers with their poison to a queue that is not full; a full queue stalls the slot. -/
def Sys2Proof.Claims.QueueWords : Prop :=
  ∀ (s : State) (r : Bool) (a b : BitVec 5) (st : Strand),
    let e : QEntry := { lo := st.xv a, hi := st.xv b, plo := st.xp a, phi := st.xp b, from_ := now s + 1 }
    let full (q : Fifo QEntry) : Prop := 16 ≤ q.items.length + (if q.popCyc = now s then q.pops else 0)
    let pushed (q : Fifo QEntry) : Fifo QEntry := { q with items := q.items ++ [e] }
    let goes (sl : Slot) (i : Instr) (st' : Strand) : Prop := exec i s = .next (moved s sl st' (s.word? st sl) .seq 1)
    let stalls (i : Instr) : Prop := exec i s = .next (s.setSt s.cur.core st)
    (issuer s .s r false [a, b] = some st →
      (¬ full st.qv → goes .s (.send r a b 1) { st with qv := pushed st.qv }) ∧ (full st.qv → stalls (.send r a b 1)) ∧
      (¬ full st.qm → goes .s (.send r a b 2) { st with qm := pushed st.qm }) ∧ (full st.qm → stalls (.send r a b 2)) ∧
      (¬ full st.qh → goes .s (.send r a b 3) { st with qh := pushed st.qh }) ∧ (full st.qh → stalls (.send r a b 3))) ∧
    (issuer s .h r false [] = some st →
      (¬ full st.qv → goes .h (.hsend r 1 a b) { st with qv := pushed st.qv, pre := none }) ∧ (full st.qv → stalls (.hsend r 1 a b)) ∧
      (¬ full st.qm → goes .h (.hsend r 2 a b) { st with qm := pushed st.qm, pre := none }) ∧ (full st.qm → stalls (.hsend r 2 a b)))

/-- R123. RECV, major 0x33, pops the head of the return queue into xd with its poison, and stalls while the queue is empty; an entry may be popped from
the cycle that R59 gives it. -/
def Sys2Proof.Claims.ReceiveWords : Prop :=
  ∀ (s : State) (r : Bool) (d : BitVec 5) (st : Strand),
    decodeWord .s (BitVec.ofBool r ++ 0x33#6 ++ d ++ 0#20) = .ok (.recv r d) ∧
    (issuer s .s r false [d] = some st → st.owns false d = true →
      (st.qr.items = [] → exec (.recv r d) s = .next (s.setSt s.cur.core st)) ∧
      ∀ h rest, st.qr.items = h :: rest →
        (now s < h.from_ → exec (.recv r d) s = .next (s.setSt s.cur.core st)) ∧
        (h.from_ ≤ now s → exec (.recv r d) s =
          .next (moved s .s ({ st with qr := { items := rest, popCyc := now s, pops := (if st.qr.popCyc = now s then st.qr.pops else 0) + 1 } }.xlater (now s + 1) d h.val h.bad true)
            (s.word? st .s) .seq 1)))

/-- Signals and waits of S and H, and the operand queues (R57, R59, R121, R122, R123, R218, R219, R300). -/
def Obligations.FlagsAndQueues : Prop :=
  Claims.FlagWords ∧ Claims.QueueWords ∧ Claims.ReceiveWords

/-- R71 to R76, R124, R302: CSRR of every register of R71: its value zero-extended, unpoisoned, readable in the next cycle. That SPHASE reads the exact
phase in elastic mode too is the model's choice (log 36). -/
def Sys2Proof.Claims.ControlRegisterReads : Prop :=
  ∀ (s : State) (r : Bool) (d : BitVec 5) (st : Strand), issuer s .s r false [d] = some st → st.owns false d = true →
    let k := s.cores[s.cur.core]
    let reads (n : BitVec 10) (v : W64) : Prop := exec (.csrr r d n) s = .next (wroteX s .s st 1 d v false)
    let bit (b : Bool) : W64 := if b then 1 else 0
    let frozen : Prop := ∃ w ∈ s.wires, w.gang = st.gang
    reads 0x0 (st.syncmask.zeroExtend 64) ∧ reads 0x1 (st.xown.zeroExtend 64) ∧ reads 0x2 (st.vshape.zeroExtend 64) ∧ reads 0x3 (bit st.pmark) ∧
    reads 0x4 (BitVec.ofNat 64 (st.fstatV.toNat + 256 * st.fstatM.toNat)) ∧
    reads 0x5 (BitVec.ofNat 64 (st.clkFixed.toNat + 2 * st.clkFurrow.toNat)) ∧
    (frozen → reads 0x6 (BitVec.ofNat 64 st.scycBase)) ∧ (¬ frozen → reads 0x6 (BitVec.ofNat 64 (st.scycBase + (now s - st.scycSince)))) ∧
    reads 0x7 (BitVec.ofNat 64 (s.tick / 400 % 2 ^ 32 * 512 + s.tick % 400)) ∧
    reads 0x8 (k.pmcyc + BitVec.ofNat 64 ((s.clusters[clusterOf s.cur.core]).cyc - k.pmSince)) ∧ reads 0x9 k.pmlocal ∧ reads 0xA k.pmremote ∧ reads 0xB k.pmxdie ∧
    reads 0x10 st.trapvec ∧ reads 0x11 st.trapcause ∧ reads 0x12 st.trapslot ∧ reads 0x13 st.trappc ∧ reads 0x14 st.trapaddr ∧
    reads 0x20 st.seedptr ∧ reads 0x21 st.frameptr ∧ reads 0x22 (BitVec.ofNat 64 st.launch) ∧
    ∀ i : Fin 32, reads (BitVec.ofNat 10 (0x40 + i.val)) ((st.tb.bfmtW[i]).zeroExtend 64) ∧
      reads (BitVec.ofNat 10 (0x60 + i.val)) ((st.tb.bfmtA[i]).zeroExtend 64)

/-- R62, R66, R71, R124: CSRW issues a write that is effective from the next cycle; a poisoned source and a reserved ETYPE trap, and a write of XOWN waits
until no X write is outstanding. -/
def Sys2Proof.Claims.ControlRegisterWrites : Prop :=
  ∀ (s : State) (r : Bool) (a : BitVec 5) (n : BitVec 10) (st : Strand), issuer s .s r false [a] = some st →
    let v := st.xv a
    let busy : Prop := st.xpend ≠ [] ∨ ∃ q ∈ st.accs, q.dest ≠ none
    (st.xp a = true → exec (.csrw r a n) s = .next (trapped s .s st .poison 0)) ∧
    (st.xp a = false → n = 2 → 5 ≤ (v.extractLsb' 10 3).toNat → exec (.csrw r a n) s = .next (trapped s .s st .format 0)) ∧
    (st.xp a = false → n = 1 → busy → exec (.csrw r a n) s = .next (s.setSt s.cur.core st)) ∧
    (st.xp a = false → (n = 2 → (v.extractLsb' 10 3).toNat < 5) → (n = 1 → ¬ busy) →
      exec (.csrw r a n) s =
        .next (moved s .s { st with cpend := st.cpend ++ [{ due := now s + 1, num := n, val := v }] } (s.word? st .s) .seq 1))

/-- R11, R47, R49, R61, R66, R72, R124, R161: what a control-register write leaves when its cycle comes: the RW fields of its register take the value,
bits of FSTAT written 1 are cleared unless they were set in the cycle before, XOWN's bit 0 stays 0, a VSHAPE that V set in the same cycle stands, and
a read-only register is left alone. -/
def Sys2Proof.Claims.ControlRegisterWritesLand : Prop :=
  ∀ (st : Strand) (t : Nat) (v : W64), st.xpend = [] → st.tspend = [] → st.bpend = [] → st.cpend = [] →
    let wrote (n : BitVec 10) : Strand := { st with cpend := [{ due := t, num := n, val := v }] }.settle t
    wrote 0x0 = { st with syncmask := v.extractLsb' 0 4 } ∧
    wrote 0x1 = { st with xown := (v.extractLsb' 1 31 ++ (0#1 : BitVec 1)).setWidth 32 } ∧
    (st.vshapeSet ≠ t → wrote 0x2 = { st with vshape := v.extractLsb' 0 13 }) ∧ (st.vshapeSet = t → wrote 0x2 = st) ∧
    wrote 0x3 = { st with pmark := v.getLsbD 0 } ∧
    (st.fsetCyc + 1 ≠ t → wrote 0x4 = { st with fstatV := st.fstatV &&& ~~~(v.extractLsb' 0 5), fstatM := st.fstatM &&& ~~~(v.extractLsb' 8 5) }) ∧
    (st.fsetCyc + 1 = t → ∀ b < 5, ((wrote 0x4).fstatV.getLsbD b = (st.fstatV.getLsbD b && (!v.getLsbD b || st.fsetV.getLsbD b))) ∧
      ((wrote 0x4).fstatM.getLsbD b = (st.fstatM.getLsbD b && (!v.getLsbD (8 + b) || st.fsetM.getLsbD b)))) ∧
    wrote 0x10 = { st with trapvec := v } ∧ wrote 0x13 = { st with trappc := v } ∧
    ∀ n : BitVec 10, n ∉ [0x0, 0x1, 0x2, 0x3, 0x4, 0x10, 0x13] → wrote n = st

/-- Control registers: every one read, writes issued, and what a write leaves when its cycle comes (R11, R47, R61, R62, R66, R71, R72, R73, R74, R75,
R124, R161). -/
def Obligations.ControlRegisters : Prop :=
  Claims.ControlRegisterReads ∧ Claims.ControlRegisterWrites ∧ Claims.ControlRegisterWritesLand

/-- R125, R281, R282, R284: SOW of a record that its checks pass, once the earlier S accesses are performed and a record in HBM storage has been read: the
record takes its index and launch number and the priority, and the launch counts a seed more. With a counter above zero it waits in memory; with a
counter of zero its seed is placed in the queue of its priority, and the word stalls while that queue is full: its entries are those of the queue and
those of placed seeds that may yet come back (the model's choice, log 110). -/
def Sys2Proof.Claims.SowWords : Prop :=
  ∀ (s : State) (r : Bool) (a : BitVec 5) (p : BitVec 3) (st : Strand) (pl : SPlace) (l : Launch), issuer s .s r false [a] = some st →
    let c := s.cur.core
    st.xp a = false → (st.xv a).toNat % 32 = 0 → s.sPlace c st 0 (st.xv a) .rw = .ok pl → pl.gated = false → pl.disc = false →
    s.mem.bad (pl.addr / 64) = false → s.launch? st.launch = some l →
    let q := SeedRec.ofBytes (s.mem.reads pl.tag pl.addr 32)
    p.toNat ≤ l.prioceil.toNat → q.reservedBad = false → q.gangTooBig l = false → q.overService s = false → l.nextIndex < 2 ^ 32 - 1 → st.accs = [] →
    q.sown = false → s.mem.wf = true → pl.addr % 32 = 0 →
    RecordMet st pl →
    let flags : BitVec 32 := (q.flags &&& ~~~7#32) ||| p.zeroExtend 32
    let left := some ({ st with recReq := none }.advance .s (now s) (s.word? st .s) .seq 1)
    (q.join ≠ 0 → ∃ t, exec (.sow r a p) s = .next t ∧ t.strand? c = left ∧ (∀ k : Fin 64, (t.parts[k]).queues = (s.parts[k]).queues) ∧
      SeedRec.ofBytes (t.mem.reads pl.tag pl.addr 32) =
        { q with flags := flags ||| 0x80#32, index := BitVec.ofNat 32 l.nextIndex, launch := BitVec.ofNat 16 l.id } ∧
      (∀ b, b < pl.addr + 16 ∨ pl.addr + 32 ≤ b → t.mem.byte b = s.mem.byte b) ∧
      t.launch? l.id = some { l with nextIndex := l.nextIndex + 1, live := l.live + 1, sown := (pl.addr, st.xv a) :: l.sown }) ∧
    (q.join = 0 → s.hasRoom l.part p = true → ∃ (t : State) (sd : Seed), exec (.sow r a p) s = .next t ∧ t.strand? c = left ∧
      (t.parts[l.part]).queues[p.toNat] = (s.parts[l.part]).queues[p.toNat] ++ [sd] ∧
      (∀ i : Fin 8, i.val ≠ p.toNat → (t.parts[l.part]).queues[i] = (s.parts[l.part]).queues[i]) ∧
      sd.addr = st.xv a ∧ sd.entry = q.entry ∧ sd.frame = q.frame ∧ sd.flags.extractLsb' 32 32 = flags ∧
      sd.place.extractLsb' 48 16 = q.place ∧ sd.place.extractLsb' 32 16 = BitVec.ofNat 16 l.id ∧ sd.place.extractLsb' 0 32 = BitVec.ofNat 32 l.nextIndex ∧
      t.launch? l.id = some { l with nextIndex := l.nextIndex + 1, live := l.live + 1 }) ∧
    (q.join = 0 → s.hasRoom l.part p = false → exec (.sow r a p) s = .next (s.setSt c st))

/-- R126, R282: JOIN of a record that its checks pass, once the earlier S accesses are performed and a record in HBM storage has been read: the counter
falls by one, and stays at zero; at zero a sown record is placed in the queue of the priority that it names, and the word stalls while that queue is
full. -/
def Sys2Proof.Claims.JoinWords : Prop :=
  ∀ (s : State) (r : Bool) (a : BitVec 5) (st : Strand) (pl : SPlace), issuer s .s r false [a] = some st →
    let c := s.cur.core
    st.xp a = false → (st.xv a).toNat % 32 = 0 → s.sPlace c st 0 (st.xv a) .rw = .ok pl → pl.gated = false → pl.disc = false →
    s.mem.bad (pl.addr / 64) = false → st.accs = [] → s.mem.wf = true → pl.addr % 32 = 0 → RecordMet st pl →
    let q := SeedRec.ofBytes (s.mem.reads pl.tag pl.addr 32)
    let left := some ({ st with recReq := none }.advance .s (now s) (s.word? st .s) .seq 1)
    (q.join = 0 → exec (.join r a) s = .next (moved (if pl.addr < 2 ^ 40 then s else s.countBytes st.part st.launch pl.addr 32) .s { st with recReq := none } (s.word? st .s) .seq 1)) ∧
    (q.join ≠ 0 → (q.join ≠ 1 ∨ q.sown = false) → ∃ t, exec (.join r a) s = .next t ∧ t.strand? c = left ∧
      (∀ k : Fin 64, (t.parts[k]).queues = (s.parts[k]).queues) ∧
      t.launches = s.launches ∧
      SeedRec.ofBytes (t.mem.reads pl.tag pl.addr 32) = { q with join := q.join - 1 } ∧
      ∀ b, b < pl.addr + 16 ∨ pl.addr + 32 ≤ b → t.mem.byte b = s.mem.byte b) ∧
    (q.join = 1 → q.sown = true → q.resume = false → s.hasRoom st.part q.prio = true →
      ∃ (t : State) (sd : Seed), exec (.join r a) s = .next t ∧ t.strand? c = left ∧
        (t.parts[st.part]).queues[q.prio.toNat] = (s.parts[st.part]).queues[q.prio.toNat] ++ [sd] ∧ sd.entry = q.entry ∧ sd.frame = q.frame) ∧
    (q.join = 1 → q.sown = true → q.resume = false → s.hasRoom st.part q.prio = false → exec (.join r a) s = .next (s.setSt c st))

/-- R125, R126, R97, R281, R396: where SOW and JOIN trap, and that they wait for the earlier S accesses before they read the record. A poisoned record is
counted on its die. A record in HBM storage takes one request of 32 bytes to its stack, whose slot they await (R230; log 111). That a record in a
discarded page raises DISCARDED, and the order of SOW's traps, are the model's choices (logs 92, 93). -/
def Sys2Proof.Claims.SeedWordsTrap : Prop :=
  ∀ (s : State) (r : Bool) (a : BitVec 5) (p : BitVec 3) (st : Strand), issuer s .s r false [a] = some st →
    let c := s.cur.core
    let x := st.xv a
    let both (e : Cause) (t : W64) : Prop := exec (.sow r a p) s = .next (trapped s .s st e t) ∧ exec (.join r a) s = .next (trapped s .s st e t)
    (st.xp a = true → both .poison 0) ∧
    (st.xp a = false → x.toNat % 32 ≠ 0 → both .misalign x) ∧
    (st.xp a = false → x.toNat % 32 = 0 →
      (∀ e, s.sPlace c st 0 x .rw = .error e → both e x) ∧
      (∀ pl, s.sPlace c st 0 x .rw = .ok pl →
        (pl.gated = true → both .remoteGated x) ∧ (pl.gated = false → pl.disc = true → both .discarded x) ∧
        (pl.gated = false → pl.disc = false → ∀ l, s.launch? st.launch = some l →
          let q := SeedRec.ofBytes (s.mem.reads pl.tag pl.addr 32)
          let s0 := if pl.addr < 2 ^ 40 then s.setSt c st else (s.setSt c st).countBytes st.part st.launch pl.addr 32
          let poisoned := (s0.countPoison pl.addr).raiseTrap c st .s .poison x
          let k := pl.addr / 2 ^ 36
          (st.accs = [] → pl.addr < 2 ^ 40 → ∀ i : Instr, (i = .sow r a p ∧ p.toNat ≤ l.prioceil.toNat) ∨ i = .join r a →
            ((∃ n, st.recReq = some (n, false)) ∨ (st.recReq = none ∧ s.cores[c].reqStalls k = true) → exec i s = .next (s.setSt c st)) ∧
            (st.recReq = none → s.cores[c].reqStalls k = false → ∃ t q, exec i s = .next t ∧ t.mem = s.mem ∧
              t.strand? c = some { st with recReq := some (st.nextAid, false), nextAid := st.nextAid + 1 } ∧
              t.cores[c].reqs = s.cores[c].reqs ++ [q] ∧ q.stack = k ∧ q.addr = pl.addr ∧ q.len = 32 ∧ q.who = .acc st.sid st.nextAid)) ∧
          (l.prioceil.toNat < p.toNat → exec (.sow r a p) s = .next (trapped s .s st .privilege 0)) ∧
          (st.accs ≠ [] → (p.toNat ≤ l.prioceil.toNat → exec (.sow r a p) s = .next (s.setSt c st)) ∧ exec (.join r a) s = .next (s.setSt c st)) ∧
          (st.accs = [] → RecordMet st pl → s.mem.bad (pl.addr / 64) = true →
            (p.toNat ≤ l.prioceil.toNat → exec (.sow r a p) s = .next poisoned) ∧ exec (.join r a) s = .next poisoned) ∧
          (st.accs = [] → RecordMet st pl → s.mem.bad (pl.addr / 64) = false → p.toNat ≤ l.prioceil.toNat →
            (q.reservedBad = true → exec (.sow r a p) s = .next (trapped s .s st .reservedNonzero x)) ∧
            (q.reservedBad = false → q.gangTooBig l = true ∨ q.overService s = true → exec (.sow r a p) s = .next (trapped s .s st .privilege 0))))))

/-- SOW and JOIN: the record, the queues, stalls and traps (R97, R125, R126, R281, R282, R284). -/
def Obligations.SeedWords : Prop :=
  Claims.SowWords ∧ Claims.JoinWords ∧ Claims.SeedWordsTrap

/-- R127, R199: DONE ends the strand once V, M and H are parked, its tokens are at zero and its work has landed: no strand stands on the core, its monitor
is disarmed, memory is untouched; until then S stays. A COND that is set is raised first. -/
def Sys2Proof.Claims.DoneEndsTheStrand : Prop :=
  ∀ (s : State) (r : Bool) (st : Strand), issuer s .s r true [] = some st →
    let c := s.cur.core
    let ready : Prop := (st.handler = true ∨ (st.ended.v = true ∧ st.ended.m = true ∧ st.ended.h = true)) ∧ (∀ i : Fin 8, (st.tok[i]).pend = 0) ∧
      st.accs = [] ∧ st.vpend = [] ∧ st.mpend = [] ∧ st.copies = []
    (¬ ready → exec (.done_ r) s = .next (s.setSt c st)) ∧
    (ready → (∀ i : Fin 8, (st.tok[i]).cond = 0) → st.efaultAddr = [] → ∃ t, exec (.done_ r) s = .next t ∧ t.strand? c = none ∧
      t.mons[c] = { line := none, hit := false } ∧ t.mem = s.mem ∧ (∀ k, k ≠ c → t.cores[k] = s.cores[k]) ∧
      ∀ l n, s.launch? st.launch = some l → l.perIndex.find? (fun e => e.1 == st.index) = some (st.index, n) →
        ∃ l', t.launch? st.launch = some l' ∧ l'.live = (if n ≤ 1 then l.live - 1 else l.live)) ∧
    (ready → st.handler = false → st.trapAt = none → ∀ i : Fin 8, (st.tok[i]).cond ≠ 0 → (∀ j : Fin 8, j < i → (st.tok[j]).cond = 0) →
      ∃ t, exec (.done_ r) s = .next t ∧ RaisesCond s .s st i t)

/-- R128, R339: YIELD is a NOP in a handler and where no candidate of the scheduler ranks at or above the strand; otherwise it goes on to its next word
and a pre-emption is requested of every running strand of its gang; its own issues no further word of S (the model's choice how, log 112). -/
def Sys2Proof.Claims.YieldWords : Prop :=
  ∀ (s : State) (r : Bool) (st : Strand), issuer s .s r true [] = some st →
    let s1 := s.setSt s.cur.core st
    let outranked : Prop := ∃ u ∈ s1.cands, keyLt (s1.strandKey st) (s1.candKey u) = false
    ((st.handler = true ∨ ¬ outranked) → exec (.yield r) s = .next (moved s .s st (s.word? st .s) .seq 1)) ∧
    (st.handler = false → outranked → ∃ t, exec (.yield r) s = .next t ∧ t.mem = s.mem ∧ t.cores = (moved s .s st (s.word? st .s) .seq 1).cores ∧
      ∀ (k : Fin 192) (o : Strand), s1.cores[k].strand = some o → o.gang = st.gang → o.phase = .running →
        ∃ q ∈ t.preqs, q.sid = o.sid ∧ (o.sid = st.sid → q.stops = true))

/-- DONE ends the strand once its work has landed; YIELD yields to what outranks it (R127, R128, R199, R285, R321, R339). -/
def Obligations.DoneAndYield : Prop :=
  Claims.DoneEndsTheStrand ∧ Claims.YieldWords

/-- R55, R88, R338, R340, R341: what a trap leaves. With no handler running the trap record is written and delivery is due, that of a strand fault where
TRAPVEC is zero; a trap in a cycle in which an earlier slot has trapped leaves no record. While a handler runs the strand has faulted and its record
stays: it dies, and its launch is ending with status 3. A rendezvous that completed in this cycle with the trapping word has not been passed. A COND
that a later slot's trap of this cycle had raised stands again (R199). -/
def Sys2Proof.Claims.TrapsAreTaken : Prop :=
  ∀ (s : State) (sl : Slot) (st : Strand) (cause : Cause) (addr : W64),
    let c := s.cur.core
    let t := trapped s sl st cause addr
    let st1 : Strand := if st.rvGo.get sl = true ∧ st.rvCyc = now s then { st with rvGo := ⟨false, false, false, false⟩ } else st
    let st2 : Strand := match st.trapAt with
      | some { cyc := n, undo := some (i, k, a), .. } => if n = now s then { st1 with tok := st1.tok.set i { st1.tok[i] with cond := k, caddr := a } } else st1
      | _ => st1
    let blocked : Prop := ∃ u, st.trapAt = some u ∧ u.cyc = now s ∧ u.slot.num < sl.num
    (st.handler = false → ¬ blocked →
      t = s.setSt c { st2 with
        trapcause := cause.code, trapslot := BitVec.ofNat 64 sl.num, trappc := st.pc.get sl, trapaddr := addr,
        trapAt := some { cyc := now s, slot := sl, fatal := decide (st.trapvec = 0), eng := none }, sleep := if sl = .s then st.sleep else none }) ∧
    (st.handler = false → blocked → t = s.setSt c st1) ∧
    (st.handler = true → t.strand? c = some { st1 with phase := .dying } ∧ t.mem = s.mem ∧
      (∀ k : Fin 192, k ≠ c → ∀ o, s.cores[k].strand = some o → o.launch = st.launch → t.strand? k = some { o with phase := .dying }) ∧
      (∀ l, s.launch? st.launch = some l → l.ending = .live → ∃ l', t.launch? st.launch = some l' ∧ l'.ending = .ending 3) ∧
      (t.funcs[st.part]).events.length = (s.funcs[st.part]).events.length + 1)

/-- R129, R130, R338, R339: TRAP raises SOFT with its immediate; TRET outside a handler raises ILLEGAL; inside one it ends the handler and the four slots
go on, S in the next cycle and the others no sooner than their last words let them (R134); a word that TRAPPC has left meets its rendezvous anew
(R55); S goes on at TRAPPC where it was the trapping slot and where it stopped otherwise. -/
def Sys2Proof.Claims.TrapAndReturn : Prop :=
  ∀ (s : State) (r : Bool) (st : Strand), issuer s .s r true [] = some st →
    (∀ i, exec (.trap r i) s = .next (trapped s .s st .soft (i.zeroExtend 64))) ∧
    (st.handler = false → exec (.tret r) s = .next (trapped s .s st .illegal 0)) ∧
    (st.handler = true → ∃ st' : Strand, exec (.tret r) s = .next (moved s .s st' (s.word? st .s) .stay 1) ∧ st'.handler = false ∧ st'.x = st.x ∧ st'.f = st.f ∧
      (st.trapslot = 0 → st.lbS.valid = false → st'.pc = { st.pc with s := st.trappc }) ∧
      (st.trapslot = 1 → st.lbV.valid = false → st'.pc = { st.pc with s := st.sresume, v := st.trappc } ∧ st'.ended.v = false) ∧
      (st.trapslot = 2 → st'.pc = { st.pc with s := st.sresume, m := st.trappc } ∧ st'.ended.m = false) ∧
      (st.trapslot = 3 → st.lbH.valid = false → st'.pc = { st.pc with s := st.sresume, h := st.trappc } ∧ st'.ended.h = false) ∧
      (st.trapslot ≠ 0 → st'.loops = st.loops ∧ st'.lbS = st.lbS) ∧
      (∀ sl : Slot, sl ≠ .s → st'.next.get sl = max (st.next.get sl) (now s + 1)) ∧
      (st.trapslot = 0 → st'.rvGo = if st.trappc = st.sfrom then st.rvGo else { st.rvGo with s := false }) ∧
      (st.trapslot = 1 → st'.rvGo = if st.trappc = st.pc.v then st.rvGo else { st.rvGo with v := false }) ∧
      (st.trapslot = 2 → st'.rvGo = if st.trappc = st.pc.m then st.rvGo else { st.rvGo with m := false }) ∧
      (st.trapslot = 3 → st'.rvGo = if st.trappc = st.pc.h then st.rvGo else { st.rvGo with h := false }))

/-- R338, R341, R342: two cycles after the trap S begins the handler at TRAPVEC, whose bits 1:0 are ignored; S's resumption point is kept where another
slot trapped, and a failed chain that the trap tells of is no longer to be raised. A trap raised with TRAPVEC zero is a strand fault in the next
cycle: the strands of the launch die, and it is ending with status 3. -/
def Sys2Proof.Claims.HandlerBegins : Prop :=
  ∀ (s : State) (c : Fin 192) (st0 : Strand) (t : TrapPend), s.strand? c = some st0 →
    let st := st0.settle (s.cyc c)
    st.trapAt = some t →
    (s.cyc c < t.cyc + (if t.fatal then 1 else 2) → exec (.handlerEntry c) s = .next s) ∧
    (t.fatal = true → t.cyc + 1 ≤ s.cyc c → ∃ u, exec (.handlerEntry c) s = .next u ∧ u.strand? c = some { st with trapAt := none, phase := .dying } ∧
      u.mem = s.mem ∧
      (∀ k : Fin 192, k ≠ c → ∀ o, s.cores[k].strand = some o → o.launch = st.launch → u.strand? k = some { o with phase := .dying }) ∧
      (∀ l, s.launch? st.launch = some l → l.ending = .live → ∃ l', u.launch? st.launch = some l' ∧ l'.ending = .ending 3) ∧
      (u.funcs[st.part]).events.length = (s.funcs[st.part]).events.length + 1) ∧
    (∀ k, t.eng = some k → (st.served t.eng).efaultAddr = st.efaultAddr.eraseP fun e => e.1 == k) ∧ (t.eng = none → st.served t.eng = st) ∧
    (t.fatal = false → t.cyc + 2 ≤ s.cyc c → exec (.handlerEntry c) s = .next (s.setSt c { st.served t.eng with
      handler := true, trapAt := none, sresume := if t.slot = .s then 0 else st.pc.s, sfrom := st.pc.s,
      pc := { st.pc with s := BitVec.ofNat 64 (st.trapvec.toNat / 4 * 4) }, next := { st.next with s := s.cyc c }, fx := none, fk := none,
      recReq := none, pre := none }))

/-- What a trap leaves, when the handler begins, and what TRAP and TRET do (R129, R130, R338, R339, R340, R341). -/
def Obligations.TrapsAndHandlers : Prop :=
  Claims.TrapsAreTaken ∧ Claims.TrapAndReturn ∧ Claims.HandlerBegins

/-- R131: LOCQ of a core index, and of a device address in each tier. -/
def Sys2Proof.Claims.LocqWords : Prop :=
  ∀ (s : State) (r : Bool) (d a : BitVec 5) (st : Strand), issuer s .s r false [d, a] = some st → st.owns false d = true →
    let c := s.cur.core
    let x := st.xv a
    let map (ywin : Bool) (core cluster dist : Nat) : W64 := BitVec.ofNat 64 (2 ^ 63 + 2 ^ 16 * ywin.toNat + 2 ^ 8 * core + 4 * cluster + dist)
    let gives (m : BitVec 1) (v : W64) : Prop := exec (.locq r d a m) s = .next (wroteX s .s st 4 d v false)
    (st.xp a = true → ∀ m, exec (.locq r d a m) s = .next (trapped s .s st .poison 0)) ∧
    (st.xp a = false →
      (x = BitVec.allOnes 64 → gives 1 (map false c.val (c.val / 4) (c.val % 4))) ∧
      (x.toNat < 192 → gives 1 (map false x.toNat (x.toNat / 4) (x.toNat % 4))) ∧
      (x ≠ BitVec.allOnes 64 → 192 ≤ x.toNat → gives 1 0) ∧
      (∀ l, s.launch? st.launch = some l →
        (∀ e, s.translate l x .none = .error e → exec (.locq r d a 0) s = .next (trapped s .s st e x)) ∧
        (∀ t, s.translate l x .none = .ok t →
          (∀ k sl, t.fld.slot = some k → l.slots[k]? = some sl →
            (∀ q : Fin 48, sl.cluster = some q.val → s.clusters[q].gated = false →
              gives 0 (map true q.val 0 (if q.val / 6 = c.val / 24 then 0 else 1))) ∧
            ((sl.cluster = none ∨ ∃ q : Fin 48, sl.cluster = some q.val ∧ s.clusters[q].gated = true) → gives 0 (map true 255 0 3))) ∧
          (t.fld.slot = none →
            (t.fld.tier = 0 → gives 0 (map false 0 (t.addr / 2 ^ 36) (if t.addr / 2 ^ 36 / 2 = c.val / 24 then 0 else 1))) ∧
            (t.fld.tier = 1 → gives 0 (map false 0 16 2)) ∧ (t.fld.tier = 2 → gives 0 (map false 0 32 3)) ∧
            (t.fld.tier = 3 → gives 0 (map false 0 48 3))))))

/-- R51, R68, R69, R88, R89, R132, R184: MTS and END, which after MREP is illegal before it meets a rendezvous; a word that is no instruction, and a word
that cannot be fetched. -/
def Sys2Proof.Claims.PlainWords : Prop :=
  ∀ (s : State) (r : Bool) (a : BitVec 5) (k : BitVec 2) (st : Strand),
    (issuer s .s r false [a] = some st →
      let v := st.xv a
      (st.xp a = true → exec (.mts r a k) s = .next (trapped s .s st .poison 0)) ∧
      (st.xp a = false → (v.extractLsb' 27 17 ≠ 0 ∨ v.extractLsb' 22 2 ≠ 0) → exec (.mts r a k) s = .next (trapped s .s st .reservedNonzero 0)) ∧
      (st.xp a = false → v.extractLsb' 27 17 = 0 → v.extractLsb' 22 2 = 0 →
        exec (.mts r a k) s = .next (moved s .s { st with tspend := st.tspend ++ [(now s + 1, k, v)] } (s.word? st .s) .seq 1))) ∧
    (s.cur.slot = .s → issuer s .s r false [] = some st → exec (.end_ r) s = .next (trapped s .s st .illegal 0)) ∧
    (∀ sl, s.cur.slot = sl → sl ≠ .s → issuer s sl r true [] = some st →
      (sl = .m → st.mrep.valid = false) →
        exec (.end_ r) s = .next (moved s sl { st with ended := st.ended.set true sl } (s.word? st sl) .stay 1)) ∧
    (s.cur.slot = .m → issuer s .m false true [] = some st → st.mrep.valid = true → exec (.end_ r) s = .next (trapped s .m st .illegal 0)) ∧
    (∀ sl, s.cur.slot = sl → issuer s sl false false [] = some st →
      exec (.wordNotInstruction .illegal) s = .next (trapped s sl st .illegal 0) ∧
      exec (.wordNotInstruction .reservedNonzero) s = .next (trapped s sl st .reservedNonzero 0) ∧
      exec (.instructionFetch .fieldMiss) s = .next (trapped s sl st .fieldMiss (st.pc.get sl)) ∧
      exec (.instructionFetch .fieldPerm) s = .next (trapped s sl st .fieldPerm (st.pc.get sl)) ∧
      exec (.instructionFetch .misalign) s = .next (trapped s sl st .misalign (st.pc.get sl)) ∧
      exec (.instructionFetch .poison) s = .next (trapped s sl st .poison (st.pc.get sl)) ∧
      exec (.instructionFetch .remoteGated) s = .next (trapped s sl st .remoteGated (st.pc.get sl)))

/-- LOCQ, MTS, END, a word that is no instruction, a word that cannot be fetched (R51, R68, R69, R88, R89, R131, R132). -/
def Obligations.LocqMtsEndAndBadWords : Prop :=
  Claims.LocqWords ∧ Claims.PlainWords

/-- R134 to R137, R139: the floating-point words on FP32 and BF16 elements: the exact result rounded once to nearest even; a NaN operand gives the
canonical NaN without a flag; VMIN and VMAX put −0 below +0; VABS and VNEG change the sign bit alone. Another ETYPE raises FORMAT. -/
def Obligations.FloatArithmetic : Prop :=
  ∀ (s : State) (r : Bool) (d a b p : BitVec 4) (st : Strand), issuer s .v r false [] = some st →
    let ty := (st.vshape.extractLsb' 10 3).toNat
    let words : List Instr := [.vadd r d a b p, .vsub r d a b p, .vmul r d a b p, .vfma r d a b p, .vfms r d a b p, .vmin r d a b p,
      .vmax r d a b p, .vabs r d a p, .vneg r d a p]
    (2 ≤ ty → ∀ i ∈ words, exec i s = .next (trapped s .v st .format 0)) ∧
    (ty < 2 →
      let t : Fmt := if ty = 0 then .fp32 else .bf16
      let val (n : BitVec 4) (e : Fin 1024) : Val := t.read (elemAt s st n e).toNat
      let rounded (v : Val × FFlags) : W32 × FFlags := ((t.convert 0 false v.1).1, v.2 ||| (t.convert 0 false v.1).2)
      let nan : W32 := if ty = 0 then 0x7FC00000 else 0x7FC0
      let two := fun q => rowBad s st a q || rowBad s st b q
      let three := fun q => rowBad s st a q || rowBad s st b q || rowBad s st d q
      let gives (i : Instr) (bound : Nat) (bad : Fin 16 → Bool) (f : Fin 1024 → W32 × FFlags) : Prop :=
        IssuesElems s st i d p bound (rowBusy st) (fun e => (f e).1) bad (fun e => (f e).2)
      let fused (neg : Bool) (e : Fin 1024) : W32 × FFlags :=
        if (val a e).isNan || (val b e).isNan || (val d e).isNan then (nan, 0)
        else
          let x := (val a e).mul (val b e)
          let y := x.1.add (if neg then (val d e).negate else val d e)
          rounded (y.1, x.2 ||| y.2)
      let least (big : Bool) (e : Fin 1024) : W32 :=
        let less (x y : Val) : Bool := x.lt y || (x.isZero && y.isZero && x.neg? && !y.neg?)
        if (val a e).isNan || (val b e).isNan then nan
        else contained ty ((if (if big then less (val b e) (val a e) else less (val a e) (val b e)) then elemAt s st a e else elemAt s st b e).setWidth
          (etypeWidth ty))
      gives (.vadd r d a b p) 8 two (fun e => rounded ((val a e).add (val b e))) ∧
      gives (.vsub r d a b p) 8 two (fun e => rounded ((val a e).add (val b e).negate)) ∧
      gives (.vmul r d a b p) 8 two (fun e => rounded ((val a e).mul (val b e))) ∧
      gives (.vfma r d a b p) 8 three (fused false) ∧ gives (.vfms r d a b p) 8 three (fused true) ∧
      gives (.vmin r d a b p) 4 two (fun e => (least false e, 0)) ∧ gives (.vmax r d a b p) 4 two (fun e => (least true e, 0)) ∧
      gives (.vabs r d a p) 4 (rowBad s st a)
        (fun e => (contained ty (((elemAt s st a e).setWidth (etypeWidth ty)) &&& ~~~(1#(etypeWidth ty) <<< (etypeWidth ty - 1))), 0)) ∧
      gives (.vneg r d a p) 4 (rowBad s st a)
        (fun e => (contained ty (((elemAt s st a e).setWidth (etypeWidth ty)) ^^^ (1#(etypeWidth ty) <<< (etypeWidth ty - 1))), 0)))

/-- R140: the integer words, on the w bits of each element under every ETYPE; only VIADDS and VISUBS set a flag, SA where they clamp. -/
def Obligations.IntegerVectorWords : Prop :=
  ∀ (s : State) (r : Bool) (d a b p : BitVec 4) (st : Strand), issuer s .v r false [] = some st →
    let ty := (st.vshape.extractLsb' 10 3).toNat
    let w := etypeWidth ty
    let x (e : Fin 1024) : BitVec w := (elemAt s st a e).setWidth w
    let y (e : Fin 1024) : BitVec w := (elemAt s st b e).setWidth w
    let sh (e : Fin 1024) : Nat := (y e).toNat % w
    let flagged (i : Instr) (v : Fin 1024 → BitVec w) (fl : Fin 1024 → FFlags) : Prop :=
      IssuesElems s st i d p 4 (rowBusy st) (fun e => contained ty (v e)) (fun q => rowBad s st a q || rowBad s st b q) fl
    let gives (i : Instr) (v : Fin 1024 → BitVec w) : Prop := flagged i v (fun _ => 0)
    let clamp (z : Int) : BitVec w := BitVec.ofInt w (max (-(2 ^ (w - 1))) (min z (2 ^ (w - 1) - 1)))
    let sa (z : Int) : FFlags := if z < -(2 ^ (w - 1)) ∨ 2 ^ (w - 1) - 1 < z then 16 else 0
    gives (.viadd r d a b p) (fun e => x e + y e) ∧ gives (.visub r d a b p) (fun e => x e - y e) ∧ gives (.vimul r d a b p) (fun e => x e * y e) ∧
    gives (.vimulh r d a b p) (fun e => BitVec.ofInt w ((x e).toInt * (y e).toInt / 2 ^ w)) ∧
    gives (.vand r d a b p) (fun e => x e &&& y e) ∧ gives (.vor r d a b p) (fun e => x e ||| y e) ∧
    gives (.vxor r d a b p) (fun e => x e ^^^ y e) ∧ gives (.vandn r d a b p) (fun e => x e &&& ~~~y e) ∧
    gives (.vshl r d a b p) (fun e => x e <<< sh e) ∧ gives (.vshr r d a b p) (fun e => x e >>> sh e) ∧
    gives (.vshra r d a b p) (fun e => (x e).sshiftRight (sh e)) ∧
    gives (.vimin r d a b p) (fun e => BitVec.ofInt w (min (x e).toInt (y e).toInt)) ∧
    gives (.vimax r d a b p) (fun e => BitVec.ofInt w (max (x e).toInt (y e).toInt)) ∧
    gives (.viminu r d a b p) (fun e => BitVec.ofNat w (min (x e).toNat (y e).toNat)) ∧
    gives (.vimaxu r d a b p) (fun e => BitVec.ofNat w (max (x e).toNat (y e).toNat)) ∧
    flagged (.viadds r d a b p) (fun e => clamp ((x e).toInt + (y e).toInt)) (fun e => sa ((x e).toInt + (y e).toInt)) ∧
    flagged (.visubs r d a b p) (fun e => clamp ((x e).toInt - (y e).toInt)) (fun e => sa ((x e).toInt - (y e).toInt))

/-- R141, R142: VCMP writes the truth of its condition into the governed bits of a predicate; VSEL takes every active element from the register that its
selector bit names. A row's poison is that of the rows read for it. -/
def Obligations.CompareAndSelect : Prop :=
  ∀ (s : State) (r : Bool) (d a b p k : BitVec 4) (st : Strand), issuer s .v r false [] = some st →
    let ty := (st.vshape.extractLsb' 10 3).toNat
    let w := etypeWidth ty
    let x (e : Fin 1024) : BitVec w := (elemAt s st a e).setWidth w
    let y (e : Fin 1024) : BitVec w := (elemAt s st b e).setWidth w
    let u (n : BitVec 4) (e : Fin 1024) : Val := (if ty = 0 then Fmt.fp32 else .bf16).read (elemAt s st n e).toNat
    let unord (e : Fin 1024) : Bool := (u a e).isNan || (u b e).isNan
    let truth (e : Fin 1024) : Bool :=
      if k = 7 then decide ((x e).toNat < (y e).toNat)
      else if k = 8 then decide ((y e).toNat ≤ (x e).toNat)
      else if ty < 2 then
        if k = 0 then (u a e).same (u b e)
        else if k = 1 then !(u a e).same (u b e)
        else if k = 2 then (u a e).lt (u b e)
        else if k = 3 then !unord e && !(u b e).lt (u a e)
        else if k = 4 then (u b e).lt (u a e)
        else if k = 5 then !unord e && !(u a e).lt (u b e)
        else unord e
      else
        if k = 0 then x e == y e
        else if k = 1 then x e != y e
        else if k = 2 then decide ((x e).toInt < (y e).toInt)
        else if k = 3 then decide ((x e).toInt ≤ (y e).toInt)
        else if k = 4 then decide ((y e).toInt < (x e).toInt)
        else if k = 5 then decide ((y e).toInt ≤ (x e).toInt)
        else false
    (k.toNat ≤ 8 → ∃ g, exec (.vcmp r d a b p k) s = .next (vIssued s st st 4 [] [g] [] [] 0 (rowBusy st)) ∧
      WritesPred g d (governed s st p) truth (fun q => rowBad s st a q || rowBad s st b q || predRowBad s st p q)) ∧
    (let picks (e : Fin 1024) : Bool := p == 15 || st.predBit (now s) (s.free + 1) p e.val
     ∃ g, exec (.vsel r d a b p) s = .next (vIssued s st st 4 [g] [] [] [] 0 (rowBusy st)) ∧
      WritesReg g d (active st) (fun e => if picks e then elemAt s st a e else elemAt s st b e)
        (fun q => predRowBad s st p q ||
          (rowBad s st a q && decide (∃ e : Fin 1024, e.val / 64 = q.val ∧ active st e = true ∧ picks e = true)) ||
          (rowBad s st b q && decide (∃ e : Fin 1024, e.val / 64 = q.val ∧ active st e = true ∧ picks e = false))))

/-- R143, R144: the special functions: each governed element takes the function's value, sixteen cycles on; the special inputs give their exact results,
and so do powers of two and squares where the function of one is rational. Another ETYPE than FP32 or BF16 raises FORMAT. -/
def Obligations.SpecialFunctions : Prop :=
  (∀ (s : State) (r : Bool) (d a p : BitVec 4) (st : Strand), issuer s .v r false [] = some st →
    let ty := (st.vshape.extractLsb' 10 3).toNat
    let t : Fmt := if ty = 0 then .fp32 else .bf16
    let word (i : Instr) (f : SfuFn) : Prop :=
      (2 ≤ ty → exec i s = .next (trapped s .v st .format 0)) ∧
      (ty < 2 → IssuesElems s st i d p 16 (rowBusy st) (fun e => (sfu f t (t.read (elemAt s st a e).toNat)).1) (rowBad s st a)
        (fun e => (sfu f t (t.read (elemAt s st a e).toNat)).2))
    word (.vexp2 r d a p) .exp2 ∧ word (.vlog2 r d a p) .log2 ∧ word (.vrcp r d a p) .rcp ∧ word (.vrsq r d a p) .rsq ∧ word (.vsqrt r d a p) .sqrt ∧
    word (.vsin r d a p) .sin ∧ word (.vcos r d a p) .cos ∧ word (.vtanh r d a p) .tanh ∧ word (.vsigm r d a p) .sigm) ∧
  (∀ t : Fmt, t = .fp32 ∨ t = .bf16 →
    let code (x : W32) : W32 := if t = .fp32 then x else x >>> 16
    let sign (n : Bool) (x : W32) : W32 := if n then code (x ||| 0x80000000) else code x
    let inf : W32 := 0x7F800000
    let one : W32 := 0x3F800000
    let nan : W32 := code 0x7FC00000
    (∀ f, sfu f t .nan = (nan, 0)) ∧
    (∀ n k, sfu .exp2 t (.fin n 0 k) = (code one, 0) ∧ sfu .log2 t (.fin n 0 k) = (sign true inf, 0) ∧ sfu .rcp t (.fin n 0 k) = (sign n inf, 0) ∧
      sfu .rsq t (.fin n 0 k) = (sign n inf, 0) ∧ sfu .sqrt t (.fin n 0 k) = (sign n 0, 0) ∧ sfu .sin t (.fin n 0 k) = (sign n 0, 0) ∧
      sfu .tanh t (.fin n 0 k) = (sign n 0, 0) ∧ sfu .sigm t (.fin n 0 k) = (code 0x3F000000, 0)) ∧
    (sfu .exp2 t (.inf true) = (0, 0) ∧ sfu .exp2 t (.inf false) = (code inf, 0) ∧ sfu .log2 t (.inf false) = (code inf, 0) ∧
      sfu .rsq t (.inf false) = (0, 0) ∧ sfu .sqrt t (.inf false) = (code inf, 0) ∧ sfu .sigm t (.inf true) = (0, 0) ∧
      sfu .sigm t (.inf false) = (code one, 0)) ∧
    (∀ n, sfu .rcp t (.inf n) = (sign n 0, 0) ∧ sfu .tanh t (.inf n) = (sign n one, 0) ∧ sfu .sin t (.inf n) = (nan, 1) ∧ sfu .cos t (.inf n) = (nan, 1)) ∧
    (∀ f ∈ [SfuFn.log2, .rsq, .sqrt], sfu f t (.inf true) = (nan, 1) ∧ ∀ m k, m ≠ 0 → sfu f t (.fin true m k) = (nan, 1)) ∧
    (∀ n m (k : Nat), m ≠ 0 → sfu .exp2 t (.fin n m k) = t.convert 0 false (.fin false 1 (if n then -((m * 2 ^ k : Nat) : Int) else ((m * 2 ^ k : Nat) : Int)))) ∧
    (∀ n (l : Nat) (e : Int), sfu .log2 t (.fin false (2 ^ l) e) = t.convert 0 false (Val.ofInt (l + e)) ∧
      sfu .rcp t (.fin n (2 ^ l) e) = t.convert 0 false (.fin n 1 (-(l + e))) ∧
      (l ≤ 64 → sfu .rsq t (.fin false (2 ^ (2 * l)) (2 * e)) = t.convert 0 false (.fin false 1 (-(l + e))))) ∧
    (∀ m (e : Int), m ≠ 0 → sfu .sqrt t (.fin false (m * m) (2 * e)) = t.convert 0 false (.fin false m e)) ∧
    (∀ n m, m ≠ 0 →
      sfu .sin t (.fin n m 0) = (sign n 0, 0) ∧ sfu .cos t (.fin n m 0) = (sign (decide (m % 2 = 1)) one, 0) ∧
      (m % 2 = 1 → sfu .sin t (.fin n m (-1)) = (sign (n != decide (m % 4 = 3)) one, 0) ∧ sfu .cos t (.fin n m (-1)) = (0, 0))))

/-- R143: VRCP, VSQRT and VRSQ give the exact value rounded once: no value of the format lies nearer to it than the result, an infinite result stands for
a value beyond every finite one, and VNX tells whether the result is exact. -/
def Obligations.AlgebraicFunctionsAreAccurate : Prop :=
  ∀ (t : Fmt) (a : W32) (n : Bool) (m : Nat) (e : Int), t = .fp32 ∨ t = .bf16 → t.read a.toNat = .fin n m e → m ≠ 0 →
    let real (s : Bool) (k : Nat) (q : Int) : ℝ := (if s then -1 else 1) * (k : ℝ) * (2 : ℝ) ^ q
    let x := real n m e
    let rounds (r : W32 × FFlags) (y : ℝ) : Prop :=
      (∀ s k q, t.read r.1.toNat = .fin s k q →
        (∀ (b : W32) (s' : Bool) (k' : Nat) (q' : Int), t.read b.toNat = .fin s' k' q' →
          (real s' k' q' < real s k q → (real s' k' q' + real s k q) / 2 ≤ y) ∧ (real s k q < real s' k' q' → y ≤ (real s' k' q' + real s k q) / 2)) ∧
        (r.2.getLsbD 3 = true ↔ real s k q ≠ y)) ∧
      (∀ s, t.read r.1.toNat = .inf s → ∀ (b : W32) (s' : Bool) (k' : Nat) (q' : Int), t.read b.toNat = .fin s' k' q' → |real s' k' q'| < |y|) ∧
      t.read r.1.toNat ≠ .nan
    rounds (sfu .rcp t (.fin n m e)) (1 / x) ∧
    (n = false → rounds (sfu .sqrt t (.fin n m e)) (Real.sqrt x) ∧ rounds (sfu .rsq t (.fin n m e)) (1 / Real.sqrt x))

/-- R145 to R147: VCVT converts each governed element between two formats, the same format unchanged; VQMX quantises the active columns of each block of
32 of a row to a scale, written to columns 0 and 1 of vs, and elements, of which the governed ones are written; VDQMX gives back scale times element,
rounded, and the canonical NaN under scale 0xFF. Formats that a word does not take raise FORMAT, and VQMX with vs = vd ILLEGAL. -/
def Obligations.ConversionWords : Prop :=
  ∀ (s : State) (r : Bool) (d a b p f g : BitVec 4) (m : BitVec 2) (x : BitVec 1) (st : Strand), issuer s .v r false [] = some st →
    let ty := (st.vshape.extractLsb' 10 3).toNat
    let t : Fmt := if ty = 0 then .fp32 else .bf16
    let fmts : List Fmt := [.fp32, .bf16, .fp16, .e4m3, .e5m2, .e2m3, .e3m2, .e2m1, .int32, .int16, .int8]
    let mx (k : BitVec 4) : Prop := 3 ≤ k.toNat ∧ k.toNat ≤ 7
    let traps (i : Instr) (c : Cause) : Prop := exec i s = .next (trapped s .v st c 0)
    ((11 ≤ f.toNat ∨ 11 ≤ g.toNat) → traps (.vcvt r d a g p f m x) .format) ∧
    (∀ sf df, fmts[f.toNat]? = some sf → fmts[g.toNat]? = some df →
      IssuesElems s st (.vcvt r d a g p f m x) d p 8 (rowBusy st)
        (fun e => if f = g then elemAt s st a e else (df.convert m (x == 1) (sf.read (elemAt s st a e).toNat)).1) (rowBad s st a)
        (fun e => if f = g then 0 else (df.convert m (x == 1) (sf.read (elemAt s st a e).toNat)).2)) ∧
    (¬ mx f ∨ 2 ≤ ty → traps (.vdqmx r d a b p f m x) .format) ∧
    (b = d → traps (.vqmx r d a b p f) .illegal) ∧
    (b ≠ d → (¬ mx f ∨ 2 ≤ ty) → traps (.vqmx r d a b p f) .format) ∧
    (∀ ff, mx f → ty < 2 → fmts[f.toNat]? = some ff →
      let sc (e : Fin 1024) : Byte := (elemAt s st b ⟨e.val / 64 * 64 + e.val % 64 / 32, by omega⟩).extractLsb' 0 8
      let exact (e : Fin 1024) : Val := if sc e = 0xFF then .nan else (ff.read (elemAt s st a e).toNat).scale ((sc e).toNat - 127)
      IssuesElems s st (.vdqmx r d a b p f m x) d p 8 (rowBusy st) (fun e => (t.convert m false (exact e)).1)
        (fun q => rowBad s st a q || rowBad s st b q) (fun e => (t.convert m false (exact e)).2) ∧
      -- VQMX: a block's flags where its scale is written, an element's where it is written (R48)
      (b ≠ d → ∃ (gd gs : VRegW) (fl : FFlags), exec (.vqmx r d a b p f) s = .next (vIssued s st st 12 [gd, gs] [] [] [] fl (rowBusy st)) ∧
        let cols (q k : Nat) : List Nat := (List.range (min 32 ((st.vshape.extractLsb' 4 6).toNat + 1 - 32 * k))).map (32 * k + ·)
        let block (q k : Nat) : Byte × FFlags × List (W32 × FFlags) :=
          quantise ff ((ff.emax).getD 0) ((cols q k).map fun c => t.read (if h : 64 * q + c < 1024 then elemAt s st a ⟨64 * q + c, h⟩ else 0).toNat)
        (∀ i < 5, fl.getLsbD i = true ↔
          (∃ q ≤ (st.vshape.extractLsb' 0 4).toNat, ∃ k < 2, cols q k ≠ [] ∧ (block q k).2.1.getLsbD i = true) ∨
          ∃ e : Fin 1024, governed s st p e = true ∧
            ((((block (e.val / 64) (e.val % 64 / 32)).2.2[e.val % 32]?).map Prod.snd).getD 0).getLsbD i = true) ∧
        WritesReg gd d (governed s st p)
          (fun e => (((block (e.val / 64) (e.val % 64 / 32)).2.2[e.val % 32]?).map Prod.fst).getD 0) (fun q => rowBad s st a q || predRowBad s st p q) ∧
        WritesReg gs b (fun e => active st ⟨e.val / 64 * 64, by omega⟩ && decide (e.val % 64 < 2) &&
            decide (32 * (e.val % 64) ≤ (st.vshape.extractLsb' 4 6).toNat))
          (fun e => (block (e.val / 64) (e.val % 64)).1.zeroExtend 32) (rowBad s st a)))

/-- R148, R151: the rotations, broadcasts and the transpose take each governed element from its source position, active or not, bit for bit, and a row
takes the poison of the rows that it was taken from. -/
def Sys2Proof.Claims.MovingWords : Prop :=
  ∀ (s : State) (r : Bool) (d a p n : BitVec 4) (k : BitVec 6) (st : Strand), issuer s .v r false [] = some st →
    let word (i : Instr) (bound busy : Nat) (src : Fin 1024 → Fin 1024) : Prop :=
      IssuesElems s st i d p bound busy (fun e => elemAt s st a (src e))
        (fun q => decide (∃ e : Fin 1024, e.val / 64 = q.val ∧ governed s st p e = true ∧ rowBad s st a ⟨(src e).val / 64, by omega⟩ = true)) (fun _ => 0)
    word (.vrotr r d a p k) 4 (rowBusy st) (fun e => ⟨e.val / 64 * 64 + (e.val % 64 + k.toNat) % 64, by omega⟩) ∧
    word (.vrotc r d a p n) 6 4 (fun e => ⟨(e.val / 64 + n.toNat) % 16 * 64 + e.val % 64, by omega⟩) ∧
    word (.vbcr r d a p k) 3 (rowBusy st) (fun e => ⟨e.val / 64 * 64 + k.toNat, by have := k.isLt; omega⟩) ∧
    word (.vbcc r d a p n) 4 4 (fun e => ⟨n.toNat * 64 + e.val % 64, by have := n.isLt; omega⟩) ∧
    word (.vtrn r d a p) 12 4 (fun e => ⟨e.val % 16 * 64 + e.val % 64 / 16 * 16 + e.val / 64, by omega⟩)

/-- R148, R151. The words of the rotations, broadcasts and the transpose; their bits 16:13 and their op field, bits 8:6, and bits 5:4 of the amount of
VROTC and VBCC and all of VTRN's, are reserved. -/
def Sys2Proof.Claims.MovingEncodings : Prop :=
  ∀ (r : Bool) (d a p : BitVec 4) (o : BitVec 4) (op : BitVec 3) (n : BitVec 6) (k : BitVec 4), govOk p = true →
    let word (major : BitVec 6) (o : BitVec 4) (low : BitVec 9) : W32 := BitVec.ofBool r ++ major ++ d ++ a ++ o ++ p ++ low
    decodeWord .v (word 9 0 (0#3 ++ n)) = .ok (.vrotr r d a p n) ∧ decodeWord .v (word 10 0 (0#5 ++ k)) = .ok (.vrotc r d a p k) ∧
    decodeWord .v (word 11 0 (0#3 ++ n)) = .ok (.vbcr r d a p n) ∧ decodeWord .v (word 12 0 (0#5 ++ k)) = .ok (.vbcc r d a p k) ∧
    decodeWord .v (word 17 0 0) = .ok (.vtrn r d a p) ∧
    (o ≠ 0 → ∀ m ∈ [(9 : BitVec 6), 10, 11, 12, 17], decodeWord .v (word m o 0) = .error .reservedNonzero) ∧
    (op ≠ 0 → ∀ m ∈ [(9 : BitVec 6), 10, 11, 12, 17], decodeWord .v (word m 0 (op ++ 0#6)) = .error .reservedNonzero) ∧
    (n.extractLsb' 4 2 ≠ 0 → ∀ m ∈ [(10 : BitVec 6), 12], decodeWord .v (word m 0 (0#3 ++ n)) = .error .reservedNonzero) ∧
    (n ≠ 0 → decodeWord .v (word 17 0 (0#3 ++ n)) = .error .reservedNonzero)

/-- Rotations, broadcasts and the transpose, and their words (R148, R151). -/
def Obligations.MovingWords : Prop :=
  Claims.MovingWords ∧ Claims.MovingEncodings

/-- R149, R150: the reductions and scans of rows and columns: under an integer ETYPE, whose operations give one value in any order, the wrapped sum, the
greatest or the least of a line's active elements, or of those up to the element; under a floating-point one, the levels of the tree and the stages of
the scan, each operation rounded once, with the flags of every operation of a tree whose line is written, and of those operations of a scan that
contribute to a position written. Under every ETYPE a line of one element is copied. -/
def Obligations.ReductionsAndScans : Prop :=
  ∀ (s : State) (r : Bool) (d a p : BitVec 4) (o : BitVec 3) (st : Strand), issuer s .v r false [] = some st → o.toNat ≤ 2 →
    let ty := (st.vshape.extractLsb' 10 3).toNat
    let w := etypeWidth ty
    let rows := (st.vshape.extractLsb' 0 4).toNat + 1
    let cols := (st.vshape.extractLsb' 4 6).toNat + 1
    let x (q c : Nat) : BitVec w := if h : 64 * q + c < 1024 then (elemAt s st a ⟨64 * q + c, h⟩).setWidth w else 0
    let op (l : List (BitVec w)) : Int :=
      let ns := l.map BitVec.toInt
      if o = 0 then ns.sum else if o = 1 then ns.foldl max (-(2 ^ (w - 1))) else ns.foldl min (2 ^ (w - 1) - 1)
    let word (i : Instr) (bound busy : Nat) (line : Fin 1024 → List (BitVec w)) (bad : Fin 16 → Bool)
        (f : Fin 1024 → W32 × (Nat → Prop)) : Prop :=
      ∃ (g : VRegW) (fl : FFlags) (val : Fin 1024 → W32), exec i s = .next (vIssued s st st bound [g] [] [] [] fl busy) ∧
        WritesReg g d (governed s st p) val (fun q => bad q || predRowBad s st p q) ∧
        (2 ≤ ty → fl = 0 ∧ ∀ e, governed s st p e = true → val e = contained ty (BitVec.ofInt w (op (line e)))) ∧
        (ty < 2 → (∀ e, governed s st p e = true → val e = contained ty ((f e).1.setWidth w)) ∧
          ∀ b < 5, fl.getLsbD b = true ↔ ∃ e : Fin 1024, governed s st p e = true ∧ (f e).2 b) ∧
        ∀ e y, governed s st p e = true → line e = [y] → val e = contained ty y
    -- one operation on two elements
    let t : Fmt := if ty = 0 then .fp32 else .bf16
    let nan : W32 := if ty = 0 then 0x7FC00000 else 0x7FC0
    let apply (y z : W32) : W32 × FFlags :=
      let u := t.read y.toNat
      let v := t.read z.toNat
      let less (a b : Val) : Bool := a.lt b || (a.isZero && b.isZero && a.neg? && !b.neg?)
      if o = 0 then ((t.convert 0 false (u.add v).1).1, (u.add v).2 ||| (t.convert 0 false (u.add v).1).2)
      else if u.isNan || v.isNan then (nan, 0)
      else (if (if o = 1 then less v u else less u v) then (y.setWidth w).setWidth 32 else (z.setWidth w).setWidth 32, 0)
    let raw (q c : Nat) : W32 := if h : 64 * q + c < 1024 then elemAt s st a ⟨64 * q + c, h⟩ else 0
    -- the tree of `n` elements after `k` levels, and the stages of the scan
    let left (n k : Nat) : Nat := (n + 2 ^ k - 1) / 2 ^ k
    let tree (n : Nat) (y : Nat → W32) : Nat → Nat → W32 := fun k => Nat.rec (motive := fun _ => Nat → W32) y
      (fun j z i => if 2 * i + 1 < left n j then (apply (z (2 * i)) (z (2 * i + 1))).1 else z (2 * i)) k
    let treeFlag (n : Nat) (y : Nat → W32) (b : Nat) : Prop :=
      ∃ k i, 2 * i + 1 < left n k ∧ ((apply (tree n y k (2 * i)) (tree n y k (2 * i + 1))).2).getLsbD b = true
    let scan (y : Nat → W32) : Nat → Nat → W32 := fun k => Nat.rec (motive := fun _ => Nat → W32) y
      (fun j z i => if 2 ^ j ≤ i then (apply (z (i - 2 ^ j)) (z i)).1 else z i) k
    let scanFlag (y : Nat → W32) (pos b : Nat) : Prop :=
      ∃ k i, 2 ^ k ≤ i ∧ i ≤ pos ∧ (pos - i) % 2 ^ (k + 1) = 0 ∧ ((apply (scan y k (i - 2 ^ k)) (scan y k i)).2).getLsbD b = true
    let before (q : Fin 16) : Bool := decide (∃ k : Fin 16, k ≤ q ∧ rowBad s st a k = true)
    let among (_ : Fin 16) : Bool := decide (∃ k : Fin 16, k.val < rows ∧ rowBad s st a k = true)
    word (.vredr r d a p o) 10 (rowBusy st) (fun e => (List.range cols).map (x (e.val / 64))) (rowBad s st a)
      (fun e => (tree cols (raw (e.val / 64)) 6 0, treeFlag cols (raw (e.val / 64)))) ∧
    word (.vredc r d a p o) 14 4 (fun e => (List.range rows).map fun q => x q (e.val % 64)) among
      (fun e => (tree rows (fun q => raw q (e.val % 64)) 6 0, treeFlag rows fun q => raw q (e.val % 64))) ∧
    word (.vscanr r d a p o) 12 (rowBusy st) (fun e => (List.range (e.val % 64 + 1)).map (x (e.val / 64))) (rowBad s st a)
      (fun e => (scan (raw (e.val / 64)) 6 (e.val % 64), scanFlag (raw (e.val / 64)) (e.val % 64))) ∧
    word (.vscanc r d a p o) 16 4 (fun e => (List.range (e.val / 64 + 1)).map fun q => x q (e.val % 64)) before
      (fun e => (scan (fun q => raw q (e.val % 64)) 6 (e.val / 64), scanFlag (fun q => raw q (e.val % 64)) (e.val / 64)))

/-- R152 to R155: VLD and VST of the own cluster's yard: row r of the image lies at a + 256r, its elements are raw words; an element of a poisoned line
reads as zero and poisons its row; a store writes the governed elements' bytes and no other. A written row that is poisoned, or whose predicate row
is, raises POISON, or, under policy MARK, marks the lines that receive its elements. -/
def Sys2Proof.Claims.YardImages : Prop :=
  ∀ (s : State) (r : Bool) (v p : BitVec 4) (a : BitVec 5) (o : BitVec 9) (st : Strand), issuer s .v r false [] = some st →
    let x : W64 := BitVec.ofInt 64 ((st.xv a).toNat + 64 * o.toInt)
    let base := yardAddr (s.yardOfCore s.cur.core) 0
    let m := s.vMem st
    let both (c : Cause) (t : W64) : Prop := ∀ q : BitVec 3, q = 1 ∨ q = 2 ∨ q = 3 ∨ q = 4 →
      exec (.vld r v a q p o) s = .next (trapped s .v st c t) ∧ exec (.vst r v a q p o) s = .next (trapped s .v st c t)
    (∀ f, st.fx = some f → f.after.getLsbD 1 = false) ∨ st.fx = none →
    (st.xp a = true → both .poison 0) ∧
    (st.xp a = false → x.toNat % 64 ≠ 0 → both .misalign x) ∧
    (st.xp a = false → x.toNat % 64 = 0 → (∃ e : Fin 1024, governed s st p e = true ∧ 25165824 < x.toNat + 4 * e.val + 4) →
      exec (.vld r v a 1 p o) s = .next (trapped s .v st .fieldMiss x) ∧ exec (.vst r v a 1 p o) s = .next (trapped s .v st .fieldMiss x)) ∧
    (st.xp a = false → x.toNat % 64 = 0 → (∀ e : Fin 1024, governed s st p e = true → x.toNat + 4 * e.val + 4 ≤ 25165824) →
      (m.wf = true →
        let bad (e : Fin 1024) : Bool := m.bad ((base + x.toNat + 4 * e.val) / 64)
        IssuesElems s st (.vld r v a 1 p o) v p 32 (rowBusy st)
          (fun e => if bad e then 0 else BitVec.ofNat 32 (leNat ((List.range 4).map fun k => m.byte (base + x.toNat + 4 * e.val + k))))
          (fun q => decide (∃ e : Fin 1024, e.val / 64 = q.val ∧ governed s st p e = true ∧ bad e = true)) (fun _ => 0)) ∧
      (let poisoned (e : Fin 1024) : Bool := rowBad s st v ⟨e.val / 64, by omega⟩ || predRowBad s st p ⟨e.val / 64, by omega⟩
       (st.pmark = false → st.vpend = [] → (∃ e : Fin 1024, governed s st p e = true ∧ poisoned e = true) →
        exec (.vst r v a 1 p o) s = .next (trapped s .v st .poison 0)) ∧
       ((st.pmark = true ∨ ∀ e : Fin 1024, governed s st p e = true → poisoned e = false) →
        ∃ ws : List MWrite, exec (.vst r v a 1 p o) s = .next (vIssued s st st 32 [] [] ws [] 0 (rowBusy st)) ∧
          (∀ n, (∃ w ∈ ws, n ∈ w.marks) ↔ ∃ e : Fin 1024, governed s st p e = true ∧ poisoned e = true ∧ n = (base + x.toNat + 4 * e.val) / 64) ∧
          (∀ w ∈ ws, w.tag = 0 ∧ w.keep = [] ∧ ∀ i y, w.data[i]? = some (some y) → ∃ e : Fin 1024, ∃ k < 4, governed s st p e = true ∧
            w.addr + i = base + x.toNat + 4 * e.val + k ∧ y = (elemAt s st v e).extractLsb' (8 * k) 8) ∧
          ∀ e : Fin 1024, governed s st p e = true → ∀ k < 4, ∃ w ∈ ws, ∃ i, w.addr + i = base + x.toNat + 4 * e.val + k ∧
            w.data[i]? = some (some ((elemAt s st v e).extractLsb' (8 * k) 8)))))

/-- R25 to R28, R152 to R155: VLD and VST of the A buffer, under the BFMT of the bank that holds the address: row r of the image begins at the word at a +
r × P, its elements packed there; a load of 6-bit words whose reserved bits are not zero raises FORMAT (R27), a store writes them as zero and leaves
every bit of another position. A poisoned line or row does as in the yard. -/
def Sys2Proof.Claims.ABufferImages : Prop :=
  ∀ (s : State) (r : Bool) (v p : BitVec 4) (a : BitVec 5) (o : BitVec 9) (st : Strand), issuer s .v r false [] = some st → st.fx = none →
    let x := (BitVec.ofInt 64 ((st.xv a).toNat + 64 * o.toInt) : W64)
    let b := st.tb.bfmtA[x.toNat / 2 ^ 17 % 32]'(Nat.mod_lt _ (by omega))
    let code := Fmt.ofCode (b.extractLsb' 0 4)
    let f := code.getD .fp32
    let w := f.width
    let len := (b.extractLsb' 16 16).toNat + 1
    let pitch := if w = 6 then 16 * ((len + 20) / 21) else 16 * ((len * w + 127) / 128)
    let base := abufAddr st.tb.id 0
    let m := s.vMem st
    -- of an element: its 128-bit word and the bit at which it begins there
    let word (e : Fin 1024) : Nat := x.toNat + e.val / 64 * pitch + 16 * (e.val % 64 / f.perWord)
    let at_ (e : Fin 1024) : Nat := w * (e.val % 64 % f.perWord)
    let loaded (e : Fin 1024) : Nat := leNat ((List.range 16).map fun i => m.byte (base + word e + i))
    let line (e : Fin 1024) : Nat := (base + word e + at_ e / 8) / 64
    let inside : Prop := ∀ e : Fin 1024, governed s st p e = true → word e + (at_ e + w + 7) / 8 ≤ 4194304
    let both (c : Cause) (t : W64) : Prop := exec (.vld r v a 3 p o) s = .next (trapped s .v st c t) ∧ exec (.vst r v a 3 p o) s = .next (trapped s .v st c t)
    st.xp a = false → x.toNat % 64 = 0 →
    (¬ inside → both .fieldMiss x) ∧
    (inside → code = none ∨ f = .g4 ∨ f = .g3 → both .format 0) ∧
    (inside → code ≠ none → f ≠ .g4 → f ≠ .g3 → m.wf = true →
      (let clean : Prop := w = 6 → ∀ e : Fin 1024, governed s st p e = true → m.bad ((base + word e) / 64) = false →
         let k := e.val % 64 / 21
         ∀ i < 128, (if 21 * k < len then 6 * min 21 (len - 21 * k) else 126) ≤ i → (loaded e).testBit i = false
       let val (e : Fin 1024) : W32 :=
         let y := BitVec.ofNat w (loaded e / 2 ^ at_ e)
         if f.isInt then y.signExtend 32 else y.zeroExtend 32
       (¬ clean → exec (.vld r v a 3 p o) s = .next (trapped s .v st .format 0)) ∧
       (clean → IssuesElems s st (.vld r v a 3 p o) v p 12 (rowBusy st) (fun e => if m.bad (line e) then 0 else val e)
         (fun q => decide (∃ e : Fin 1024, e.val / 64 = q.val ∧ governed s st p e = true ∧ m.bad (line e) = true)) (fun _ => 0))) ∧
      (let poisoned (e : Fin 1024) : Bool := rowBad s st v ⟨e.val / 64, by omega⟩ || predRowBad s st p ⟨e.val / 64, by omega⟩
       let bit (q : Nat) : Bool := (m.byte (base + q / 8)).getLsbD (q % 8)
       let covers (e : Fin 1024) (q : Nat) : Prop := governed s st p e = true ∧ 8 * word e + at_ e ≤ q ∧ q < 8 * word e + at_ e + w
       let top (q : Nat) : Prop := w = 6 ∧ ∃ e : Fin 1024, governed s st p e = true ∧ (q = 8 * word e + 126 ∨ q = 8 * word e + 127)
       (st.pmark = false → st.vpend = [] → (∃ e : Fin 1024, governed s st p e = true ∧ poisoned e = true) →
         exec (.vst r v a 3 p o) s = .next (trapped s .v st .poison 0)) ∧
       ((st.pmark = true ∨ ∀ e : Fin 1024, governed s st p e = true → poisoned e = false) →
         ∃ ws : List MWrite, exec (.vst r v a 3 p o) s = .next (vIssued s st st 12 [] [] ws [] 0 (rowBusy st)) ∧
           (∀ n, (∃ w ∈ ws, n ∈ w.marks) ↔ ∃ e : Fin 1024, governed s st p e = true ∧ poisoned e = true ∧ n = line e) ∧
           let wrote (q : Nat) : Bool := ((m.over ws).byte (base + q / 8)).getLsbD (q % 8)
           (∀ e q, covers e q → (∀ e' : Fin 1024, e < e' → ¬ covers e' q) → wrote q = (elemAt s st v e).getLsbD (q - 8 * word e - at_ e)) ∧
           (∀ q, top q → wrote q = false) ∧ (∀ q, ¬ top q → (∀ e, ¬ covers e q) → wrote q = bit q))))

/-- R152 to R154, R187: VLD and VST of the C buffer, raw FP32 words: row a[19:10] + r, column a[9:2] + c; a word beyond row 1,023 or column 255 raises
FIELD_MISS. An element of a poisoned line, or of a marked row or column, reads as zero and poisons its row; under policy MARK a poisoned row marks the
accumulator row that it is written to. The load is stated with no M word in progress. -/
def Sys2Proof.Claims.CBufferImages : Prop :=
  ∀ (s : State) (r : Bool) (v p : BitVec 4) (a : BitVec 5) (o : BitVec 9) (st : Strand), issuer s .v r false [] = some st → st.fx = none →
    let x := (BitVec.ofInt 64 ((st.xv a).toNat + 64 * o.toInt) : W64)
    let row (e : Fin 1024) : Nat := x.toNat / 1024 + e.val / 64
    let col (e : Fin 1024) : Nat := x.toNat % 1024 / 4 + e.val % 64
    let m := s.vMem st
    st.xp a = false → x.toNat % 64 = 0 →
    ((∃ e : Fin 1024, governed s st p e = true ∧ (1023 < row e ∨ 255 < col e)) →
      exec (.vld r v a 4 p o) s = .next (trapped s .v st .fieldMiss x) ∧ exec (.vst r v a 4 p o) s = .next (trapped s .v st .fieldMiss x)) ∧
    ((∀ e : Fin 1024, governed s st p e = true → row e ≤ 1023 ∧ col e ≤ 255) → st.mpend = [] → m.wf = true →
      let bad (e : Fin 1024) : Bool := m.bad ((cbufAddr st.tb.id (1024 * row e + 4 * col e)) / 64) || st.cMarked (row e) (col e)
      IssuesElems s st (.vld r v a 4 p o) v p 12 (rowBusy st)
        (fun e => if bad e then 0 else BitVec.ofNat 32 (leNat ((List.range 4).map fun k => m.byte (cbufAddr st.tb.id (1024 * row e + 4 * col e + k)))))
        (fun q => decide (∃ e : Fin 1024, e.val / 64 = q.val ∧ governed s st p e = true ∧ bad e = true)) (fun _ => 0)) ∧
    ((∀ e : Fin 1024, governed s st p e = true → row e ≤ 1023 ∧ col e ≤ 255) →
      let poisoned (e : Fin 1024) : Bool := rowBad s st v ⟨e.val / 64, by omega⟩ || predRowBad s st p ⟨e.val / 64, by omega⟩
      (st.pmark = false → st.vpend = [] → (∃ e : Fin 1024, governed s st p e = true ∧ poisoned e = true) →
        exec (.vst r v a 4 p o) s = .next (trapped s .v st .poison 0)) ∧
      ((st.pmark = true ∨ ∀ e : Fin 1024, governed s st p e = true → poisoned e = false) →
        ∃ (ws : List MWrite) (rows : List Nat), exec (.vst r v a 4 p o) s = .next (vIssued s st st 12 [] [] ws rows 0 (rowBusy st)) ∧
          (∀ n, n ∈ rows ↔ ∃ e : Fin 1024, governed s st p e = true ∧ poisoned e = true ∧ n = row e) ∧
          (∀ w ∈ ws, w.marks = [] ∧ w.tag = 0 ∧ w.keep = [] ∧ ∀ i y, w.data[i]? = some (some y) → ∃ e : Fin 1024, ∃ k < 4, governed s st p e = true ∧
            w.addr + i = cbufAddr st.tb.id (1024 * row e + 4 * col e + k) ∧ y = (elemAt s st v e).extractLsb' (8 * k) 8) ∧
          ∀ e : Fin 1024, governed s st p e = true → ∀ k < 4, ∃ w ∈ ws, ∃ i, w.addr + i = cbufAddr st.tb.id (1024 * row e + 4 * col e + k) ∧
            w.data[i]? = some (some ((elemAt s st v e).extractLsb' (8 * k) 8))))

/-- R156, R238: VLDK reads the lines of the constant path that it needs, once they are all held, and those of SO fields leave the path with it, so that
the next read of such a field is performed after it; a line that no field holds raises FIELD_MISS, one whose field is not readable and constant
FIELD_PERM. -/
def Sys2Proof.Claims.ConstantImages : Prop :=
  ∀ (s : State) (r : Bool) (v p : BitVec 4) (a : BitVec 5) (o : BitVec 9) (st : Strand) (l : Launch), issuer s .v r false [] = some st →
    st.fx = none → st.fk = none → s.launch? st.launch = some l →
    let x := (BitVec.ofInt 64 ((st.xv a).toNat + 64 * o.toInt) : W64)
    let at_ (e : Fin 1024) : Nat := x.toNat + 4 * e.val
    let place (e : Fin 1024) : Except Cause Tgt := s.translate l (BitVec.ofNat 64 (at_ e / 64 * 64)) .r
    let traps (c : Cause) (t : W64) : Prop := exec (.vldk r v a p o) s = .next (trapped s .v st c t)
    (st.xp a = true → traps .poison 0) ∧ (st.xp a = false → x.toNat % 64 ≠ 0 → traps .misalign x) ∧
    (st.xp a = false → x.toNat % 64 = 0 → x.toNat + 4096 ≤ 2 ^ 64 →
      ((∃ e, governed s st p e = true ∧ place e = .error .fieldMiss) → traps .fieldMiss x) ∧
      ((∀ e, governed s st p e = true → place e ≠ .error .fieldMiss) →
        (∃ e, governed s st p e = true ∧ ((∃ c, place e = .error c) ∨ ∃ t, place e = .ok t ∧ t.fld.konst = false)) → traps .fieldPerm x) ∧
      (∀ (line : Fin 1024 → KLine),
        (∀ e, governed s st p e = true → ∃ t, place e = .ok t ∧ t.fld.konst = true ∧
          s.cores[s.cur.core].kcache.find? (fun k => k.line == t.addr / 64) = some (line e)) →
        ∃ (g : VRegW) (ks : List KLine),
          let out := vIssued s st st 12 [g] [] [] [] 0 (rowBusy st)
          exec (.vldk r v a p o) s = .next (out.setCore s.cur.core { out.cores[s.cur.core] with kcache := ks }) ∧
          WritesReg g v (governed s st p)
            (fun e => if (line e).bad then 0 else BitVec.ofNat 32 (leNat (((line e).data.drop (at_ e % 64)).take 4)))
            (fun q => decide (∃ e : Fin 1024, e.val / 64 = q.val ∧ governed s st p e = true ∧ (line e).bad = true) || predRowBad s st p q) ∧
          ∀ k, k ∈ ks ↔ k ∈ s.cores[s.cur.core].kcache ∧
            ∀ e t, governed s st p e = true → place e = .ok t → t.fld.ord = 0 → k.line ≠ t.addr / 64))

/-- VLD and VST of the yard, the A buffer and the C buffer; VLDK (R152, R153, R154, R155, R156, R187). -/
def Obligations.RegisterImages : Prop :=
  Claims.YardImages ∧ Claims.ABufferImages ∧ Claims.CBufferImages ∧ Claims.ConstantImages

/-- R59, R157 to R159: VMOVQ pops the head of V's queue, its four words repeated along each row; VRET pushes one element to the return queue; VIMM writes
its immediate sign-extended, or into the high half; an empty or full queue stalls V. -/
def Sys2Proof.Claims.VectorQueuesAndImmediates : Prop :=
  ∀ (s : State) (r : Bool) (d p w : BitVec 4) (k : BitVec 6) (h l : BitVec 8) (st : Strand), issuer s .v r false [] = some st →
    let s1 := { s with free := s.free + 1 }
    let word (q : QEntry) (e : Fin 1024) : W32 :=
      (if e.val % 4 < 2 then q.lo else q.hi).extractLsb' (32 * (e.val % 2)) 32
    let wordBad (q : QEntry) (e : Fin 1024) : Bool := if e.val % 4 < 2 then q.plo else q.phi
    (∀ q rest, st.qv.items = q :: rest →
      (now s < q.from_ → exec (.vmovq r d p) s = .next (s1.setSt s.cur.core st)) ∧
      (q.from_ ≤ now s → ∃ g, exec (.vmovq r d p) s =
          .next (vIssued s st { st with qv := { items := rest, popCyc := now s, pops := (if st.qv.popCyc = now s then st.qv.pops else 0) + 1 } }
            3 [g] [] [] [] 0 1) ∧
        WritesReg g d (governed s st p) (word q)
          (fun j => predRowBad s st p j || decide (∃ e : Fin 1024, e.val / 64 = j.val ∧ governed s st p e = true ∧ wordBad q e = true)))) ∧
    (st.qv.items = [] → exec (.vmovq r d p) s = .next (s1.setSt s.cur.core st)) ∧
    (let n := st.qr.items.length + (if st.qr.popCyc = now s then st.qr.pops else 0)
     let e : Fin 1024 := ⟨64 * w.toNat + k.toNat, by have := w.isLt; have := k.isLt; omega⟩
     (16 ≤ n → exec (.vret r d w k) s = .next (s1.setSt s.cur.core st)) ∧
     (n < 16 → exec (.vret r d w k) s = .next (moved s1 .v { st with qr := { st.qr with items := st.qr.items ++
        [{ val := (elemAt s st d e).zeroExtend 64, bad := rowBad s st d ⟨w.toNat, w.isLt⟩, from_ := now s + 4 }] } } (s.word? st .v) .seq 1))) ∧
    IssuesElems s st (.vimm r d h p l) d p 3 1 (fun _ => (h ++ l).signExtend 32) (fun _ => false) (fun _ => 0) ∧
    IssuesElems s st (.vimmHi r d h p l) d p 3 1 (fun e => (h ++ l) ++ (elemAt s st d e).extractLsb' 0 16) (fun _ => false) (fun _ => 0)

/-- R161, R162, R57: VSETSH puts its shape in place for the next V word, a reserved ETYPE raises FORMAT; VSIG and VWAITF signal and wait. -/
def Sys2Proof.Claims.VectorControl : Prop :=
  ∀ (s : State) (r : Bool) (a : BitVec 5) (n : BitVec 13) (f : BitVec 4) (k : BitVec 8) (st : Strand), issuer s .v r false [] = some st →
    let s1 := { s with free := s.free + 1 }
    let goes (i : Instr) (st' : Strand) : Prop := exec i s = .next (moved s1 .v st' (s.word? st .v) .seq 1)
    let traps (i : Instr) (c : Cause) : Prop := exec i s = .next (trapped s .v st c 0)
    let shaped (i : Instr) (x : BitVec 13) : Prop :=
      (5 ≤ (x.extractLsb' 10 3).toNat → traps i .format) ∧
      ((x.extractLsb' 10 3).toNat < 5 → goes i { st with vshape := x, vshapeSet := now s + 1 })
    let v := st.f[f.toNat]
    let full : Prop := 255 ≤ v.toNat + (st.mpend.filter fun w => w.sig == f).length
    shaped (.vsetsh r n) n ∧ (st.xp a = true → traps (.vsetshReg r a) .poison) ∧
    (st.xp a = false → shaped (.vsetshReg r a) ((st.xv a).extractLsb' 0 13)) ∧
    (f = 0 → goes (.vsig r f) st) ∧ (f ≠ 0 → ¬ full → goes (.vsig r f) { st with f := st.f.set f.toNat (v + 1) }) ∧
    (f ≠ 0 → full → traps (.vsig r f) .flagOverflow) ∧
    (s.waitsHeld s.cur.core = false →
      (f = 0 → goes (.vwaitf r f k) st) ∧ (f ≠ 0 → k.toNat ≤ v.toNat → goes (.vwaitf r f k) { st with f := st.f.set f.toNat (v - k) })) ∧
    (s.waitsHeld s.cur.core = true ∨ (f ≠ 0 ∧ v.toNat < k.toNat) → exec (.vwaitf r f k) s = .next (s1.setSt s.cur.core st))

/-- VMOVQ, VRET, VIMM, VSETSH, VSIG and VWAITF (R57, R59, R157, R158, R159, R161, R162). -/
def Obligations.VectorQueuesAndControl : Prop :=
  Claims.VectorQueuesAndImmediates ∧ Claims.VectorControl

/-- R160: the predicate words write all 1,024 bits, a row's poison being that of the rows read; PSET and PCLR clear it. -/
def Sys2Proof.Claims.PredicateWords : Prop :=
  ∀ (s : State) (r : Bool) (d a b : BitVec 4) (st : Strand), issuer s .v r false [] = some st →
    let bit (n : BitVec 4) (e : Fin 1024) : Bool := n == 15 || st.predBit (now s) (s.free + 1) n e.val
    let word (i : Instr) (f : Fin 1024 → Bool) (bad : Fin 16 → Bool) : Prop :=
      ∃ g, exec i s = .next (vIssued s st st 3 [] [g] [] [] 0 1) ∧ WritesPred g d (fun _ => true) f bad
    let two := fun q => predRowBad s st a q || predRowBad s st b q
    word (.pand r d a b) (fun e => bit a e && bit b e) two ∧ word (.por r d a b) (fun e => bit a e || bit b e) two ∧
    word (.pxor r d a b) (fun e => bit a e ^^ bit b e) two ∧ word (.pandn r d a b) (fun e => bit a e && !bit b e) two ∧
    word (.pnot r d a) (fun e => !bit a e) (predRowBad s st a) ∧
    word (.pset r d) (fun _ => true) (fun _ => false) ∧ word (.pclr r d) (fun _ => false) (fun _ => false)

/-- R160. The words of PLOG, the function in bits 2:0; a field that a function leaves unused is reserved. -/
def Sys2Proof.Claims.PredicateEncodings : Prop :=
  ∀ (r : Bool) (d a b : BitVec 4) (x : BitVec 10), predOk d = true → predOk a = true → predOk b = true →
    let word (a b : BitVec 4) (low : BitVec 10) (fn : BitVec 3) : W32 := BitVec.ofBool r ++ 24#6 ++ d ++ a ++ b ++ low ++ fn
    decodeWord .v (word a b 0 0) = .ok (.pand r d a b) ∧ decodeWord .v (word a b 0 1) = .ok (.por r d a b) ∧ decodeWord .v (word a b 0 2) = .ok (.pxor r d a b) ∧
    decodeWord .v (word a b 0 3) = .ok (.pandn r d a b) ∧ decodeWord .v (word a 0 0 4) = .ok (.pnot r d a) ∧ decodeWord .v (word 0 0 0 5) = .ok (.pset r d) ∧
    decodeWord .v (word 0 0 0 6) = .ok (.pclr r d) ∧
    (b ≠ 0 → decodeWord .v (word a b 0 4) = .error .reservedNonzero) ∧
    (a ≠ 0 ∨ b ≠ 0 → decodeWord .v (word a b 0 5) = .error .reservedNonzero ∧ decodeWord .v (word a b 0 6) = .error .reservedNonzero) ∧
    (x ≠ 0 → ∀ fn : BitVec 3, fn ≠ 7 → decodeWord .v (word a b x fn) = .error .reservedNonzero)

/-- The predicate words, and their words (R160). -/
def Obligations.PredicateWords : Prop :=
  Claims.PredicateWords ∧ Claims.PredicateEncodings

/-- R49, R77, R135, R137: a V word whose bound has come lands: the elements that it writes take their values, others keep theirs; a row wholly written
takes the word's poison, one written in part adds it; its flags are added to the V copy of FSTAT; words issued before it that have not landed leave
its values standing. That nothing of it lands before its bound is the model's choice (log 23). Stated of a word that stores nothing. -/
def Obligations.VectorResultsLand : Prop :=
  ∀ (s : State) (c : Fin 192) (i : Nat) (st0 : Strand) (w : VPend), s.strand? c = some st0 →
    let st := st0.settle (s.cyc c)
    st.vpend[i]? = some w → w.writes = [] → w.rowMarks = [] →
    (s.cyc c < w.due → exec (.vResultLand c i) s = .next s) ∧
    (w.due ≤ s.cyc c → ∃ st1 : Strand, exec (.vResultLand c i) s = .next (s.setSt c st1) ∧
      (∀ g, w.regs = [g] → w.preds = [] → ∀ (n : Fin 16),
        (n.val ≠ g.reg.toNat → st1.v[n] = st.v[n] ∧ st1.vbad[n] = st.vbad[n]) ∧
        (n.val = g.reg.toNat → (∀ e : Fin 1024, (st1.v[n])[e] = if g.mask.getLsbD e.val then g.vals[e] else (st.v[n])[e]) ∧
          ∀ q : Fin 16, (st1.vbad[n]).getLsbD q.val =
            (((st.vbad[n]).getLsbD q.val && !g.full.getLsbD q.val) || (g.bad.getLsbD q.val && (g.full.getLsbD q.val || g.part.getLsbD q.val))))) ∧
      (∀ g, w.regs = [] → w.preds = [g] → ∀ (n : Fin 16),
        (n.val ≠ g.reg.toNat → st1.p[n] = st.p[n] ∧ st1.pbad[n] = st.pbad[n]) ∧
        (n.val = g.reg.toNat → ∀ e : Fin 1024, (st1.p[n]).getLsbD e.val = if g.mask.getLsbD e.val then g.vals.getLsbD e.val else (st.p[n]).getLsbD e.val)) ∧
      st1.fstatV = st.fstatV ||| w.flags ∧ st1.fstatM = st.fstatM ∧ st1.x = st.x ∧ st1.pc = st.pc ∧ st1.ts = st.ts ∧ st1.ma = st.ma ∧ st1.f = st.f ∧
      st1.tok = st.tok ∧ (∀ o ∈ st.vpend, o.seq ≠ w.seq → ∃ o' ∈ st1.vpend, o'.seq = o.seq ∧ o'.due = o.due ∧ (w.seq ≤ o.seq → o' = o)))

/-- R57, R68, R173 to R177, R179, R183 to R186: the M words that hold no resource: the wait is subtracted and the signal given at the issue, the signal
before the wait (R58); MSETA and MADDA change the address of their register; MSWAP exchanges the planes; MREP arms the repeat state. A stalled MSWAP
or MSETA leaves its wait flag as it is (the model's choice, log 82); the signal of a word that waits may have been given ahead of the waits of its
cycle (log 113). Stated where no word is being repeated. -/
def Sys2Proof.Claims.MatrixControl : Prop :=
  ∀ (s : State) (r : Bool) (w g : BitVec 4) (m : BitVec 3) (st : Strand), issuer s .m r false [] = some st → st.mrep.valid = false →
    let waited (t : Strand) : Strand := if w = 0 then t else { t with f := t.f.set w.toNat (t.f[w.toNat] - 1) }
    -- a signal that was given ahead of the waits of this cycle is not given again
    let given : Prop := s.cores[s.cur.core].given = now s + 1
    let signalled (t : Strand) : Strand := if g = 0 ∨ given then t else { t with f := t.f.set g.toNat (t.f[g.toNat] + 1) }
    let goes (i : Instr) (st' : Strand) : Prop := exec i s = .next (moved s .m (signalled (waited st')) (s.word? st .m) .seq 1)
    let stalls (i : Instr) : Prop := exec i s = .next (s.setSt s.cur.core st)
    let v := st.ma[m.toNat]
    let inc := v.extractLsb' 32 32
    let adr := v.extractLsb' 0 32
    let set (x : W64) : Strand := { st with ma := st.ma.set m.toNat x }
    let all : List Instr := [.mnop r w g, .mseta r w g m, .msetaImm r w g m 0, .madda r w g m 0, .mswap r w g]
    ((w ≠ 0 ∧ (st.f[w.toNat] = 0 ∨ s.waitsHeld s.cur.core = true)) → ∀ i ∈ all, stalls i) ∧
    ((w ≠ 0 → st.f[w.toNat] ≠ 0 ∧ s.waitsHeld s.cur.core = false) →
      (g ≠ 0 → ¬ given → (st.f[g.toNat]).toNat + (st.mpend.filter fun p => p.sig == g).length < 255) →
        goes (.mnop r w g) st ∧
        (∀ i : BitVec 13, goes (.msetaImm r w g m i) (set (inc ++ BitVec.ofNat 32 (512 * i.toNat)))) ∧
        (∀ i : BitVec 14, goes (.madda r w g m i) (set (inc ++ BitVec.ofInt 32 (adr.toNat + 64 * i.toInt)))) ∧
        (∀ e rest, st.qm.items = e :: rest →
          (now s < e.from_ → stalls (.mseta r w g m)) ∧
          (e.from_ ≤ now s → e.plo = false → goes (.mseta r w g m) { st with
            qm := { items := rest, popCyc := now s, pops := (if st.qm.popCyc = now s then st.qm.pops else 0) + 1 },
            ma := st.ma.set m.toNat e.lo }) ∧
          (e.from_ ≤ now s → e.plo = true → exec (.mseta r w g m) s = .next (trapped s .m st .poison 0))) ∧
        (st.qm.items = [] → stalls (.mseta r w g m)) ∧
        ((∀ p ∈ st.mpend, (∀ x, p.eff ≠ .loadW x) ∧ ∀ x, p.eff ≠ .loadS x) → st.arrayFree ≤ now s →
          let shadow := if st.tb.active then st.tb.wp0 else st.tb.wp1
          (shadow.fault = none → goes (.mswap r w g) { st with tb := { st.tb with active := !st.tb.active } }) ∧
          (∀ x, shadow.fault = some x → exec (.mswap r w g) s = .next (trapped s .m st .format (BitVec.ofNat 64 x)))) ∧
        ((∃ p ∈ st.mpend, (∃ x, p.eff = .loadW x) ∨ ∃ x, p.eff = .loadS x) ∨ now s < st.arrayFree → stalls (.mswap r w g))) ∧
    ((w ≠ 0 → st.f[w.toNat] ≠ 0 ∧ s.waitsHeld s.cur.core = false) → g ≠ 0 → ¬ given →
      255 ≤ (st.f[g.toNat]).toNat + (st.mpend.filter fun p => p.sig == g).length →
        exec (.mnop r w g) s = .next (trapped s .m st .flagOverflow 0)) ∧
    ∀ (k : BitVec 8) (n : BitVec 9),
      exec (.mrep r k n) s = .next (moved s .m { st with mrep := { valid := true, remaining := n.toNat + 1, mask := k } } (s.word? st .m) .seq 1)

/-- R183, R184: under an armed repeat state MREP, MSETA and MADDA are ILLEGAL, before they meet a rendezvous; a repeated word steps the masked MA
registers after each iteration and stands where it is until the last; stated of MNOP without flags. -/
def Sys2Proof.Claims.MatrixRepeats : Prop :=
  ∀ (s : State) (r : Bool) (w g : BitVec 4) (m : BitVec 3) (st : Strand), st.mrep.valid = true →
    (issuer s .m false false [] = some st → ∀ i ∈ [Instr.mrep r 0 0, .mseta r w g m, .msetaImm r w g m 0, .madda r w g m 0], exec i s = .next (trapped s .m st .illegal 0)) ∧
    (issuer s .m r false [] = some st →
     let stepped : Vector W64 8 := Vector.ofFn fun i : Fin 8 =>
       if st.mrep.mask.getLsbD i.val then (st.ma[i]).extractLsb' 32 32 ++ ((st.ma[i]).extractLsb' 0 32 + (st.ma[i]).extractLsb' 32 32) else st.ma[i]
     (1 < st.mrep.remaining → exec (.mnop r 0 0) s =
        .next (moved s .m { st with ma := stepped, mrep := { st.mrep with remaining := st.mrep.remaining - 1 } } (s.word? st .m) .stay 1)) ∧
     (st.mrep.remaining ≤ 1 → exec (.mnop r 0 0) s =
        .next (moved s .m { st with ma := stepped, mrep := { valid := false, remaining := 0, mask := 0 } } (s.word? st .m) .seq 1)))

/-- M words that hold no resource, and repetition (R57, R68, R174, R175, R179, R183, R184, R185, R186). -/
def Obligations.MatrixControl : Prop :=
  Claims.MatrixControl ∧ Claims.MatrixRepeats

/-- R24 to R27, R41, R166 to R173, R177, R178: MWL and MSCL: the load path is taken for its cycles and the plane that will be filled is what the W buffer
holds at the issue: the weights of each column, expanded exactly, those of a 2:4 tile at the places that its metadata names, and its scales, a
poisoned line as zeros; where they trap, a format that MWL does not take among it, and where they wait. TRAPADDR is the model's choice (log 32).
Stated without flags, outside a repetition. -/
def Obligations.WeightLoads : Prop :=
  ∀ (s : State) (r : Bool) (m : BitVec 3) (p : BitVec 1) (st : Strand), issuer s .m r false [] = some st → st.mrep.valid = false → st.fx = none →
    let a := ((st.ma[m.toNat]).extractLsb' 0 32).toNat
    let b := st.tb.bfmtW[a / 2 ^ 17 % 32]'(Nat.mod_lt _ (by omega))
    let f := (b.extractLsb' 0 4).toNat
    let sm := (b.extractLsb' 8 3).toNat
    let len := (b.extractLsb' 16 16).toNat + 1
    let wide (f : Nat) : Nat := if f = 3 ∨ f = 4 then 128 else if f = 5 ∨ f = 6 then 112 else 64
    let pitch := if p = 0 then wide f else if f = 7 ∨ f = 11 then 48 else 80
    let pair : Prop := (3 ≤ f ∧ f ≤ 7 ∧ sm ≤ 1) ∨ (f = 11 ∧ (sm = 1 ∨ sm = 2)) ∨ (f = 12 ∧ sm = 3 ∧ p = 0)
    let at_ (x : Nat) : W64 := BitVec.ofNat 64 x
    let pends (due : Nat) (e : MEff) (occ : Nat) : Strand :=
      { st with loadFree := now s + occ, mpend := st.mpend ++ [{ seq := st.mseq, due := due, sig := 0, eff := e }], mseq := st.mseq + 1 }
    (a % 64 ≠ 0 → exec (.mwl r 0 0 m p) s = .next (trapped s .m st .misalign (at_ a)) ∧
      exec (.mscl r 0 0 m) s = .next (trapped s .m st .misalign (at_ a))) ∧
    (a % 64 = 0 → a + 131072 ≤ 4194304 → ¬ pair → exec (.mwl r 0 0 m p) s = .next (trapped s .m st .format (at_ a))) ∧
    (∀ F ∈ [Fmt.e4m3, .e5m2, .e2m3, .e3m2, .e2m1, .g4], ∀ x < 2 ^ F.width,
      (expanded (expand (F.read x))).isNan = (F.read x).isNan ∧
      ((F.read x).isNan = false → (expanded (expand (F.read x))).same (F.read x) = true ∧ (expanded (expand (F.read x))).neg? = (F.read x).neg?)) ∧
    (a % 64 = 0 → pair → 4194304 < a + 256 * pitch → exec (.mwl r 0 0 m p) s = .next (trapped s .m st .fieldMiss (at_ a))) ∧
    (a % 64 = 0 → pair → a + 256 * pitch ≤ 4194304 → len ≠ 128 → exec (.mwl r 0 0 m p) s = .next (trapped s .m st .format (at_ a))) ∧
    (a % 64 = 0 → pair → a + 256 * pitch ≤ 4194304 → len = 128 →
      (now s < st.loadFree → exec (.mwl r 0 0 m p) s = .next (s.setSt s.cur.core st)) ∧
      (st.loadFree ≤ now s → st.mpend = [] → ∃ pl : WPlane,
        exec (.mwl r 0 0 m p) s = .next (moved s .m (pends (now s + pitch / 2 + 16) (.loadW pl) (pitch / 2)) (s.word? st .m) .seq 1) ∧
        pl.load = (if p = 0 then 1 else 2) ∧ pl.fmt = b.extractLsb' 0 4 ∧ pl.smode = b.extractLsb' 8 3 ∧ pl.w.length = 256 ∧
        (∀ n : Fin 256, pl.colBad.getLsbD n.val = true ↔ ∃ k < pitch, s.mem.bad (wbufAddr st.tb.id (a + n.val * pitch + k) / 64) = true) ∧
        (s.mem.wf = true →
          let byte (n k : Nat) : Byte :=
            if s.mem.bad (wbufAddr st.tb.id (a + n * pitch + k) / 64) then 0 else s.mem.byte (wbufAddr st.tb.id (a + n * pitch + k))
          let word (n j : Nat) : Nat := leNat ((List.range 16).map fun i => byte n (16 * j + i))
          let F := (Fmt.ofCode (b.extractLsb' 0 4)).getD .fp32
          let elem (n i : Nat) : BitVec 9 := expand (F.read (word n (i / F.perWord) / 2 ^ (F.width * (i % F.perWord)) % 2 ^ F.width))
          let pairOf (n j : Nat) : Nat × Nat := (word n (pitch / 16 - 1) / 2 ^ (4 * j) % 4, word n (pitch / 16 - 1) / 2 ^ (4 * j + 2) % 4)
          let three (n k : Nat) : Int :=
            let bit (j : Nat) : Int := (word n (k / 32) / 2 ^ (32 * j + k % 32) % 2 : Nat)
            bit 0 + 2 * bit 1 - 4 * bit 2
          ∀ n < 256, ∃ col, pl.w[n]? = some col ∧ col.length = 128 ∧
            (f = 12 → ∃ sc, pl.g3[n]? = some sc ∧ sc = (List.range 4).map fun g => BitVec.ofNat 16 (word n g / 2 ^ 96)) ∧
            ∀ k < 128, col[k]? = some (if f = 12 then expand (Val.ofInt (three n k))
              else if p = 0 then elem n k
              else if k % 4 = (pairOf n (k / 4)).1 then elem n (k / 4 * 2)
              else if k % 4 = (pairOf n (k / 4)).2 then elem n (k / 4 * 2 + 1) else 0)))) ∧
    (let sz := if sm = 2 then 2 else 1
     (a % 64 = 0 → a + 1024 * sz ≤ 4194304 → sm ≠ 1 → sm ≠ 2 → exec (.mscl r 0 0 m) s = .next (trapped s .m st .format (at_ a))) ∧
     (a % 64 = 0 → (sm = 1 ∨ sm = 2) → 4194304 < a + 1024 * sz → exec (.mscl r 0 0 m) s = .next (trapped s .m st .fieldMiss (at_ a))) ∧
     (a % 64 = 0 → (sm = 1 ∨ sm = 2) → a + 1024 * sz ≤ 4194304 → st.loadFree ≤ now s → st.mpend = [] → ∃ pl : SPlane,
        exec (.mscl r 0 0 m) s = .next (moved s .m (pends (now s + 2 * sz + 16) (.loadS pl) (2 * sz)) (s.word? st .m) .seq 1) ∧
        pl.kind = (if sm = 2 then 2 else 1) ∧
        (s.mem.wf = true → (∀ k < 1024 * sz, s.mem.bad (wbufAddr st.tb.id (a + k) / 64) = false) → ∀ e : Fin 1024,
          pl.entries[e] = BitVec.ofNat 16 (leNat ((List.range sz).map fun k => s.mem.byte (wbufAddr st.tb.id (a + e.val * sz + k)))))))

/-- R42, R43, R46: the value of one group of products and its flags: the special cases in the order of R43; otherwise the exact sum, of BF16 activations
aligned to the largest product and truncated below its position 31, times the scales, rounded once to FP32. The products of FP8 activations are
multiples of 2^−40. -/
def Sys2Proof.Claims.GroupValues : Prop :=
  ∀ (bf : Bool) (sa : Option Byte) (ws : WScale) (aw : List (Val × Val)),
    let bs : Val := match ws with | .bf16 x => Fmt.bf16.read x.toNat | _ => .fin false 1 0
    let e : Int := (match sa with | some x => (x.toNat : Int) - 127 | none => 0) + (match ws with | .e8m0 x => (x.toNat : Int) - 127 | _ => 0)
    let num (v : Val) : ℚ := match v with | .fin n m q => (if n then -1 else 1) * (m : ℚ) * (2 : ℚ) ^ q | _ => 0
    let p : List Val := aw.map fun x => (x.1.mul x.2).1
    let gives (x : W32) (fl : FFlags) : Prop := groupValue bf sa ws aw = (x, fl)
    let inf (n : Bool) : W32 := if n then 0xFF800000 else 0x7F800000
    let undef : Prop := sa = some 0xFF ∨ ws = .e8m0 0xFF ∨ bs = .nan ∨ ∃ x ∈ aw, x.1 = .nan ∨ x.2 = .nan
    let made : Prop := (∃ x ∈ aw, (x.1.isZero ∧ x.2.isInf) ∨ (x.1.isInf ∧ x.2.isZero)) ∨ (Val.inf false ∈ p ∧ Val.inf true ∈ p)
    (undef → gives 0x7FC00000 0) ∧
    (¬ undef → made → gives 0x7FC00000 1) ∧
    (¬ undef → ¬ made → ∀ n, Val.inf n ∈ p → (bs.isZero = true → gives 0x7FC00000 1) ∧ (bs.isZero = false → gives (inf (n != bs.neg?)) 0)) ∧
    (¬ undef → (∀ v ∈ p, ∃ n m q, v = .fin n m q) → ∀ t : ℚ,
      ((bf = false ∧ (∀ v ∈ p, ∃ k : Int, num v = k * (2 : ℚ) ^ (-40 : Int)) ∧ t = (p.map num).sum) ∨
       (bf = true ∧ t = 0 ∧ ∀ v ∈ p, num v = 0) ∨
       (bf = true ∧ ∃ l : Int, (∀ v ∈ p, |num v| < (2 : ℚ) ^ (l + 1)) ∧ (∃ v ∈ p, (2 : ℚ) ^ l ≤ |num v|) ∧
         t = (p.map fun v => (if num v < 0 then -1 else 1) * (⌊|num v| / (2 : ℚ) ^ (l - 31)⌋ : ℚ) * (2 : ℚ) ^ (l - 31)).sum)) →
      (bs.isInf = true → (t = 0 → gives 0x7FC00000 1) ∧ (t ≠ 0 → gives (inf (decide (t < 0) != bs.neg?)) 0)) ∧
      (bs.isInf = false → (t = 0 → gives 0 0) ∧
        (t ≠ 0 → ∃ n m q, num (.fin n m q) = t * (2 : ℚ) ^ e * num bs ∧
          gives (Fmt.fp32.convert 0 false (.fin n m q)).1 ((Fmt.fp32.convert 0 false (.fin n m q)).2 &&& 2))))

/-- R42, R45, R169, R170, R173, R176, R180, R181, R187: MMA, MMAS and MZERO: the resource is taken, and the accumulator rows CBASE + row + i × CSTR,
columns below N, will be stepped, by the four group values of each element, or zeroed, with the flags of the groups and the marks of poisoned
activations, weights and scales, which enter as zeros; where they trap. TRAPADDR of a FORMAT is the model's choice (log 32). Stated without flags,
outside a repetition. -/
def Sys2Proof.Claims.MatrixSteps : Prop :=
  ∀ (s : State) (r : Bool) (ma mc : BitVec 3) (t : BitVec 2) (st : Strand), issuer s .m r false [] = some st → st.mrep.valid = false → st.fx = none →
    let a := ((st.ma[ma.toNat]).extractLsb' 0 32).toNat
    let ca := ((st.ma[mc.toNat]).extractLsb' 0 32).toNat
    let T := st.ts[t.toNat]
    let M := (T.extractLsb' 0 10).toNat + 1
    let N := (T.extractLsb' 10 8).toNat + 1
    let f := (T.extractLsb' 18 4).toNat
    let row (i : Nat) : Nat := (T.extractLsb' 54 10).toNat + ca / 1024 + i * (T.extractLsb' 44 10).toNat
    let b := st.tb.bfmtA[a / 2 ^ 17 % 32]'(Nat.mod_lt _ (by omega))
    let len := (b.extractLsb' 16 16).toNat + 1
    let bytes := if f = 1 then 256 else 128
    let pitch := if f = 1 then 16 * ((len * 16 + 127) / 128) else 16 * ((len * 8 + 127) / 128)
    let wp := if st.tb.active then st.tb.wp1 else st.tb.wp0
    let sp := if st.tb.active then st.tb.sp1 else st.tb.sp0
    let at_ (x : Nat) : W64 := BitVec.ofNat 64 x
    -- what the step reads: activations, their paired scales (R170), weights and their scales, a poisoned line as zeros
    let view := (s.mView st).1
    let id := st.tb.id
    let pair : Bool := (b.extractLsb' 8 3).toNat == 4
    let lost (x : Nat) : Bool := view.bad (abufAddr id x / 64)
    let byte (x : Nat) : Byte := if lost x then 0 else view.byte (abufAddr id x)
    let scaleAt (x : Nat) : Nat := 0x200000 + x / 2 ^ 17 % 32 * 0x20000 + x % 2 ^ 17 / 32
    let act (i k : Nat) : Val :=
      if f = 1 then Fmt.bf16.read (leNat [byte (a + i * pitch + 2 * k), byte (a + i * pitch + 2 * k + 1)])
      else (if f = 3 then Fmt.e4m3 else .e5m2).read (byte (a + i * pitch + k)).toNat
    let ascale (i g : Nat) : Option Byte := if pair then some (byte (scaleAt (a + i * pitch + 32 * g))) else none
    let wscale (n g : Nat) : WScale :=
      match wp.smode.toNat with
      | 1 => .e8m0 (((sp.entries[4 * n + g]?).getD 0).extractLsb' 0 8)
      | 2 => .bf16 ((sp.entries[4 * n + g]?).getD 0)
      | 3 => .bf16 ((wp.g3.getD n []).getD g 0)
      | _ => .one
    let group (i n g : Nat) : W32 × FFlags := groupValue (f == 1) (ascale i g) (wscale n g)
      ((List.range 32).map fun k => (act i (32 * g + k), expanded ((wp.w.getD n []).getD (32 * g + k) 0)))
    let step (i : Instr) (load : BitVec 2) (occ : Nat) : Prop :=
      (a % 64 ≠ 0 → exec i s = .next (trapped s .m st .misalign (at_ a))) ∧
      (a % 64 = 0 → ca % 1024 ≠ 0 → exec i s = .next (trapped s .m st .misalign (at_ ca))) ∧
      (a % 64 = 0 → ca % 1024 = 0 → (f = 1 ∨ f = 3 ∨ f = 4) → (b.extractLsb' 0 4).toNat = f →
        ((b.extractLsb' 8 3).toNat = 0 ∨ (pair = true ∧ f ≠ 1 ∧ a / 2 ^ 17 % 32 < 16)) → 128 ≤ len →
        (∀ i < M, a + i * pitch + bytes ≤ 4194304) → (pair = true → ∀ i < M, ∀ g < 4, scaleAt (a + i * pitch + 32 * g) < 4194304) →
        (2 ^ 20 ≤ ca → exec i s = .next (trapped s .m st .fieldMiss (at_ ca))) ∧
        (ca < 2 ^ 20 → ∀ i0 < M, 1023 < row i0 → (∀ j < i0, row j ≤ 1023) → exec i s = .next (trapped s .m st .fieldMiss (at_ (1024 * row i0)))) ∧
        (ca < 2 ^ 20 → (∀ i < M, row i ≤ 1023) →
          let served : Prop := wp.load = load ∧ (wp.smode = 1 → sp.kind = 1) ∧ (wp.smode = 2 → sp.kind = 2)
          (¬ served → exec i s = .next (trapped s .m st .format (at_ a))) ∧
          (served → now s < st.arrayFree → exec i s = .next (s.setSt s.cur.core st)) ∧
          (served → st.arrayFree ≤ now s → ∃ rows bad cols fl,
            exec i s = .next (moved s .m { st with
              arrayFree := now s + occ, mpend := st.mpend ++ [{ seq := st.mseq, due := now s + (occ + 400), sig := 0, eff := .step rows bad cols N fl }],
              mseq := st.mseq + 1 } (s.word? st .m) .seq 1) ∧
            rows.map Prod.fst = (List.range M).map row ∧ (∀ x ∈ rows, x.2.length = N ∧ ∀ v ∈ x.2, v.length = 4) ∧ (∀ x ∈ bad, ∃ i < M, x = row i) ∧
            (view.wf = true →
              (∀ i < M, ∀ n < N, ((rows[i]?).bind fun x => x.2[n]?) = some ((List.range 4).map fun g => (group i n g).1)) ∧
              (∀ k < 5, fl.getLsbD k = true ↔ ∃ i < M, ∃ n < N, ∃ g < 4, (group i n g).2.getLsbD k = true) ∧
              (∀ x, x ∈ bad ↔ ∃ i < M, x = row i ∧ ((∃ k < bytes, lost (a + i * pitch + k) = true) ∨
                (pair = true ∧ ∃ g < 4, lost (scaleAt (a + i * pitch + 32 * g)) = true))) ∧
              ∀ n < 256, cols.getLsbD n = true ↔ n < N ∧
                (wp.colBad.getLsbD n = true ∨ ((wp.smode = 1 ∨ wp.smode = 2) ∧ sp.colBad.getLsbD n = true))))))
    step (.mma r 0 0 ma t mc) 1 (if f = 1 then 2 * M else M) ∧
    step (.mmas r 0 0 ma t mc) 2 ((if f = 1 then 2 * M + 1 else M + 1) / 2) ∧
    (ca % 1024 ≠ 0 → exec (.mzero r 0 0 t mc) s = .next (trapped s .m st .misalign (at_ ca))) ∧
    (ca % 1024 = 0 → 2 ^ 20 ≤ ca → exec (.mzero r 0 0 t mc) s = .next (trapped s .m st .fieldMiss (at_ ca))) ∧
    (ca % 1024 = 0 → ca < 2 ^ 20 → (∀ i < M, row i ≤ 1023) →
      let free : Prop := st.drainFree ≤ now s ∧ ∀ q ∈ st.mpend, ∀ rows bad cols n fl, q.eff = .step rows bad cols n fl → ∀ x ∈ rows, ∀ i < M, x.1 ≠ row i
      (¬ free → exec (.mzero r 0 0 t mc) s = .next (s.setSt s.cur.core st)) ∧
      (free → exec (.mzero r 0 0 t mc) s = .next (moved s .m { st with
        drainFree := now s + (M + 3) / 4,
        mpend := st.mpend ++ [{ seq := st.mseq, due := now s + ((M + 3) / 4 + 8), sig := 0, eff := .zero ((List.range M).map row) N }],
        mseq := st.mseq + 1 } (s.word? st .m) .seq 1)))

/-- MMA, MMAS and MZERO: rows, group values, flags, marks, resources, traps (R42, R43, R45, R169, R170, R173, R176, R180, R181, R187, R411). -/
def Obligations.MatrixSteps : Prop :=
  Claims.GroupValues ∧ Claims.MatrixSteps

/-- R182, R188: an MDRAIN that passes its checks converts the N elements of each of its M accumulator rows, as they stand at the issue, into the A buffer,
under the rounding and saturation of its tile shape, and will write nothing else. Stated without flags, outside a repetition, with no M word in
progress and no element marked. -/
def Obligations.MatrixDrains : Prop :=
  ∀ (s : State) (r : Bool) (ma mc : BitVec 3) (t : BitVec 2) (k : BitVec 4) (f : Fmt) (st : Strand), issuer s .m r false [] = some st →
    st.mrep.valid = false → st.fx = none → st.mpend = [] → s.mem.wf = true →
    let a := ((st.ma[ma.toNat]).extractLsb' 0 32).toNat
    let ca := ((st.ma[mc.toNat]).extractLsb' 0 32).toNat
    let T := st.ts[t.toNat]
    let M := (T.extractLsb' 0 10).toNat + 1
    let N := (T.extractLsb' 10 8).toNat + 1
    let row (i : Nat) : Nat := (T.extractLsb' 54 10).toNat + ca / 1024 + i * (T.extractLsb' 44 10).toNat
    let b := st.tb.bfmtA[a / 2 ^ 17 % 32]'(Nat.mod_lt _ (by omega))
    let len := (b.extractLsb' 16 16).toNat + 1
    let fmts : List (Nat × Fmt × Nat) := [(0, .fp32, 4), (1, .bf16, 2), (2, .fp16, 2), (3, .e4m3, 1), (4, .e5m2, 1), (8, .int32, 4), (9, .int16, 2), (10, .int8, 1)]
    ∀ sz, (k.toNat, f, sz) ∈ fmts → a % 16 = 0 → ca % 1024 = 0 → ca < 2 ^ 20 → b.extractLsb' 0 4 = k → b.extractLsb' 8 3 = 0 → N ≤ len →
      let pitch := 16 * ((len * (8 * sz) + 127) / 128)
      (∀ i < M, a + i * pitch + N * sz ≤ 4194304) → (∀ i < M, row i ≤ 1023) → st.drainFree ≤ now s → (∀ i < M, ∀ n < N, st.tb.marked (row i) n = false) →
      let word (i n : Nat) : W32 := BitVec.ofNat 32 (leNat ((List.range 4).map fun j => s.mem.byte (cbufAddr st.tb.id (1024 * row i + 4 * n + j))))
      let out (i n : Nat) : W32 × FFlags := f.convert (T.extractLsb' 24 2) (T.getLsbD 26) (Fmt.fp32.read (word i n).toNat)
      ∃ ws fl, exec (.mdrain r 0 0 ma t mc k) s = .next (moved s .m { st with
          drainFree := now s + M, mpend := [{ seq := st.mseq, due := now s + (M + 64), sig := 0, eff := .drain ws fl }], mseq := st.mseq + 1 }
          (s.word? st .m) .seq 1) ∧
        (∀ j < 5, fl.getLsbD j = true ↔ ∃ i < M, ∃ n < N, (out i n).2.getLsbD j = true) ∧
        (∀ w ∈ ws, w.marks = [] ∧ w.tag = 0 ∧ ∀ j y, w.data[j]? = some (some y) → ∃ i < M, ∃ n < N, ∃ q < sz,
          w.addr + j = abufAddr st.tb.id (a + i * pitch + n * sz + q) ∧ y = (out i n).1.extractLsb' (8 * q) 8) ∧
        ∀ i < M, ∀ n < N, ∀ q < sz, ∃ w ∈ ws, ∃ j, w.addr + j = abufAddr st.tb.id (a + i * pitch + n * sz + q) ∧
          w.data[j]? = some (some ((out i n).1.extractLsb' (8 * q) 8))

/-- R42, R44, R46, R165, R173, R174, R181, R187: an M word whose bound has come completes: it fills the shadow plane, zeroes its accumulator elements,
writes what it drained, or adds to each accumulator element its four group values in turn; its flags go to the M copy of FSTAT and its signal is
given. What a later slot or core, or the remote port, has written in the same cycle stands over its bytes (R221). That nothing of it lands before the
bound is the model's choice (log 23). -/
def Obligations.MatrixWordsComplete : Prop :=
  ∀ (s : State) (c : Fin 192) (i : Nat) (st0 : Strand) (p : MPend), s.strand? c = some st0 →
    let st := st0.settle (s.cyc c)
    st.mpend[i]? = some p →
    let gone (t : Strand) : Strand := { t with mpend := st.mpend.filter fun o => o.seq != p.seq }
    let sig (t : Strand) : Strand := if p.sig = 0 then t else { t with f := t.f.set p.sig.toNat (t.f[p.sig.toNat] + 1) }
    let id := st.tb.id
    let clear (a b : Nat) : Prop := ∀ v ∈ laterWrites s c 2 a, b < v.addr ∨ v.addr + v.data.length ≤ b
    let here (b : Nat) : Prop := clear (cbufAddr id 0) b
    (s.cyc c < p.due → exec (.mWordComplete c i) s = .next s) ∧
    (p.due ≤ s.cyc c →
      (∀ x, p.eff = .loadW x → exec (.mWordComplete c i) s = .next (s.setSt c (sig (gone
        { st with tb := if st.tb.active then { st.tb with wp0 := x } else { st.tb with wp1 := x } })))) ∧
      (∀ x, p.eff = .loadS x → exec (.mWordComplete c i) s = .next (s.setSt c (sig (gone
        { st with tb := if st.tb.active then { st.tb with sp0 := x } else { st.tb with sp1 := x } })))) ∧
      (s.mem.wf = true →
        (∀ rows n, p.eff = .zero rows n → n ≤ 256 → (∀ q ∈ rows, q < 1024) → ∃ t st', exec (.mWordComplete c i) s = .next t ∧ t.strand? c = some st' ∧
          st'.f = (sig st).f ∧ st'.x = st.x ∧ st'.v = st.v ∧
          (∀ b, here b → t.mem.byte b = if ∃ q ∈ rows, cbufAddr id (1024 * q) ≤ b ∧ b < cbufAddr id (1024 * q) + 4 * n then 0 else s.mem.byte b) ∧
          ∀ q : Fin 1024, st'.tb.rowp.getLsbD q.val = (st.tb.rowp.getLsbD q.val && decide (q.val ∉ rows))) ∧
        (∀ ws fl, p.eff = .drain ws fl → ∃ t st', exec (.mWordComplete c i) s = .next t ∧ t.strand? c = some st' ∧ st'.f = (sig st).f ∧
          st'.fstatM = st.fstatM ||| fl ∧ st'.fstatV = st.fstatV ∧ st'.tb = st.tb ∧
          ((∀ w ∈ ws, laterWrites s c 2 w.at_ = []) → t.mem = ws.foldl Mem.apply s.mem) ∧
          ∀ b, (∀ w ∈ ws, clear w.at_ b) → t.mem.byte b = (ws.foldl Mem.apply s.mem).byte b) ∧
        (∀ rows bad cols n fl, p.eff = .step rows bad cols n fl → n ≤ 256 → (rows.map Prod.fst).Nodup → (∀ x ∈ rows, x.1 < 1024 ∧ x.2.length = n) →
          ∃ t st', exec (.mWordComplete c i) s = .next t ∧ t.strand? c = some st' ∧ st'.f = (sig st).f ∧ st'.fstatV = st.fstatV ∧
            (let word (m : Mem) (q k : Nat) : W32 := BitVec.ofNat 32 (leNat ((List.range 4).map fun j => m.byte (cbufAddr id (1024 * q + 4 * k + j))))
             ∀ x ∈ rows, ∀ k < n, ∀ vs, x.2[k]? = some vs → (∀ j < 4, here (cbufAddr id (1024 * x.1 + 4 * k + j))) →
               word t.mem x.1 k = vs.foldl (fun acc v => (addF32 0 acc v).1) (word s.mem x.1 k)) ∧
            (∀ b, here b → (∀ x ∈ rows, b < cbufAddr id (1024 * x.1) ∨ cbufAddr id (1024 * x.1) + 4 * n ≤ b) → t.mem.byte b = s.mem.byte b) ∧
            (∀ b : Fin 16, st'.tb.colp[b] = if ∃ x ∈ rows, x.1 / 64 = b.val then st.tb.colp[b] ||| cols else st.tb.colp[b]) ∧
            (laterWrites s c 2 (cbufAddr id 0) = [] → ∀ k < 5, st'.fstatM.getLsbD k = true ↔ st.fstatM.getLsbD k = true ∨ fl.getLsbD k = true ∨
              ∃ x ∈ rows, ∃ m < n, ∃ vs, x.2[m]? = some vs ∧ ∃ j < vs.length,
                let acc := (vs.take j).foldl (fun acc v => (addF32 0 acc v).1)
                  (BitVec.ofNat 32 (leNat ((List.range 4).map fun i => s.mem.byte (cbufAddr id (1024 * x.1 + 4 * m + i)))))
                (((addF32 0 acc (vs.getD j 0)).2 &&& 3).getLsbD k) = true) ∧
            ∀ q : Fin 1024, st'.tb.rowp.getLsbD q.val = (st.tb.rowp.getLsbD q.val || decide (q.val ∈ bad)))))

/-- R190 to R195, R200, R202 to R206: the copies and notes that H issues. Between local spaces each row becomes one piece, in flight, counted on the
token, that the copy will read and land later; an indexed copy reads its list first (24 + n cycles); a copy that names HBM storage has the pieces of
the field map. Memory does not change at the issue. An ACOPY of no bytes does nothing; a note that has no copy to wait for and meets a set COND is
dropped (log 83). The TRAPADDR values are log 32. Stated where no FENCEX stands and fewer than 1,024 are in flight. -/
def Sys2Proof.Claims.CopiesIssue : Prop :=
  ∀ (s : State) (r : Bool) (d a b : BitVec 5) (k e sp : BitVec 3) (st : Strand), issuer s .h r false [] = some st →
    st.fx = none → st.copies.length < 1024 →
    let c := s.cur.core
    let xd := st.xv d
    let xa := st.xv a
    let xb := st.xv b
    let loc : Local := { tb := st.tb.id, yard := s.yardOfCore c }
    let limit (q : BitVec 3) : Nat := if q = 1 then 25165824 else if q = 4 then 1048576 else 4194304
    let local_ (q : BitVec 3) : Prop := q = 1 ∨ q = 2 ∨ q = 3 ∨ q = 4
    let tokened (n : Nat) : Vector Token 8 := st.tok.set k.toNat { st.tok[k.toNat] with pend := (st.tok[k.toNat]).pend + n }
    let piece (src dst n : Nat) : Seg := { srcA := BitVec.ofNat 64 src, dstA := BitVec.ofNat 64 dst, src := some (loc.addr sp src), dst := some (loc.addr e dst), len := n, srcTag := 0, dstTag := 0, st := .idle }
    let copy (kind n : Nat) (segs : List Seg) : Copy := { cid := st.nextCid, dst := xd, src := xa, arg := xb, kind := kind, tok := k, dspace := e, sspace := sp, mark := st.pmark, noteBad := false, conv := false, sfmt := 0, dfmt := 0, lm1 := 0, contrib := n, segs := segs }
    let puts (i : Instr) (kind n : Nat) (segs : List Seg) : Prop :=
      exec i s = .next (moved s .h { st with copies := st.copies ++ [copy kind n segs], nextCid := st.nextCid + 1, tok := tokened n, pre := none }
        (s.word? st .h) .seq 1)
    let clean : Prop := st.xp d = false ∧ st.xp a = false ∧ st.xp b = false ∧ xd.toNat % 16 = 0 ∧ xa.toNat % 16 = 0
    let same : Prop := ¬ ((sp = 2 ∨ sp = 3) ∧ (e = 2 ∨ e = 3) ∧ (st.bank sp xa.toNat).extractLsb' 0 4 ≠ (st.bank e xd.toNat).extractLsb' 0 4)
    -- ACOPY
    (xb = 0 → exec (.acopy r d a b k e sp) s = .next (moved s .h { st with pre := none } (s.word? st .h) .seq 1)) ∧
    (clean → same → local_ sp → local_ e → xb ≠ 0 → xb.toNat ≤ 2 ^ 24 → xb.toNat % 16 = 0 → xa.toNat + xb.toNat ≤ limit sp → xd.toNat + xb.toNat ≤ limit e →
      puts (.acopy r d a b k e sp) 1 xb.toNat [piece xa.toNat xd.toNat xb.toNat]) ∧
    (clean → same → xb ≠ 0 → xb.toNat ≤ 2 ^ 24 → xb.toNat % 16 = 0 → ∀ segs, s.allSegs st.launch loc loc sp e [(xa.toNat, xd.toNat, xb.toNat)] = .ok segs →
      ∃ t st', exec (.acopy r d a b k e sp) s = .next t ∧ t.strand? c = some st' ∧ t.mem = s.mem ∧ st'.x = st.x ∧ st'.v = st.v ∧ st'.tb = st.tb ∧
        (segs ≠ [] → st'.nextCid = st.nextCid + 1 ∧ (st'.tok[k.toNat]).pend = (st.tok[k.toNat]).pend + (segs.map Seg.len).sum ∧
          ∃ cp, st'.copies = st.copies ++ [cp] ∧ cp.cid = st.nextCid ∧ cp.kind = 1 ∧ cp.segs.map (fun g => (g.src, g.dst, g.len)) = segs.map fun g => (g.src, g.dst, g.len))) ∧
    -- ACOPY2
    (let rb := 16 * (xb.toNat % 2 ^ 12 + 1)
     let rows := xb.toNat / 2 ^ 12 % 2 ^ 12 + 1
     let src (i : Nat) : Nat := xa.toNat + i * (16 * (xb.toNat / 2 ^ 24 % 2 ^ 20))
     let dst (i : Nat) : Nat := xd.toNat + i * (16 * (xb.toNat / 2 ^ 44 % 2 ^ 20))
     clean → same → local_ sp → local_ e → (∀ i < rows, src i + rb ≤ limit sp ∧ dst i + rb ≤ limit e) →
       puts (.acopy2 r d a b k e sp) 2 (rows * rb) ((List.range rows).map fun i => piece (src i) (dst i) rb)) ∧
    -- AGATH and ASCAT
    (let rb := 16 * (xb.toNat % 2 ^ 12 + 1)
     let n := xb.toNat / 2 ^ 12 % 2 ^ 12 + 1
     let list := xb.toNat / 2 ^ 24 % 2 ^ 25
     let idx (j : Nat) : Nat := leNat ((List.range 4).map fun q => s.mem.byte (yardAddr loc.yard (list + 4 * j + q)))
     clean → same → local_ sp → local_ e → xb.toNat < 2 ^ 49 → list % 4 = 0 → list + 4 * n ≤ 25165824 → s.mem.wf = true →
       (st.pre = none → exec (.agath r d a b k e sp) s = .next (s.setSt c { st with pre := some { pc := st.pc.h, ready := now s + (24 + n) } }) ∧
         exec (.ascat r d a b k e sp) s = .next (s.setSt c { st with pre := some { pc := st.pc.h, ready := now s + (24 + n) } })) ∧
       (st.pre = some { pc := st.pc.h, ready := 0 } → (∀ q < 4 * n, s.mem.bad ((yardAddr loc.yard (list + q)) / 64) = false) →
         ((∀ j < n, xa.toNat + idx j * rb + rb ≤ limit sp ∧ xd.toNat + j * rb + rb ≤ limit e) →
           puts (.agath r d a b k e sp) 3 (n * rb) ((List.range n).map fun j => piece (xa.toNat + idx j * rb) (xd.toNat + j * rb) rb)) ∧
         ((∀ j < n, xa.toNat + j * rb + rb ≤ limit sp ∧ xd.toNat + idx j * rb + rb ≤ limit e) →
           puts (.ascat r d a b k e sp) 4 (n * rb) ((List.range n).map fun j => piece (xa.toNat + j * rb) (xd.toNat + idx j * rb) rb)))) ∧
    -- AMCAST: one piece for each destination of the group
    (let n := xb.toNat % 2 ^ 24
     xb.getLsbD 63 = false → clean → xb.toNat < 2 ^ 29 → 0 < n → n % 16 = 0 → local_ sp → local_ e → xa.toNat + n ≤ limit sp → xd.toNat + n ≤ limit e →
       ∀ g, s.gang? st.gang = some g →
         let tgts := s.castTargets g (xb.toNat / 2 ^ 24) e
         tgts ≠ [] → ∀ i, i = Instr.amcast r d a b k e sp ∨ i = .amcastSet r d a b k e sp →
           puts i 5 (tgts.length * n) (tgts.map fun l => { piece xa.toNat xd.toNat n with dst := some (l.addr e xd.toNat) })) ∧
    -- ANOTE
    (st.xp a = false → xa.toNat % 8 = 0 → ∀ p, s.spots st.launch loc 0 xa.toNat 8 true = .ok [p] →
      let seg (bs : List (Option Byte)) (bad : List Nat) : Seg :=
        { srcA := 0, dstA := xa, src := none, dst := some p.phys, len := 8, srcTag := 0, dstTag := p.tag, st := .ready bs bad }
      let cp (bs : List (Option Byte)) (bad : List Nat) : Copy :=
        { copy 6 0 [seg bs bad] with dst := xa, src := 0, dspace := 0, sspace := 0, noteBad := st.xp b }
      let note (bs : List (Option Byte)) (bad : List Nat) : Strand :=
        { st with copies := st.copies ++ [cp bs bad], nextCid := st.nextCid + 1, pre := none }
      let kept : Prop := (st.tok[k.toNat]).cond = 0 ∨ ∃ o ∈ st.copies, o.kind ≠ 6 ∧ o.tok = k ∧ o.cid < st.nextCid
      (kept → st.xp b = false → exec (.anote r a b k) s =
        .next (moved s .h (note ((List.range 8).map fun i => some (xb.extractLsb' (8 * i) 8)) []) (s.word? st .h) .seq 1)) ∧
      (kept → st.xp b = true → st.pmark = true → exec (.anote r a b k) s =
        .next (moved s .h (note (List.replicate 8 none) [0]) (s.word? st .h) .seq 1)) ∧
      (¬ kept → st.xp b = false ∨ st.pmark = true → exec (.anote r a b k) s = .next (moved s .h { st with pre := none } (s.word? st .h) .seq 1)) ∧
      (st.xp b = true → st.pmark = false → exec (.anote r a b k) s = .next (trapped s .h st .poison 0)))

/-- R191, R193, R194, R203: where the copies stall and trap: a FENCEX that holds copies back or 1,024 in flight; a poisoned operand, a size over 16 MiB or
a reserved bit, an address that is not a multiple of 16, a byte beyond a space's limit. The order of these traps and their TRAPADDR, which the rules
leave open, are the model's choice (log 32). -/
def Sys2Proof.Claims.CopiesStopShort : Prop :=
  ∀ (s : State) (r : Bool) (d a b : BitVec 5) (k e sp : BitVec 3) (st : Strand), issuer s .h r false [] = some st →
    let xd := st.xv d
    let xa := st.xv a
    let xb := st.xv b
    let limit (q : BitVec 3) : Nat := if q = 1 then 25165824 else if q = 4 then 1048576 else 4194304
    let all : List Instr := [.acopy r d a b k e sp, .acopy2 r d a b k e sp, .agath r d a b k e sp, .ascat r d a b k e sp]
    let traps (i : Instr) (x : Cause) (t : W64) : Prop := exec i s = .next (trapped s .h st x t)
    (xb ≠ 0 → (∃ f, st.fx = some f ∧ f.after.getLsbD 3 = true) ∨ 1024 ≤ st.copies.length → ∀ i ∈ all, exec i s = .next (s.setSt s.cur.core st)) ∧
    (st.fx = none → st.copies.length < 1024 → xb ≠ 0 →
      (st.xp d = true ∨ st.xp a = true ∨ st.xp b = true → ∀ i ∈ all, traps i .poison 0) ∧
      (st.xp d = false → st.xp a = false → st.xp b = false →
        (2 ^ 24 < xb.toNat → traps (.acopy r d a b k e sp) .reservedNonzero 0) ∧
        (2 ^ 49 ≤ xb.toNat → traps (.agath r d a b k e sp) .reservedNonzero 0 ∧ traps (.ascat r d a b k e sp) .reservedNonzero 0) ∧
        (xb.toNat ≤ 2 ^ 24 →
          (xd.toNat % 16 ≠ 0 → ∀ i ∈ all, traps i .misalign xd) ∧ (xd.toNat % 16 = 0 → xa.toNat % 16 ≠ 0 → ∀ i ∈ all, traps i .misalign xa) ∧
          (xd.toNat % 16 = 0 → xa.toNat % 16 = 0 → (xb.toNat % 16 ≠ 0 → traps (.acopy r d a b k e sp) .misalign 0) ∧
            (xb.toNat % 16 = 0 → sp = 1 ∨ sp = 4 → e = 1 ∨ e = 4 →
              (limit sp < xa.toNat + xb.toNat → traps (.acopy r d a b k e sp) .fieldMiss (BitVec.ofNat 64 (max xa.toNat (limit sp)))) ∧
              (xa.toNat + xb.toNat ≤ limit sp → limit e < xd.toNat + xb.toNat →
                traps (.acopy r d a b k e sp) .fieldMiss (BitVec.ofNat 64 (max xd.toNat (limit e)))))))))

/-- Copies and notes issue as pieces counted on their token, or stall, or trap (R190, R191, R193, R194, R195, R200, R202, R203, R204, R206). -/
def Obligations.CopiesIssue : Prop :=
  Claims.CopiesIssue ∧ Claims.CopiesStopShort

/-- R201: an ACOPY between banks of different formats reads its source rows first and then converts them, each element to the nearest value of the
destination's format with saturation; the copy carries the converted rows. Stated of rows without poison, in the ranges in which nothing traps (which
byte a trap names is log 32). -/
def Sys2Proof.Claims.ConvertingCopies : Prop :=
  ∀ (s : State) (r : Bool) (d a b : BitVec 5) (k e sp : BitVec 3) (st : Strand), issuer s .h r false [] = some st →
    st.fx = none → st.copies.length < 1024 → s.mem.wf = true →
    let c := s.cur.core
    let xd := st.xv d
    let xa := st.xv a
    let n := (st.xv b).toNat
    let loc : Local := { tb := st.tb.id, yard := s.yardOfCore c }
    let S := st.bank sp xa.toNat
    let D := st.bank e xd.toNat
    let len := (S.extractLsb' 16 16).toNat + 1
    let fmts : List (BitVec 4 × Fmt × Nat) := [(0, .fp32, 4), (1, .bf16, 2), (2, .fp16, 2), (3, .e4m3, 1), (4, .e5m2, 1), (8, .int32, 4), (9, .int16, 2), (10, .int8, 1)]
    st.xp d = false → st.xp a = false → st.xp b = false → n ≠ 0 → n ≤ 2 ^ 24 → n % 16 = 0 → xd.toNat % 16 = 0 → xa.toNat % 16 = 0 → (sp = 2 ∨ sp = 3) → (e = 2 ∨ e = 3) →
    S.extractLsb' 8 3 = 0 → D.extractLsb' 8 3 = 0 → D.extractLsb' 16 16 = S.extractLsb' 16 16 →
    ∀ sf ssz df dsz, (S.extractLsb' 0 4, sf, ssz) ∈ fmts → (D.extractLsb' 0 4, df, dsz) ∈ fmts → sf ≠ df →
      let ps := 16 * ((len * (8 * ssz) + 127) / 128)
      let pd := 16 * ((len * (8 * dsz) + 127) / 128)
      let rows := n / ps
      n % ps = 0 → xa.toNat + n ≤ 4194304 → xd.toNat + rows * pd ≤ 4194304 →
      (st.pre = none → exec (.acopy r d a b k e sp) s = .next (s.setSt c { st with pre := some { pc := st.pc.h, ready := now s + (n + 255) / 256 } })) ∧
      (st.pre = some { pc := st.pc.h, ready := 0 } → (∀ q < n, s.mem.bad (loc.addr sp (xa.toNat + q) / 64) = false) →
        ∃ st' cp, exec (.acopy r d a b k e sp) s = .next (moved s .h st' (s.word? st .h) .seq 1) ∧
          st' = { st with copies := st.copies ++ [cp], nextCid := st.nextCid + 1, pre := none, tok := st.tok.set k.toNat { st.tok[k.toNat] with pend := (st.tok[k.toNat]).pend + rows * pd } } ∧
          cp.conv = true ∧ cp.segs.length = rows ∧ ∀ (i : Nat) (g : Seg), cp.segs[i]? = some g → g.dst = some (loc.addr e (xd.toNat + i * pd)) ∧ g.len = pd ∧
            ∃ bs, g.st = .ready bs [] ∧ bs.length = pd ∧ ∀ j < len,
              let x := BitVec.ofNat (8 * ssz) (leNat ((List.range ssz).map fun q => s.mem.byte (loc.addr sp (xa.toNat + i * ps + j * ssz + q))))
              ∀ q < dsz, bs[j * dsz + q]? = some (some ((df.convert 0 true (sf.read x.toNat)).1.extractLsb' (8 * q) 8)))

/-- R205: AMCAST with bit 63 of xb set reads its member list and changes the group: status 0, and the group has these members; 1 while a multicast on the
group is in flight; 2 where a member is not of the gang or is named twice. The status is readable in the next cycle. Of changes of one group in one
cycle that of the highest member index stands (when changes of different clusters fall in one cycle is the model's choice, log 114; the TRAPADDR
values are log 32). -/
def Sys2Proof.Claims.MulticastGroups : Prop :=
  ∀ (s : State) (r : Bool) (d a b : BitVec 5) (k e sp : BitVec 3) (st : Strand), issuer s .h r false [] = some st → st.fx = none →
    let c := s.cur.core
    let xb := st.xv b
    let n := xb.toNat % 128
    let grp := xb.toNat / 2 ^ 24 % 32
    let traps (x : Cause) (t : W64) : Prop := ∀ i, i = Instr.amcast r d a b k e sp ∨ i = .amcastSet r d a b k e sp → exec i s = .next (trapped s .h st x t)
    xb.getLsbD 63 = true →
    (st.xp a = true ∨ st.xp b = true → traps .poison 0) ∧
    (st.xp a = false → st.xp b = false → n > 64 ∨ xb.extractLsb' 7 17 ≠ 0 ∨ xb.extractLsb' 29 34 ≠ 0 → traps .reservedNonzero 0) ∧
    (st.xp a = false → st.xp b = false → n ≤ 64 → xb.extractLsb' 7 17 = 0 → xb.extractLsb' 29 34 = 0 → sp = 1 →
      25165824 < (st.xv a).toNat + n → 0 < n → traps .fieldMiss (BitVec.ofNat 64 (max (st.xv a).toNat 25165824))) ∧
    (st.xp a = false → st.xp b = false → n ≤ 64 → xb.extractLsb' 7 17 = 0 → xb.extractLsb' 29 34 = 0 → sp = 1 → (st.xv a).toNat + n ≤ 25165824 →
      st.pre = some { pc := st.pc.h, ready := 0 } →
      let base := yardAddr (s.yardOfCore c) (st.xv a).toNat
      (∀ q < n, (s.view st.sid 3).bad ((base + q) / 64) = false) → s.peerGated base = false →
      (st.owns true d = false → traps .xown 0) ∧
      (st.owns true d = true → (s.view st.sid 3).wf = true → ∀ g, s.gang? st.gang = some g →
        let ms := (List.range n).map fun q => ((s.view st.sid 3).byte (base + q)).toNat
        let count := if g.level = 2 then 4 * g.size else g.size
        let busy : Prop := ∃ o ∈ s.gangStrands g.gid, ∃ q ∈ o.copies, q.kind = 5 ∧ (q.arg.extractLsb' 24 5).toNat = grp
        let answers (v : W64) (s' : State) : Prop := ∀ i, i = Instr.amcast r d a b k e sp ∨ i = .amcastSet r d a b k e sp →
          exec i s = .next (moved s' .h { st.xlater (now s + 1) d v false false with pre := none } (s.word? st .h) .seq 1)
        (busy → answers 1 (s.setGang g)) ∧
        (¬ busy → (∃ m ∈ ms, count ≤ m) ∨ ¬ ms.Nodup → answers 2 (s.setGang g)) ∧
        (¬ busy → (∀ m ∈ ms, m < count) → ms.Nodup → 
          let x : CastSet := { grp := grp, member := st.member, cluster := clusterOf c, cyc := (s.clusters[clusterOf c]).cyc, tick := s.tick }
          let together (y : CastSet) : Prop :=
            if x.cluster = y.cluster then x.cyc = y.cyc
            else if (s.clusters[clusterOf c]).fixed = true then 3 * y.tick / 4 = 3 * x.tick / 4 else y.tick = x.tick
          answers 0 (s.setGang { g with
            table := if ∃ y ∈ g.sets, y.grp = grp ∧ together y ∧ st.member < y.member then g.table else g.table.set grp ms,
            sets := x :: g.sets.filter fun y => decide (s.tick < y.tick + 16) }))))

/-- Converting copies, and multicast groups (R201, R205). -/
def Obligations.ConvertingAndMulticast : Prop :=
  Claims.ConvertingCopies ∧ Claims.MulticastGroups

/-- R196, R197, R199: TWAIT goes on once the tokens that it names are at zero, their last bytes having landed in an earlier cycle, TPEND reads a token's
PEND; a COND of a named token at zero is raised in its place and cleared; where an earlier slot has trapped in this cycle it is not raised, and stands
(R88). -/
def Sys2Proof.Claims.TokenWords : Prop :=
  ∀ (s : State) (r : Bool) (d : BitVec 5) (k : BitVec 3) (mask : BitVec 8) (st : Strand), issuer s .h r false [] = some st →
    let c := s.cur.core
    let left (t : Strand) : Strand := { t with pre := none }
    let raises (i : Instr) (q : Fin 8) : Prop :=
      (st.trapAt = none → ∃ t, exec i s = .next t ∧ RaisesCond s .h st q t) ∧
      (∀ p, st.trapAt = some p → p.slot ≠ .h → ∃ t u, exec i s = .next t ∧ t.strand? c = some u ∧ u.trapAt = some p ∧ u.tok = st.tok ∧ u.pc = st.pc)
    let zero : Prop := ∀ i : Fin 8, mask.getLsbD i.val = true → (st.tok[i]).pend = 0 ∧ (st.tok[i]).last < now s
    (¬ zero → exec (.twait r mask) s = .next (s.setSt c st)) ∧
    (zero → (∀ i : Fin 8, mask.getLsbD i.val = true → (st.tok[i]).cond = 0) → exec (.twait r mask) s = .next (moved s .h (left st) (s.word? st .h) .seq 1)) ∧
    (zero → ∀ q : Fin 8, mask.getLsbD q.val = true → (st.tok[q]).cond ≠ 0 → (∀ j : Fin 8, j < q → mask.getLsbD j.val = true → (st.tok[j]).cond = 0) →
      raises (.twait r mask) q) ∧
    (let t := st.tok[k.toNat]
     (t.pend = 0 → t.cond ≠ 0 → raises (.tpend r d k) ⟨k.toNat, k.isLt⟩) ∧
     (t.pend ≠ 0 ∨ t.cond = 0 → st.owns true d = false → exec (.tpend r d k) s = .next (trapped s .h st .xown 0)) ∧
     (t.pend ≠ 0 ∨ t.cond = 0 → st.owns true d = true →
       exec (.tpend r d k) s = .next (moved s .h (left (st.xlater (now s + 1) d (BitVec.ofNat 64 t.pend) false false)) (s.word? st .h) .seq 1)))

/-- R61, R62, R216, R217, R219: HADD, HADDI and HMOVH write an X register that H owns, readable in the next cycle; HADD of the operand queue takes a half
of its head and pops it or leaves it; ABFMT issues a write of a bank's format; HNOP does nothing. -/
def Sys2Proof.Claims.HaulSlotArithmetic : Prop :=
  ∀ (s : State) (r : Bool) (d a b : BitVec 5) (st : Strand), issuer s .h r false [] = some st →
    let x := st.xv a
    let left (t : Strand) : Strand := { t with pre := none }
    let goes (i : Instr) (t : Strand) : Prop := exec i s = .next (moved s .h (left t) (s.word? st .h) .seq 1)
    let gives (i : Instr) (t : Strand) (v : W64) (bad : Bool) : Prop :=
      (st.owns true d = true → goes i (t.xlater (now s + 1) d v bad false)) ∧ (st.owns true d = false → exec i s = .next (trapped s .h st .xown 0))
    gives (.hadd r d a b) st (BitVec.ofNat 64 (x.toNat + (st.xv b).toNat)) (st.xp a || st.xp b) ∧
    (∀ i : BitVec 15, gives (.haddi r d a i) st (BitVec.ofInt 64 (x.toInt + i.toInt)) (st.xp a)) ∧
    (∀ (h : BitVec 2) (z : BitVec 1) (i : BitVec 16), ∃ v : W64, gives (.hmovh r d h z i) st v (z == 0 && st.xp d) ∧ v.extractLsb' (16 * h.toNat) 16 = i ∧
      ∀ q < 64, (q < 16 * h.toNat ∨ 16 * h.toNat + 16 ≤ q) → v.getLsbD q = (z == 0 && (st.xv d).getLsbD q)) ∧
    (∀ (h p : BitVec 1),
      (∀ q rest, st.qh.items = q :: rest →
        (q.from_ ≤ now s → gives (.haddQueue r d a h p)
          (if p = 1 then { st with qh := { items := rest, popCyc := now s, pops := (if st.qh.popCyc = now s then st.qh.pops else 0) + 1 } } else st)
          (BitVec.ofNat 64 (x.toNat + (if h = 1 then q.hi else q.lo).toNat)) (st.xp a || if h = 1 then q.phi else q.plo)) ∧
        (now s < q.from_ → exec (.haddQueue r d a h p) s = .next (s.setSt s.cur.core st))) ∧
      (st.qh.items = [] → exec (.haddQueue r d a h p) s = .next (s.setSt s.cur.core st))) ∧
    (∀ (u : BitVec 1) (n : BitVec 5),
      (st.xp a = true → exec (.abfmt r a u n) s = .next (trapped s .h st .poison 0)) ∧
      (st.xp a = false → x.extractLsb' 32 32 ≠ 0 ∨ x.extractLsb' 11 5 ≠ 0 ∨ x.getLsbD 4 = true ∨ x.getLsbD 5 = true ∨ x.getLsbD 6 = true ∨ x.getLsbD 7 = true →
        exec (.abfmt r a u n) s = .next (trapped s .h st .reservedNonzero 0)) ∧
      (st.xp a = false → x.extractLsb' 32 32 = 0 → x.extractLsb' 11 5 = 0 → x.extractLsb' 4 4 = 0 → 12 < (x.extractLsb' 0 4).toNat ∨ 4 < (x.extractLsb' 8 3).toNat →
        exec (.abfmt r a u n) s = .next (trapped s .h st .format 0)) ∧
      (st.xp a = false → x.extractLsb' 32 32 = 0 → x.extractLsb' 11 5 = 0 → x.extractLsb' 4 4 = 0 → (x.extractLsb' 0 4).toNat ≤ 12 → (x.extractLsb' 8 3).toNat ≤ 4 →
        goes (.abfmt r a u n) { st with bpend := st.bpend ++ [(now s + 1, ⟨32 * u.toNat + n.toNat, by have := u.isLt; have := n.isLt; omega⟩, x.extractLsb' 0 32)] })) ∧
    goes (.hnop r) st

/-- R207, R213: HAULGO starts its channel, and QPOST sends a slab of the yard to a quarry, its request in its stack's queue (R230); where they wait and
where they trap, a poisoned slab counted on its die (R396). The TRAPADDR of a poisoned slab, of a miss and of a misaligned base are the model's choice
(log 32). -/
def Sys2Proof.Claims.EnginePosts : Prop :=
  ∀ (s : State) (r : Bool) (a b : BitVec 5) (st : Strand), issuer s .h r false [] = some st → st.fx = none →
    let c := s.cur.core
    let xa := st.xv a
    let xb := st.xv b
    let left := { st with pre := none }
    let traps (i : Instr) (x : Cause) (t : W64) : Prop := exec i s = .next (trapped s .h st x t)
    let stalls (i : Instr) : Prop := exec i s = .next (s.setSt c st)
    (st.xp a = true ∨ st.xp b = true → traps (.haulgo r a b) .poison 0 ∧ traps (.qpost r a b) .poison 0) ∧
    (st.xp a = false → st.xp b = false →
      (let reserved : Prop := 2 ^ 15 ≤ xb.toNat ∨ xb.toNat / 16 % 16 ≠ 0 ∨ 64 < xb.toNat / 256 % 128
       (reserved → traps (.haulgo r a b) .reservedNonzero 0) ∧ (¬ reserved → xa.toNat % 64 ≠ 0 → traps (.haulgo r a b) .misalign xa) ∧
       (¬ reserved → xa.toNat % 64 = 0 → ∀ l, s.launch? st.launch = some l →
         (∀ e, s.translate l xa .rw = .error e → traps (.haulgo r a b) e xa) ∧
         (∀ t, s.translate l xa .rw = .ok t →
           let ch := xb.toNat % 16
           let own (q : Fin 192) : Prop := s.chans[q].owner = some (l.id, ch)
           (l.haulch.getLsbD ch = false ∨ (∀ q, ¬ own q) → traps (.haulgo r a b) .privilege 0) ∧
           (∀ q : Fin 192, l.haulch.getLsbD ch = true → own q → (∀ q', own q' → q' = q) →
             (s.chans[q].busy = true ∨ st.accs ≠ [] → stalls (.haulgo r a b)) ∧
             (s.chans[q].busy = false → st.accs = [] → exec (.haulgo r a b) s = .next (moved (s.setChan q { s.chans[q] with
               busy := true, sid := st.sid, gang := st.gang, scout := xb.toNat / 256 % 128, at_ := t.fld.partbase + (xa.toNat - t.fld.vbase), seq := none,
               waiting := false, lineWait := none, recs := [], doomed := [] }) .h left (s.word? st .h) .seq 1)))))) ∧
      (16 ≤ xb.toNat → traps (.qpost r a b) .reservedNonzero 0) ∧
      (xb.toNat < 16 → xa.toNat % 2048 ≠ 0 → traps (.qpost r a b) .misalign xa) ∧
      (xb.toNat < 16 → xa.toNat % 2048 = 0 → 25165824 < xa.toNat + 2048 → traps (.qpost r a b) .fieldMiss xa) ∧
      (xb.toNat < 16 → xa.toNat % 2048 = 0 → xa.toNat + 2048 ≤ 25165824 →
        let posted := (s.cores[c].slabs.filter fun q => q.stack == xb.toNat).length
        (4 ≤ posted → stalls (.qpost r a b)) ∧
        (posted < 4 → st.pre = none → exec (.qpost r a b) s = .next (s.setSt c { st with pre := some { pc := st.pc.h, ready := now s + 32 } })) ∧
        (posted < 4 → st.pre = some { pc := st.pc.h, ready := 0 } →
          let base := yardAddr (s.yardOfCore c) xa.toNat
          (∀ n < 32, s.mem.bad (base / 64 + n) = true → (∀ m < n, s.mem.bad (base / 64 + m) = false) →
            exec (.qpost r a b) s = .next (((s.setSt c st).countPoison (base + 64 * n)).raiseTrap c st .h .poison (BitVec.ofNat 64 (xa.toNat + 64 * n)))) ∧
          ((∀ q < 2048, s.mem.bad ((base + q) / 64) = false) → s.mem.wf = true → ∀ l, s.launch? st.launch = some l →
            let slab := (List.range 2048).map fun q => s.mem.byte (base + q)
            let kind (j : Nat) : Nat := pktKind (packetOf slab j)
            ((∀ j < 16, kind j = 0) → exec (.qpost r a b) s = .next (moved s .h left (s.word? st .h) .seq 1)) ∧
            (∀ j < 16, kind j ≠ 0 → (∀ i < j, kind i = 0) → ∀ e, s.translate l (BitVec.ofNat 64 (pktCpl (packetOf slab j) / 16 * 16)) .w = .error e →
              traps (.qpost r a b) e (BitVec.ofNat 64 (pktCpl (packetOf slab j) / 16 * 16))) ∧
            ((∃ j < 16, kind j ≠ 0) → (∀ j < 16, kind j ≠ 0 → ∃ t, s.translate l (BitVec.ofNat 64 (pktCpl (packetOf slab j) / 16 * 16)) .w = .ok t) →
              (s.cores[c].reqStalls xb.toNat = true → stalls (.qpost r a b)) ∧
              (s.cores[c].reqStalls xb.toNat = false →
                ∃ t q, exec (.qpost r a b) s = .next t ∧ t.mem = s.mem ∧ t.strand? c = some (left.advance .h (now s) (s.word? st .h) .seq 1) ∧
                  t.cores[c].slabs = s.cores[c].slabs ++
                    [{ stack := xb.toNat, sid := st.sid, part := st.part, launch := st.launch, data := slab, pos := 0, go := false }] ∧
                  t.cores[c].reqs = s.cores[c].reqs ++ [q] ∧ q.stack = xb.toNat ∧ q.len = 2048 ∧ q.who = .slab ∧ q.bound.isSome = true))))))

/-- Tokens, H arithmetic, ABFMT, HAULGO and QPOST (R196, R197, R199, R207, R213, R214, R215, R216, R217, R219). -/
def Obligations.HaulSlotWords : Prop :=
  Claims.TokenWords ∧ Claims.HaulSlotArithmetic ∧ Claims.EnginePosts

/-- R190, R194, R195, R199, R206: what H's words have in flight comes about. A pre-issue read ends in its cycle. A piece between yards and typed buffers
reads its source and writes its destination in one action, leaves its token, and the copy whose last piece has landed is in flight no more; where the
token has a COND then, the notes go that waited for no other copy (log 83). A note is written once the copies and notes before it on its token have
landed, one to HBM storage by a request (R230); one whose port is closed sets the token's COND, and one of a poisoned value marks its line. Of pieces,
stated of those that lie on no poisoned line, on no C buffer and behind no gated port, of a copy whose rows do not overwrite one another; what a later
slot or core, or the remote port, has written in the same cycle stands over them (R221). -/
def Sys2Proof.Claims.CopiesLand : Prop :=
  ∀ (s : State) (c : Fin 192) (i j : Nat) (st0 : Strand), s.strand? c = some st0 →
    let st := st0.settle (s.cyc c)
    (∀ p, st.pre = some p → (s.cyc c < p.ready → exec (.preIssueRead c) s = .next s) ∧
      (p.ready ≤ s.cyc c → exec (.preIssueRead c) s = .next (s.setSt c { st with pre := some { p with ready := 0 } }))) ∧
    (∀ (k : Copy) (g : Seg) (a b : Nat), st.copies[i]? = some k → k.kind ≠ 6 → k.kind ≠ 2 → k.kind ≠ 4 → k.segs[j]? = some g → g.st = .idle → g.src = some a → g.dst = some b →
      2 ^ 72 ≤ a → 2 ^ 72 ≤ b → cbufOf a = none → cbufOf b = none → (∀ q < g.len, s.mem.bad ((a + q) / 64) = false) →
      s.yardGated (s.yardOfCore c) st.launch a = false → s.yardGated (s.yardOfCore c) st.launch b = false → s.mem.wf = true →
      ∃ t, exec (.copyBytesLand c i j) s = .next t ∧ t.strand? c = some (pieceLanded st k j g.len (s.cyc c)) ∧
        (∀ q, (∀ w ∈ laterWrites s c 3 b, q < w.addr ∨ w.addr + w.data.length ≤ q) →
          t.mem.byte q = if b ≤ q ∧ q < b + g.len then s.mem.byte (a + (q - b)) else s.mem.byte q) ∧
        (∀ l, (∀ w ∈ laterWrites s c 3 b, l ∉ w.lines ∧ l ∉ w.marks) → t.mem.bad l = (s.mem.bad l && !decide (b ≤ 64 * l ∧ 64 * l + 64 ≤ b + g.len)))) ∧
    ∀ (k : Copy) (g : Seg) (bs : List (Option Byte)) (bad : List Nat) (b : Nat), st.copies[i]? = some k → k.kind = 6 → k.segs = [g] → g.st = .ready bs bad → g.dst = some b →
      let dropped := { st with copies := st.copies.filter fun o => o.cid != k.cid }
      ((∃ o ∈ st.copies, o.cid < k.cid ∧ o.tok = k.tok) → exec (.anoteWrite c i) s = .next s) ∧
      ((∀ o ∈ st.copies, o.cid < k.cid → o.tok ≠ k.tok) →
        (b < 2 ^ 40 → s.cores[c].requested st.sid k.cid = [] → ∃ t q, exec (.anoteWrite c i) s = .next t ∧ t.strand? c = some st ∧ t.mem = s.mem ∧
          t.cores[c].reqs = s.cores[c].reqs ++ [q] ∧ q.who = .copyWrite st.sid k.cid [0] ∧ q.stack = b / 2 ^ 36 ∧ q.addr = b / 2048 * 2048 ∧ q.len = 8) ∧
        (2 ^ 40 ≤ b → s.yardGated (s.yardOfCore c) st.launch b = true → ∃ t u, exec (.anoteWrite c i) s = .next t ∧ t.strand? c = some u ∧ t.mem = s.mem ∧
          u.copies = dropped.copies ∧ (u.tok[k.tok.toNat]).cond = (if (st.tok[k.tok.toNat]).cond = 0 then 2 else (st.tok[k.tok.toNat]).cond)) ∧
        (2 ^ 40 ≤ b → s.yardGated (s.yardOfCore c) st.launch b = false →
          let w : MWrite := if k.noteBad then { addr := 0, data := [], marks := [b / 64], tag := 0 } else { addr := b, data := bs, marks := [], tag := g.dstTag }
          ∃ t, exec (.anoteWrite c i) s = .next t ∧ t.strand? c = some dropped ∧ t.mem = s.mem.apply w ∧ ∀ e : Fin 192, t.mons[e] = (s.mons[e]).see w.touched))

/-- R229 to R232, R371: the calendar of a stack. A waiting request enters its queue where an entry is free and is bound to a slot of its core that starts
12 cycles or more on. A slot that comes before the request has reached the controller leaves it to the next rotation's (log 115). In its slot a load,
a line of the constant path (R156) or a piece of a copy is read, its data landing 200 ticks on for the core's own die and 240 for another; a store and
a piece of a copy are accepted, performed for every party 120 ticks on; an atomic reads and writes its unit (R111); the record of a SOW or JOIN may be
acted on (log 111); a slab may leave its core where its quarry has room (R246). Data that lands goes to the register of its load, for the next cycle
(R63), or at once to the image of a halted strand (R324), to its line, or to the piece that waits for it; a write that is performed changes memory,
and its piece leaves its token (R195). Maintenance slots refresh, the last the neighbours of a queued row. Stated of slots in which no error is found;
the order of the maintenance slots and when a refresh is due are the model's choices (log entry 61). -/
def Sys2Proof.Claims.CalendarSlots : Prop :=
  ∀ (s : State) (k : Fin 16),
    (∀ (c : Fin 192), let q := s.cores[c]
      ((∀ r ∈ q.reqs, r.stack = k.val → r.bound ≠ none) → exec (.requestEnqueue c k) s = .next s) ∧
      (∀ (pre post : List Req) (r : Req), q.reqs = pre ++ r :: post → r.stack = k.val → r.bound = none → (∀ o ∈ pre, o.stack = k.val → o.bound ≠ none) →
        (16 ≤ (q.boundOn k.val).length + q.passed.count k.val → exec (.requestEnqueue c k) s = .next s) ∧
        ((q.boundOn k.val).length + q.passed.count k.val < 16 → ∃ b, exec (.requestEnqueue c k) s = .next (s.setCore c { q with
            reqs := pre ++ { r with bound := some b, reach := (s.clusters[clusterOf c]).cyc + 12 } :: post }) ∧
          b % 400 < 384 ∧ b % 400 % 192 = c.val))) ∧
    (let q := s.hbm[k]
     (s.tick < q.started → exec (.calendarSlotStart k []) s = .next s) ∧
     (q.started ≤ s.tick → s.tick % 400 < 384 →
       let c : Fin 192 := ⟨s.tick % 400 % 192, Nat.mod_lt _ (by omega)⟩
       ((∀ r ∈ s.cores[c].reqs, r.stack = k.val → r.bound ≠ some s.tick) →
         exec (.calendarSlotStart k []) s = .next { s with hbm := s.hbm.set k { q with started := s.tick + 1 } }) ∧
       (∀ (sid aid : Nat) (r : Req) (st : Strand) (a : SAcc), s.cores[c].reqs = [r] → r.stack = k.val → r.bound = some s.tick → r.who = .acc sid aid →
         s.findSid sid = some st → st.accs.find? (fun a => a.id == aid) = some a →
         ((s.clusters[clusterOf c]).cyc < r.reach → exec (.calendarSlotStart k []) s = .next { s with
           hbm := s.hbm.set k { q with started := s.tick + 1 }, cores := s.cores.set c { s.cores[c] with reqs := [{ r with bound := some (s.tick + 400) }] } }) ∧
         (r.reach ≤ (s.clusters[clusterOf c]).cyc →
         ((∃ d sg, a.op = .load d sg) → ∃ t, exec (.calendarSlotStart k []) s = .next t ∧ t.mem = s.mem ∧ t.cores[c].reqs = [] ∧ t.hbm[k].writes = q.writes ∧
           t.hbm[k].reads = q.reads ++
             [({ due := s.tick + (if k.val / 2 = c.val / 24 then 200 else 240), core := c.val, who := r.who, data := (s.view sid 0).reads a.tag a.addr a.size, bad := if (s.view sid 0).bad (a.addr / 64) then [0] else [] } : HRead)]) ∧
         (∀ w, a.op = .store w → ∃ t, exec (.calendarSlotStart k []) s = .next t ∧ t.mem = s.mem ∧ t.cores[c].reqs = [] ∧ t.hbm[k].reads = q.reads ∧
           t.cores[c].passed = k.val :: s.cores[c].passed ∧
           t.hbm[k].writes = q.writes ++ [{ due := s.tick + 120, sid := sid, path := 0, who := r.who, core := c.val, w := w }]) ∧
         (∀ fn d b, a.op = .amo fn d b → (a.size = 4 ∨ a.size = 8) → a.addr % a.size = 0 → s.mem.wf = true → s.isHalted sid = false →
           let bad := (s.view sid 0).bad (a.addr / 64)
           let old : BitVec (8 * a.size) := BitVec.ofNat (8 * a.size) (leNat ((s.view sid 0).reads a.tag a.addr a.size))
           ∃ t, exec (.calendarSlotStart k []) s = .next t ∧ t.cores[c].reqs = [] ∧
             (if bad then t.mem = s.mem else UnitBecomes s.mem t.mem a.addr a.size (amoNew fn old (b.setWidth (8 * a.size)))) ∧
             ∀ (e : Fin 192) (o : Strand), s.cores[e].strand = some o → o.sid = st.sid →
               t.cores[e].strand = some { st with accs := st.accs.map fun o =>
                 if o.id = aid then { o with performed := true, old := if bad then 0 else old.signExtend 64, cause := if bad then some 8 else none } else o })))) ∧
     (q.started ≤ s.tick → s.tick % 400 < 384 →
       let c : Fin 192 := ⟨s.tick % 400 % 192, Nat.mod_lt _ (by omega)⟩
       let far := s.tick + (if k.val / 2 = c.val / 24 then 200 else 240)
       ∀ (r : Req), s.cores[c].reqs = [r] → r.stack = k.val → r.bound = some s.tick → r.reach ≤ (s.clusters[clusterOf c]).cyc →
       (∀ (sid aid : Nat) (st : Strand), r.who = .acc sid aid → s.findSid sid = some st → st.accs.find? (fun a => a.id == aid) = none →
         st.recReq = some (aid, false) → s.isHalted sid = false → ∃ t, exec (.calendarSlotStart k []) s = .next t ∧ t.mem = s.mem ∧ t.cores[c].reqs = [] ∧
           ∀ (e : Fin 192) (o : Strand), s.cores[e].strand = some o → o.sid = st.sid → t.cores[e].strand = some { st with recReq := some (aid, true) }) ∧
       (∀ (id : Nat) (f : KFill), r.who = .fill id → s.cores[c].kfills.find? (fun f => f.id == id) = some f →
         ∃ t, exec (.calendarSlotStart k []) s = .next t ∧ t.mem = s.mem ∧ t.cores[c].reqs = [] ∧ t.cores[c].kfills = s.cores[c].kfills ∧
           t.hbm[k].reads = q.reads ++ [({ due := far, core := c.val, who := r.who, data := (s.view f.sid 0).reads f.tag (64 * f.line) 64,
                                             bad := if (s.view f.sid 0).bad f.line then [0] else [] } : HRead)]) ∧
       (∀ (sid cid j : Nat) (st : Strand) (cp : Copy) (g : Seg), s.cores[c].strand = some st → st.sid = sid → st.copies.find? (fun o => o.cid == cid) = some cp →
         cp.segs[j]? = some g →
         let now (x : SegState) : Strand := { st with copies := st.copies.map fun o =>
           if o.cid = cp.cid then { cp with segs := cp.segs.zipIdx.map fun y => if y.2 = j then { y.1 with st := x } else y.1 } else o }
         (∀ a, r.who = .copyRead sid cid [j] → g.src = some a → (∀ i < g.len, (s.view sid 3).bad ((a + i) / 64) = false) →
           ∃ t, exec (.calendarSlotStart k []) s = .next t ∧ t.mem = s.mem ∧ t.cores[c].reqs = [] ∧ t.cores[c].strand = some (now .reading) ∧
             t.hbm[k].reads = q.reads ++ [({ due := far, core := c.val, who := r.who, data := (s.view sid 3).reads g.srcTag a g.len, bad := [] } : HRead)]) ∧
         (∀ b bs, r.who = .copyWrite sid cid [j] → g.dst = some b → g.st = .ready bs [] → cp.kind = 1 ∨ cp.kind = 3 ∨ cp.kind = 5 →
           ∃ t, exec (.calendarSlotStart k []) s = .next t ∧ t.mem = s.mem ∧ t.cores[c].reqs = [] ∧ t.cores[c].strand = some (now .writing) ∧
             t.hbm[k].writes = q.writes ++ [{ due := s.tick + 120, sid := sid, path := 3, who := r.who, core := c.val,
                                              w := { addr := b, data := bs, marks := [], tag := g.dstTag } }])) ∧
       (∀ (e : Slab), r.who = .slab → s.cores[c].slabs = [e] → e.stack = k.val → e.go = false →
         ∃ t, exec (.calendarSlotStart k []) s = .next t ∧ t.mem = s.mem ∧
           (s.quarry[k].transit.length + s.quarry[k].arrived.length < 64 → t.cores[c].slabs = [{ e with go := true }] ∧ t.cores[c].reqs = []) ∧
           (64 ≤ s.quarry[k].transit.length + s.quarry[k].arrived.length → t.cores[c].slabs = [e] ∧ ∃ q n, t.cores[c].reqs = [q] ∧ q.who = .slab ∧
             q.stack = k.val ∧ q.bound = some n ∧ s.tick < n ∧ n % 400 < 384 ∧ n % 400 % 192 = c.val))) ∧
     (q.started ≤ s.tick → 384 ≤ s.tick % 400 → s.dieUp (stackDie k) = false →
       exec (.calendarSlotStart k []) s = .next { s with hbm := s.hbm.set k { q with started := s.tick + 1 } }) ∧
     (q.started ≤ s.tick → 384 ≤ s.tick % 400 → s.dieUp (stackDie k) = true → SMap.wf 0 s.upkeep[k].rows = true →
       let u := s.upkeep[k]
       let owed := u.owed + if s.tick % 400 = 384 then (if u.hot then 6144 else 3072) else 0
       ∃ t, exec (.calendarSlotStart k []) s = .next t ∧ t.hbm[k].started = s.tick + 1 ∧
         (s.tick % 400 < 388 → 1000 ≤ owed → t.mem = s.mem ∧ t.cores = s.cores ∧ t.upkeep[k].refreshes = u.refreshes + 1 ∧ t.upkeep[k].owed = owed - 1000 ∧
           ∀ bank < 64, SMap.get 0 t.upkeep[k].rows (rowKey (u.refreshes % 64) bank (u.refreshes / 64 % 6144)) = 0) ∧
         (396 ≤ s.tick % 400 → ∀ row rest, u.queue = row :: rest → t.mem = s.mem ∧ t.cores = s.cores ∧ t.upkeep[k].queue = rest ∧ SMap.get 0 t.upkeep[k].rows row = 0)) ∧
     (∀ (i : Nat) (r : HRead), q.reads[i]? = some r → (s.tick < r.due → exec (.hbmReadLand k i) s = .next s) ∧
       (r.due ≤ s.tick → ∀ sid aid (st : Strand) (a : SAcc) d sg, r.who = .acc sid aid → r.core < 192 → s.findSid sid = some st → st.accs.find? (fun a => a.id == aid) = some a →
         a.op = .load d sg → r.data.length = a.size →
         let c : Fin 192 := ⟨r.core % 192, Nat.mod_lt _ (by omega)⟩
         let v := BitVec.ofNat (8 * a.size) (leNat r.data)
         let st1 := st.settle (s.cyc c)
         let gone := { st1 with accs := st1.accs.filter fun o => o.id != a.id }
         let x := if r.bad = [] then if sg then v.signExtend 64 else v.zeroExtend 64 else 0
         ∃ t, exec (.hbmReadLand k i) s = .next t ∧ t.hbm[k].reads = q.reads.eraseIdx i ∧
           (s.isHalted st.sid = false → t.mem = s.mem ∧ ∀ (e : Fin 192) (o : Strand), s.cores[e].strand = some o → o.sid = st.sid →
             t.cores[e].strand = some (gone.xlater (s.cyc c + 1) d x (!r.bad.isEmpty) true)) ∧
           ∀ h ∈ s.halted, h.st.sid = st.sid → { h with st := gone.xput d x (!r.bad.isEmpty) } ∈ t.halted) ∧
       (r.due ≤ s.tick →
         let c : Fin 192 := ⟨r.core % 192, Nat.mod_lt _ (by omega)⟩
         (∀ id, r.who = .fill id → ∃ t, exec (.hbmReadLand k i) s = .next t ∧ t.mem = s.mem ∧ t.hbm[k].reads = q.reads.eraseIdx i ∧
           t.cores[c].kfills = s.cores[c].kfills.map fun f => if f.id = id then { f with data := some (r.data, !r.bad.isEmpty) } else f) ∧
         ∀ sid cid j (st : Strand) (cp : Copy) (g : Seg) (b : Nat), r.who = .copyRead sid cid [j] → r.bad = [] → s.cores[c].strand = some st → st.sid = sid →
           st.copies.find? (fun o => o.cid == cid) = some cp → cp.segs[j]? = some g → g.st = .reading → g.dst = some b → r.data.length = g.len →
           (2 ^ 72 ≤ b → cbufOf b = none → cp.kind = 1 ∨ cp.kind = 3 ∨ cp.kind = 5 → s.mem.wf = true → s.yardGated (s.yardOfCore c) st.launch b = false →
             (∀ a, g.src = some a → s.yardGated (s.yardOfCore c) st.launch a = false) → (∀ o ∈ cp.segs, o.toHbm = false) →
             ∃ t, exec (.hbmReadLand k i) s = .next t ∧ t.hbm[k].reads = q.reads.eraseIdx i ∧ t.strand? c = some (pieceLanded st cp j g.len (s.cyc c)) ∧
               ∀ p, (∀ w ∈ laterWrites s c 3 b, p < w.addr ∨ w.addr + w.data.length ≤ p) →
                 t.mem.byte p = if b ≤ p ∧ p < b + g.len then r.data.getD (p - b) 0 else s.mem.byte p) ∧
           (b < 2 ^ 40 → cp.segs = [g] → s.cores[c].requested sid cid = [] →
             ∃ t q', exec (.hbmReadLand k i) s = .next t ∧ t.hbm[k].reads = q.reads.eraseIdx i ∧ t.mem = s.mem ∧
               t.strand? c = some { st with copies := st.copies.map fun o => if o.cid = cp.cid then { cp with segs := [{ g with st := .ready (r.data.map some) [] }] } else o } ∧
               t.cores[c].reqs = s.cores[c].reqs ++ [q'] ∧ q'.who = .copyWrite sid cp.cid [0] ∧ q'.stack = b / 2048 * 2048 / 2 ^ 36 ∧ q'.addr = b / 2048 * 2048))) ∧
     (∀ (w : HWrite) (rest : List HWrite), q.writes = w :: rest → (s.tick < w.due → exec (.hbmWritePerformed k) s = .next s) ∧
       (w.due ≤ s.tick → ∃ t, exec (.hbmWritePerformed k) s = .next t ∧ t.hbm[k].writes = rest ∧ t.hbm[k].reads = q.reads ∧
         ((∀ sid aid, w.who = .acc sid aid → s.isHalted sid = false) →
           t.mem = s.mem.apply w.w ∧ ∀ e : Fin 192, t.mons[e] = (s.mons[e]).see w.w.touched) ∧
         ∀ sid aid (st : Strand), w.who = .acc sid aid → s.findSid sid = some st → ∀ (e : Fin 192) (o : Strand), s.cores[e].strand = some o → o.sid = st.sid →
           t.cores[e].strand = some { st with accs := st.accs.filter fun a => a.id != aid }) ∧
       (w.due ≤ s.tick → ∀ sid cid j (st : Strand) (cp : Copy) (g : Seg), w.who = .copyWrite sid cid [j] → w.core < 192 →
         let c : Fin 192 := ⟨w.core % 192, Nat.mod_lt _ (by omega)⟩
         s.cores[c].strand = some st → st.sid = sid → st.copies.find? (fun o => o.cid == cid) = some cp → cp.kind ≠ 6 → cp.segs[j]? = some g →
         ∃ t, exec (.hbmWritePerformed k) s = .next t ∧ t.mem = s.mem.apply w.w ∧ t.strand? c = some (pieceLanded st cp j g.len (s.cyc c)))) ∧
     (q.writes = [] → exec (.hbmWritePerformed k) s = .next s))

/-- Pieces of copies and notes land; the calendar binds, starts, lands and performs requests of HBM (R190, R194, R206, R221, R229, R230, R231, R245, R324,
R371, R391). -/
def Obligations.CopiesLandAndCalendar : Prop :=
  Claims.CopiesLand ∧ Claims.CalendarSlots

/-- R321 to R323, R325, R328 to R331, R335: how a strand leaves its core and comes back. A pre-emption request stops its slots and takes its monitor; the
halt, once V and M have drained, leaves its context with each record of a copy in flight, the PEND of a token being what those records added; the
context moves to the lowest free granary slot, or into the save area, at the place reserved for it, as its image; from its granary slot it stands on
its core again as it was. The bytes that a copy in flight had landed are undefined from the halt on, no other byte changes. A pre-emption that system
software asks for ends with BUSY where the save area cannot hold the images, and otherwise requests every strand of the launch. What moves to the save
area is traffic of the partition (R319). The place is taken by the model's order (log entry 71). -/
def Obligations.PreemptionAndReturn : Prop :=
  (∀ (s : State) (c : Fin 192) (st0 : Strand), s.strand? c = some st0 →
    let st := st0.settle (s.cyc c)
    (∀ q, s.preqs.find? (fun r => r.sid == st.sid) = some q →
      (st.trapAt ≠ none ∨ st.phase ≠ .running → exec (.preemptionRequest c) s = .next s) ∧
      (st.trapAt = none → st.phase = .running → st.sleep = none → exec (.preemptionRequest c) s = .next
        ((s.setSt c { st with mlost := st.mlost || (s.mons[c]).line.isSome, phase := .halting q.yielded, fx := none, fk := none, recReq := none, pre := none }).setMon c
          { line := none, hit := false })) ∧
      (st.trapAt = none → st.phase = .running → ∀ z, st.sleep = some z → ∃ t st', exec (.preemptionRequest c) s = .next t ∧ t.strand? c = some st' ∧ t.mem = s.mem ∧
        st'.phase = .halting q.yielded ∧ st'.sleep = none ∧ (z.xd ≠ 0 → st'.xv z.xd = 2 ∧ st'.xp z.xd = false) ∧ (∀ n, n ≠ z.xd → st'.xv n = st.xv n) ∧
        t.mons[c] = { line := none, hit := false })) ∧
    ((st.vpend ≠ [] ∨ st.mpend ≠ []) ∨ st.phase = .running → exec (.copyAbort c) s = .next s) ∧
    (st.vpend = [] → st.mpend = [] → ∀ y, st.phase = .halting y → ∃ t h, exec (.copyAbort c) s = .next t ∧ t.strand? c = none ∧ (∀ n, t.mem.bad n = s.mem.bad n) ∧
      (∀ b, (∀ k ∈ st.copies, ∀ g ∈ k.segs, ∀ a, g.st = .landed → g.dst = some a → b < a ∨ a + g.len ≤ b) → t.mem.byte b = s.mem.byte b) ∧
      t.halted = s.halted ++ [h] ∧ h.place = .core c.val ∧ h.core = c ∧ h.st.sid = st.sid ∧ h.st.pc = st.pc ∧ h.st.v = st.v ∧ h.st.p = st.p ∧ h.st.f = st.f ∧ h.st.ma = st.ma ∧
      h.st.loops = st.loops ∧ h.st.tb.id = st.tb.id ∧ h.st.accs = st.accs ∧ (st.xpend = [] → h.st.x = st.x ∧ h.st.xbad = st.xbad) ∧
      h.st.copies.map (fun k => (k.cid, k.dst, k.src, k.arg, k.kind, k.tok)) = st.copies.map (fun k => (k.cid, k.dst, k.src, k.arg, k.kind, k.tok)) ∧
      (∀ k ∈ h.st.copies, ∀ g ∈ k.segs, g.st = .idle) ∧
      (∀ i : Fin 8, (h.st.tok[i]).pend = ((st.copies.filter fun k => k.tok.toNat == i.val).map Copy.contrib).sum ∧ (h.st.tok[i]).cond = (st.tok[i]).cond) ∧
      t.mons[c] = { line := none, hit := false } ∧ ∀ r ∈ t.preqs, r.sid ≠ st.sid) ∧
    (st.vpend = [] → st.mpend = [] → st.phase = .dying → (st.accs ≠ [] → exec (.copyAbort c) s = .next s) ∧
      (st.accs = [] → ∃ t, exec (.copyAbort c) s = .next t ∧ t.strand? c = none ∧ t.mem = s.mem ∧ t.halted = s.halted))) ∧
  (∀ (s : State) (c : Fin 192) (h : Halted), s.halted.find? (fun h => h.place == .core c.val) = some h →
    let q : Fin 48 := ⟨c.val / 4, by omega⟩
    ((∀ i : Fin 8, (s.clusters[q].granary[i]) ≠ none) → exec (.granarySwap c) s = .next s) ∧
    ∀ i : Fin 8, s.clusters[q].granary[i] = none → (∀ j : Fin 8, j < i → (s.clusters[q].granary[j]) ≠ none) → ∃ t, exec (.granarySwap c) s = .next t ∧
      t.mem = s.mem ∧ t.cores = s.cores ∧ (t.clusters[q].granary[i]) = some h.st.sid ∧
      t.halted = s.halted.map fun o => if o.st.sid = h.st.sid then { h with place := .granary q.val i.val } else o) ∧
  (∀ (s : State) (sid : Nat) (h : Halted) (l : Launch) (o : Nat), sid ≠ 0 → s.halted.find? (fun h => h.st.sid == sid) = some h → s.launch? h.st.launch = some l →
    let p := s.parts[h.st.part]
    l.parked = false → (∃ a, h.place = .core a) ∨ (∃ a b, h.place = .granary a b) →
    (s.rsvOf sid 0 0 = none ∧ p.save.find 131072 = some o) ∨ (∃ r, s.rsvOf sid 0 0 = some r ∧ r.off = o ∧ r.part = h.st.part) → h.badLines = [] → s.mem.wf = true →
    ∃ t, exec (.saveAreaMove sid 0 0) s = .next t ∧ t.cores = s.cores ∧
      t.halted = (s.halted.map fun x => if x.st.sid = h.st.sid then { h with place := .save (p.save.base + o) } else x) ∧
      (t.parts[h.st.part]).traffic = p.traffic + h.bytes.length ∧
      (∀ i b, h.bytes[i]? = some b → t.mem.byte (p.save.base + o + i) = b ∧ t.mem.key (p.save.base + o + i) = p.keyId) ∧
      (∀ a, a < p.save.base + o ∨ p.save.base + o + h.bytes.length ≤ a → t.mem.byte a = s.mem.byte a)) ∧
  (∀ (s : State) (i : Nat) (p : Placing) (sid : Nat) (c : Fin 192) (h : Halted) (l : Launch) (g : Nat), s.placing[i]? = some p → p.seed = none → p.sids = [sid] → p.cores = [c.val] →
    s.halted.find? (fun h => h.st.sid == sid) = some h → s.launch? p.launch = some l → l.parked = false → l.ending = .live → h.place = .granary (c.val / 4) g →
    h.st.accs = [] → s.coreReady p.launch c.val = true → (h.st.clkFixed = true → s.tick % 400 = 0) → h.badLines = [] → h.st.copies = [] →
    ∃ t, exec (.strandResume i) s = .next t ∧ t.mem = s.mem ∧ t.placing = s.placing.eraseIdx i ∧ t.halted = s.halted.filter (fun o => o.st.sid != sid) ∧
      t.cores[c].kcache = [] ∧ t.strand? c = some { h.st with
        phase := .running, next := ⟨s.cyc c, s.cyc c, s.cyc c, s.cyc c⟩, scycSince := s.cyc c, slept := 0, rvGo := ⟨false, false, false, false⟩ }) ∧
  ∀ (s : State) (id q : Nat), (∀ k, (∃ st ∈ s.strandsOn k, st.launch = id) ↔ k = q) →
    (s.canEvict q = false → s.preemptFrom id none = s.answer (.preempted 3)) ∧
    (s.canEvict q = true → ∃ t : State, s.preemptFrom id none = t.answer (.preempted 0) ∧ t.mem = s.mem ∧ t.cores = s.cores ∧
      (∀ st ∈ s.strandsOn q, st.launch = id → st.phase = .running → ∃ r ∈ t.preqs, r.sid = st.sid) ∧ ∀ l, t.launch? id = some l → l.asked = true)

/-- R53, R269, R285, R286, R301, R304: a placed core-level seed starts its strand under the point at which it was placed: the PCs are the entries of the
image's header, S's plus the seed's ENTRY, a slot whose entry is 0 has ended; registers, flags, tokens and queues are zero and empty, SYNCMASK names
all four slots, VSHAPE all elements; SEEDPTR and FRAMEPTR are the seed's; a fixed-timing strand starts at a rotation edge. While a strand of its
launch is halted the seed waits in its queue again (R293), and that of an ended launch is discarded and logged (R282). -/
def Sys2Proof.Claims.StrandsStart : Prop :=
  ∀ (s : State) (i : Nat) (p : Placing) (sd : Seed) (l : Launch) (c : Fin 192), s.placing[i]? = some p → p.seed = some sd → s.launch? p.launch = some l →
    p.cores = [c.val] →
    (l.ending ≠ .live → exec (.strandStart i) s = .next ((s.dropPlacing i).notice l.part 1 sd.addr.toNat 0)) ∧
    (l.ending = .live → l.parked = true ∨ (∃ h ∈ s.halted, h.st.launch = l.id) → ∃ t, exec (.strandStart i) s = .next t ∧ t.cores = s.cores ∧ t.mem = s.mem ∧
      t.placing = s.placing.eraseIdx i ∧ let n := (sd.flags.extractLsb' 32 3).toNat
        (t.parts[l.part]).queues[n]? = some ((s.parts[l.part]).queues[n]?.getD [] ++ [sd])) ∧
    (l.ending = .live → l.parked = false → (∀ h ∈ s.halted, h.st.launch ≠ l.id) → s.coreReady p.launch c.val = true →
    let o : OpPoint := p.point
    let head (k : Nat) : W64 := l.heads.getD (4 * o.variant + k) 0
    let fixed : Bool := o.freq == 1200
    (fixed = true → s.tick % 400 ≠ 0 → exec (.strandStart i) s = .next s) ∧
    ((fixed = true → s.tick % 400 = 0) →
    ∃ t st, exec (.strandStart i) s = .next t ∧ t.strand? c = some st ∧ t.mem = s.mem ∧ t.placing = s.placing.eraseIdx i ∧ (∀ k, k ≠ c → t.cores[k] = s.cores[k]) ∧
      st.launch = l.id ∧ st.part = l.part ∧ st.index = (sd.place.extractLsb' 0 32).toNat ∧ st.member = 0 ∧ st.prio = sd.flags.extractLsb' 32 3 ∧ st.phase = .running ∧
      st.pc = ⟨head 0 + sd.entry, head 1, head 2, head 3⟩ ∧ st.ended = ⟨false, head 1 == 0, head 2 == 0, head 3 == 0⟩ ∧
      (∀ n : BitVec 5, st.xv n = 0 ∧ st.xp n = false) ∧ (∀ n : Fin 16, st.vbad[n] = 0 ∧ st.p[n] = 0 ∧ st.pbad[n] = 0 ∧ st.f[n] = 0 ∧ ∀ e : Fin 1024, (st.v[n])[e] = 0) ∧
      (∀ n : Fin 8, st.ma[n] = 0 ∧ (st.tok[n]).pend = 0 ∧ (st.tok[n]).cond = 0) ∧ (∀ n : Fin 4, st.ts[n] = 0) ∧
      st.qv.items = [] ∧ st.qm.items = [] ∧ st.qh.items = [] ∧ st.qr.items = [] ∧ st.syncmask = 15 ∧ st.xown = 0 ∧ st.vshape = 0x3FF ∧ st.pmark = false ∧
      st.fstatV = 0 ∧ st.fstatM = 0 ∧ st.trapvec = 0 ∧ st.seedptr = sd.addr ∧ st.frameptr = sd.frame ∧ st.clkFixed = fixed ∧ st.volt = o.volt ∧ st.handler = false ∧ st.loops = [] ∧
      ∃ g ∈ t.gangs, g.gid = st.gang ∧ g.launch = l.id ∧ g.table = l.mgroups))

/-- R287 to R290: the candidates are the halted gangs and the ready seeds, in rank order: by PRIO, deadline, service time, partition, launch, strands
before seeds, index. A decision of the scheduler places the one that comes first, where it has a place, its seed leaving its queue; where none has a
place no seed leaves and nothing is placed. No strand is moved or stopped by the decision itself, only requests are made, of work whose PRIO is lower;
and memory, cores and halted strands are as before but where a slot's image returns from the save area. Work is placed on clusters of its own clock
mode alone (R296). Which places are taken, and what is pre-empted of what may be, are the model's reading (log 68). Service time grows by the clusters
held over the share, once in every microsecond. A slice that has run out requests the pre-emption of a cluster's strands where work of another
partition of equal PRIO ranks before them. Stated where no seed is to be discarded. -/
def Sys2Proof.Claims.SchedulerDecides : Prop :=
  ∀ (s : State),
    (s.discardSeeds = s →
      let s0 := s.sweepRsvs.activate.givenAll
      ((∀ l ∈ s.launches, l.given = []) → s0 = s.sweepRsvs.activate) ∧
      ∃ t, exec .scheduleDecision s = .next t ∧
        ((∀ l ∈ s.launches, ∀ k ∈ l.slots, ∀ a, k.img ≠ some (a, true)) → t.mem = s.mem ∧ t.cores = s.cores ∧ t.halted = s.halted) ∧
        s.preqs <+: t.preqs ∧ s.placing <+: t.placing ∧
        (∀ u us s1 p, s0.cands = u :: us → s0.tryPlace u true = some (s1, p) → p ∈ t.placing ∧
          ∀ sd l, u.seed = some sd → s0.launch? u.launch = some l → ∀ es ∈ (t.parts[l.part]).queues.toList, sd ∉ es) ∧
        ((∀ u ∈ s0.cands, s0.tryPlace u true = none ∧ s0.tryPlace u false = none) → t.placing = s0.placing ∧ ∀ p : Fin 64, t.parts[p].queues = s.parts[p].queues) ∧
        (s0.cands = [] → t = s0)) ∧
    (∀ u, u ∈ s.cands ↔ u ∈ s.haltedCands ∨ u ∈ s.seedCands) ∧
    s.cands.Pairwise (fun a b => keyLt (s.candKey b) (s.candKey a) = false) ∧
    (∀ u v l m, s.launch? u.launch = some l → s.launch? v.launch = some m →
      let late (x : Launch) : Nat := if x.deadline = 0 then 2 ^ 64 else x.deadline
      let vt (x : Launch) : Nat := s.parts[x.part].vt
      let kind (x : Cand) : Nat := if x.seed.isSome then 1 else 0
      (keyLt (s.candKey u) (s.candKey v) = true ↔ v.prio < u.prio ∨ (u.prio = v.prio ∧ (late l < late m ∨ (late l = late m ∧ (vt l < vt m ∨ (vt l = vt m ∧
        (l.part < m.part ∨ (l.part = m.part ∧ (l.order < m.order ∨ (l.order = m.order ∧ (kind u < kind v ∨ (kind u = kind v ∧ u.index < v.index))))))))))))) ∧
    (∀ u qs, s.victims u = some qs → ∀ q ∈ qs, ∀ st ∈ s.strandsOn q, st.prio < u.prio) ∧
    (∀ u s1 p, s.tryPlace u true = some (s1, p) → ∀ c : Fin 192, c.val ∈ p.cores → (s1.clusters[clusterOf c]).fixed = u.fixed) ∧
    (dtime s.tick / 1000 ≤ s.vtUs → exec .vtUpdate s = .next s) ∧
    (s.vtUs < dtime s.tick / 1000 →
      let held (p : Fin 64) : Nat := ((List.finRange 48).filter fun q : Fin 48 => match s.clusters[q].holder with
        | some (id, _) => (match s.launch? id with | some l => l.part == p | none => false)
        | none => false).length
      let vt (p : Fin 64) : Nat := s.parts[p].vt + held p * 65536 / s.parts[p].share
      (∃ p : Fin 64, s.parts[p].active = true ∧ s.busyPart p = true ∧ vt p ≤ 2 ^ 40) ∨ (∀ p : Fin 64, s.parts[p].active = true → s.busyPart p = false) →
        ∃ t, exec .vtUpdate s = .next t ∧ t.vtUs = s.vtUs + 1 ∧ t.mem = s.mem ∧ t.cores = s.cores ∧ ∀ p : Fin 64, t.parts[p] = { s.parts[p] with vt := vt p }) ∧
    ∀ (q : Fin 48) (st : Strand) (rest : List Strand), s.strandsOn q.val = st :: rest →
      let x := s.clusters[q]
      (dtime s.tick ≤ x.acquired + 1000 * s.parts[st.part].pslice → exec (.psliceExpiry q) s = .next s) ∧
      (x.acquired + 1000 * s.parts[st.part].pslice < dtime s.tick → s.leaving q.val = false → s.canEvict q.val = true →
        (∃ u ∈ s.cands, (∃ l, s.launch? u.launch = some l ∧ l.part ≠ st.part) ∧ s.hopeless u = false ∧ (∀ t ∈ s.strandsOn q.val, t.prio = u.prio) ∧
          keyLt (s.candKey u) (s.clusterKey q.val) = true) →
        ∃ t, exec (.psliceExpiry q) s = .next t ∧ t.mem = s.mem ∧ t.cores = s.cores ∧ ∀ o ∈ s.strandsOn q.val, o.phase = .running → ∃ r ∈ t.preqs, r.sid = o.sid)

/-- Strands start; a decision places what ranks first; service times; the slice (R280, R282, R286, R287, R288, R289, R290, R291, R293, R296). -/
def Obligations.SchedulerPlacesWork : Prop :=
  Claims.StrandsStart ∧ Claims.SchedulerDecides

/-- R208 to R210, R212, R245: a haul channel takes a published record and performs it unit by unit: COPY, COPY2D, FILL and STOW move 2 KiB at a time in
ascending order (the model's choice, log 45: R209 leaves the order open), each unit's bytes written where the record says; the last unit completes the
record: STATUS 0 is written and OWN cleared, at the place that the record's address has by then (`HaulDone`); where it has none, the completed record
waits for it. A record of which OWN is 0, or whose SEQ is not the next, is waited for, as is one in a discarded page (R388). Stated of a record alone
in its chain, of a launch that runs, none of whose source lines is poisoned or lost, and whose addresses translate; of STOW also that its last unit
only reads the host back. -/
def Sys2Proof.Claims.HaulMovesBytes : Prop :=
  ∀ (s : State) (c : Fin 192),
    let k := s.chans[c]
    let e := engOf c
    let l := s.chanLaunch k
    (s.mayRead k = false → exec (.haulRecordRead c) s = .next s) ∧
    (s.mayRead k = true → k.recs = [] → (∀ w ∈ s.wires, w.chan ≠ c.val) → ∀ q qs t, s.haulRun e k.part l false 2 k.at_ 64 = .ok (q :: qs) → s.haulTgt e k.part l k.at_ true = .ok t →
      s.mem.bad (q.phys / 64) = false → k.doomed = [] →
      let bs := s.mem.bytesAt (if q.phys < 2 ^ 52 then (s.parts[k.part]).keyId else 0) q.phys 64
      let r := recordOf k.at_ bs
      let ctl := leNat (bs.take 8)
      let reads (k' : Chan) : Prop := ∃ t, exec (.haulRecordRead c) s = .next t ∧ t.mem = s.mem ∧ t.cores = s.cores ∧ t.chans = s.chans.set c k'
      (q.zero = true ∨ ctl % 2 = 0 ∨ (∃ n, k.seq = some n ∧ r.seq ≠ n + 1) → reads { k with waiting := true }) ∧
      (q.zero = false → ctl % 2 = 1 → (∀ n, k.seq = some n → r.seq = n + 1) → recordBad ctl r.next r.src r.dst r.len r.arg1.toNat r.arg2.toNat = false → r.kind ≠ 7 → r.kind ≠ 8 → r.units ≠ 0 →
        reads { k with at_ := r.next, seq := some r.seq, waiting := false, recs := [r] })) ∧
    ∀ (r : HaulRec) (l0 : Launch), k.recs = [r] → k.busy = true → l = some l0 → l0.ending = .live → r.status = none → r.wait = none → r.poison = none → r.hurt = false → r.report = 0 → r.blind = false →
      (∀ w ∈ s.wires, w.chan ≠ c.val) →
      let j := r.done.length
      let n := min 2048 (r.len - 2048 * j)
      let row := j / ((r.len % 2 ^ 24 + 2047) / 2048)
      let o := 2048 * (j % ((r.len % 2 ^ 24 + 2047) / 2048))
      let m := min 2048 (r.len % 2 ^ 24 - o)
      let at_ (a : Nat) (stride : W64) : Nat := (BitVec.ofNat 64 (a + row * stride.toNat)).toNat + o
      let does (i : Instr) (kind : Nat) (reads writes : List (Nat × Nat)) (data : List Byte → List Byte) : Prop := r.kind = kind → ∀ rd wr,
        s.haulRuns e k.part l false reads = .ok rd → s.haulRuns e k.part l true writes = .ok wr → (∀ p ∈ rd, ∀ q < p.len, s.mem.bad ((p.phys + q) / 64) = false) →
        let m1 := (hWrites wr (data (s.mem.gather rd).1) []).foldl Mem.apply s.mem
        let done := r.done ++ [j]
        (j + 1 < r.units → ∃ t, exec i s = .next t ∧ t.mem = m1 ∧ t.cores = s.cores ∧ t.chans[c].recs = [{ r with done := done }]) ∧
        (j + 1 = r.units → ∃ t, exec i s = .next t ∧ t.cores = s.cores ∧ HaulDone c k l r 0 0 m1 { r with done := done, status := some 0 } t)
      does (.copy c 0) 1 [(r.src + 2048 * j, n)] [(r.dst + 2048 * j, n)] id ∧
      does (.copy2d c 0) 2 [(at_ r.src r.arg1, m)] [(at_ r.dst r.arg2, m)] id ∧
      does (.fill c 0) 3 [] [(r.dst + 2048 * j, n)] (fun _ => (List.range 2048).map fun q => r.arg1.extractLsb' (8 * (q % 8)) 8) ∧
      (j < (r.len + 2047) / 2048 → does (.stow c 0) 8 [(r.src + 2048 * j, n)] [(r.out + r.dst + 2048 * j, n)] id) ∧
      (r.kind = 8 → j = (r.len + 2047) / 2048 → ∃ t, exec (.stow c 0) s = .next t ∧ HaulDone c k l r 0 0 s.mem { r with done := r.done ++ [j], status := some 0 } t)

/-- R210, R380 to R383: PACK turns 4 KiB of source into a block of pack format and UNPACK a block into 4 KiB, or ends with BAD_RECORD at one that breaks
the format; a packed block unpacks to the bytes it was made of where it is lossless (blocks in ascending order, log 45). Stated of records alone in
their chains, of a launch that runs, with more than one unit to go and no poisoned or lost line. -/
def Sys2Proof.Claims.PackFormat : Prop :=
  (∀ (s : State) (c : Fin 192) (r : HaulRec) (l0 : Launch),
    let k := s.chans[c]
    let e := engOf c
    let l := s.chanLaunch k
    k.recs = [r] → k.busy = true → l = some l0 → l0.ending = .live → r.status = none → r.wait = none → r.poison = none → r.hurt = false → r.done.length + 1 < r.len / 4096 →
    let j := r.done.length
    let mode := if r.arg1.getLsbD 0 then (if r.arg1.extractLsb' 1 4 = 0 then 1 else 2) else 0
    (r.kind = 4 → ∀ rd, s.haulRuns e k.part l false [(r.src + 4096 * j, 4096)] = .ok rd → (∀ p ∈ rd, ∀ q < p.len, s.mem.bad ((p.phys + q) / 64) = false) →
      let out := packBlock mode (s.mem.gather rd).1 []
      ∀ wr, s.haulRuns e k.part l true [(r.dst + r.out, out.length)] = .ok wr → ∃ t, exec (.pack c 0) s = .next t ∧
        t.mem = (hWrites wr out []).foldl Mem.apply s.mem ∧ t.chans[c].recs = [{ r with out := r.out + out.length, done := r.done ++ [j] }]) ∧
    (r.kind = 5 → ∀ hd, s.haulRuns e k.part l false [(r.src + r.out, 32)] = .ok hd → (∀ p ∈ hd, ∀ q < p.len, s.mem.bad ((p.phys + q) / 64) = false) →
      (blockHead (s.mem.gather hd).1 false s.free = none → r.report = 0 → ∃ t, exec (.unpack c 0) s = .next t ∧ HaulDone c k l r 3 0 s.mem { r with status := some 3 } t) ∧
      ∀ b, blockHead (s.mem.gather hd).1 false s.free = some b → ∀ rd wr, s.haulRuns e k.part l false [(r.src + r.out, b.size)] = .ok rd →
        (∀ p ∈ rd, ∀ q < p.len, s.mem.bad ((p.phys + q) / 64) = false) → (expandBlock b ((s.mem.gather rd).1.drop 32) []).2 = [] →
        s.haulRuns e k.part l true [(r.dst + 4096 * j, 4096)] = .ok wr → ∃ t, exec (.unpack c 0) s = .next t ∧
          t.mem = (hWrites wr (expandBlock b ((s.mem.gather rd).1.drop 32) []).1 []).foldl Mem.apply s.mem ∧ t.chans[c].recs = [{ r with out := r.out + b.size, done := r.done ++ [j] }])) ∧
  ∀ (bs : List Byte) (free : Nat), bs.length = 4096 → let out := packBlock 0 bs []
    out.length % 64 = 32 ∧ out.length ≤ 4128 ∧ ∃ b, blockHead (out.take 32) false free = some b ∧ b.size = out.length ∧ expandBlock b (out.drop 32) [] = (bs, [])

/-- Haul records are read in order; COPY, COPY2D, FILL and STOW move bytes; PACK and UNPACK are lossless (R208, R209, R210, R212, R245, R327, R347, R380,
R381, R382, R383). -/
def Obligations.HaulMovesBytes : Prop :=
  Claims.HaulMovesBytes ∧ Claims.PackFormat

/-- R210, R224, R327, R386 to R388, R390, R396: REDUCE sends its source lines one by one, in ascending order (the model's choice, log 45), to the bank of
their destination, and takes back, while its channel pauses, those that wait on an order; an arrival in its turn is added to its line, element by
element, one out of turn is held, one of a cluster whose port is closed fails its record, whose STATUS becomes 5 and REPORT the line's address; NOTE
writes its value; MIGRATE moves one page and exchanges the two leaves, which no cache keeps (R347), a discarded page moves as zeros, and a page of
which a launch uses the frame, a discarded destination, a poisoned line and data lost in the engine abort it, the last three leaving the partner's
bytes undefined; a poisoned line of a table is a fault on which it waits (log 47), and a page that has no leaf of the kind is a bad record. Stated of
records alone in their chains, of a launch that runs. -/
def Obligations.HaulReducesNotesAndMigrates : Prop :=
  ∀ (s : State) (c : Fin 192),
    let k := s.chans[c]
    let e := engOf c
    let l := s.chanLaunch k
    (∀ (r : HaulRec) (l0 : Launch), k.recs = [r] → k.busy = true → l = some l0 → l0.ending = .live → r.status = none → r.wait = none →
      let mine (a : Arrival) : Bool := a.chan == c.val && a.rec_ == r.seq.toNat
      (r.kind = 6 →
        (s.paused k = true → (∃ d ∈ s.reductions, d.held.any mine = true) → ∃ t, exec (.reduce c 0) s = .next t ∧ t.mem = s.mem ∧ t.chans[c].recs = [{ r with wait := some 0 }] ∧
          t.arrivals = s.arrivals.filter (fun a => !mine a) ∧ ∀ d ∈ t.reductions, d.held.any mine = false) ∧
        (s.paused k = false ∨ (∀ d ∈ s.reductions, d.held.any mine = false) → r.hurt = false → ∀ j, j < r.len / 64 →
          (∀ i ≤ j, i = j ↔ i ∉ r.done ∧ (∀ a ∈ s.arrivals, mine a = true → a.off ≠ i) ∧ ∀ d ∈ s.reductions, ∀ a ∈ d.held, mine a = true → a.off ≠ i) →
          ∀ rd phys tag z, s.haulRuns e k.part l false [(r.src + 64 * j, 64)] = .ok rd → (∀ p ∈ rd, ∀ q < p.len, s.mem.bad ((p.phys + q) / 64) = false) →
          s.haulTgt e k.part l (r.dst + 64 * j) true = .ok (phys, tag, z) → ∀ q : Fin 48, s.clusters[q].yard = some ((phys - 2 ^ 72) / 2 ^ 25) →
          (∀ q' : Fin 48, q' < q → s.clusters[q'].yard ≠ some ((phys - 2 ^ 72) / 2 ^ 25)) →
          ∃ t, exec (.reduce c 0) s = .next t ∧ t.mem = s.mem ∧ t.chans[c].recs = [r] ∧
            ∃ a, t.arrivals = s.arrivals ++ [a] ∧ a.chan = c.val ∧ a.off = j ∧ a.line = phys / 64 ∧ a.cluster = q.val ∧ a.j = r.arg1.toNat / 2 ^ 32 ∧ a.n = r.arg2.toNat % 2 ^ 16 ∧
              a.data = (s.mem.gather rd).1 ∧ a.bad = false ∧ (a.fp = true ↔ r.arg1.toNat % 16 = 0))) ∧
      (r.kind = 9 → r.noted = false → r.dst ≠ 0 → ∀ wr, s.haulRuns e k.part l true [(r.dst, 8)] = .ok wr → ∃ t, exec (.note c 0) s = .next t ∧
        t.mem = (hWrites wr ((List.range 8).map fun i => r.arg1.extractLsb' (8 * i) 8) []).foldl Mem.apply s.mem ∧ t.chans[c].recs = [{ r with noted := true }]) ∧
      (r.kind = 7 → r.len ≠ 0 →
        let p := k.part
        let size := ((s.migLeaf p r.src).map MigPage.size).getD (2 ^ 16)
        let j := r.done.length
        let va := r.src + size * j
        let vb := r.dst + size * j
        let ends (x rep : Nat) (m : Mem) : Prop := ∃ t, exec (.migrate c 0) s = .next t ∧ HaulDone c k l r x rep m { r with status := some x, report := rep } t
        (∀ a w, s.migPoisoned p (r.migPages size) = some (a, w) → s.faultAt p a = none → ∃ t, exec (.migrate c 0) s = .next t ∧ t.mem = s.mem ∧
          t.chans[c].recs = [{ r with wait := some s.nextFseq }] ∧ t.pfaults = s.pfaults ++
            [{ fseq := s.nextFseq, part := p, kind := 4, write := w, scout := false, addr := a, eng := e.val, chan := c.val % 8 }]) ∧
        (s.migPoisoned p (r.migPages size) = none → s.migLeaf p va = none ∨ s.migLeaf p vb = none → ends 3 (if r.done = [] then 0 else va) s.mem) ∧
        ∀ x y : MigPage, s.migPoisoned p (r.migPages size) = none → s.migLeaf p va = some x → s.migLeaf p vb = some y → x.size = size → y.big = x.big →
        (r.done = [] → s.migOk p r x.big = true) →
        ∀ fa ta za fb tb zb, s.leafTgt p (x.xlat p va) va = .ok (fa, ta, za) → s.leafTgt p (y.xlat p vb) vb = .ok (fb, tb, zb) →
        let lost : Mem := (s.undefine (y.frame s p).1 size (y.frame s p).2).mem
        let bad : Option Nat := if r.hurt then some (fa / 64) else if za then none else s.mem.firstBad fa size
        (s.frameLive fa size = true → ends 4 va s.mem) ∧
        (s.frameLive fa size = false → s.frameLive fb size = true → ends 4 vb s.mem) ∧
        (s.frameLive fa size = false → s.frameLive fb size = false → zb = true → ends 4 vb lost) ∧
        (s.frameLive fa size = false → s.frameLive fb size = false → zb = false → ∀ n, bad = some n → ends 4 (va + (64 * n - fa)) lost) ∧
        (s.frameLive fa size = false → s.frameLive fb size = false → zb = false → bad = none → size * (j + 1) ≠ r.len →
          ∃ t, exec (.migrate c 0) s = .next t ∧ t.chans[c].recs = [{ r with done := r.done ++ [j] }] ∧
          (let w (m : Mem) (x tag : Nat) (bs : List Byte) : Mem := m.apply { addr := x, data := bs.map some, marks := [], tag := tag }
           let key := (s.parts[p]).keyId
           t.mem = w (w (w s.mem fb tb (if za then List.replicate size 0 else s.mem.bytesAt ta fa size)) x.at_ key (leBytes 8 (swapLeaf x.entry y.leaf).toNat)) y.at_ key
             (leBytes 8 (swapLeaf y.entry x.leaf).toNat)) ∧
          (∀ (e : Fin 25) (o : Xlat), o ∈ t.xlats[e] → o.holds p va = false ∧ o.holds p vb = false) ∧
          ∀ u v : W64, (swapLeaf u v).extractLsb' 8 40 = v.extractLsb' 8 40 ∧ (swapLeaf u v).extractLsb' 48 12 = v.extractLsb' 48 12 ∧ (swapLeaf u v).extractLsb' 5 2 = v.extractLsb' 5 2 ∧
            (swapLeaf u v).extractLsb' 0 5 = u.extractLsb' 0 5 ∧ (swapLeaf u v).extractLsb' 60 4 = u.extractLsb' 60 4))) ∧
    ∀ (q : Fin 48) (i : Nat) (a : Arrival), (s.arrivals.filter fun a => a.cluster == q.val)[i]? = some a →
      let x := s.clusters[q]
      let gone := s.arrivals.erase a
      let red := (s.reductions.find? fun r => r.line == a.line).getD { line := a.line, n := a.n, next := 0, held := [] }
      let ch : Fin 192 := ⟨a.chan % 192, Nat.mod_lt _ (by omega)⟩
      (x.gated = true → ∃ t, exec (.reduceArrival q i) s = .next t ∧ t.reductions = s.reductions ∧ (∀ b ∈ t.arrivals, b ∈ gone) ∧
        ∀ r, s.chans[ch].recs = [r] → r.kind = 6 → r.seq.toNat = a.rec_ → r.status = none →
          let rep := r.dst + 64 * a.off
          HaulDone ch s.chans[ch] (s.chanLaunch s.chans[ch]) r 5 rep s.mem { r with status := some 5, report := rep } t) ∧
      (x.gated = false → x.yard = some ((64 * a.line - 2 ^ 72) / 2 ^ 25) → a.j < a.n → red.next ≤ a.j → red.n = a.n → (∀ h ∈ red.held, h.j ≠ a.j) →
        (a.j = red.next → red.held = [] → s.mem.wf = true → 2 ^ 72 ≤ 64 * a.line → a.data.length = 64 →
          (∀ r ∈ s.chans[ch].recs, r.status = none ∧ (r.kind = 6 → r.done.length + 1 < r.units)) → ∃ t, exec (.reduceArrival q i) s = .next t ∧ (∀ b ∈ t.arrivals, b ∈ gone) ∧
          (let word (m : Mem) (w : Nat) : W32 := BitVec.ofNat 32 (leNat ((List.range 4).map fun z => m.byte (64 * a.line + 4 * w + z)))
           let src (w : Nat) : W32 := BitVec.ofNat 32 (leNat ((a.data.drop (4 * w)).take 4))
           (∀ w < 16, word t.mem w = if a.fp then (addF32 0 (word s.mem w) (src w)).1 else word s.mem w + src w) ∧
           (∀ z, z < 64 * a.line ∨ 64 * a.line + 64 ≤ z → t.mem.byte z = s.mem.byte z) ∧ (a.bad = true → t.mem.bad a.line = true)) ∧
          ∀ r, s.chans[ch].recs = [r] → r.kind = 6 → r.seq.toNat = a.rec_ → ∃ r', t.chans[ch].recs = [r'] ∧ r'.done = r.done ++ [a.off] ∧ r'.status = none) ∧
        (red.next < a.j → s.bankHeld a.line < 1024 → (∀ h ∈ red.held, h.j ≠ red.next) → ∃ t, exec (.reduceArrival q i) s = .next t ∧ t.mem = s.mem ∧ t.arrivals = gone ∧
          { red with held := red.held ++ [a] } ∈ t.reductions) ∧
        (red.next < a.j → 1024 ≤ s.bankHeld a.line → exec (.reduceArrival q i) s = .next s))

/-- R342 to R346: an engine that finds a page's leaf by a walk keeps it in its translation cache and goes on; a page that cannot be used is a fault,
queued once, on which what needs the page waits; a scout pass does the same ahead of the data; a leaf that names HBM storage where there is none stops
the machine, by name (log 51). A completed record whose line had no translation is retired once it has one. Of the failed chains of a strand that of
the lowest channel is raised first, in its H slot. -/
def Obligations.EnginesTranslateAndFault : Prop :=
  ∀ (s : State) (c : Fin 192),
    let k := s.chans[c]
    let e := engOf c
    let alone : Prop := ∀ q : Fin 192, q ≠ c → engOf q = engOf c → s.chanNeeds q = []
    (∀ a wr refused, s.scoutNext c = some (a, wr) →
      (s.lookUp e k.part a wr refused = none → exec (.scoutPass c refused) s = .fault (.noStorage a)) ∧
      (∀ x, s.lookUp e k.part a wr refused = some (.ok x) → ∃ t, exec (.scoutPass c refused) s = .next t ∧ t.mem = s.mem ∧ t.cores = s.cores ∧ x ∈ t.xlats[e]) ∧
      (∀ f host, s.lookUp e k.part a wr refused = some (.error (f, host)) →
        ∃ t, exec (.scoutPass c refused) s = .next t ∧ t.mem = s.mem ∧ t.cores = s.cores ∧ t.pfaults = s.pfaults ++
          [{ fseq := s.nextFseq, part := k.part, kind := f.code, write := wr, scout := true, addr := a, eng := e.val, chan := c.val % 8 }])) ∧
    (s.scoutNext c = none → ∀ refused, exec (.scoutPass c refused) s = .next s) ∧
    (∀ a wr refused, (a, wr, none) ∈ s.chanNeeds c → alone →
      (k.recs = [] → (∀ w ∈ s.wires, w.chan ≠ c.val) →
        (s.lookUp e k.part a wr refused = none → exec (.tableWalk e k.part a wr refused) s = .fault (.noStorage a)) ∧
        (∀ x, s.lookUp e k.part a wr refused = some (.ok x) → ∃ t, exec (.tableWalk e k.part a wr refused) s = .next t ∧ t.mem = s.mem ∧ t.cores = s.cores ∧
          t.chans = s.chans ∧ x ∈ t.xlats[e]) ∧
        (∀ f host, s.lookUp e k.part a wr refused = some (.error (f, host)) → s.faultAt k.part a = none →
          ∃ t, exec (.tableWalk e k.part a wr refused) s = .next t ∧ t.mem = s.mem ∧ t.chans[c] = { k with lineWait := some s.nextFseq } ∧ t.pfaults = s.pfaults ++
            [{ fseq := s.nextFseq, part := k.part, kind := f.code, write := wr, scout := false, addr := a, eng := e.val, chan := c.val % 8 }]) ∧
        (∀ f host o, s.lookUp e k.part a wr refused = some (.error (f, host)) → s.faultAt k.part a = some o →
          ∃ t, exec (.tableWalk e k.part a wr refused) s = .next t ∧ t.mem = s.mem ∧ t.chans[c] = { k with lineWait := some o.fseq } ∧ t.pfaults = s.pfaults)) ∧
      (∀ r x, k.recs = [r] → k.at_ = 0 → r.status = some 0 → r.report = 0 → r.kind ≠ 4 → s.lookUp e k.part a wr refused = some (.ok x) →
        ∃ t, exec (.tableWalk e k.part a wr refused) s = .next t ∧ HaulDone c k (s.chanLaunch k) r 0 0 s.mem r t)) ∧
    ∀ st0, s.strand? c = some st0 →
      let st := st0.settle (s.cyc c)
      (st.phase ≠ .running ∨ st.handler = true ∨ st.trapAt ≠ none ∨ st.efaultAddr = [] → exec (.engineFault c) s = .next s) ∧
      ∀ ch a, st.phase = .running → st.handler = false → st.trapAt = none → (ch, a) ∈ st.efaultAddr → (∀ x ∈ st.efaultAddr, x ≠ (ch, a) → ch < x.1) →
        exec (.engineFault c) s = .next (s.raiseFor c { st with pre := none } .h .engineFault a (some ch))

/-- R246, R249 to R254, R257 to R259: quarry logic. A posted slab whose slot has come leaves its core where its stack has room, and joins the stack's
queue in order. A packet of a reserved kind, or with a reserved field that is not zero, changes nothing but its completion record (status 5), written
high half first. A packet starts where one of 960 query slots is free, and holds it until its record is written; those in progress complete in any
order, and those of a launch that is ending are abandoned. A legal GSUM writes for each element the fused sum over its rows in index order, starting
from +0, and reports its row count. A GSEARCH that starts searches shard 0 and sends each other shard its sub-query; a sub-query reports to its home
stack; a search all of whose shards have reported completes, with the best entries of its reports in key order, as many as it asked for. A GSUM that
read a poisoned line writes its whole result poisoned and reports status 1. Stated of GSUM where no data was lost in the logic. -/
def Obligations.QuarryPackets : Prop :=
  ∀ (s : State) (k : Fin 16),
    let q := s.quarry[k]
    (∀ (c : Fin 192) (pre post : List Slab) (b : Slab), s.cores[c].slabs = pre ++ b :: post → (∀ o ∈ pre, o.stack ≠ k.val) → b.stack = k.val →
      (b.go = true → q.transit.length + q.arrived.length < 64 →
        exec (.slabSend c k) s = .next ((s.setCore c { s.cores[c] with slabs := pre ++ post }).setQuarry k { q with transit := q.transit ++ [b] })) ∧
      (b.go = false ∨ 64 ≤ q.transit.length + q.arrived.length → exec (.slabSend c k) s = .next s)) ∧
    (q.transit = [] → exec (.slabArrival k) s = .next s) ∧
    (∀ b rest, q.transit = b :: rest → exec (.slabArrival k) s = .next (s.setQuarry k { q with transit := rest, arrived := q.arrived ++ [b] })) ∧
    (let record (m : Mem) (t : Tgt) (seq status kind count hops visits : Nat) : Mem :=
       let w (m : Mem) (a v : Nat) : Mem := m.apply { addr := a, data := (leBytes 8 v).map some, marks := [], tag := t.tag }
       w (w m (t.addr + 8) (hops + visits * 2 ^ 32)) t.addr (seq + status * 2 ^ 32 + kind * 2 ^ 40 + count * 2 ^ 48)
     let gone (id : Nat) : Prop := ∀ l, s.launch? id = some l → l.ending ≠ .live
     let slots := q.sums.length + q.queries.length
     (∀ b j, q.head = some (b, j) →
       (slots < 960 → gone b.launch → (pktKind (packetOf b.data j) ≠ 2 → exec (.gsum k) s = .next (s.setQuarry k (q.started j))) ∧
         (pktKind (packetOf b.data j) = 2 → exec (.gsearch k) s = .next (s.setQuarry k (q.started j)))) ∧
       (960 ≤ slots → exec (.gsum k) s = .next s ∧ exec (.gsearch k) s = .next s)) ∧
     (∀ b j l t, q.head = some (b, j) → s.launch? b.launch = some l → l.ending = .live → slots < 960 →
       let pkt := packetOf b.data j
       s.translate l (BitVec.ofNat 64 (pktCpl pkt / 16 * 16)) .w = .ok t → t.gated = false → t.disc = false →
       (2 < pktKind pkt → ∃ u, exec (.gsum k) s = .next u ∧ u.mem = record s.mem t (pktSeq pkt) 5 0 0 0 0) ∧
       (pktKind pkt = 1 → headerBad pkt = true ∨ gsumBody pkt = none → ∃ u, exec (.gsum k) s = .next u ∧ u.mem = record s.mem t (pktSeq pkt) 5 1 0 0 0) ∧
       (pktKind pkt = 1 → headerBad pkt = false → ∀ g, gsumBody pkt = some g → l.fieldsOk pkt = true → q.hurt = false →
         let weights : List QRange := if g.wF = 15 then [] else [{ fld := g.wF, off := g.woff, len := 4 * g.n, write := false, stack := some k.val }]
         ∀ pi pws po rows (mark : Bool), pws.length = weights.length →
           s.qRanges l pkt ({ fld := g.iF, off := g.ioff, len := 4 * g.n, write := false, stack := some k.val } :: (weights ++
             [{ fld := g.outF, off := g.ooff, len := g.len * (if g.bf16Out then 2 else 4), write := true, stack := none }])) = .ok (pi :: (pws ++ [po])) →
           s.gsumRows l pkt g k.val (words32 (s.mem.gather pi).1) = .ok rows →
           (mark = true ↔ (s.mem.gather pi).2 ≠ [] ∨ (∃ pw ∈ pws, (s.mem.gather pw).2 ≠ []) ∨ ∃ r ∈ rows, r.2.1 = true) →
           let w : List W32 := match pws with
             | [] => List.replicate g.n 0x3F800000#32
             | pw :: _ => words32 (s.mem.gather pw).1
           let sum (e : Nat) : W32 := (w.zip (rows.map Prod.fst)).foldl (fun acc r =>
             (fmaF32 0 r.1 (toF32 0 (g.fmt.read (leNat ((r.2.drop (g.width * e)).take g.width)))).1 acc).1) 0
           let bytes (e : Nat) : List Byte := if g.bf16Out then leBytes 2 ((Fmt.bf16.convert 0 false (f32 (sum e))).1).toNat else leBytes 4 (sum e).toNat
           ∃ u, exec (.gsum k) s = .next u ∧ u.quarry[k] = q.started j ∧
             u.mem = record ((qWrites po ((List.range g.len).flatMap bytes) mark).foldl Mem.apply s.mem) t (pktSeq pkt) mark.toNat 1 1 g.n 0) ∧
       (pktKind pkt = 2 → (∀ e, (s.gsearchStart l pkt k).val = .error e → ∃ u, exec (.gsearch k) s = .next u ∧ u.mem = record s.mem t (pktSeq pkt) e.code 2 0 0 0) ∧
         (∀ g qv, (s.gsearchStart l pkt k).val = .ok (g, qv) → ∃ u y, exec (.gsearch k) s = .next u ∧ u.mem = s.mem ∧ u.quarry[k].queries = q.queries ++ [y] ∧ y.pkt = pkt ∧ y.launch = b.launch ∧
           y.reps.length = g.shards.length ∧ y.reps.head? = some (some (s.runShard { l := l, pkt := pkt, g := g, j := 0, q := qv })) ∧ (∀ r ∈ y.reps.drop 1, r = none) ∧
           ∀ j d, g.shards[j]? = some d → 0 < j → d.2.2 < 16 → ∃ x ∈ (u.quarry[d.2.2 % 16]'(Nat.mod_lt _ (by omega))).subs, x.home = k.val ∧ x.qid = y.qid ∧ x.shard = j ∧ x.pkt = pkt ∧ x.q = qv))) ∧
     (∀ (i : Nat) (x : GSum), q.sums[i]? = some x →
       (gone x.launch → s.sumDone k i = s.setQuarry k { q with sums := q.sums.eraseIdx i }) ∧
       ∀ l t, s.launch? x.launch = some l → l.ending = .live → s.translate l (BitVec.ofNat 64 (pktCpl x.pkt / 16 * 16)) .w = .ok t → t.gated = false → t.disc = false →
         x.res.hops < 2 ^ 32 → x.res.visits < 2 ^ 32 → (s.sumDone k i).quarry[k] = { q with sums := q.sums.eraseIdx i } ∧ (s.sumDone k i).mem =
           record (x.out.foldl Mem.apply s.mem) t (pktSeq x.pkt) x.res.status (if pktKind x.pkt ≤ 2 then pktKind x.pkt else 0) x.res.count x.res.hops x.res.visits) ∧
     (∀ b rest, q.subs = b :: rest → gone b.launch → exec (.subquery k) s = .next (s.setQuarry k { q with subs := rest, hurt := false })) ∧
     (∀ b rest l g, q.subs = b :: rest → s.launch? b.launch = some l → l.ending = .live → gsearchBody b.pkt b.home = some g → b.home < 16 → b.home ≠ k.val →
       let h : Fin 16 := ⟨b.home % 16, Nat.mod_lt _ (by omega)⟩
       let rep := if q.hurt then { status := 9, w := [], hops := 0, visits := 0 } else s.runShard { l := l, pkt := b.pkt, g := g, j := b.shard, q := b.q }
       ∃ u, exec (.subquery k) s = .next u ∧ u.mem = s.mem ∧ u.quarry[k].subs = rest ∧ u.quarry[k].hurt = false ∧ u.quarry[h].queries = s.quarry[h].queries.map fun y =>
         if y.qid = b.qid then { y with reps := y.reps.set b.shard (some rep) } else y) ∧
     (∀ (i : Nat) (y : Query), q.queries[i]? = some y →
       ((∃ r ∈ y.reps, r = none) → exec (.gsearchMerge k i) s = .next s) ∧
       ((∀ r ∈ y.reps, r ≠ none) → gone y.launch → exec (.gsearchMerge k i) s = .next (s.setQuarry k { q with queries := q.queries.eraseIdx i })) ∧
       (∀ l g t, (∀ r ∈ y.reps, r ≠ none) → s.launch? y.launch = some l → l.ending = .live → gsearchBody y.pkt k.val = some g →
         s.translate l (BitVec.ofNat 64 (pktCpl y.pkt / 16 * 16)) .w = .ok t → t.gated = false → t.disc = false →
         let r := mergeReps g.k (y.reps.filterMap id)
         let bs := r.1.flatMap fun e => leBytes 4 e.gid ++ leBytes 4 e.d.toNat
         ∀ ps, s.qRange l y.pkt { fld := g.rF, off := g.roff, len := bs.length, write := true, stack := none } = .ok ps → r.2.hops < 2 ^ 32 → r.2.visits < 2 ^ 32 →
           ∃ u, exec (.gsearchMerge k i) s = .next u ∧ u.quarry[k].queries = q.queries.eraseIdx i ∧
             u.mem = record ((qWrites ps bs false).foldl Mem.apply s.mem) t (pktSeq y.pkt) r.2.status 2 r.2.count r.2.hops r.2.visits))) ∧
    ∀ (n : Nat) (reps : List ShardRep), (∀ r ∈ reps, r.status < 4) →
      let m := mergeReps n reps
      m.1.length = min n ((reps.map fun r => r.w.length).sum) ∧ m.2.count = m.1.length ∧
      (∀ e ∈ m.1, ∃ r, reps[e.shard]? = some r ∧ (e.d, e.gid, e.loc) ∈ r.w) ∧ (m.1.Pairwise fun x y => y.better x = false) ∧
      (∀ (e : QEnt) (r : ShardRep), reps[e.shard]? = some r → (e.d, e.gid, e.loc) ∈ r.w → e ∈ m.1 ∨ m.1.length = n ∧ ∀ x ∈ m.1, e.better x = false) ∧
      m.2.hops = (reps.map ShardRep.hops).sum ∧ m.2.visits = (reps.map ShardRep.visits).sum ∧
      m.2.status = if ∃ r ∈ reps, r.status = 2 then 2 else if ∃ r ∈ reps, r.status = 3 then 3 else 0

/-- R360, R361: a published intake record is accepted: INTAKE_ACC takes its SEQ, its slot returns to the host, and after the command has been acted on a
COMMAND event gives its SEQ, kind and status. A command of the physical function alone is denied to another; where the package has not booted every
command is. What each command does: SUBMIT (R263, R264), CANCEL, VERDICT (R346), INVALIDATE (R347), the parameters of a partition (R276, R284, R288,
R329, R343, R384), CURVE (R307, R308), KEYINST (R354), EXTEND (R353), PARTITION_CREATE and PARTITION_DESTROY (R353, R355), the fabric (R367, R368);
BAD_COMMAND changes nothing. The model's choices: the status for a selector that is not listed and for a graph or fault that does not exist (log 53),
the layout of KEYINST's image (log 55), the form of signatures (log 56), that a second import of a source package and partition takes the place of the
first (log 116). -/
def Obligations.IntakeCommands : Prop :=
  ∀ (s : State) (p : Fin 64) (c : Cmd), s.nextCmd p = some c →
    let arg (o n : Nat) : Nat := leNat ((c.bs.drop o).take n)
    let s0 := if c.bad then s.cpPoison p (s.intakeAt p).1 64 else s
    let s1 := s0.acceptCmd p c
    let reports (i : Instr) (t : State) (status : Nat) : Prop := exec i s = .next (t.logEvent p 2 (leBytes 4 c.seq.toNat ++ leBytes 1 c.kind ++ leBytes 1 status))
    let names (q : Fin 64) : Prop := arg 8 1 = q.val
    -- acceptance
    s1.funcs[p].intakeAcc = c.seq ∧
    (∀ x, ({ s0.cpSeen p (s.intakeAt p).1 64 with funcs := s0.funcs.set p { s0.funcs[p] with intakeAcc := c.seq } } : State).cpWrite p (s.intakeAt p).1 (leBytes 4 0) = some x → s1 = x) ∧
    (s.bootstat ≠ 0 → ∀ x ∈ [(1, Instr.submit p), (2, .cancel p), (3, .verdict p), (4, .invalidate p), (8, .extend p), (0, .badCommand p), (0x50, .setPtroot p), (0x51, .setShare p),
      (0x52, .setPslice p), (0x53, .setSeedQueues p), (0x54, .setStagingPool p), (0x55, .setSaveArea p), (0x56, .setParkArea p), (6, .curve p), (7, .keyinst p), (0x90, .partitionCreate p),
      (0x91, .partitionDestroy p), (0xA0, .fabricPackageNumber p), (0xA1, .fabricRoute p), (0xA2, .fabricImport p)], c.row = x.1 → reports x.2 s1 2) ∧
    (s.bootstat = 0 →
    (c.row = 0 → p = 0 ∨ c.pfOnly = false → (c.legal = false → reports (.badCommand p) s1 1) ∧ (c.legal = true → reports (.badCommand p) s1 4)) ∧
    (p ≠ 0 → ∀ x ∈ [(0x50, Instr.setPtroot p), (0x51, .setShare p), (0x52, .setPslice p), (0x53, .setSeedQueues p), (0x54, .setStagingPool p), (0x55, .setSaveArea p), (0x56, .setParkArea p),
      (6, .curve p), (7, .keyinst p), (0x90, .partitionCreate p), (0x91, .partitionDestroy p), (0xA0, .fabricPackageNumber p), (0xA1, .fabricRoute p), (0xA2, .fabricImport p)],
      c.row = x.1 → reports x.2 s1 2) ∧
    -- graphs, faults, translations, records
    (c.row = 1 → ∀ bs nodes, 0 < arg 16 2 → arg 16 2 ≤ 4096 → arg 8 8 % 64 = 0 → s1.cpBytes p (arg 8 8) (64 * arg 16 2) = some (bs, []) →
      (List.range (arg 16 2)).mapM (fun i => s1.readNode p ((bs.drop (64 * i)).take 64)) = some nodes → graphOk nodes = true →
      ∃ g t, reports (.submit p) t 0 ∧ t.graphs = s1.graphs ++ [g] ∧ t.nextGid = s1.nextGid + 1 ∧ t.nextOrder = s1.nextOrder + 1 ∧ t.mem = s1.mem ∧ t.cores = s1.cores ∧ t.chans = s1.chans ∧ g.part = p ∧ g.addr = arg 8 8 ∧
        g.nodes.length = arg 16 2 ∧ ∀ (i : Nat) (n : Node), nodes[i]? = some n → ∃ m, g.nodes[i]? = some m ∧ m.succ = n.succ ∧ m.npred = n.npred ∧
          (n.npred = 0 → m.st = .eligible s1.nextOrder) ∧ (n.npred ≠ 0 → m.st = .waiting)) ∧
    (c.row = 1 → (arg 16 2 = 0 ∨ 4096 < arg 16 2 ∨ arg 8 8 % 64 ≠ 0) → reports (.submit p) s1 4) ∧
    (c.row = 2 → ((∀ g ∈ s1.graphs, g.part ≠ p ∨ g.addr ≠ arg 8 8) → reports (.cancel p) s1 4) ∧
      (∀ g n, s1.graphs = [g] → g.part = p → g.addr = arg 8 8 → g.nodes = [n] → n.st = .waiting → n.loaded = none →
        (s1.canHold p = false → reports (.cancel p) { s1 with graphs := [{ g with nodes := [{ n with st := .completing 4 0 }] }] } 0) ∧
        (s1.canHold p = true → reports (.cancel p) { ({ s1 with graphs := [{ g with nodes := [{ n with st := .ended }] }] } : State).writeNode p g.addr 0 4 n.deadline 0 with graphs := [] } 0))) ∧
    (c.row = 3 → ((∀ f ∈ s1.pfaults, f.fseq ≠ arg 8 4) → reports (.verdict p) s1 4) ∧
      (∀ f, s1.pfaults.find? (fun f => f.fseq == arg 8 4) = some f → (p ≠ 0 → f.part ≠ p → reports (.verdict p) s1 2) ∧
        (p = 0 ∨ f.part = p → (1 < arg 12 1 → reports (.verdict p) s1 4) ∧
          (arg 12 1 ≤ 1 → ∃ t, reports (.verdict p) t 0 ∧ t.pfaults = s1.pfaults.filter (fun o => o.fseq != f.fseq) ∧
            (arg 12 1 = 0 → f.fseq ≠ 0 → ∀ ch : Fin 192, t.chans[ch].lineWait ≠ some f.fseq ∧ ∀ r ∈ t.chans[ch].recs, r.wait ≠ some f.fseq))))) ∧
    (c.row = 4 → ∀ q : Fin 64, q.val = (if p = 0 then arg 24 1 else p.val) →
      (s1.discBusy q (arg 8 8) (arg 16 8) = true → ∃ t, reports (.invalidate p) t 3 ∧ t.mem = s1.mem ∧ t.chans = s1.chans ∧ t.launches = s1.launches ∧
        (∀ x ∈ s1.pins, x ∈ t.pins) ∧ ∀ x ∈ s1.pinsFor q (arg 8 8) (arg 16 8), ∃ o ∈ t.pins, o.part = x.part ∧ o.page = x.page ∧ o.big = x.big) ∧
      (s1.discBusy q (arg 8 8) (arg 16 8) = false → ∃ t, reports (.invalidate p) t 0 ∧ t.mem = s1.mem ∧ t.chans = s1.chans ∧ ∀ (e : Fin 25) (x : Xlat), x ∈ t.xlats[e] ↔ x ∈ s1.xlats[e] ∧
        ¬ (x.part = q ∧ x.page * (if x.big then 2 ^ 21 else 2 ^ 16) < arg 8 8 + arg 16 8 ∧ arg 8 8 < x.page * (if x.big then 2 ^ 21 else 2 ^ 16) + (if x.big then 2 ^ 21 else 2 ^ 16)))) ∧
    (c.row = 8 → ∀ i : Fin 16, i.val = arg 8 1 → (i.val < 10 → reports (.extend p) s1 4) ∧
      (10 ≤ i.val → reports (.extend p) (s1.setPart p { s1.parts[p] with meas := (s1.parts[p]).meas.set i (extendMeas (s1.parts[p]).meas[i] (BitVec.ofNat 256 (beNat ((c.bs.drop 16).take 32)))) }) 0)) ∧
    -- of the physical function
    (p = 0 →
      (let sets (row : Nat) (i : Instr) (busy : Bool) (ok : Prop) (x : Partition → Partition) : Prop := c.row = row → ∀ q : Fin 64, names q →
         (s1.parts[q].exists_ = false → reports i s1 4) ∧ (s1.parts[q].exists_ = true → busy = true → (∃ l ∈ s1.launches, l.part = q) → reports i s1 3) ∧
         (s1.parts[q].exists_ = true → (busy = true → ∀ l ∈ s1.launches, l.part ≠ q) → (¬ ok → reports i s1 4) ∧ (ok → reports i (s1.setPart q (x s1.parts[q])) 0))
       let v := arg 16 8
       let n := arg 24 8
       let held (a n : Nat) : Prop := a < 2 ^ 40 ∧ a % 2 ^ 36 + n ≤ 0xBD0000000
       sets 0x50 (.setPtroot p) true (v % 4096 = 0 ∧ held v 4096) (fun q => { q with ptroot := v }) ∧
       sets 0x51 (.setShare p) false (1 ≤ v ∧ v ≤ 65535) (fun q => { q with share := v }) ∧
       sets 0x52 (.setPslice p) false (50 ≤ v ∧ v ≤ 100000) (fun q => { q with pslice := v }) ∧
       sets 0x53 (.setSeedQueues p) true (v % 4096 = 0 ∧ 8 ≤ n ∧ n ≤ 16 ∧ v + 256 * 2 ^ n ≤ 2 ^ 48) (fun q => { q with seedBase := v, seedLog2 := n, queues := Vector.replicate 8 [] }) ∧
       sets 0x54 (.setStagingPool p) true (v % 65536 = 0 ∧ n % 2 ^ 20 = 0 ∧ held v (n / 16)) (fun q => { q with pool := { base := v % 2 ^ 36, size := n / 16, used := [] } }) ∧
       sets 0x55 (.setSaveArea p) true (v % 4096 = 0 ∧ held v n) (fun q => { q with save := { base := v, size := n, used := [] } }) ∧
       sets 0x56 (.setParkArea p) true (v % 4096 = 0 ∧ (n = 0 ∨ 4096 ≤ n) ∧ v + n ≤ 2 ^ 41)
         (fun q => { q with park := { base := v, size := n, used := if n = 0 then [] else [(0, 4096)] } })) ∧
      (c.row = 6 → (∀ e, s1.readCurve (arg 8 8) = .error e → ∃ t, reports (.curve p) t e ∧ t.power = s1.power) ∧
        (∀ v, s1.readCurve (arg 8 8) = .ok v → ∃ t, reports (.curve p) t 0 ∧ t.mem = s1.mem ∧ t.launches.map Launch.parked = s1.launches.map Launch.parked ∧
          t.power = { s1.power with curves := s1.power.curves.filter (fun o => decide (o.start ≤ dtime s1.tick)) ++ [v], nextSeq := v.seq + 1 })) ∧
      (c.row = 7 → ∀ bs, s1.cpRead 0 (arg 16 8) 128 = some bs → ∀ i : Fin 16, i.val = arg 8 1 → 2 ≤ i.val →
        let key : KeySlot := { x := leNat (bs.take 32), y := leNat ((bs.drop 32).take 32), mask := BitVec.ofNat 64 (arg 24 8) }
        let leaves (status : Nat) (keys : Vector (Option KeySlot) 16) : Prop := ∃ t, reports (.keyinst p) t status ∧ t.keys = keys ∧ t.mem = s1.mem
        (i.val ≠ 2 ∨ s1.keys[i] = none → leaves 0 (s1.keys.set i (some key))) ∧
        (∀ k, i.val = 2 → s1.keys[i] = some k →
          let good := ecdsaVerify k.x k.y (sha256 (bs.take 64)) (leNat ((bs.drop 64).take 32)) (leNat ((bs.drop 96).take 32))
          (good = true → leaves 0 (s1.keys.set i (some key))) ∧ (good = false → leaves 5 s1.keys))) ∧
      (c.row = 0x90 → ∀ q : Fin 64, names q → q ≠ 0 → (s1.parts[q].exists_ = true → reports (.partitionCreate p) s1 4) ∧
        (s1.parts[q].exists_ = false → ∃ t, reports (.partitionCreate p) t 0 ∧ t.parts[q].exists_ = true ∧ t.parts[q].keyId = s1.nextKey ∧ t.nextKey = s1.nextKey + 1 ∧
          t.parts[q].meas = newRecord s1.measd ∧ ∀ o, o ≠ q → t.parts[o] = s1.parts[o])) ∧
      (c.row = 0x91 → ∀ q : Fin 64, names q → q ≠ 0 → (s1.parts[q].exists_ = false → reports (.partitionDestroy p) s1 4) ∧
        (s1.parts[q].exists_ = true → (∃ l ∈ s1.launches, l.part = q) → reports (.partitionDestroy p) s1 3) ∧
        (s1.parts[q].exists_ = true → (∀ l ∈ s1.launches, l.part ≠ q) → ∃ t, reports (.partitionDestroy p) t 0 ∧ t.parts[q].exists_ = false ∧ t.mem = s1.mem ∧
          (∀ g ∈ t.graphs, g.part ≠ q) ∧ (∀ f ∈ t.pfaults, f.part ≠ q) ∧ (∀ e : Fin 25, ∀ x ∈ t.xlats[e], x.part ≠ q) ∧ ∀ o, o ≠ q → t.parts[o] = s1.parts[o])) ∧
      (c.row = 0xA0 → (4095 < arg 16 2 → reports (.fabricPackageNumber p) s1 4) ∧ (arg 16 2 ≤ 4095 → reports (.fabricPackageNumber p) { s1 with package := arg 16 2 } 0)) ∧
      (c.row = 0xA1 → arg 16 2 ≤ 4095 → arg 24 8 < 2 ^ 48 →
        reports (.fabricRoute p) { s1 with routes := (s1.routes.filter fun r => r.1 != arg 16 2) ++ [(arg 16 2, BitVec.ofNat 48 (arg 24 8))] } 0) ∧
      (c.row = 0xA2 → arg 16 2 ≤ 4095 → arg 18 1 < 64 → arg 20 1 < 4 → ∀ q : Fin 64, q.val = arg 19 1 →
        ∃ t e, reports (.fabricImport p) t 0 ∧ t = { s1 with imports := (s1.imports.filter fun i => !(i.pkg == arg 16 2 && i.srcPart == arg 18 1)) ++ [e] } ∧
          e.pkg = arg 16 2 ∧ e.srcPart = arg 18 1 ∧ e.part = q ∧ (e.r = true ↔ arg 20 1 % 2 = 1) ∧ (e.w = true ↔ 2 ≤ arg 20 1))))

/-- R297 to R299, R302. A droop stretches a run of one to four cycles of an elastic cluster, and no run begins while another lasts or is recent. A guard
breach of n stretched cycles on a fixed-timing cluster, which stretches it as a droop does, holds, for F = ceil(5n/4) cycles after the present one,
every core whose furrow group has a fixed-timing strand on the cluster and each other core of the cluster with a fixed-timing strand; holds are
united, and the stretched cycles fill them; each stall wire adds one to PSTALL and waits for its partition's log with its cause, launch and F; memory
is not touched. A hold ends when its cycles have passed. That a breach during a stretch or in the four cycles after it raises nothing is the model's
reading (log 102, DEDUCED). -/
def Obligations.StallWiresAndDroop : Prop :=
  ∀ (s : State) (q : Fin 48) (n : Nat) (c : Fin 192),
    let k := s.clusters[q]
    (k.fixed = false → 1 ≤ n → n ≤ 4 → k.stretch = 0 → k.calm = 0 →
      exec (.droopStretch q n) s = .next { s with clusters := s.clusters.set q { k with stretch := n } }) ∧
    (k.fixed = true ∨ n = 0 ∨ 4 < n ∨ k.stretch ≠ 0 ∨ k.calm ≠ 0 → exec (.droopStretch q n) s = .next s) ∧
    (k.fixed = false ∨ n = 0 ∨ 4 < n ∨ k.stretch ≠ 0 ∨ k.calm ≠ 0 → exec (.guardBreach q n) s = .next s) ∧
    (k.fixed = true → 1 ≤ n → n ≤ 4 → k.stretch = 0 → k.calm = 0 →
      (∀ (a b : Fin 192) x y, s.cores[a].strand = some x → s.cores[b].strand = some y → x.gang = y.gang → x.clkFurrow = y.clkFurrow) →
      let f := (5 * n + 3) / 4
      ∃ u : State, exec (.guardBreach q n) s = .next u ∧ u.mem = s.mem ∧ u.clusters = s.clusters.set q { k with stretch := f } ∧ u.tick = s.tick ∧
        (∀ p : Fin 64, u.parts[p].pstall = s.parts[p].pstall + ((s.breachGangs q).filter fun w => w.2.2.2.1 == p).length ∧
          u.funcs[p].events = s.funcs[p].events ++ ((s.breachGangs q).filter fun w => w.2.2.2.1 == p).map fun w =>
            { kind := 4, body := leBytes 8 (dtime s.tick) ++ (leBytes 2 0 ++ leBytes 2 w.2.2.1 ++ leBytes 4 0 ++ leBytes 8 f) ++ List.replicate 32 0 }) ∧
        ∀ st, s.cores[c].strand = some st →
          let held : Prop := ∃ (b : Fin 192) (y : Strand), b.val / 4 = q.val ∧ s.cores[b].strand = some y ∧ y.clkFixed = true ∧
            ((y.clkFurrow = true ∧ y.gang = st.gang) ∨ (y.clkFurrow = false ∧ b = c))
          let now := s.clusters[clusterOf c].cyc
          (¬ held → u.cores[c] = s.cores[c]) ∧
          (held → u.cores[c] = { s.cores[c] with hold := some (match s.cores[c].hold with | some (g, t) => (g, max t (now + f)) | none => (now, now + f)) })) ∧
    (∀ busy, (k.turn busy).cyc = k.cyc + 1 ∧ (k.turn busy).stretch = k.stretch - 1 ∧ (k.turn busy).calm = if k.stretch = 0 then k.calm - 1 else if k.stretch = 1 then 4 else 0) ∧
    (s.cores[c].hold = none → exec (.stallHoldEnd c) s = .next s) ∧
    (∀ g t, s.cores[c].hold = some (g, t) → exec (.stallHoldEnd c) s = if s.clusters[clusterOf c].cyc ≤ t then .next s else .next (s.setCore c { s.cores[c] with hold := none }))

/-- R276. A node that is not eligible is not staged; a loaded node that does not rank first waits; a node whose container or binding table cannot be read,
or whose image does not begin on a 4 KiB boundary, is refused (status 5). Of the node that ranks first: fields that the pool could never hold refuse
it, fields that it cannot hold now let it wait, a peer that is down or a lasting refusal of the host faults it (status 3), and otherwise it is staged:
its fields name their places in the pool, and the bytes of each staged field are copied, discarded pages as zeros. The refusal of a misaligned or
unreadable image or binding table is the model's choice (log 74), and so is where a page of a staged home lies (log 117). -/
def Sys2Proof.Claims.NodesAreStaged : Prop :=
  ∀ (s : State) (gid i : Nat) (refused : Bool) (g : Graph) (n : Node), s.graph? gid = some g → g.nodes[i]? = some n →
    ((∀ o, n.st ≠ .eligible o) → exec (.nodeStaging gid i refused) s = .next s) ∧
    (∀ o, n.st = .eligible o → n.loaded = none →
      (n.image % 4096 ≠ 0 ∨ n.bind % 4096 ≠ 0 → exec (.nodeStaging gid i refused) s = .next (s.completeNode g.gid i 5 0)) ∧
      (s.cpRead g.part n.image 64 = none ∨ s.cpRead g.part n.bind 4096 = none →
        ∃ t : State, exec (.nodeStaging gid i refused) s = .next (t.completeNode g.gid i 5 0) ∧ t.mem = s.mem ∧ t.graphs = s.graphs ∧ t.images = s.images ∧ t.cores = s.cores)) ∧
    (∀ o ld, n.st = .eligible o → n.loaded = some ld →
      (s.stageFirst gid i = false → exec (.nodeStaging gid i refused) s = .next s) ∧
      (s.stageFirst gid i = true →
        let pool := s.parts[g.part].pool
        let fs := ld.fields.filter FieldEnt.staged
        (({ pool with used := [] } : Area).placeAll fs = none → exec (.nodeStaging gid i refused) s = .next (s.completeNode g.gid i 5 0)) ∧
        (({ pool with used := [] } : Area).placeAll fs ≠ none → pool.placeAll fs = none → exec (.nodeStaging gid i refused) s = .next s) ∧
        (∀ b gs, ({ pool with used := [] } : Area).placeAll fs ≠ none → pool.placeAll fs = some (b, gs) →
          let blocks (s : State) (f : FieldEnt) (j : Nat) : List HPiece := s.homeRun g.part f (fs.flatMap (s.discOf g.part)) false (2048 * j) 2048
          let refuses (f : FieldEnt) : Prop := s.peerDown f.peer = true ∨ ∃ j, j < f.size / 2048 ∧ ∃ q ∈ blocks s f j, s.peerGated q.phys = true
          ((∃ f ∈ fs, (f.tier = 3 ∧ refuses f) ∨ (f.tier = 2 ∧ refused = true)) → exec (.nodeStaging gid i refused) s = .next (s.completeNode g.gid i 3 0)) ∧
          ((∀ f ∈ fs, (f.tier = 3 → ¬ refuses f) ∧ (f.tier = 2 → refused = false)) →
            ∃ (u : State) (m : Node) (l : Loaded), exec (.nodeStaging gid i refused) s = .next u ∧ (∃ h, u.graph? gid = some h ∧ h.nodes[i]? = some m) ∧ m.st = .staged ∧ m.loaded = some l ∧
              l.staged = gs ∧ gs.map Staged.home = fs ∧ u.parts[g.part].pool = b ∧ u.launches.map Launch.fields = s.launches.map Launch.fields ∧ u.cores = s.cores ∧
              l.fields = ld.fields.map (fun f => match gs.find? fun x => x.home.idx == f.idx with | some x => x.entry | none => f) ∧
              u.mem = gs.foldl (fun m x => (List.range (x.size / 2048)).foldl (fun (m : Mem) j =>
                let r := m.gather (({ s with mem := m } : State).homeRun g.part x.home (fs.flatMap (s.discOf g.part)) false (2048 * j) 2048)
                (hWrites (s.fieldRun g.part x.entry [] (2048 * j) 2048) r.1 r.2).foldl Mem.apply m) m) s.mem))))

/-- R278, R207, R279, R277. A staged node waits while no identifier, or not enough haul channels, are free; else it is launched: the launch takes the next
identifier in rotation and what the loader kept, and each of its logical channels takes a channel that was free. A launch ends with DONE once nothing
of it runs, waits or moves: it gives up its clusters, channels and gangs, and, after the copying back of its writable staged fields, but for discarded
pages and for blocks that a peer does not take, is gone; one that was shed, cancelled or faulted goes once its strands have. -/
def Sys2Proof.Claims.LaunchesBeginAndEnd : Prop :=
  ∀ (s : State) (gid i : Nat) (g : Graph) (n : Node), s.graph? gid = some g → g.nodes[i]? = some n →
    (∀ ld, n.st = .staged → n.loaded = some ld →
      (s.freeChans.length < (chanList n.haulch).length → exec (.launch gid i) s = .next s) ∧
      ((∀ k, 1 ≤ k → k ≤ 65535 → ∃ l ∈ s.launches, l.id = k) → exec (.launch gid i) s = .next s) ∧
      (∀ j, j < 65535 → (∀ l ∈ s.launches, l.id ≠ (s.lastLaunch + j) % 65535 + 1) → (∀ j', j' < j → ∃ l ∈ s.launches, l.id = (s.lastLaunch + j') % 65535 + 1) →
        (chanList n.haulch).length ≤ s.freeChans.length →
        let id := (s.lastLaunch + j) % 65535 + 1
        ∃ (u : State) (l : Launch), exec (.launch gid i) s = .next u ∧ u.launch? id = some l ∧ u.lastLaunch = id ∧ u.clusters = s.clusters ∧ u.cores = s.cores ∧
          (∃ h m, u.graph? gid = some h ∧ h.nodes[i]? = some m ∧ m.st = .launched id) ∧
          l.graph = g.gid ∧ l.node = i ∧ l.part = g.part ∧ l.fields = ld.fields ∧ l.heads = ld.heads ∧ l.ops = ld.ops ∧ l.opmask = n.opmask ∧ l.prioceil = n.prioceil ∧ l.eclass = n.eclass ∧
          l.deadline = n.deadline ∧ l.staged = ld.staged ∧ l.ending = .live ∧ l.parked = false ∧ (ld.seeds = [] → l.live = 0) ∧ (∃ k, l.unsown = ld.seeds.drop k) ∧
          (∀ x : Fin 16, n.haulch.getLsbD x.val = true → ∃ c : Fin 192, s.chans[c].owner = none ∧ u.chans[c].owner = some (id, x.val) ∧ u.chans[c].part = g.part) ∧
          ∀ c : Fin 192, s.chans[c].owner ≠ none → u.chans[c] = s.chans[c])) ∧
    (n.st = .waiting ∨ n.st = .ended ∨ (∃ o, n.st = .eligible o) → exec (.launch gid i) s = .next s) ∧
    ∀ (id : Nat) (l : Launch), s.launch? id = some l →
      let gone (u : State) : Prop := u.launch? id = none ∧ (∀ q : Fin 48, ∀ k, u.clusters[q].holder ≠ some (id, k)) ∧ (∀ c : Fin 192, ∀ k, u.chans[c].owner ≠ some (id, k)) ∧
        (∀ x ∈ u.gangs, x.launch ≠ id) ∧ (∀ x ∈ u.placing, x.launch ≠ id) ∧ (∀ x ∈ u.halted, x.st.launch ≠ id)
      (l.ending = .live → (s.launchOver l = false → exec (.launchEnd id) s = .next s) ∧
        (s.launchOver l = true → (l.staged.any fun x => x.home.permW) = false → ∃ u, exec (.launchEnd id) s = .next u ∧ gone u) ∧
        (s.launchOver l = true → (l.staged.any fun x => x.home.permW) = true → ∃ (u : State) (m : Launch), exec (.launchEnd id) s = .next u ∧ u.launch? id = some m ∧ m.ending = .ending 1 ∧
          m.staged = l.staged ∧ ∀ q : Fin 48, ∀ k, u.clusters[q].holder ≠ some (id, k))) ∧
      (∀ status, status ≠ 1 → l.ending = .ending status →
        ((∃ (c : Fin 192) (st : Strand), s.cores[c].strand = some st ∧ st.launch = id) → exec (.launchEnd id) s = .next s) ∧
        ((∀ (c : Fin 192) (st : Strand), s.cores[c].strand = some st → st.launch ≠ id) → (∀ h ∈ s.halted, h.st.launch = id → h.st.accs = []) → ∃ u, exec (.launchEnd id) s = .next u ∧ gone u)) ∧
      (l.ending = .ending 1 → exec (.launchEnd id) s = .next s ∧ ∃ u : State, exec (.stagedCopyBack id) s = .next u ∧ u.launch? id = none ∧ u.cores = s.cores ∧
        (∀ x, l.staged = [x] → x.home.permW = true → (∀ y ∈ s.graphs, y.gid ≠ l.graph) →
          u.mem = (List.range (x.size / 2048)).foldl (fun (m : Mem) j =>
            let home := ({ s with mem := m } : State).homeRun l.part x.home [] true (2048 * j) 2048
            if l.disc.contains (x.home.idx, 2048 * j / 2 ^ 16) || home.any (fun q => s.peerGated q.phys) then m
            else
              let r := m.gather (s.fieldRun l.part x.entry [] (2048 * j) 2048)
              (hWrites home r.1 r.2).foldl Mem.apply m) s.mem)) ∧
      (l.ending ≠ .ending 1 → exec (.stagedCopyBack id) s = .next s)

/-- Nodes are loaded and staged, launches begin and end (R207, R274, R276, R277, R278, R279, R341). -/
def Obligations.NodesAndLaunches : Prop :=
  Claims.NodesAreStaged ∧ Claims.LaunchesBeginAndEnd

/-- R362, R358. The oldest event that waits for a function's ring is written, by the event row of its kind, into the slot that the sequence number of the
ring names: its body after the kind, and last ESEQ; EVLOG_WR takes the sequence number and the kind's MSI-X message goes out; the nodes whose
completion waited for room for its event then complete, as far as there is room. An event whose slot the host has not freed waits, and so does one of
another kind. -/
def Obligations.EventsAreLogged : Prop :=
  ∀ (s : State) (p : Fin 64) (kind : Nat) (i : Instr),
    (kind, i) ∈ [(1, Instr.completionEvent p), (2, .commandEvent p), (3, .strandFaultEvent p), (4, .stallEvent p), (5, .pagefaultEvent p), (6, .noticeEvent p)] →
    (s.funcs[p].events = [] → exec i s = .next s) ∧
    ∀ e rest, s.funcs[p].events = e :: rest →
      let f := s.funcs[p]
      let n := if f.evWr = 0xFFFFFFFF then 1 else f.evWr + 1
      let a := f.evBase + 64 * (n.toNat % 2 ^ f.evSize)
      (e.kind ≠ kind → exec i s = .next s) ∧
      (s.cpBytes p a 4 = none ∨ (∃ bs bad, s.cpBytes p a 4 = some (bs, bad) ∧ leNat bs ≠ 0) → exec i s = .next s) ∧
      (∀ bs bad s1 s2, e.kind = kind → s.hasRings p = true → 6 ≤ f.evSize → f.evSize ≤ 16 → s.cpBytes p a 4 = some (bs, bad) → leNat bs = 0 →
        (s.cpSeen p a 4).cpWrite p (a + 4) (leBytes 4 kind ++ e.body) = some s1 → s1.cpWrite p a (leBytes 4 n.toNat) = some s2 →
        let u : State := { s2 with funcs := s2.funcs.set p { s2.funcs[p] with events := rest, evWr := n },
                                   hostOut := s2.hostOut ++ [.msix p.val ((s2.funcs[p].evvec >>> (5 * kind)) &&& 31).toNat] }
        exec i s = .next (u.completeHeld p))

/-- R11, R211, R319, R320, R352, R358, R359, R344, R362, R347, R364. What a function of the host port does. Where the boot stopped before the host port
nothing answers. A register access that is not of 8 aligned bytes, or beyond the registers, or to a function that is not exposed, completes with
Unsupported Request; a read answers the register, 0 at an offset that names none; a write sets its register, ring registers only while the function's
partition has no launch. A window access translates as the partition: a read answers the bytes and their poison and counts the traffic, a write stores
its bytes and no others; a fault, an address of the yard aperture among them, answers Completer Abort or drops the write, and is logged with its
address. An ATS invalidation removes the cached translations to the range and no other. FLR, of a virtual function alone, cancels its graphs and
clears its ring registers. That the low bits of ring bases and of WINBASE are dropped (log 60), and the stop of an access whose leaf names no storage
(log 51), are the model's. -/
def Obligations.HostPortServesFunctions : Prop :=
  ∀ (s : State) (fn : Fin 64),
    let f := s.funcs[fn]
    let up (q : Fin 64) : Prop := s.bootstat = 0 ∨ (q = 0 ∧ 2 < s.bootstat.toNat % 16)
    let hidden : Prop := up 0 ∧ ¬ up fn
    let put (g : Func) : State := { s with funcs := s.funcs.set fn g }
    let faulted (a : Nat) (u : State) : Prop := ∃ e, u.funcs[fn].events = f.events ++ [e] ∧ e.kind = 6 ∧ (e.body.drop 8).take 16 = leBytes 8 6 ++ leBytes 8 a
    let traffic (ps : List HPiece) : Nat := ((ps.filter fun q => !q.zero && decide (q.phys < 2 ^ 72)).map HPiece.len).sum
    let tell (m : HostMsg) : Host.Outcome State Fault Refusal := .next { s with hostOut := s.hostOut ++ [m] }
    (¬ up 0 → (∀ off n v, s.hostAccess fn off n v = s) ∧ (∀ off v, exec (.hostRegisterWrite fn off v) s = .next s) ∧
      (∀ off len, exec (.hostWindowRead fn off len) s = .next s) ∧ ∀ off bs, exec (.hostWindowWrite fn off bs) s = .next s) ∧
    (∀ off v, exec (.hostRegisterWrite fn off v) s = .next (s.hostAccess fn off 8 (some v))) ∧
    (∀ off n v, hidden ∨ (up fn ∧ (n ≠ 8 ∨ off % 8 ≠ 0 ∨ 65536 ≤ off)) → .next (s.hostAccess fn off n v) = tell (.unsupported fn.val)) ∧
    (up fn →
      let reads (off : Nat) (v : W64) : Prop := .next (s.hostAccess fn off 8 none) = tell (.data fn.val (leBytes 8 v.toNat) false)
      let fixed : List (Nat × W64) := [(0, if fn = 0 then s.bootstat else 0), (8, BitVec.ofNat 64 (s.tick / 4 * 5 / 2)), (0x10, BitVec.ofNat 64 fn.val), (0x18, BitVec.ofNat 64 f.intakeBase),
        (0x20, BitVec.ofNat 64 f.intakeSize), (0x28, f.intakeAcc.setWidth 64), (0x30, BitVec.ofNat 64 f.evBase), (0x38, BitVec.ofNat 64 f.evSize), (0x40, f.evWr.setWidth 64), (0x48, f.evvec),
        (0x50, BitVec.ofNat 64 f.winbase)]
      let power : List (Nat × W64) := [(0x1000, BitVec.ofNat 64 (s.target % 2 ^ 32)), (0x1008, BitVec.ofNat 64 (s.power.pmeas % 2 ^ 32)), (0x1010, BitVec.ofNat 64 (s.curveNow.elim 0 Curve.seq)),
        (0x1018, BitVec.ofNat 64 s.power.hot), (0x1300, BitVec.ofNat 64 s.power.account)]
      (∀ r ∈ fixed, reads r.1 r.2) ∧ (∀ r ∈ power, reads r.1 (if fn = 0 then r.2 else 0)) ∧
      (∀ p : Fin 64, reads (0x1100 + 8 * p.val) (if fn = 0 then BitVec.ofNat 64 s.parts[p].energy else 0) ∧ reads (0x1400 + 8 * p.val) (if fn = 0 then BitVec.ofNat 64 s.parts[p].pstall else 0)) ∧
      ∀ off, off % 8 = 0 → off < 65536 → (∀ r ∈ fixed ++ power, r.1 ≠ off) → ¬ (0x1100 ≤ off ∧ off < 0x1300) → ¬ (0x1400 ≤ off ∧ off < 0x1600) → reads off 0) ∧
    (∀ (off : Nat) (v : W64),
      (up fn → off % 8 = 0 → off < 65536 →
        let r := exec (.hostRegisterWrite fn off v) s
        ((∀ l ∈ s.launches, l.part ≠ fn) → (off = 0x18 → r = .next (put { f with intakeBase := v.toNat / 4096 * 4096 })) ∧ (off = 0x20 → r = .next (put { f with intakeSize := v.toNat % 32 })) ∧
          (off = 0x30 → r = .next (put { f with evBase := v.toNat / 4096 * 4096 })) ∧ (off = 0x38 → r = .next (put { f with evSize := v.toNat % 32 }))) ∧
        ((∃ l ∈ s.launches, l.part = fn) → off ∈ [0x18, 0x20, 0x30, 0x38] → r = .next s) ∧
        (off = 0x48 → r = .next (put { f with evvec := v &&& 0x7FFFFFFE0 })) ∧
        (off = 0x50 → r = .next (put { f with winbase := v.toNat / 2 ^ 36 * 2 ^ 36 })) ∧
        (off = 0x1018 → fn = 0 → r = if 70 ≤ v.toNat % 256 ∧ v.toNat % 256 ≤ 105 then .next { s with power := { s.power with hot := v.toNat % 256 } } else .next s) ∧
        (off ∉ [0x18, 0x20, 0x30, 0x38, 0x48, 0x50, 0x1018] → r = .next s) ∧ (off = 0x1018 → fn ≠ 0 → r = .next s))) ∧
    (∀ (off len : Nat) (bs : List Byte),
      (up 0 → 2 ^ 36 < off + len ∨ hidden → exec (.hostWindowRead fn off len) s = tell (.unsupported fn.val)) ∧
      (up 0 → 2 ^ 36 < off + bs.length ∨ hidden → exec (.hostWindowWrite fn off bs) s = tell (.unsupported fn.val)) ∧
      (up fn → off + len ≤ 2 ^ 36 → 0 < len → (f.winbase + off) / 2 ^ 31 % 2 ^ 17 = 2 ^ 17 - 1 → ∃ u : State, exec (.hostWindowRead fn off len) s = .next u ∧ u.mem = s.mem ∧
        u.hostOut = s.hostOut ++ [.abort fn.val]) ∧
      (off + len ≤ 2 ^ 36 → up fn →
        (∀ a, (s.portRun fn false (len / 65536 + 2) (f.winbase + off) len).2 = .error (.fault a) →
          ∃ u : State, exec (.hostWindowRead fn off len) s = .next u ∧ u.mem = s.mem ∧ u.hostOut = s.hostOut ++ [.abort fn.val] ∧ faulted a u) ∧
        (∀ a, (s.portRun fn false (len / 65536 + 2) (f.winbase + off) len).2 = .error (.noStorage a) → exec (.hostWindowRead fn off len) s = .fault (.noStorage a)) ∧
        (∀ ps, (s.portRun fn false (len / 65536 + 2) (f.winbase + off) len).2 = .ok ps →
          ∃ u : State, exec (.hostWindowRead fn off len) s = .next u ∧ u.mem = s.mem ∧ u.cores = s.cores ∧
            u.hostOut = s.hostOut ++ [.data fn.val (s.mem.gather ps).1 (!(s.mem.gather ps).2.isEmpty)] ∧ u.parts[fn].traffic = s.parts[fn].traffic + traffic ps)) ∧
      (off + bs.length ≤ 2 ^ 36 → up fn →
        (∀ a, (s.portRun fn true (bs.length / 65536 + 2) (f.winbase + off) bs.length).2 = .error (.fault a) →
          ∃ u : State, exec (.hostWindowWrite fn off bs) s = .next u ∧ u.mem = s.mem ∧ u.hostOut = s.hostOut ∧ faulted a u) ∧
        (∀ ps, (s.portRun fn true (bs.length / 65536 + 2) (f.winbase + off) bs.length).2 = .ok ps →
          ∃ u : State, exec (.hostWindowWrite fn off bs) s = .next u ∧ u.hostOut = s.hostOut ∧ u.mem = (hWrites ps bs []).foldl Mem.apply s.mem ∧
            u.parts[fn].traffic = s.parts[fn].traffic + traffic ps))) ∧
    (∀ (p : Fin 64) (w : Bool) (a n : Nat), (s.portRun p w (n / 65536 + 2) a n).1.mem = s.mem ∧ ∀ ps, (s.portRun p w (n / 65536 + 2) a n).2 = .ok ps → (ps.map HPiece.len).sum = n ∧ ∀ q ∈ ps, q.len ≤ 65536) ∧
    (¬ up fn → ∀ base len, exec (.atsInvalidation fn base len) s = .next s) ∧
    (up fn → ∀ base len, ∃ u : State, exec (.atsInvalidation fn base len) s = .next u ∧ u.mem = s.mem ∧ u.hostOut = s.hostOut ++ [.atsDone fn.val] ∧ ∀ (e : Fin 25) (x : Xlat), x ∈ u.xlats[e] ↔ x ∈ s.xlats[e] ∧
      ¬ (x.part = fn ∧ leafTier x.leaf = 2 ∧ leafAddr x.leaf < base + len ∧ base < leafAddr x.leaf + (if x.big then 2 ^ 21 else 2 ^ 16))) ∧
    (fn = 0 → exec (.flr fn) s = .next s) ∧
    (fn ≠ 0 → (∀ a ∈ s.graphs, ∀ b ∈ s.graphs, a.gid = b.gid → a = b) →
      ∃ u : State, exec (.flr fn) s = .next u ∧
        (let g := u.funcs[fn]; g.intakeBase = 0 ∧ g.intakeSize = 0 ∧ g.intakeAcc = 0 ∧ g.evBase = 0 ∧ g.evSize = 0 ∧ g.evWr = 0 ∧ g.evvec = f.evvec ∧ g.winbase = f.winbase) ∧
        (∀ o : Fin 64, o ≠ fn → u.funcs[o] = s.funcs[o]) ∧
        ∀ g ∈ s.graphs, g.part = fn → ∀ n ∈ g.nodes, ∀ id, n.st = .launched id → ∀ l ∈ u.launches, l.id = id → l.ending ≠ .live)

/-- R365 to R368. A fabric port. A flit has 256 bytes, its sequence numbers at their places and a CRC that verifies. A flit whose CRC is wrong changes
nothing but the count of correctable errors of its die and is answered with NAK; a data flit of the expected sequence number is accepted while the
queue has room; ACK lets payloads go; NAK has those that remain sent again, as soon as the partner shows no STOP, the first of them with the NAK that
is due. A port trains with four good lanes, and keeps its unacknowledged payloads only if its partner is the same, which has them again as soon as it
shows no STOP. An access of a peer is served under an import entry that permits it and as the local tables translate it, else it has the gated
response. That each receipt is answered by one idle flit where nothing is sent again, and the sequence number of an idle flit, is the model's choice
(log 78), and so are the sequence numbers at and after training (logs 9, 79). -/
def Obligations.FabricPorts : Prop :=
  ∀ (s : State) (k : Fin 48),
    let t := s.ports[k]
    let sends (x : State) (fs : List (List Byte)) : State := { x with hostOut := x.hostOut ++ fs.map (HostMsg.flit k.val) }
    let port (x : Port) : State := { s with ports := s.ports.set k x }
    let again (x : Port) (nak : Bool) : List (List Byte) :=
      x.unacked.zipIdx.map fun u => x.flit (x.txSeq - BitVec.ofNat 16 x.unacked.length + BitVec.ofNat 16 u.2) (nak && u.2 == 0) 1 u.1
    let nexts (x : Port) (nak : Bool) : List (List Byte) := if x.resend && !x.stopped && !x.unacked.isEmpty then again x nak else [x.flit (x.txSeq - 1) nak 0 []]
    let die : Fin 11 := if k.val < 24 then 1 else 2
    (∀ (x : Port) (lseq : W16) (nak : Bool) (type : Nat) (pl : List Byte), pl.length ≤ 240 → type < 4 →
      let bs := x.flit lseq nak type pl
      bs.length = 256 ∧ leNat (bs.drop 248) = (crc64 (bs.take 248)).toNat ∧ leNat (bs.take 2) = lseq.toNat ∧ leNat ((bs.drop 2).take 2) = (x.rxNext - 1).toNat ∧
        leNat ((bs.drop 4).take 1) = nak.toNat + (if 768 < x.inq.length then 2 else 0) + 4 * type ∧ ((bs.drop 8).take 240).take pl.length = pl) ∧
    (∀ flit, t.up = false ∨ flit.length ≠ 256 → exec (.flitReceive k flit) s = .next s) ∧
    (∀ flit, t.up = true → flit.length = 256 →
      (leNat (flit.drop 248) ≠ (crc64 (flit.take 248)).toNat → exec (.flitReceive k flit) s = .next (sends { s with syn := s.syn.set die (s.syn[die]).correctable } (nexts t true))) ∧
      (leNat (flit.drop 248) = (crc64 (flit.take 248)).toNat →
        let ctl := leNat ((flit.drop 4).take 1)
        let ack := BitVec.ofNat 16 (leNat ((flit.drop 2).take 2))
        let let_ := (ack + 1 - (t.txSeq - BitVec.ofNat 16 t.unacked.length)).toNat
        let isData := ctl / 4 % 4 == 1
        let take := isData && leNat (flit.take 2) == t.rxNext.toNat && decide (t.inq.length < 1024)
        let t2 := { t with stopped := ctl.testBit 1, unacked := if let_ ≤ t.unacked.length then t.unacked.drop let_ else t.unacked, rxNext := if take then t.rxNext + 1 else t.rxNext,
                           inq := if take then t.inq ++ [(flit.drop 8).take 240] else t.inq, resend := t.resend || ctl.testBit 0 }
        exec (.flitReceive k flit) s = .next (sends (port { t2 with resend := t2.resend && t2.stopped }) (nexts t2 (isData && !take))))) ∧
    (∀ pkg pt lanes, t.up = true ∨ s.dieUp die = false → exec (.linkTraining k pkg pt lanes) s = .next s) ∧
    (∀ pkg pt lanes, t.up = false → s.dieUp die = true →
      let good := t.lanes &&& lanes
      let n := ((List.range 5).filter fun i => good.getLsbD i).length
      let t1 := { t with up := true, lanes := good, active := if n = 5 then 0xF else good, peer := pkg % 4096, peerPort := pt }
      (n < 4 → exec (.linkTraining k pkg pt lanes) s = .next (port { t with lanes := good, active := 0 })) ∧
      (4 ≤ n → t.peer = pkg % 4096 → t.peerPort = pt →
        (t.stopped = false → exec (.linkTraining k pkg pt lanes) s = .next (sends (port { t1 with resend := false }) (again t1 false))) ∧
        (t.stopped = true → exec (.linkTraining k pkg pt lanes) s = .next (port { t1 with resend := true }))) ∧
      (4 ≤ n → t.peer ≠ pkg % 4096 ∨ t.peerPort ≠ pt → exec (.linkTraining k pkg pt lanes) s = .next (port { t1 with txSeq := 0, rxNext := 0, unacked := [], inq := [], stopped := false, resend := false }))) ∧
    (∀ lane : Fin 5, ∃ x, exec (.laneRetire k lane) s = .next (port x) ∧ x.up = false ∧ x.lanes.getLsbD lane.val = false ∧ (∀ i : Nat, i < 5 → i ≠ lane.val → x.lanes.getLsbD i = t.lanes.getLsbD i) ∧
      x.unacked = t.unacked ∧ x.inq = t.inq ∧ x.txSeq = t.txSeq ∧ x.rxNext = t.rxNext ∧ ∀ i : Nat, x.active.getLsbD i = true → x.lanes.getLsbD i = true) ∧
    ∀ (pkg : Nat) (sp : Fin 64) (addr : Nat) (bytes : Option (List Byte)) (len : Nat),
      (s.peerPort pkg = none → exec (.peerAccess pkg sp addr bytes len) s = .next s) ∧
      (s.peerPort pkg = some k →
        let s0 := port { t with inq := t.inq.drop 1 }
        let permits (i : Import) : Prop := i.pkg = pkg ∧ i.srcPart = sp.val ∧ (if bytes.isSome then i.w else i.r) = true
        let n := match bytes with | some bs => bs.length | none => len
        ((∀ i ∈ s.imports, ¬ permits i) → exec (.peerAccess pkg sp addr bytes len) s = .next (s0.reply k 2 [] false)) ∧
        (∀ i, s.imports = [i] → permits i →
          (∀ a, (s0.portRun i.part bytes.isSome (n / 65536 + 2) addr n).2 = .error (.fault a) →
            ∃ u : State, exec (.peerAccess pkg sp addr bytes len) s = .next u ∧ u.mem = s.mem ∧ HostMsg.peerGated t.peer ∈ u.hostOut) ∧
          (∀ ps, (s0.portRun i.part bytes.isSome (n / 65536 + 2) addr n).2 = .ok ps →
            ∃ u : State, exec (.peerAccess pkg sp addr bytes len) s = .next u ∧ u.ports[k].inq = t.inq.drop 1 ∧
              (bytes = none → u.mem = s.mem ∧ HostMsg.peerData t.peer (s.mem.gather ps).1 (!(s.mem.gather ps).2.isEmpty) ∈ u.hostOut) ∧
              (∀ bs, bytes = some bs → u.mem = (hWrites ps bs []).foldl Mem.apply s.mem ∧ HostMsg.peerDone t.peer ∈ u.hostOut)) ∧
          (∀ ps bs bad, (s0.portRun i.part true (bs.length / 65536 + 2) addr bs.length).2 = .ok ps → bytes = some bs →
            ∃ u : State, peerServed pkg sp addr (some bs) bad bs.length s = .next u ∧ u.mem = (hWrites ps bs bad).foldl Mem.apply s.mem ∧ HostMsg.peerDone t.peer ∈ u.hostOut)))

/-- R351 to R355, R363, R402, R404, R406. A package reset leaves nothing running, waiting or in flight and keeps the key store; a power-on leaves memory
empty and the syndrome records clear, another reset keeps the memory of stacks, silo and hosts and the syndrome records (the model's choice, log 76);
both keep the repair registers and, of a sparing register, USED and SPARE, while its other fields take their reset values (logs 76, 63). Where every
signature verifies, partition 0 alone exists, under a new key; where that of stage k does not, BOOTSTAT says so and no partition exists. A heartbeat
timeout or fatal error of a die that has been released records itself on that die, a cause that carries data as an uncorrectable error too, sends
ERR_FATAL where the host port is up, and resets the package. What stays of a boot that failed (log 6), the place that the record of a fatal error
names (log 101) and the form of signatures (log 56) are the model's. -/
def Sys2Proof.Claims.PackageResets : Prop :=
  ∀ (s : State) (on : Bool) (bad : Option Nat) (d : Fin 11) (cause : BitVec 7),
    let stage := bad.filter fun k => decide (2 ≤ k) && decide (k ≤ 11)
    let fresh (power : Bool) (u : State) : Prop :=
      u.tick = 0 ∧ u.keys = s.keys ∧ u.nextKey = s.nextKey + 1 ∧ u.graphs = [] ∧ u.launches = [] ∧ u.gangs = [] ∧ u.halted = [] ∧ u.placing = [] ∧ u.pfaults = [] ∧ u.package = 0 ∧ u.imports = [] ∧ u.routes = [] ∧
      (∀ c : Fin 192, u.cores[c] = Core.init) ∧ (∀ e : Fin 25, u.xlats[e] = []) ∧ (∀ fn : Fin 64, u.funcs[fn] = Func.init) ∧ u.power = Power.init ∧
      (∀ q : Fin 48, u.clusters[q].holder = none ∧ u.clusters[q].gated = true) ∧
      (power = true → u.mem = { cells := [], poison := [], tags := [] }) ∧
      (power = true → ∀ e : Fin 11, u.syn[e].fatal = false ∧ u.syn[e].uev = false ∧ u.syn[e].ucnt = 0 ∧ u.syn[e].ccnt = 0) ∧
      (power = false → ∀ e, e ∈ u.mem.cells ↔ e ∈ s.mem.cells ∧ e.1 < 2 ^ 72) ∧ (∀ k : Fin 16, u.upkeep[k].sparing = s.upkeep[k].sparing.map fun r => spMake false (spUsed r) 0 (spSpare r) 0) ∧
      (stage = none → ∀ e : Fin 11, u.syn[e].repair = (s.syn[e].repaired e.val).repair ∧ u.syn[e].ppr = (s.syn[e].repaired e.val).ppr) ∧
      (stage = none → u.bootstat = 0 ∧ u.parts[(0 : Fin 64)].exists_ = true ∧ u.parts[(0 : Fin 64)].keyId = s.nextKey ∧ ∀ p : Fin 64, p ≠ 0 → u.parts[p].exists_ = false) ∧
      (∀ k, stage = some k → u.bootstat = BitVec.ofNat 64 (2 ^ 63 + k) ∧ ∀ p : Fin 64, u.parts[p].exists_ = false)
    let fails (i : Instr) (c : BitVec 7) : Prop := s.bootstat = 0 ∨ d.val + 1 < s.bootstat.toNat % 16 →
      ∃ u : State, exec i s = .next u ∧ fresh false u ∧ u.hostOut = s.hostOut ++ (if s.bootstat = 0 ∨ 2 < s.bootstat.toNat % 16 then [.errFatal] else []) ∧ u.syn[d].fatal = true ∧ u.syn[d].fcause = c ∧
      (c.toNat ≤ 4 → ∃ addr inst, let y := s.syn[d].uncorrectable addr (synInfo inst (if c.toNat = 4 then 14 else 15) 4)
        u.syn[d].ucnt = y.ucnt ∧ u.syn[d].first = y.first ∧ u.syn[d].finfo = y.finfo ∧ u.syn[d].last = y.last ∧ u.syn[d].linfo = y.linfo ∧ u.syn[d].uev = true) ∧
      (4 < c.toNat → u.syn[d].ucnt = s.syn[d].ucnt ∧ u.syn[d].first = s.syn[d].first ∧ u.syn[d].last = s.syn[d].last ∧ u.syn[d].linfo = synInfo 0 16 4) ∧
      ∀ e : Fin 11, e ≠ d → u.syn[e].fatal = s.syn[e].fatal ∧ u.syn[e].first = s.syn[e].first ∧ u.syn[e].ucnt = s.syn[e].ucnt
    (∃ u : State, exec (.packageReset on bad) s = .next u ∧ fresh on u ∧ u.hostOut = s.hostOut) ∧
    fails (.heartbeatTimeout d bad) 5 ∧
    (1 ≤ cause.toNat → cause.toNat ≤ 6 → fails (.fatalDieError d cause bad) cause) ∧
    (s.bootstat ≠ 0 → s.bootstat.toNat % 16 ≤ d.val + 1 → exec (.heartbeatTimeout d bad) s = .next s ∧ exec (.fatalDieError d cause bad) s = .next s) ∧
    (cause = 0 ∨ 6 < cause.toNat → exec (.fatalDieError d cause bad) s = .next s)

/-- R356, R352. SPDM on a function's mailbox: GET_VERSION begins a connection, GET_CAPABILITIES and NEGOTIATE_ALGORITHMS each need the one before, the
others need algorithms; a request out of its order, an absent slot or measurement and an unsupported request have their errors; nothing but the
connection's standing and the answer changes, and a function that is not exposed does not answer. The codes and layouts of DSP0274 are the model's
presumption (log entry 57). -/
def Sys2Proof.Claims.SpdmAnswers : Prop :=
  ∀ (s : State) (fn : Fin 64) (off len : Nat) (nonce : BitVec 256) (code : BitVec 8),
    let f := s.funcs[fn]
    let answers (i : Instr) (stage c : Nat) (bs : List Byte) : Prop := exec i s = .next { s with funcs := s.funcs.set fn { f with spdm := stage }, hostOut := s.hostOut ++ [.doe fn.val c bs] }
    let refuses (i : Instr) : Prop := exec i s = .next { s with hostOut := s.hostOut ++ [.doe fn.val 0x7F [4]] }
    let digest := digestBytes (sha256 Config.certChain)
    let signs (bs : List Byte) : List Byte := let r := Config.sign (sha256 bs); beBytes 32 r.1 ++ beBytes 32 r.2
    let requests (slot index : Nat) : List Instr := [.getDigests fn, .getCertificate fn slot off len, .challenge fn nonce, .getMeasurements fn index nonce]
    let up : Prop := s.bootstat = 0 ∨ (fn = 0 ∧ 2 < s.bootstat.toNat % 16)
    (up →
      answers (.getVersion fn) 1 0x04 (leBytes 2 0x1300) ∧
      (1 ≤ f.spdm → answers (.getCapabilities fn) 2 0x61 (leBytes 4 0x16)) ∧
      (f.spdm < 1 → refuses (.getCapabilities fn)) ∧
      (2 ≤ f.spdm → answers (.negotiateAlgorithms fn) 3 0x63 (leBytes 4 2 ++ leBytes 4 0x10 ++ leBytes 4 1)) ∧
      (f.spdm < 2 → refuses (.negotiateAlgorithms fn)) ∧
      (f.spdm < 3 → ∀ slot index, ∀ i ∈ requests slot index, refuses i) ∧
      (3 ≤ f.spdm →
        answers (.getDigests fn) 3 0x01 (leBytes 1 1 ++ digest) ∧
        (let part := (Config.certChain.drop off).take len
         answers (.getCertificate fn 0 off len) 3 0x02 (leBytes 2 part.length ++ leBytes 2 (Config.certChain.length - off - part.length) ++ part)) ∧
        (∀ slot, slot ≠ 0 → answers (.getCertificate fn slot off len) 3 0x7F [1]) ∧
        answers (.challenge fn nonce) 3 0x03 (digest ++ signs (digest ++ digestBytes nonce)) ∧
        (let measured (i : Nat) : Option (BitVec 256) :=
           if fn = 0 then (if 1 ≤ i ∧ i ≤ 4 then s.measd.toList[i - 1]? else if 17 ≤ i ∧ i ≤ 32 ∧ s.parts[fn].exists_ = true then s.parts[fn].meas.toList[i - 17]? else none)
           else if 1 ≤ i ∧ i ≤ 16 ∧ s.parts[fn].exists_ = true then s.parts[fn].meas.toList[i - 1]? else none
         let count := if fn = 0 then 4 + (if s.parts[fn].exists_ then 16 else 0) else if s.parts[fn].exists_ then 16 else 0
         (answers (.getMeasurements fn 0 nonce) 3 0x60 (leBytes 1 count ++ signs (leBytes 1 count ++ digestBytes nonce))) ∧
         ∀ index, index ≠ 0 → index ≠ 0xFF →
           (∀ m, measured index = some m → answers (.getMeasurements fn index nonce) 3 0x60 ((leBytes 1 index ++ digestBytes m) ++ signs ((leBytes 1 index ++ digestBytes m) ++ digestBytes nonce))) ∧
           (measured index = none → answers (.getMeasurements fn index nonce) 3 0x7F [1]))) ∧
      exec (.spdmUnsupportedRequest fn code) s = .next { s with hostOut := s.hostOut ++ [.doe fn.val 0x7F [7, code]] }) ∧
    (¬ up → ∀ slot index, ∀ i ∈ [.getVersion fn, .getCapabilities fn, .negotiateAlgorithms fn, .spdmUnsupportedRequest fn code] ++ requests slot index, exec i s = .next s)

/-- Package resets and fatal errors; SPDM answers (R351, R352, R353, R354, R356, R363, R402, R404, R406). -/
def Obligations.ResetsAndAttestation : Prop :=
  Claims.PackageResets ∧ Claims.SpdmAnswers

/-- R390 to R395, R398 to R405, R408, R376. An error counts on its die: an uncorrectable one takes the last record, and the first where there is none, and
poisons what it was found in; a correctable one is counted and changes no value; a line that holds a poison code word is no error. What a scrub of the
silo, of a line of HBM and of each store of a core or an engine does; an error in control state faults the strand, on its core or halted in it, or
starts its packet again; the data of an engine or of quarry logic that is lost counts as a poisoned line; an uncorrectable error of a link or a
controller is fatal. Thresholds of parts mark rows of SRAM, cores and TSVs in the repair register, and a core that is marked has its cluster withheld.
The write-back of a corrected line changes no memory. A worn bank's retirement starts one at a time on a stack, and never twice in a pseudo-channel.
The registers are read by the physical function alone and cleared by it, repair fields apart. The numbers of units, indices and rows are the model's
(log 101), as are what a core that cannot be replaced leaves (log 77) and where poison met by the device counts (log 100). -/
def Obligations.ErrorsAreRecorded : Prop :=
  ∀ (s : State),
    let bump (x : W32) : W32 := if x = 0xFFFFFFFF then x else x + 1
    let doe (x : State) (m : HostMsg) : State := { x with hostOut := x.hostOut ++ [m] }
    let info (inst unit kind : Nat) : W64 := BitVec.ofNat 64 (inst % 65536 * 2 ^ 24 + unit * 256 + kind)
    let bad (y : Syndrome) (a : Nat) (i : W64) : Syndrome :=
      { y with ucnt := bump y.ucnt, last := BitVec.ofNat 64 a, linfo := i, first := if y.uev then y.first else BitVec.ofNat 64 a, finfo := if y.uev then y.finfo else i, uev := true, ovf := y.ovf || y.uev }
    let up (d : Fin 11) : Prop := s.bootstat = 0 ∨ d.val + 1 < s.bootstat.toNat % 16
    (∀ line, line < 2 ^ 35 →
      let l := siloAddr (64 * line) / 64
      let dev := 64 * line / 4096 % 16
      let d : Fin 11 := if dev < 8 then 1 else 2
      let i : Fin 8 := ⟨dev % 8, Nat.mod_lt _ (by omega)⟩
      exec (.siloScrub line none) s = .next s ∧ (s.mem.bad l = true → ∀ e, exec (.siloScrub line e) s = .next s) ∧
      (¬ up d → ∀ e, exec (.siloScrub line e) s = .next s) ∧
      (s.mem.bad l = false → up d →
        exec (.siloScrub line (some false)) s = .next { s with syn := s.syn.set d { s.syn[d] with ccnt := bump s.syn[d].ccnt }, wback := s.wback ++ [l] } ∧
        ∃ u : State, exec (.siloScrub line (some true)) s = .next u ∧ u.mem = s.mem.apply (MWrite.mark ((List.range 64).map fun j => siloAddr (64 * (line / 64 * 64 + j)) / 64)) ∧ u.cores = s.cores ∧
          (let y := bad s.syn[d] (64 * line) (info dev 2 1)
           (line / 64 ∈ y.pprRows → u.syn = s.syn.set d y) ∧
           (line / 64 ∉ y.pprRows → u.syn = s.syn.set d { y with pprRows := line / 64 :: y.pprRows,
                                                                     ppr := y.ppr.set i (((if y.ppr[i] >>> 8 = 0xFF#16 then 0xFF#16 else y.ppr[i] >>> 8 + 1#16) <<< 8) ||| (y.ppr[i] &&& 0xFF#16)) })))) ∧
    (∀ (k : Fin 16) (errs : List (Nat × Bool)), s.hbm[k].started ≤ s.tick → s.tick % 400 < 384 →
      let c := slotOwner (s.tick % 400)
      let y := s.syn[stackDie k]
      ((∀ r ∈ s.cores[c].reqs, r.stack ≠ k.val ∨ r.bound ≠ some s.tick) → ∀ (x : Nat) (b : Bool), errs = [(x, b)] →
        let line := hbmAddr k.val 0 / 64 + x % (3 * 2 ^ 28)
        let inst := k.val * 64 + 64 * line % 2 ^ 36 / 2048 % 64
        ∃ u : State, exec (.calendarSlotStart k errs) s = .next u ∧ u.cores = s.cores ∧
          (s.mem.bad line = true → u.mem = s.mem ∧ u.syn = s.syn) ∧
          (s.mem.bad line = false → b = true → u.mem = s.mem.apply (MWrite.mark [line]) ∧ let z := u.syn[stackDie k]; let o := bad y (64 * line) (info inst 1 1)
            z.ucnt = o.ucnt ∧ z.ccnt = o.ccnt ∧ z.first = o.first ∧ z.finfo = o.finfo ∧ z.last = o.last ∧ z.linfo = o.linfo ∧ z.uev = o.uev ∧ z.ovf = o.ovf) ∧
          (s.mem.bad line = false → b = false → u.mem = s.mem ∧ u.wback = s.wback ++ [line] ∧ u.syn[stackDie k].ccnt = bump y.ccnt ∧ u.syn[stackDie k].ucnt = y.ucnt)) ∧
      (∀ r, (s.cores[c].reqs.find? fun r => r.stack == k.val && r.bound == some s.tick) = some r → r.who ≠ .slab → r.reach ≤ s.clusters[clusterOf c].cyc → s.cores[c].behind r = false →
        exec (.calendarSlotStart k errs) s = exec (.calendarSlotStart k []) (s.blockErrors k (r.addr % 2 ^ 36 / 2048) false errs)) ∧
      ∀ (blk x : Nat) (b : Bool), s.blockErrors k blk false [(x, b)] = s.hbmError k (hbmAddr k.val (2048 * blk) / 64 + x % 32) false b) ∧
    (∀ line, exec (.eccWriteback line) s = .next { s with wback := s.wback.erase line }) ∧
    (∀ (unit : BitVec 4) (c : Fin 192) (i : Nat),
      let d : Fin 11 := if unit = 12 then (if i / 8 % 24 < 12 then 1 else 2) else if unit = 13 then stackDie ⟨i % 16, Nat.mod_lt _ (by omega)⟩
        else if 13 < unit.toNat ∧ 65536 ≤ i then ⟨(i / 65536 - 1) % 11, Nat.mod_lt _ (by omega)⟩ else coreDie c
      let kind := if unit = 11 then 2 else if (unit = 12 ∨ unit = 13) ∧ i < 1024 then 3 else if 13 < unit.toNat then 4 else 1
      let inst := if unit.toNat < 12 then c.val else if unit = 12 then i / 8 % 24 else if unit = 13 then i % 16 * 16 + i / 16 % 16 else i % 65536
      let recent : Nat := (s.syn[d].coreErrs.filter fun e => e.1 == c.val && decide (dtime s.tick < e.2 + 86400000000000)).length
      let retries : Nat := (s.syn[d].retries.filter fun e => e.1 == inst && decide (dtime s.tick < e.2 + 1000000)).length
      let wears : Prop := unit ∈ [3#4, 4#4, 5#4, 8#4, 9#4] ∧ 255 ≤ recent
      exec (.sramScrub unit c i none) s = .next s ∧
      (unit.toNat < 3 ∨ s.sramWasBad unit c i = true ∨ ¬ up d → ∀ e, exec (.sramScrub unit c i e) s = .next s) ∧ 
      (13 < unit.toNat → up d → ∃ u : State, exec (.sramScrub unit c i (some true)) s = .next u ∧ u.launches = [] ∧ u.bootstat = 0 ∧ u.syn[d].fatal = true ∧ u.syn[d].last = BitVec.ofNat 64 inst ∧
        u.syn[d].linfo = info inst unit.toNat 4 ∧ u.syn[d].fcause = if unit = 14 then 4 else if d = 0 then 2 else if d.val < 3 then 1 else 3) ∧
      (unit ∉ [3, 4, 6] → s.sramWasBad unit c i = false) ∧ (unit = 6 → s.sramWasBad unit c i = s.mem.bad (yardAddr (s.yardOfCore c) 0 / 64 + i % (yardLimit / 64))) ∧
      (∀ tb, s.tbOn c = some tb → (unit = 3 → s.sramWasBad unit c i = s.mem.bad (wbufAddr tb.id 0 / 64 + i % 65536)) ∧
        (unit = 4 → s.sramWasBad unit c i = s.mem.bad (abufAddr tb.id 0 / 64 + i % 65536))) ∧
      (3 ≤ unit.toNat → s.sramWasBad unit c i = false → up d →
        (unit ≠ 14 ∨ retries < 1000 → ∃ u : State, exec (.sramScrub unit c i (some false)) s = .next u ∧ u.syn[d].ccnt = bump s.syn[d].ccnt ∧ u.syn[d].ucnt = s.syn[d].ucnt ∧
          u.syn[d].uev = s.syn[d].uev ∧ u.syn[d].first = s.syn[d].first ∧ u.syn[d].last = s.syn[d].last ∧
          (¬ wears → (∀ e : Fin 11, e ≠ d → u.syn[e] = s.syn[e]) ∧ u.mem = s.mem ∧ u.cores = s.cores ∧ u.clusters = s.clusters) ∧
          (wears → u.clusters[clusterOf c].withheld = true ∧ (u.syn[d].repair.getLsbD 15 = true ∨ u.syn[d].repair.getLsbD 21 = true))) ∧
        (unit = 14 → 1000 ≤ retries →
          let r := s.syn[d].repair
          let z := if r.extractLsb' 24 8 = 0xFF#8 then r else r + 2 ^ 24
          (r.extractLsb' 24 8 < r.extractLsb' 32 8 → ∃ u : State, exec (.sramScrub unit c i (some false)) s = .next u ∧ u.mem = s.mem ∧ u.cores = s.cores ∧ u.syn[d].ccnt = bump s.syn[d].ccnt ∧ u.syn[d].repair = z) ∧
          (r.extractLsb' 32 8 ≤ r.extractLsb' 24 8 → ∃ u : State, exec (.sramScrub unit c i (some false)) s = .next u ∧ u.launches = [] ∧ u.syn[d].fatal = true ∧ u.syn[d].fcause = 4)) ∧
        (unit.toNat ≤ 13 → ∃ u : State, exec (.sramScrub unit c i (some true)) s = .next u ∧ u.tick = s.tick ∧
          (let y := bad s.syn[d] i (info inst unit.toNat kind)
           let z := u.syn[d]
           z.ucnt = y.ucnt ∧ z.ccnt = y.ccnt ∧ z.first = y.first ∧ z.finfo = y.finfo ∧ z.last = y.last ∧ z.linfo = y.linfo ∧ z.uev = y.uev ∧ z.ovf = y.ovf) ∧
          (unit = 12 ∨ unit = 13 → u.mem = s.mem ∧ u.cores = s.cores ∧ u.halted = s.halted ∧ (i < 1024 → u.chans = s.chans) ∧ (unit = 12 → u.quarry = s.quarry)) ∧
          (unit = 13 → i < 1024 → ∀ k : Fin 16, k.val = i % 16 →
            let q := s.quarry[k]
            (q.sums.length + q.queries.length ≤ i / 16 → u.quarry = s.quarry) ∧
            ∀ x l, q.sums[i / 16]? = some x → s.launch? x.launch = some l → l.ending = .live → pktKind x.pkt = 1 →
              ∃ y, u.quarry[k].sums = q.sums.eraseIdx (i / 16) ++ [y] ∧ y.pkt = x.pkt ∧ y.launch = x.launch ∧ y.out = (s.gsum l x.pkt k).1 ∧ y.res = (s.gsum l x.pkt k).2.1) ∧
          (s.cores[c].strand = none → ∀ h, (s.halted.find? fun h => h.core == c && h.place == .core c.val) = some h → (∀ o ∈ s.halted, o.st.sid = h.st.sid → o = h) →
            (unit = 8 → ∃ k ∈ u.halted, k.st.sid = h.st.sid ∧ ∀ r : Nat, r < 32 → k.st.xbad.getLsbD r = (r != 0 && (h.st.xbad.getLsbD r || decide (r = i % 32)))) ∧
            (unit = 11 → (∃ e, e.kind = 3 ∧ e ∈ u.funcs[h.st.part].events) ∧ ∀ l ∈ u.launches, l.id = h.st.launch → l.ending ≠ .live)) ∧
          (unit = 12 → 1024 ≤ i → ∀ q : Fin 192, q.val = i % 192 → ∀ r rest, s.chans[q].recs = r :: rest → r.status = none → u.chans[q].recs = { r with hurt := true } :: rest) ∧
          (unit = 13 → 1024 ≤ i → ∀ k : Fin 16, k.val = i % 16 → u.quarry[k] = { s.quarry[k] with hurt := true }) ∧
          (unit = 6 → u.mem = s.mem.apply (MWrite.mark [yardAddr (s.yardOfCore c) 0 / 64 + i % (yardLimit / 64)]) ∧ u.cores = s.cores) ∧
          (unit = 7 → u.mem = s.mem ∧ u.cores = s.cores ∧ ∀ h ∈ s.halted, ∃ k ∈ u.halted, k.st = h.st ∧
            (h.place = .granary (c.val / 4) (i / 2048 % 8) → k.badLines = (i % 2048) :: h.badLines) ∧ (h.place ≠ .granary (c.val / 4) (i / 2048 % 8) → k = h)) ∧
          ∀ st, s.cores[c].strand = some st →
            (unit = 3 → u.mem = s.mem.apply (MWrite.mark [wbufAddr st.tb.id 0 / 64 + i % 65536]) ∧ u.cores = s.cores) ∧
            (unit = 4 → u.mem = s.mem.apply (MWrite.mark [abufAddr st.tb.id 0 / 64 + i % 65536]) ∧ u.cores = s.cores) ∧
            (∀ st', u.cores[c].strand = some st' →
              (unit = 5 → ∀ r : Nat, r < 1024 → st'.tb.rowp.getLsbD r = (st.tb.rowp.getLsbD r || decide (r = i / 256 % 1024))) ∧
              (unit = 8 → ∀ r : Nat, r < 32 → st'.xbad.getLsbD r = (r != 0 && (st.xbad.getLsbD r || decide (r = i % 32)))) ∧
              (unit = 9 → ∀ r : Fin 16, (if i < 256 then st'.pbad[r] = st.pbad[r] ∧ st'.vbad[r] = (if r.val = i / 16 % 16 then st.vbad[r] ||| (1#16 <<< (i % 16)) else st.vbad[r])
                else st'.vbad[r] = st.vbad[r] ∧ st'.pbad[r] = (if r.val = i / 16 % 16 then st.pbad[r] ||| (1#16 <<< (i % 16)) else st.pbad[r]))) ∧
              (unit = 10 → i / 256 % 4 = 0 → st'.tb.wp0.colBad = st.tb.wp0.colBad ||| (1#256 <<< (i % 256))) ∧
              (unit = 11 → st.handler = false → st'.phase = .dying ∧ st'.trapcause = Cause.poison.code ∧ st'.trapslot = BitVec.ofNat 64 (slotOfNat i).num ∧ st'.trappc = st.pc.get (slotOfNat i) ∧ st'.trapaddr = 0)) ∧
            (unit = 11 → ∃ e, e.kind = 3 ∧ e ∈ u.funcs[st.part].events)))) ∧
    (∀ (y : Syndrome) (row col : Nat) (b : Bool),
      let seen (z : Syndrome) (part : Nat) : Nat := ((z.sramRows.find? fun r => r.1 == part).map Prod.snd).getD 0
      let z := y.sramError row col b
      let marked : W64 := if y.repair.extractLsb' 48 8 = 0xFF#8 then y.repair else y.repair + 2 ^ 48
      (4 ≤ seen y (2 * row) → z.repair = y.repair) ∧
      (seen y (2 * row) < 4 → b = true ∨ 3 ≤ seen y (2 * row) → z.repair = marked ∧ seen z (2 * row) = 4) ∧
      (b = false → seen y (2 * row) < 3 → seen z (2 * row) = seen y (2 * row) + 1 ∧ seen z (2 * col + 1) = min 4 (seen y (2 * col + 1) + 1) ∧
        z.repair = if seen y (2 * col + 1) = 3 then marked else y.repair)) ∧
    (∀ (k : Fin 16) (pc bank : Fin 64),
      let y := s.syn[stackDie k]
      let inBank (r : Nat) : Prop := r / 6144 = (k.val % 2 * 2 ^ 26 + (pc.val * 64 + bank.val) * 6144) / 6144
      (s.bankWorn k pc.val bank.val = true ↔ 2 ≤ (y.badRows.filter fun r => decide (inBank r)).length ∨
        32 ≤ (y.corRows.filter fun r => decide (inBank r.1) && decide (dtime s.tick < r.2 + 86400000000000)).length)) ∧
    (∀ (k : Fin 16) (pc bank : Fin 64),
      let up := s.upkeep[k]
      let r := up.sparing[pc]
      (r.getLsbD 30 = true ∨ (r.extractLsb' 18 6).toNat = bank.val ∨ (∃ q : Fin 64, up.sparing[q].getLsbD 31 = true) ∨ s.dieUp (stackDie k) = false ∨ s.bankWorn k pc.val bank.val = false → exec (.bankRetire k pc bank) s = .next s) ∧
      (r.getLsbD 30 = false → (r.extractLsb' 18 6).toNat ≠ bank.val → (∀ q : Fin 64, up.sparing[q].getLsbD 31 = false) → s.dieUp (stackDie k) = true → s.bankWorn k pc.val bank.val = true →
        exec (.bankRetire k pc bank) s = .next { s with upkeep := s.upkeep.set k { up with sparing := up.sparing.set pc (0xC0000000#32 ||| (BitVec.ofNat 32 bank.val <<< 24) ||| (r &&& 0x00FC0000#32)) } })) ∧
    ∀ (fn : Fin 64) (dw0 dw1 : W32),
      let d := (dw0.extractLsb' 0 4).toNat
      let op := dw0.extractLsb' 4 2
      let n := (dw1.extractLsb' 10 10).toNat
      let o := (dw1.extractLsb' 0 10).toNat
      (s.bootstat ≠ 0 → s.bootstat.toNat % 16 ≤ 2 → exec (.syndromeRead fn dw0 dw1) s = .next s ∧ exec (.syndromeClear fn dw0 dw1) s = .next s) ∧
      (s.bootstat = 0 ∨ 2 < s.bootstat.toNat % 16 →
      (fn ≠ 0 → exec (.syndromeRead fn dw0 dw1) s = .next (doe s (.doeError fn.val)) ∧ exec (.syndromeClear fn dw0 dw1) s = .next (doe s (.doeError fn.val))) ∧
      (fn = 0 → (10 < d ∨ op ≠ 0 ∨ n = 0 ∨ 128 < n → exec (.syndromeRead fn dw0 dw1) s = .next (doe s (.doeError 0))) ∧
        (10 < d ∨ op ≠ 1 → exec (.syndromeClear fn dw0 dw1) s = .next (doe s (.doeError 0))) ∧
        ∀ h : d < 11,
          let e : Fin 11 := ⟨d, h⟩
          let y := s.syn[e]
          (op = 1 → exec (.syndromeClear fn dw0 dw1) s = .next (doe { s with syn := s.syn.set e { y with ucnt := 0, ccnt := 0, first := 0, last := 0, finfo := 0, linfo := 0, uev := false, ovf := false, fatal := false } } (.doe 0 1 []))) ∧
          (op = 0 → 1 ≤ n → n ≤ 128 → exec (.syndromeRead fn dw0 dw1) s = .next (doe s (.doe 0 1 ((List.range n).flatMap fun i => leBytes 8 (s.synReg e (8 * (o + i))).toNat)))) ∧
          s.synReg e 0 = ((BitVec.ofBool y.fatal).zeroExtend 64 <<< 63) ||| (y.fcause.zeroExtend 64 <<< 56) ||| ((BitVec.ofBool y.ovf).zeroExtend 64 <<< 1) ||| (BitVec.ofBool y.uev).zeroExtend 64 ∧
          s.synReg e 8 = y.first ∧ s.synReg e 16 = y.finfo ∧ s.synReg e 24 = y.last ∧ s.synReg e 32 = y.linfo ∧ s.synReg e 40 = y.ucnt ++ y.ccnt ∧ s.synReg e 48 = y.repair ∧
          (3 ≤ d → s.synReg e 56 = y.rowpar) ∧ (1 ≤ d → d < 3 → ∀ v : Fin 8, s.synReg e (0x100 + 0x40 * (d - 1) + 8 * v.val) = y.ppr[v].zeroExtend 64) ∧
          (∀ (hd : 3 ≤ d) (pc : Fin 64), s.synReg e (0x100 + 8 * pc.val) = ((s.upkeep[2 * (d - 3)]'(by omega)).sparing[pc]).zeroExtend 64 ∧ s.synReg e (0x300 + 8 * pc.val) = ((s.upkeep[2 * (d - 3) + 1]'(by omega)).sparing[pc]).zeroExtend 64)))

/-- R303 to R306, R309, R311, R318 to R320. A clearing takes place once a round; the grants of the clearing before take effect, on the clusters that the
same slots hold. Grants lie between floor and demand, within the pool or the floors, and are every demand where the pool covers them; the energy of
clusters, chaff and the rest is charged without loss; temperatures above HOTTHR lower a demand by a tenth, above the floor, and ones 3 degrees under
it raise it. Slowing ends with the need within the pool or nothing left to slow; parking or shedding goes from the lowest class up and ends with the
floors within the pool or E3 work alone; a parked launch resumes at its point of least demand, where 100 headrooms cover 1.25 times its floor and no
park event covers it; at most one launch a round is raised, where 100 headrooms cover it. That a round's grants take effect at its end is the model's
reading (log 65). -/
def Sys2Proof.Claims.MarketClears : Prop :=
  ∀ (s : State) (pmeas outside : Nat) (temps : List Nat),
    (dtime s.tick / 10000 ≤ s.power.round → exec (.marketClear pmeas outside temps) s = .next s) ∧
    (s.power.round < dtime s.tick / 10000 → ∃ u : State, exec (.marketClear pmeas outside temps) s = .next u ∧ u.mem = s.mem ∧ u.tick = s.tick ∧
      u.power.round = s.power.round + 1 ∧ u.power.pmeas = pmeas ∧ u.power.pool = s.target - outside ∧ u.power.hot = s.power.hot ∧
      (let n := s.launches.length
       let v := (s.grant.charge outside).sample temps
       let pool := s.target - outside
       let bs := grantLoop pool (pool + 1) ((List.range 48).filterMap v.bidder)
       u.launches = ((((v.slowDown pool (8 * n + 1)).parkDown pool (2 * n + 1) []).resumeUp pool).raise pool).launches ∧
       ∀ g ∈ u.power.grants, ∃ b ∈ bs, ∃ x l, g.q = b.q ∧ v.cluster? g.q = some x ∧ x.holder = some g.holder ∧ s.launch? g.holder.1 = some l ∧ g.watts = b.g ∧
         g.mhz = if x.fixed then none else some (freqFor b l.cur.volt l.cur.freq x.busy x.total)) ∧
      (∀ q : Fin 48, let x := s.clusters[q]; let y := u.clusters[q]; let t := temps.getD q.val x.temp
        y.temp = t ∧ y.busy = 0 ∧ y.total = 0 ∧ (y.holder = x.holder ∨ (y.holder = none ∧ s.strandsOn q.val = [])) ∧ y.fixed = x.fixed ∧
        y.grant = s.grant.clusters[q].grant ∧
        (s.power.hot < t → y.lower = if ∃ b, s.bidder q.val = some b ∧ b.f < b.full - b.full * x.lower / 10 then x.lower + 1 else x.lower) ∧
        (t ≤ s.power.hot → y.lower = if t + 3 ≤ s.power.hot then x.lower - 1 else x.lower) ∧
        ((∃ g ∈ u.power.grants, g.q = q.val) ↔ ∃ h l, x.holder = some h ∧ s.launch? h.1 = some l) ∧
        ∀ g ∈ u.power.grants, g.q = q.val → x.holder = some g.holder ∧ (g.mhz = none ↔ x.fixed = true)) ∧
      (let own (q : Fin 48) : Option Launch := s.clusters[q].holder.bind fun h => s.launch? h.1
       let drawn := ((List.finRange 48).map fun q => if (own q).isSome then Config.clusterEnergy q.val s.power.round else if s.clusters[q].left.isSome then Config.chaffEnergy q.val s.power.round else 0).sum
       (u.parts.toList.map Partition.energy).sum + u.power.account = (s.parts.toList.map Partition.energy).sum + s.power.account + drawn + outside * 10 * 2 ^ 20 / 1000000) ∧
      ∀ p : Fin 64, u.parts[p].traffic = 0) ∧
    (∀ q : Fin 48, ((∀ g ∈ s.power.grants, g.q ≠ q.val) → s.grant.clusters[q] = s.clusters[q]) ∧
      ∀ g ∈ s.power.grants, g.q = q.val → (∀ o ∈ s.power.grants, o.q = g.q → o = g) → ∀ l, s.launch? g.holder.1 = some l →
        let x := s.clusters[q]
        (x.holder ≠ some g.holder → s.grant.clusters[q] = x) ∧
        (x.holder = some g.holder → x.fixed = true → g.mhz = none → s.grant.clusters[q] = { x with grant := g.watts }) ∧
        (x.holder = some g.holder → x.fixed = false → ∀ f, g.mhz = some f → s.grant.clusters[q] = { x with grant := g.watts, mhz := min f l.cur.freq })) ∧
    (∀ (pool : Nat) (bs : List Bidder), (∀ b ∈ bs, b.g = b.f ∧ b.f ≤ b.d ∧ (b.elastic = false → b.d = b.f)) →
      let r := grantLoop pool (pool + 1) bs
      r.map Bidder.q = bs.map Bidder.q ∧ (∀ b ∈ r, b.f ≤ b.g ∧ b.g ≤ b.d) ∧
      (let floors := (bs.map Bidder.f).sum; (r.map Bidder.g).sum ≤ if pool ≤ floors then floors else pool) ∧
      ((bs.map Bidder.d).sum ≤ pool → ∀ b ∈ r, b.g = b.d)) ∧
    (∀ (q : Nat) (b : Bidder), s.bidder q = some b → b.q = q ∧ b.g = b.f ∧ b.f ≤ b.d ∧ (b.elastic = false → b.d = b.f) ∧ (s.strandsOn q = [] → b.d = b.f ∧ b.b = b.f) ∧
      ∀ st ∈ s.strandsOn q, b.d * (1 + st.prio.toNat) ≤ b.b) ∧
    (∀ (b : Bidder) (volt freq busy total : Nat), (b.full ≤ b.g → freqFor b volt freq busy total = freq) ∧ (b.g = b.f → b.g < b.full → freqFor b volt freq busy total = 800) ∧
      ∀ g, b.g ≤ g → g < b.full → freqFor b volt freq busy total ≤ freqFor { b with g := g } volt freq busy total) ∧
    ∀ pool : Nat, (∀ a ∈ s.launches, ∀ b ∈ s.launches, a.id = b.id → a = b) →
      (let v := s.slowDown pool (8 * s.launches.length + 1)
       v.needOf false ≤ pool ∨ ∀ l ∈ v.launches, l.ending = .live → l.parked = false ∨ l.resuming = true → l.cur.fixed = false → l.lower = none) ∧
      (let v := s.parkDown pool (2 * s.launches.length + 1) []
       (s.needOf true ≤ pool → v = s) ∧ (v.needOf true ≤ pool ∨ ∀ l ∈ v.runningLaunches, l.eclass = 3) ∧
       ∀ a ∈ v.runningLaunches, ∀ b ∈ s.runningLaunches, (∀ m ∈ v.runningLaunches, m.id ≠ b.id) →
         b.eclass ≤ a.eclass ∧ ∃ m ∈ v.launches, m.id = b.id ∧ ((m.parked = true ∧ m.resuming = false) ∨ (m.ending = .ending 2 ∧ b.eclass ≠ 3))) ∧
      (∀ l ∈ s.launches, l.parked = true → l.resuming = false → ∀ m ∈ (s.resumeUp pool).launches, m.id = l.id → m.parked = false ∨ m.resuming = true →
        let p := l.ops.getD l.lowest default
        let fl := min (p.tm1 + 1) l.parkHeld * (if p.fixed then p.full else Config.busyDraw p.volt 800)
        m.point = l.lowest ∧ l.ending = .live ∧ l.parkSeed ≠ none ∧ (∀ e ∈ s.eventsOn 2, e.cls < l.eclass.toNat) ∧ s.power.headf.length = 100 ∧ ∀ h ∈ s.power.headf, 5 * (fl : Int) ≤ 4 * h) ∧
      (s.raise pool = s ∨ ∃ l j, l ∈ s.runningLaunches ∧ l.higher = some j ∧ s.raise pool = s.setPoint l.id j ∧ s.eventsOn 1 = [] ∧ (∀ o ∈ s.liveLaunches, o.parked = true → o.resuming = true) ∧
        (∀ o ∈ s.runningLaunches, o.higher ≠ none → keyLt (s.launchRank o) (s.launchRank l) = false) ∧
        let up : Int := s.launchDraw false l (l.ops.getD j default) - s.launchDraw false l l.cur
        s.power.head.length = 100 ∧ (∀ h ∈ s.power.head, up ≤ h) ∧ (s.needOf false : Int) + up ≤ pool)

/-- R315, R311, R267. An event of the curve in force acts once, when its time has come: a slow event moves every running elastic launch to its point of
least demand; a park event parks every launch of its class or below, a resuming one too, or sheds one that the park area cannot hold and that is not
E3; a shed event sheds every launch of its class or below that is not E3. Any other event does nothing. That an event acts once (log 66), and that a
resuming launch counts as running (log 65), are the model's readings. -/
def Sys2Proof.Claims.CurveEventsAct : Prop :=
  ∀ (s : State) (seq ev : Nat), (∀ a ∈ s.launches, ∀ b ∈ s.launches, a.id = b.id → a = b) →
    let idle (grade : Nat) : Prop := s.curveNow = none ∨ ∃ c, s.curveNow = some c ∧ (c.seq ≠ seq ∨ c.events[ev]? = none ∨ ∃ e, c.events[ev]? = some e ∧
      (e.grade ≠ grade ∨ e.acted = true ∨ dtime s.tick < c.start + e.off * 1000000))
    (idle 1 → exec (.curveSlowEvent seq ev) s = .next s) ∧ (idle 2 → exec (.curveParkEvent seq ev) s = .next s) ∧ (idle 3 → exec (.curveShedEvent seq ev) s = .next s) ∧
    ∀ c e, s.curveNow = some c → c.seq = seq → c.events[ev]? = some e → e.acted = false → c.start + e.off * 1000000 ≤ dtime s.tick →
      let acted (u : State) : Prop := u.mem = s.mem ∧ u.tick = s.tick ∧ (∃ c' ∈ u.power.curves, c'.seq = seq ∧ ∃ e', c'.events[ev]? = some e' ∧ e'.acted = true) ∧ u.launches.map Launch.id = s.launches.map Launch.id
      (e.grade = 1 → ∃ u : State, exec (.curveSlowEvent seq ev) s = .next u ∧ acted u ∧ ∀ l ∈ s.launches, l.ending = .live → l.parked = false ∨ l.resuming = true → l.cur.fixed = false →
        ∃ m ∈ u.launches, m.id = l.id ∧ m.ops = l.ops ∧ m.opmask = l.opmask ∧ ∀ p ∈ l.points, m.cur.full ≤ p.2.full) ∧
      (e.grade = 2 → ∃ u : State, exec (.curveParkEvent seq ev) s = .next u ∧ acted u ∧ ∀ l ∈ s.launches, l.ending = .live → l.parked = false ∨ l.resuming = true →
        (l.eclass.toNat ≤ e.cls → ∃ m ∈ u.launches, m.id = l.id ∧ ((m.ending = .ending 2 ∧ l.eclass ≠ 3) ∨ (l.eclass = 3 ∧ m = l) ∨ (m.parked = true ∧ m.resuming = false ∧
          ∀ (k : Fin 192) st, s.cores[k].strand = some st → st.launch = l.id → st.phase = .running → l.parked = false → (∃ g ∈ s.gangs, g.gid = st.gang ∧ g.launch = l.id) → ∃ r ∈ u.preqs, r.sid = st.sid))) ∧
        (e.cls < l.eclass.toNat → l ∈ u.launches)) ∧
      (e.grade = 3 → ∃ u : State, exec (.curveShedEvent seq ev) s = .next u ∧ acted u ∧ ∀ l ∈ s.launches, l.ending = .live →
        (l.eclass.toNat ≤ e.cls ∧ l.eclass ≠ 3 → (∃ m ∈ u.launches, m.id = l.id ∧ m.ending = .ending 2) ∧
          ∀ (k : Fin 192) st, s.cores[k].strand = some st → st.launch = l.id → ∃ st', u.cores[k].strand = some st' ∧ st'.phase = .dying ∧ st'.trapcause = Cause.shed.code) ∧
        (e.cls < l.eclass.toNat ∨ l.eclass = 3 → l ∈ u.launches))

/-- R317, R318, R320, R223, R329. A cluster on which nothing stands may be gated: it is held no more and its yard leaves it. An acquired cluster of a
powered die is powered. A die all of whose clusters are gated and free is gated, no two within 250 microseconds; it is powered when one of its
clusters is acquired. Once in a millisecond the strands of one hot cluster are asked to leave for the coolest free one, to which their slot moves.
That a cluster which a slot holds may be gated (log 72), and the two steps of a migration (log 73), are the model's choices. -/
def Sys2Proof.Claims.ClustersAreGated : Prop :=
  ∀ (s : State) (q : Fin 48) (d : Fin 8),
    let x := s.clusters[q]
    let die : Fin 8 := ⟨q.val / 6, by omega⟩
    (s.mayGate q = false → exec (.clusterGate q) s = .next s) ∧
    (s.mayGate q = true → ∃ u : State, exec (.clusterGate q) s = .next u ∧ u.clusters = s.clusters.set q { x with holder := none, yard := none, gated := true, left := (match x.holder.bind fun h => s.launch? h.1 with | some l => some l.part | none => x.left) } ∧ u.cores = s.cores ∧ u.mem = s.mem ∧
      ∀ id k l, x.holder = some (id, k) → s.launch? id = some l → ∃ m, u.launch? id = some m ∧ ∀ j, m.slots[j]? = if j = k then l.slots[j]?.map (fun sl => { sl with cluster := none, prev := some q.val, img := (m.slots[j]?.bind LSlot.img) }) else l.slots[j]?) ∧
    (s.mayGate q = true → x.gated = false ∧ ∀ c : Fin 192, c.val / 4 = q.val → s.cores[c].strand = none) ∧
    (x.gated = true → x.holder ≠ none → s.diePower[die] = true → exec (.clusterPowerUp q) s = .next { s with clusters := s.clusters.set q { x with gated := false } }) ∧
    (x.gated = false ∨ x.holder = none ∨ s.diePower[die] = false → exec (.clusterPowerUp q) s = .next s) ∧
    (let off : Prop := ∀ k : Fin 48, k.val / 6 = d.val → s.clusters[k].gated = true ∧ s.clusters[k].holder = none
     (s.diePower[d] = true → off → s.power.nextGate ≤ dtime s.tick → exec (.dieGate d) s = .next { s with diePower := s.diePower.set d false, power := { s.power with nextGate := dtime s.tick + 250000 } }) ∧
     (s.diePower[d] = false ∨ ¬ off ∨ dtime s.tick < s.power.nextGate → exec (.dieGate d) s = .next s)) ∧
    (let held : Prop := ∃ k : Fin 48, k.val / 6 = d.val ∧ s.clusters[k].holder ≠ none
     (s.diePower[d] = false → held → exec (.diePowerUp d) s = .next { s with diePower := s.diePower.set d true }) ∧
     (s.diePower[d] = true ∨ ¬ held → exec (.diePowerUp d) s = .next s)) ∧
    (s.movedOff = none →
      (dtime s.tick / 1000000 ≤ s.power.moved → exec .hotMigration s = .next s) ∧
      (s.power.moved < dtime s.tick / 1000000 →
        let s1 : State := { s with power := { s.power with moved := dtime s.tick / 1000000 } }
        (s1.hotWork = none → exec .hotMigration s = .next s1) ∧
        (∀ h id k t l, s1.hotWork = some (h, id, k, t) → s.launch? id = some l → ∃ u : State, exec .hotMigration s = .next u ∧ u.mem = s.mem ∧ u.clusters = s.clusters ∧ u.power = s1.power ∧
          (∃ m, u.launch? id = some m ∧ ∀ sl, l.slots[k]? = some sl → m.slots[k]? = some { sl with goal := some t }) ∧
          ∀ (c : Fin 192) st, s.cores[c].strand = some st → c.val / 4 = h → st.phase = .running → ∃ r ∈ u.preqs, r.sid = st.sid))) ∧
    (∀ h id k t, s.hotWork = some (h, id, k, t) → ∃ (y z : Cluster), s.cluster? h = some y ∧ s.cluster? t = some z ∧ y.holder = some (id, k) ∧ s.power.hot < y.temp ∧ z.temp + 5 ≤ y.temp ∧ z.temp < s.power.hot) ∧
    (∀ l k h t, s.movedOff = some (l, k, h, t) → exec .hotMigration s = .next (s.moveSlot l k h t))

/-- The market clears, curve events act, clusters and dies are gated, hot work moves (R303, R304, R305, R309, R311, R315, R317, R318, R319, R320). -/
def Obligations.PowerArbiter : Prop :=
  Claims.MarketClears ∧ Claims.CurveEventsAct ∧ Claims.ClustersAreGated

/-- R133, R164. NOP and VNOP have no effect: the slot moves past them, and nothing else of the machine changes (of the model's own state, VNOP takes one
number of the counter of free values); with the rendezvous bit they issue when their rendezvous is complete. Their words are those that the rules
print. -/
def Obligations.NopsDoNothing : Prop :=
  ∀ (s : State) (r : Bool) (st : Strand),
    decodeWord .s 0x7C000000 = .ok (.nop false) ∧ decodeWord .s 0xFC000000 = .ok (.nop true) ∧ decodeWord .v 0x3C000000 = .ok (.vnop false) ∧ decodeWord .v 0xBC000000 = .ok (.vnop true) ∧
    (issuer s .s r false [] = some st → exec (.nop r) s = .next (moved s .s st (s.word? st .s) .seq 1)) ∧
    (issuer s .v r false [] = some st → exec (.vnop r) s = .next (moved { s with free := s.free + 1 } .v st (s.word? st .v) .seq 1))

/-- R54, R78 to R88. Decoding and encoding agree: an instruction that belongs to a slot has a word, the word of a well-formed one decodes to it in each of
its slots with every operand (AMCAST_SET, whose word is AMCAST's, to that), and a word that decodes is the word of what it decodes to, which is
well-formed and belongs to the slot: no bit of a word is dropped, and no word of a slot is two instructions. -/
def Obligations.DecodeAndEncodeAgree : Prop :=
  (∀ i : Instr, Laws.RoundTrip.Statement i) ∧
  (∀ (i : Instr) (k : Slot), i.inSlot k = true → ∃ w, i.encode = some w) ∧
  ∀ (k : Slot) (w : W32) (i : Instr), decodeWord k w = .ok i → i.wf = true ∧ i.inSlot k = true ∧ i.encode = some w ∧ i.asDecoded = i

/-- R54, R78 to R88. Words written out from the spec's tables, field by field from bit 31 down, are the instructions that they stand for; a reserved code
is ILLEGAL even where a reserved field is not zero, and a reserved field that is not zero is RESERVED_NONZERO. -/
def Obligations.SampleWordsDecode : Prop :=
  decodeWord .s 0b0_000001_00011_00001_00010_0000000000 = .ok (.add false 3 1 2) ∧
  decodeWord .s 0b0_000010_00101_00100_111111111111111 = .ok (.addi false 5 4 0x7FFF) ∧
  decodeWord .s 0b1_010000_00001_00010_000000000000100 = .ok (.beq true 1 2 4) ∧
  decodeWord .s 0b0_100000_00111_00110_11_001_0000000101 = .ok (.ld false 7 6 3 1 5) ∧
  decodeWord .v 0b0_000001_0010_0011_0100_1111_000000000 = .ok (.vadd false 2 3 4 15) ∧
  decodeWord .m 0b0_000100_0001_0010_011_01_101_000000000 = .ok (.mma false 1 2 3 1 5) ∧
  decodeWord .h 0b0_000001_00001_00010_00011_100_001_000_0 = .ok (.acopy false 1 2 3 4 1 0) ∧
  decodeWord .s 0b0_111110_0000000000000000000000000 = .ok (.nop false) ∧
  decodeWord .s 0b0_111110_0000000000000000000000001 = .error .reservedNonzero ∧
  decodeWord .s 0b0_111111_0000000000000000000000001 = .error .illegal ∧
  decodeWord .s 0b0_000000_0000000000000000000000000 = .error .illegal

/-- R50, R51, R58, R88, R106. A step makes the next move of the agenda. Where that is a slot's turn, the four bytes at the slot's PC, read through the
launch's field map in little-endian order, decode as a word of the slot, and the step is what `exec` gives that instruction, with the core and slot
named as current; where a loop buffer replays, or S sleeps in a WAITA, its word stands for them; a word that is no instruction, and a fetch that
fails, are the steps that raise their traps. A word waits, and nothing changes, while the word of another slot that stands before it in the order of
the cycle would do something; where a slot has ended it stands before none. A word with the rendezvous bit whose rendezvous would complete now, with
another slot that traps, does not issue. Where the move is an event, or an access of the host, a peer or system software, the step is that; where it
is the clock's, the tick passes once nothing is due and no slot's word in fixed-timing mode would do something yet. That an M word's signal may come
ahead of the word is the model's reading (log 113, DEDUCED). -/
def Obligations.StepRunsTheDecodedInstruction : Prop :=
  ∀ (s : State) (rest : List Move),
    (∀ (c : Fin 192) (sl : Slot), s.agenda = .issue c sl :: rest →
      let r : State := { s with agenda := rest }
      (s.cores[c].strand = none → step s = .next r) ∧
      ∀ st, s.cores[c].strand = some st →
        let awake : Prop := sl = .s → st.sleep = none
        let s0 : State := if 3 ≤ r.place st sl then r.ahead c else r
        let s1 : State := s0.cued c sl
        let waits : Prop := r.awaits c sl = true
        let spoiled : Prop := s0.rvSpoiled c sl = true ∧ (s0.tried c sl).trapped c = false
        let goes (w : W32) : Prop := ¬ waits ∧ (rvBit w = false ∨ ¬ spoiled)
        s1.cur = { core := c, slot := sl } ∧ s1.mem = s.mem ∧ (∀ k : Fin 192, s1.cyc k = s.cyc k ∧ (k ≠ c → s1.cores[k] = s.cores[k])) ∧ (promptSignal (r.slotInstr st .m) = 0 → s0 = r) ∧
        ((∀ o, o ≠ sl → st.ended.get o = true) → ¬ waits ∧ (sl ≠ .m → s0 = r)) ∧
        (waits → step s = .next r ∧ ∃ o, r.mayTry c st o = true ∧ r.place st o < r.place st sl ∧ r.stirs c o = true) ∧
        (¬ waits → spoiled → ((s0.trappers c).contains sl = true → step s = .next (s0.raiseTrap c (st.settle (r.cyc c)) sl .flagOverflow 0)) ∧
          ((s0.trappers c).contains sl = false → step s = .next s0)) ∧
        (∀ l t w i, awake → goes w → (st.lbLive sl && (st.lb sl).captured) = false → s.launch? st.launch = some l → s.translate l (st.pc.get sl) .x = .ok t → (st.pc.get sl).toNat % 4 = 0 → t.gated = false → t.disc = false →
          s.mem.bad (lineOf t.addr) = false → w = BitVec.ofNat 32 (leNat (s.mem.reads t.tag t.addr 4)) → decodeWord sl w = .ok i → step s = exec i s1) ∧
        (∀ z i, sl = .s → st.sleep = some z → goes z.word → decodeWord .s z.word = .ok i → step s = exec i s1) ∧
        (∀ w i, awake → goes w → (st.lbLive sl && (st.lb sl).captured) = true → (st.lb sl).words[(st.lb sl).pos]? = some (some w) → decodeWord sl w = .ok i → step s = exec i s1) ∧
        (∀ w why, goes w → s.fetch st sl = .ok w → decodeWord sl w = .error why → step s = exec (.wordNotInstruction why) s1) ∧
        (∀ why, ¬ waits → s.fetch st sl = .error why → step s = exec (.instructionFetch why) s1)) ∧
    (∀ e, s.agenda = .event e :: rest → step s = occur e { s with agenda := rest }) ∧
    (let r : State := { s with agenda := rest }
     (s.agenda = .clock :: rest → (r.due = [] → (∀ c : Fin 192, r.untried c = []) → step s = .next r.tickOver) ∧ (r.due ≠ [] ∨ (∃ c : Fin 192, r.untried c ≠ []) → step s = .next r)) ∧
     (∀ fn off n v, s.agenda = .hostRegister fn off n v :: rest → step s = .next (r.hostAccess fn off n v)) ∧
     (∀ id gang, s.agenda = .preempt id gang :: rest → step s = .next (r.preemptFrom id gang)) ∧
     (∀ pkg p a bs bad, s.agenda = .peerMarked pkg p a bs bad :: rest → step s = peerServed pkg p a (some bs) bad bs.length r) ∧
     (∀ (k : Fin 16) hot, s.agenda = .heat k hot :: rest → step s = .next { r with upkeep := r.upkeep.set k { r.upkeep[k] with hot := hot } }) ∧
     (∀ k, s.agenda = .sumStart k :: rest → step s = .next (r.sumStart k)) ∧ (∀ k i, s.agenda = .sumDone k i :: rest → step s = .next (r.sumDone k i))) ∧
    (s.agenda = [] → ∀ m ms, s.autoMoves = m :: ms → step s = step { s with agenda := m :: ms })

/-- R266, R304, R309, R319, R320, R351 to R354, R358, R363, R399, R402. After a power-on reset in which every signature verified, device time is 0,
BOOTSTAT is 0, no strand stands on a core, no graph, launch, gang, chain or packet exists, every cluster is free, and so gated, partition 0 alone
exists, INTAKE_ACC and EVLOG_WR of every function read 0, HOTTHR is 95, the target 2,800 W and the energy accounts zero, the two fused key slots are
filled, and the error flags and counts of the syndrome registers are zero. -/
def Obligations.ResetLeaves : Prop :=
  let s := State.reset
  dtime s.tick = 0 ∧ s.bootstat = 0 ∧ s.graphs = [] ∧ s.launches = [] ∧ s.gangs = [] ∧ s.halted = [] ∧ s.placing = [] ∧ s.pfaults = [] ∧ s.imports = [] ∧
  (∀ c : Fin 192, s.cores[c].strand = none ∧ s.cores[c].slabs = [] ∧ s.cores[c].reqs = []) ∧
  (∀ q : Fin 48, s.clusters[q].holder = none ∧ s.clusters[q].gated = true) ∧
  (∀ c : Fin 192, s.chans[c].busy = false ∧ s.chans[c].owner = none) ∧
  s.parts[(0 : Fin 64)].exists_ = true ∧ (∀ p : Fin 64, p ≠ 0 → s.parts[p].exists_ = false) ∧
  (∀ fn : Fin 64, s.funcs[fn].intakeAcc = 0 ∧ s.funcs[fn].evWr = 0 ∧ s.parts[fn].energy = 0) ∧
  s.power.hot = 95 ∧ s.target = 2800 ∧ s.power.account = 0 ∧ (∀ i : Fin 16, i.val < 2 → (s.keys[i]).isSome = true) ∧
  ∀ d : Fin 11, let y := s.syn[d]; y.fatal = false ∧ y.fcause = 0 ∧ y.uev = false ∧ y.ovf = false ∧ y.first = 0 ∧ y.last = 0 ∧ y.ucnt = 0 ∧ y.ccnt = 0

/-- An invariant of every step (R245, R355, R374): where the memories of the machine are in canonical form, addresses strictly rising and no entry equal
to what an unlisted address reads as, they are so after any step that answers a next state; memory with its bytes, poison and keys, and the row
counters of every stack. -/
def Obligations.EveryStepKeepsTheMemoriesCanonical : Prop :=
  ∀ s t : State, s.mem.wf = true → (∀ k : Fin 16, SMap.wf 0 (s.upkeep[k]).rows = true) → step s = .next t →
    t.mem.wf = true ∧ ∀ k : Fin 16, SMap.wf 0 (t.upkeep[k]).rows = true

/-- After reset the memories of the machine are in the canonical form that every step keeps, and every byte of memory reads as zero, unpoisoned (what an
unwritten byte reads as is the model's choice, log entry 2). -/
def Obligations.ResetMemoriesAreCanonical : Prop :=
  State.reset.mem.wf = true ∧ (∀ k : Fin 16, SMap.wf 0 (State.reset.upkeep[k]).rows = true) ∧
    ∀ a : Nat, State.reset.mem.byte a = 0 ∧ State.reset.mem.bad a = false
end

