-- ==== Sys2Proof/Laws/Exec.lean ====
section
/-! SUPPORT. `exec` on each constructor is that constructor's meaning. -/

namespace Sys2Proof.Laws

open Sys2Proof Sys2Proof.Machine

theorem exec_add (x0 : Bool) (x1 : BitVec 5) (x2 : BitVec 5) (x3 : BitVec 5) (s : State) : exec (.add x0 x1 x2 x3) s = execAdd x0 x1 x2 x3 s := rfl
theorem exec_sub (x0 : Bool) (x1 : BitVec 5) (x2 : BitVec 5) (x3 : BitVec 5) (s : State) : exec (.sub x0 x1 x2 x3) s = execSub x0 x1 x2 x3 s := rfl
theorem exec_mul (x0 : Bool) (x1 : BitVec 5) (x2 : BitVec 5) (x3 : BitVec 5) (s : State) : exec (.mul x0 x1 x2 x3) s = execMul x0 x1 x2 x3 s := rfl
theorem exec_mulh (x0 : Bool) (x1 : BitVec 5) (x2 : BitVec 5) (x3 : BitVec 5) (s : State) : exec (.mulh x0 x1 x2 x3) s = execMulh x0 x1 x2 x3 s := rfl
theorem exec_mulhu (x0 : Bool) (x1 : BitVec 5) (x2 : BitVec 5) (x3 : BitVec 5) (s : State) : exec (.mulhu x0 x1 x2 x3) s = execMulhu x0 x1 x2 x3 s := rfl
theorem exec_div (x0 : Bool) (x1 : BitVec 5) (x2 : BitVec 5) (x3 : BitVec 5) (s : State) : exec (.div x0 x1 x2 x3) s = execDiv x0 x1 x2 x3 s := rfl
theorem exec_divu (x0 : Bool) (x1 : BitVec 5) (x2 : BitVec 5) (x3 : BitVec 5) (s : State) : exec (.divu x0 x1 x2 x3) s = execDivu x0 x1 x2 x3 s := rfl
theorem exec_rem (x0 : Bool) (x1 : BitVec 5) (x2 : BitVec 5) (x3 : BitVec 5) (s : State) : exec (.rem x0 x1 x2 x3) s = execRem x0 x1 x2 x3 s := rfl
theorem exec_remu (x0 : Bool) (x1 : BitVec 5) (x2 : BitVec 5) (x3 : BitVec 5) (s : State) : exec (.remu x0 x1 x2 x3) s = execRemu x0 x1 x2 x3 s := rfl
theorem exec_and (x0 : Bool) (x1 : BitVec 5) (x2 : BitVec 5) (x3 : BitVec 5) (s : State) : exec (.and_ x0 x1 x2 x3) s = execAnd x0 x1 x2 x3 s := rfl
theorem exec_or (x0 : Bool) (x1 : BitVec 5) (x2 : BitVec 5) (x3 : BitVec 5) (s : State) : exec (.or_ x0 x1 x2 x3) s = execOr x0 x1 x2 x3 s := rfl
theorem exec_xor (x0 : Bool) (x1 : BitVec 5) (x2 : BitVec 5) (x3 : BitVec 5) (s : State) : exec (.xor_ x0 x1 x2 x3) s = execXor x0 x1 x2 x3 s := rfl
theorem exec_andn (x0 : Bool) (x1 : BitVec 5) (x2 : BitVec 5) (x3 : BitVec 5) (s : State) : exec (.andn x0 x1 x2 x3) s = execAndn x0 x1 x2 x3 s := rfl
theorem exec_shl (x0 : Bool) (x1 : BitVec 5) (x2 : BitVec 5) (x3 : BitVec 5) (s : State) : exec (.shl x0 x1 x2 x3) s = execShl x0 x1 x2 x3 s := rfl
theorem exec_shr (x0 : Bool) (x1 : BitVec 5) (x2 : BitVec 5) (x3 : BitVec 5) (s : State) : exec (.shr x0 x1 x2 x3) s = execShr x0 x1 x2 x3 s := rfl
theorem exec_shra (x0 : Bool) (x1 : BitVec 5) (x2 : BitVec 5) (x3 : BitVec 5) (s : State) : exec (.shra x0 x1 x2 x3) s = execShra x0 x1 x2 x3 s := rfl
theorem exec_ror (x0 : Bool) (x1 : BitVec 5) (x2 : BitVec 5) (x3 : BitVec 5) (s : State) : exec (.ror x0 x1 x2 x3) s = execRor x0 x1 x2 x3 s := rfl
theorem exec_min (x0 : Bool) (x1 : BitVec 5) (x2 : BitVec 5) (x3 : BitVec 5) (s : State) : exec (.min_ x0 x1 x2 x3) s = execMin x0 x1 x2 x3 s := rfl
theorem exec_max (x0 : Bool) (x1 : BitVec 5) (x2 : BitVec 5) (x3 : BitVec 5) (s : State) : exec (.max_ x0 x1 x2 x3) s = execMax x0 x1 x2 x3 s := rfl
theorem exec_minu (x0 : Bool) (x1 : BitVec 5) (x2 : BitVec 5) (x3 : BitVec 5) (s : State) : exec (.minu x0 x1 x2 x3) s = execMinu x0 x1 x2 x3 s := rfl
theorem exec_maxu (x0 : Bool) (x1 : BitVec 5) (x2 : BitVec 5) (x3 : BitVec 5) (s : State) : exec (.maxu x0 x1 x2 x3) s = execMaxu x0 x1 x2 x3 s := rfl
theorem exec_slt (x0 : Bool) (x1 : BitVec 5) (x2 : BitVec 5) (x3 : BitVec 5) (s : State) : exec (.slt x0 x1 x2 x3) s = execSlt x0 x1 x2 x3 s := rfl
theorem exec_sltu (x0 : Bool) (x1 : BitVec 5) (x2 : BitVec 5) (x3 : BitVec 5) (s : State) : exec (.sltu x0 x1 x2 x3) s = execSltu x0 x1 x2 x3 s := rfl
theorem exec_seq (x0 : Bool) (x1 : BitVec 5) (x2 : BitVec 5) (x3 : BitVec 5) (s : State) : exec (.seq x0 x1 x2 x3) s = execSeq x0 x1 x2 x3 s := rfl
theorem exec_sne (x0 : Bool) (x1 : BitVec 5) (x2 : BitVec 5) (x3 : BitVec 5) (s : State) : exec (.sne x0 x1 x2 x3) s = execSne x0 x1 x2 x3 s := rfl
theorem exec_clz (x0 : Bool) (x1 : BitVec 5) (x2 : BitVec 5) (s : State) : exec (.clz x0 x1 x2) s = execClz x0 x1 x2 s := rfl
theorem exec_ctz (x0 : Bool) (x1 : BitVec 5) (x2 : BitVec 5) (s : State) : exec (.ctz x0 x1 x2) s = execCtz x0 x1 x2 s := rfl
theorem exec_popc (x0 : Bool) (x1 : BitVec 5) (x2 : BitVec 5) (s : State) : exec (.popc x0 x1 x2) s = execPopc x0 x1 x2 s := rfl
theorem exec_sext (x0 : Bool) (x1 : BitVec 5) (x2 : BitVec 5) (x3 : BitVec 5) (s : State) : exec (.sext x0 x1 x2 x3) s = execSext x0 x1 x2 x3 s := rfl
theorem exec_zext (x0 : Bool) (x1 : BitVec 5) (x2 : BitVec 5) (x3 : BitVec 5) (s : State) : exec (.zext x0 x1 x2 x3) s = execZext x0 x1 x2 x3 s := rfl
theorem exec_cmov (x0 : Bool) (x1 : BitVec 5) (x2 : BitVec 5) (x3 : BitVec 5) (s : State) : exec (.cmov x0 x1 x2 x3) s = execCmov x0 x1 x2 x3 s := rfl
theorem exec_addi (x0 : Bool) (x1 : BitVec 5) (x2 : BitVec 5) (x3 : BitVec 15) (s : State) : exec (.addi x0 x1 x2 x3) s = execAddi x0 x1 x2 x3 s := rfl
theorem exec_andi (x0 : Bool) (x1 : BitVec 5) (x2 : BitVec 5) (x3 : BitVec 15) (s : State) : exec (.andi x0 x1 x2 x3) s = execAndi x0 x1 x2 x3 s := rfl
theorem exec_ori (x0 : Bool) (x1 : BitVec 5) (x2 : BitVec 5) (x3 : BitVec 15) (s : State) : exec (.ori x0 x1 x2 x3) s = execOri x0 x1 x2 x3 s := rfl
theorem exec_xori (x0 : Bool) (x1 : BitVec 5) (x2 : BitVec 5) (x3 : BitVec 15) (s : State) : exec (.xori x0 x1 x2 x3) s = execXori x0 x1 x2 x3 s := rfl
theorem exec_shli (x0 : Bool) (x1 : BitVec 5) (x2 : BitVec 5) (x3 : BitVec 6) (s : State) : exec (.shli x0 x1 x2 x3) s = execShli x0 x1 x2 x3 s := rfl
theorem exec_shri (x0 : Bool) (x1 : BitVec 5) (x2 : BitVec 5) (x3 : BitVec 6) (s : State) : exec (.shri x0 x1 x2 x3) s = execShri x0 x1 x2 x3 s := rfl
theorem exec_shrai (x0 : Bool) (x1 : BitVec 5) (x2 : BitVec 5) (x3 : BitVec 6) (s : State) : exec (.shrai x0 x1 x2 x3) s = execShrai x0 x1 x2 x3 s := rfl
theorem exec_slti (x0 : Bool) (x1 : BitVec 5) (x2 : BitVec 5) (x3 : BitVec 15) (s : State) : exec (.slti x0 x1 x2 x3) s = execSlti x0 x1 x2 x3 s := rfl
theorem exec_sltiu (x0 : Bool) (x1 : BitVec 5) (x2 : BitVec 5) (x3 : BitVec 15) (s : State) : exec (.sltiu x0 x1 x2 x3) s = execSltiu x0 x1 x2 x3 s := rfl
theorem exec_movh (x0 : Bool) (x1 : BitVec 5) (x2 : BitVec 2) (x3 : BitVec 1) (x4 : BitVec 16) (s : State) : exec (.movh x0 x1 x2 x3 x4) s = execMovh x0 x1 x2 x3 x4 s := rfl
theorem exec_muli (x0 : Bool) (x1 : BitVec 5) (x2 : BitVec 5) (x3 : BitVec 15) (s : State) : exec (.muli x0 x1 x2 x3) s = execMuli x0 x1 x2 x3 s := rfl
theorem exec_beq (x0 : Bool) (x1 : BitVec 5) (x2 : BitVec 5) (x3 : BitVec 15) (s : State) : exec (.beq x0 x1 x2 x3) s = execBeq x0 x1 x2 x3 s := rfl
theorem exec_bne (x0 : Bool) (x1 : BitVec 5) (x2 : BitVec 5) (x3 : BitVec 15) (s : State) : exec (.bne x0 x1 x2 x3) s = execBne x0 x1 x2 x3 s := rfl
theorem exec_blt (x0 : Bool) (x1 : BitVec 5) (x2 : BitVec 5) (x3 : BitVec 15) (s : State) : exec (.blt x0 x1 x2 x3) s = execBlt x0 x1 x2 x3 s := rfl
theorem exec_bge (x0 : Bool) (x1 : BitVec 5) (x2 : BitVec 5) (x3 : BitVec 15) (s : State) : exec (.bge x0 x1 x2 x3) s = execBge x0 x1 x2 x3 s := rfl
theorem exec_bltu (x0 : Bool) (x1 : BitVec 5) (x2 : BitVec 5) (x3 : BitVec 15) (s : State) : exec (.bltu x0 x1 x2 x3) s = execBltu x0 x1 x2 x3 s := rfl
theorem exec_bgeu (x0 : Bool) (x1 : BitVec 5) (x2 : BitVec 5) (x3 : BitVec 15) (s : State) : exec (.bgeu x0 x1 x2 x3) s = execBgeu x0 x1 x2 x3 s := rfl
theorem exec_bpany (x0 : Bool) (x1 : BitVec 4) (x2 : BitVec 15) (s : State) : exec (.bpany x0 x1 x2) s = execBpany x0 x1 x2 s := rfl
theorem exec_bpall (x0 : Bool) (x1 : BitVec 4) (x2 : BitVec 15) (s : State) : exec (.bpall x0 x1 x2) s = execBpall x0 x1 x2 s := rfl
theorem exec_jmp (x0 : Bool) (x1 : BitVec 25) (s : State) : exec (.jmp x0 x1) s = execJmp x0 x1 s := rfl
theorem exec_call (x0 : Bool) (x1 : BitVec 25) (s : State) : exec (.call x0 x1) s = execCall x0 x1 s := rfl
theorem exec_jr (x0 : Bool) (x1 : BitVec 5) (x2 : BitVec 5) (x3 : BitVec 15) (s : State) : exec (.jr x0 x1 x2 x3) s = execJr x0 x1 x2 x3 s := rfl
theorem exec_loop (x0 : Bool) (x1 : BitVec 5) (x2 : BitVec 15) (s : State) : exec (.loop x0 x1 x2) s = execLoop x0 x1 x2 s := rfl
theorem exec_lbuf (x0 : Bool) (x1 : BitVec 5) (x2 : BitVec 6) (s : State) : exec (.lbuf x0 x1 x2) s = execLbuf x0 x1 x2 s := rfl
theorem exec_ld (x0 : Bool) (x1 : BitVec 5) (x2 : BitVec 5) (x3 : BitVec 2) (x4 : BitVec 3) (x5 : BitVec 10) (s : State) : exec (.ld x0 x1 x2 x3 x4 x5) s = execLd x0 x1 x2 x3 x4 x5 s := rfl
theorem exec_ldu (x0 : Bool) (x1 : BitVec 5) (x2 : BitVec 5) (x3 : BitVec 2) (x4 : BitVec 3) (x5 : BitVec 10) (s : State) : exec (.ldu x0 x1 x2 x3 x4 x5) s = execLdu x0 x1 x2 x3 x4 x5 s := rfl
theorem exec_st (x0 : Bool) (x1 : BitVec 5) (x2 : BitVec 5) (x3 : BitVec 2) (x4 : BitVec 3) (x5 : BitVec 10) (s : State) : exec (.st x0 x1 x2 x3 x4 x5) s = execSt x0 x1 x2 x3 x4 x5 s := rfl
theorem exec_ldk (x0 : Bool) (x1 : BitVec 5) (x2 : BitVec 5) (x3 : BitVec 2) (x4 : BitVec 10) (s : State) : exec (.ldk x0 x1 x2 x3 x4) s = execLdk x0 x1 x2 x3 x4 s := rfl
theorem exec_amoadd (x0 : Bool) (x1 : BitVec 5) (x2 : BitVec 5) (x3 : BitVec 5) (x4 : BitVec 1) (x5 : BitVec 1) (x6 : BitVec 2) (x7 : BitVec 1) (x8 : BitVec 1) (s : State) : exec (.amoadd x0 x1 x2 x3 x4 x5 x6 x7 x8) s = execAmoadd x0 x1 x2 x3 x4 x5 x6 x7 x8 s := rfl
theorem exec_amoand (x0 : Bool) (x1 : BitVec 5) (x2 : BitVec 5) (x3 : BitVec 5) (x4 : BitVec 1) (x5 : BitVec 1) (x6 : BitVec 2) (x7 : BitVec 1) (x8 : BitVec 1) (s : State) : exec (.amoand x0 x1 x2 x3 x4 x5 x6 x7 x8) s = execAmoand x0 x1 x2 x3 x4 x5 x6 x7 x8 s := rfl
theorem exec_amoor (x0 : Bool) (x1 : BitVec 5) (x2 : BitVec 5) (x3 : BitVec 5) (x4 : BitVec 1) (x5 : BitVec 1) (x6 : BitVec 2) (x7 : BitVec 1) (x8 : BitVec 1) (s : State) : exec (.amoor x0 x1 x2 x3 x4 x5 x6 x7 x8) s = execAmoor x0 x1 x2 x3 x4 x5 x6 x7 x8 s := rfl
theorem exec_amoxor (x0 : Bool) (x1 : BitVec 5) (x2 : BitVec 5) (x3 : BitVec 5) (x4 : BitVec 1) (x5 : BitVec 1) (x6 : BitVec 2) (x7 : BitVec 1) (x8 : BitVec 1) (s : State) : exec (.amoxor x0 x1 x2 x3 x4 x5 x6 x7 x8) s = execAmoxor x0 x1 x2 x3 x4 x5 x6 x7 x8 s := rfl
theorem exec_amomin (x0 : Bool) (x1 : BitVec 5) (x2 : BitVec 5) (x3 : BitVec 5) (x4 : BitVec 1) (x5 : BitVec 1) (x6 : BitVec 2) (x7 : BitVec 1) (x8 : BitVec 1) (s : State) : exec (.amomin x0 x1 x2 x3 x4 x5 x6 x7 x8) s = execAmomin x0 x1 x2 x3 x4 x5 x6 x7 x8 s := rfl
theorem exec_amomax (x0 : Bool) (x1 : BitVec 5) (x2 : BitVec 5) (x3 : BitVec 5) (x4 : BitVec 1) (x5 : BitVec 1) (x6 : BitVec 2) (x7 : BitVec 1) (x8 : BitVec 1) (s : State) : exec (.amomax x0 x1 x2 x3 x4 x5 x6 x7 x8) s = execAmomax x0 x1 x2 x3 x4 x5 x6 x7 x8 s := rfl
theorem exec_amominu (x0 : Bool) (x1 : BitVec 5) (x2 : BitVec 5) (x3 : BitVec 5) (x4 : BitVec 1) (x5 : BitVec 1) (x6 : BitVec 2) (x7 : BitVec 1) (x8 : BitVec 1) (s : State) : exec (.amominu x0 x1 x2 x3 x4 x5 x6 x7 x8) s = execAmominu x0 x1 x2 x3 x4 x5 x6 x7 x8 s := rfl
theorem exec_amomaxu (x0 : Bool) (x1 : BitVec 5) (x2 : BitVec 5) (x3 : BitVec 5) (x4 : BitVec 1) (x5 : BitVec 1) (x6 : BitVec 2) (x7 : BitVec 1) (x8 : BitVec 1) (s : State) : exec (.amomaxu x0 x1 x2 x3 x4 x5 x6 x7 x8) s = execAmomaxu x0 x1 x2 x3 x4 x5 x6 x7 x8 s := rfl
theorem exec_amoswap (x0 : Bool) (x1 : BitVec 5) (x2 : BitVec 5) (x3 : BitVec 5) (x4 : BitVec 1) (x5 : BitVec 1) (x6 : BitVec 2) (x7 : BitVec 1) (x8 : BitVec 1) (s : State) : exec (.amoswap x0 x1 x2 x3 x4 x5 x6 x7 x8) s = execAmoswap x0 x1 x2 x3 x4 x5 x6 x7 x8 s := rfl
theorem exec_cas (x0 : Bool) (x1 : BitVec 5) (x2 : BitVec 5) (x3 : BitVec 5) (x4 : BitVec 1) (x5 : BitVec 1) (x6 : BitVec 2) (x7 : BitVec 1) (x8 : BitVec 1) (s : State) : exec (.cas x0 x1 x2 x3 x4 x5 x6 x7 x8) s = execCas x0 x1 x2 x3 x4 x5 x6 x7 x8 s := rfl
theorem exec_fence (x0 : Bool) (x1 : BitVec 2) (s : State) : exec (.fence x0 x1) s = execFence x0 x1 s := rfl
theorem exec_fencex (x0 : Bool) (x1 : BitVec 7) (x2 : BitVec 7) (x3 : BitVec 2) (s : State) : exec (.fencex x0 x1 x2 x3) s = execFencex x0 x1 x2 x3 s := rfl
theorem exec_fencek (x0 : Bool) (s : State) : exec (.fencek x0) s = execFencek x0 s := rfl
theorem exec_watch (x0 : Bool) (x1 : BitVec 5) (s : State) : exec (.watch x0 x1) s = execWatch x0 x1 s := rfl
theorem exec_waita (x0 : Bool) (x1 : BitVec 5) (x2 : BitVec 5) (s : State) : exec (.waita x0 x1 x2) s = execWaita x0 x1 x2 s := rfl
theorem exec_sig (x0 : Bool) (x1 : BitVec 4) (s : State) : exec (.sig x0 x1) s = execSig x0 x1 s := rfl
theorem exec_waitf (x0 : Bool) (x1 : BitVec 4) (x2 : BitVec 8) (s : State) : exec (.waitf x0 x1 x2) s = execWaitf x0 x1 x2 s := rfl
theorem exec_send (x0 : Bool) (x1 : BitVec 5) (x2 : BitVec 5) (x3 : BitVec 2) (s : State) : exec (.send x0 x1 x2 x3) s = execSend x0 x1 x2 x3 s := rfl
theorem exec_recv (x0 : Bool) (x1 : BitVec 5) (s : State) : exec (.recv x0 x1) s = execRecv x0 x1 s := rfl
theorem exec_csrr (x0 : Bool) (x1 : BitVec 5) (x2 : BitVec 10) (s : State) : exec (.csrr x0 x1 x2) s = execCsrr x0 x1 x2 s := rfl
theorem exec_csrw (x0 : Bool) (x1 : BitVec 5) (x2 : BitVec 10) (s : State) : exec (.csrw x0 x1 x2) s = execCsrw x0 x1 x2 s := rfl
theorem exec_sow (x0 : Bool) (x1 : BitVec 5) (x2 : BitVec 3) (s : State) : exec (.sow x0 x1 x2) s = execSow x0 x1 x2 s := rfl
theorem exec_join (x0 : Bool) (x1 : BitVec 5) (s : State) : exec (.join x0 x1) s = execJoin x0 x1 s := rfl
theorem exec_done (x0 : Bool) (s : State) : exec (.done_ x0) s = execDone x0 s := rfl
theorem exec_yield (x0 : Bool) (s : State) : exec (.yield x0) s = execYield x0 s := rfl
theorem exec_trap (x0 : Bool) (x1 : BitVec 10) (s : State) : exec (.trap x0 x1) s = execTrap x0 x1 s := rfl
theorem exec_tret (x0 : Bool) (s : State) : exec (.tret x0) s = execTret x0 s := rfl
theorem exec_locq (x0 : Bool) (x1 : BitVec 5) (x2 : BitVec 5) (x3 : BitVec 1) (s : State) : exec (.locq x0 x1 x2 x3) s = execLocq x0 x1 x2 x3 s := rfl
theorem exec_mts (x0 : Bool) (x1 : BitVec 5) (x2 : BitVec 2) (s : State) : exec (.mts x0 x1 x2) s = execMts x0 x1 x2 s := rfl
theorem exec_nop (x0 : Bool) (s : State) : exec (.nop x0) s = execNop x0 s := rfl
theorem exec_vadd (x0 : Bool) (x1 : BitVec 4) (x2 : BitVec 4) (x3 : BitVec 4) (x4 : BitVec 4) (s : State) : exec (.vadd x0 x1 x2 x3 x4) s = execVadd x0 x1 x2 x3 x4 s := rfl
theorem exec_vsub (x0 : Bool) (x1 : BitVec 4) (x2 : BitVec 4) (x3 : BitVec 4) (x4 : BitVec 4) (s : State) : exec (.vsub x0 x1 x2 x3 x4) s = execVsub x0 x1 x2 x3 x4 s := rfl
theorem exec_vmul (x0 : Bool) (x1 : BitVec 4) (x2 : BitVec 4) (x3 : BitVec 4) (x4 : BitVec 4) (s : State) : exec (.vmul x0 x1 x2 x3 x4) s = execVmul x0 x1 x2 x3 x4 s := rfl
theorem exec_vfma (x0 : Bool) (x1 : BitVec 4) (x2 : BitVec 4) (x3 : BitVec 4) (x4 : BitVec 4) (s : State) : exec (.vfma x0 x1 x2 x3 x4) s = execVfma x0 x1 x2 x3 x4 s := rfl
theorem exec_vfms (x0 : Bool) (x1 : BitVec 4) (x2 : BitVec 4) (x3 : BitVec 4) (x4 : BitVec 4) (s : State) : exec (.vfms x0 x1 x2 x3 x4) s = execVfms x0 x1 x2 x3 x4 s := rfl
theorem exec_vmin (x0 : Bool) (x1 : BitVec 4) (x2 : BitVec 4) (x3 : BitVec 4) (x4 : BitVec 4) (s : State) : exec (.vmin x0 x1 x2 x3 x4) s = execVmin x0 x1 x2 x3 x4 s := rfl
theorem exec_vmax (x0 : Bool) (x1 : BitVec 4) (x2 : BitVec 4) (x3 : BitVec 4) (x4 : BitVec 4) (s : State) : exec (.vmax x0 x1 x2 x3 x4) s = execVmax x0 x1 x2 x3 x4 s := rfl
theorem exec_vabs (x0 : Bool) (x1 : BitVec 4) (x2 : BitVec 4) (x3 : BitVec 4) (s : State) : exec (.vabs x0 x1 x2 x3) s = execVabs x0 x1 x2 x3 s := rfl
theorem exec_vneg (x0 : Bool) (x1 : BitVec 4) (x2 : BitVec 4) (x3 : BitVec 4) (s : State) : exec (.vneg x0 x1 x2 x3) s = execVneg x0 x1 x2 x3 s := rfl
theorem exec_viadd (x0 : Bool) (x1 : BitVec 4) (x2 : BitVec 4) (x3 : BitVec 4) (x4 : BitVec 4) (s : State) : exec (.viadd x0 x1 x2 x3 x4) s = execViadd x0 x1 x2 x3 x4 s := rfl
theorem exec_visub (x0 : Bool) (x1 : BitVec 4) (x2 : BitVec 4) (x3 : BitVec 4) (x4 : BitVec 4) (s : State) : exec (.visub x0 x1 x2 x3 x4) s = execVisub x0 x1 x2 x3 x4 s := rfl
theorem exec_vimul (x0 : Bool) (x1 : BitVec 4) (x2 : BitVec 4) (x3 : BitVec 4) (x4 : BitVec 4) (s : State) : exec (.vimul x0 x1 x2 x3 x4) s = execVimul x0 x1 x2 x3 x4 s := rfl
theorem exec_vimulh (x0 : Bool) (x1 : BitVec 4) (x2 : BitVec 4) (x3 : BitVec 4) (x4 : BitVec 4) (s : State) : exec (.vimulh x0 x1 x2 x3 x4) s = execVimulh x0 x1 x2 x3 x4 s := rfl
theorem exec_vand (x0 : Bool) (x1 : BitVec 4) (x2 : BitVec 4) (x3 : BitVec 4) (x4 : BitVec 4) (s : State) : exec (.vand x0 x1 x2 x3 x4) s = execVand x0 x1 x2 x3 x4 s := rfl
theorem exec_vor (x0 : Bool) (x1 : BitVec 4) (x2 : BitVec 4) (x3 : BitVec 4) (x4 : BitVec 4) (s : State) : exec (.vor x0 x1 x2 x3 x4) s = execVor x0 x1 x2 x3 x4 s := rfl
theorem exec_vxor (x0 : Bool) (x1 : BitVec 4) (x2 : BitVec 4) (x3 : BitVec 4) (x4 : BitVec 4) (s : State) : exec (.vxor x0 x1 x2 x3 x4) s = execVxor x0 x1 x2 x3 x4 s := rfl
theorem exec_vandn (x0 : Bool) (x1 : BitVec 4) (x2 : BitVec 4) (x3 : BitVec 4) (x4 : BitVec 4) (s : State) : exec (.vandn x0 x1 x2 x3 x4) s = execVandn x0 x1 x2 x3 x4 s := rfl
theorem exec_vshl (x0 : Bool) (x1 : BitVec 4) (x2 : BitVec 4) (x3 : BitVec 4) (x4 : BitVec 4) (s : State) : exec (.vshl x0 x1 x2 x3 x4) s = execVshl x0 x1 x2 x3 x4 s := rfl
theorem exec_vshr (x0 : Bool) (x1 : BitVec 4) (x2 : BitVec 4) (x3 : BitVec 4) (x4 : BitVec 4) (s : State) : exec (.vshr x0 x1 x2 x3 x4) s = execVshr x0 x1 x2 x3 x4 s := rfl
theorem exec_vshra (x0 : Bool) (x1 : BitVec 4) (x2 : BitVec 4) (x3 : BitVec 4) (x4 : BitVec 4) (s : State) : exec (.vshra x0 x1 x2 x3 x4) s = execVshra x0 x1 x2 x3 x4 s := rfl
theorem exec_vimin (x0 : Bool) (x1 : BitVec 4) (x2 : BitVec 4) (x3 : BitVec 4) (x4 : BitVec 4) (s : State) : exec (.vimin x0 x1 x2 x3 x4) s = execVimin x0 x1 x2 x3 x4 s := rfl
theorem exec_vimax (x0 : Bool) (x1 : BitVec 4) (x2 : BitVec 4) (x3 : BitVec 4) (x4 : BitVec 4) (s : State) : exec (.vimax x0 x1 x2 x3 x4) s = execVimax x0 x1 x2 x3 x4 s := rfl
theorem exec_viminu (x0 : Bool) (x1 : BitVec 4) (x2 : BitVec 4) (x3 : BitVec 4) (x4 : BitVec 4) (s : State) : exec (.viminu x0 x1 x2 x3 x4) s = execViminu x0 x1 x2 x3 x4 s := rfl
theorem exec_vimaxu (x0 : Bool) (x1 : BitVec 4) (x2 : BitVec 4) (x3 : BitVec 4) (x4 : BitVec 4) (s : State) : exec (.vimaxu x0 x1 x2 x3 x4) s = execVimaxu x0 x1 x2 x3 x4 s := rfl
theorem exec_viadds (x0 : Bool) (x1 : BitVec 4) (x2 : BitVec 4) (x3 : BitVec 4) (x4 : BitVec 4) (s : State) : exec (.viadds x0 x1 x2 x3 x4) s = execViadds x0 x1 x2 x3 x4 s := rfl
theorem exec_visubs (x0 : Bool) (x1 : BitVec 4) (x2 : BitVec 4) (x3 : BitVec 4) (x4 : BitVec 4) (s : State) : exec (.visubs x0 x1 x2 x3 x4) s = execVisubs x0 x1 x2 x3 x4 s := rfl
theorem exec_vcmp (x0 : Bool) (x1 : BitVec 4) (x2 : BitVec 4) (x3 : BitVec 4) (x4 : BitVec 4) (x5 : BitVec 4) (s : State) : exec (.vcmp x0 x1 x2 x3 x4 x5) s = execVcmp x0 x1 x2 x3 x4 x5 s := rfl
theorem exec_vsel (x0 : Bool) (x1 : BitVec 4) (x2 : BitVec 4) (x3 : BitVec 4) (x4 : BitVec 4) (s : State) : exec (.vsel x0 x1 x2 x3 x4) s = execVsel x0 x1 x2 x3 x4 s := rfl
theorem exec_vexp2 (x0 : Bool) (x1 : BitVec 4) (x2 : BitVec 4) (x3 : BitVec 4) (s : State) : exec (.vexp2 x0 x1 x2 x3) s = execVexp2 x0 x1 x2 x3 s := rfl
theorem exec_vlog2 (x0 : Bool) (x1 : BitVec 4) (x2 : BitVec 4) (x3 : BitVec 4) (s : State) : exec (.vlog2 x0 x1 x2 x3) s = execVlog2 x0 x1 x2 x3 s := rfl
theorem exec_vrcp (x0 : Bool) (x1 : BitVec 4) (x2 : BitVec 4) (x3 : BitVec 4) (s : State) : exec (.vrcp x0 x1 x2 x3) s = execVrcp x0 x1 x2 x3 s := rfl
theorem exec_vrsq (x0 : Bool) (x1 : BitVec 4) (x2 : BitVec 4) (x3 : BitVec 4) (s : State) : exec (.vrsq x0 x1 x2 x3) s = execVrsq x0 x1 x2 x3 s := rfl
theorem exec_vsqrt (x0 : Bool) (x1 : BitVec 4) (x2 : BitVec 4) (x3 : BitVec 4) (s : State) : exec (.vsqrt x0 x1 x2 x3) s = execVsqrt x0 x1 x2 x3 s := rfl
theorem exec_vsin (x0 : Bool) (x1 : BitVec 4) (x2 : BitVec 4) (x3 : BitVec 4) (s : State) : exec (.vsin x0 x1 x2 x3) s = execVsin x0 x1 x2 x3 s := rfl
theorem exec_vcos (x0 : Bool) (x1 : BitVec 4) (x2 : BitVec 4) (x3 : BitVec 4) (s : State) : exec (.vcos x0 x1 x2 x3) s = execVcos x0 x1 x2 x3 s := rfl
theorem exec_vtanh (x0 : Bool) (x1 : BitVec 4) (x2 : BitVec 4) (x3 : BitVec 4) (s : State) : exec (.vtanh x0 x1 x2 x3) s = execVtanh x0 x1 x2 x3 s := rfl
theorem exec_vsigm (x0 : Bool) (x1 : BitVec 4) (x2 : BitVec 4) (x3 : BitVec 4) (s : State) : exec (.vsigm x0 x1 x2 x3) s = execVsigm x0 x1 x2 x3 s := rfl
theorem exec_vcvt (x0 : Bool) (x1 : BitVec 4) (x2 : BitVec 4) (x3 : BitVec 4) (x4 : BitVec 4) (x5 : BitVec 4) (x6 : BitVec 2) (x7 : BitVec 1) (s : State) : exec (.vcvt x0 x1 x2 x3 x4 x5 x6 x7) s = execVcvt x0 x1 x2 x3 x4 x5 x6 x7 s := rfl
theorem exec_vqmx (x0 : Bool) (x1 : BitVec 4) (x2 : BitVec 4) (x3 : BitVec 4) (x4 : BitVec 4) (x5 : BitVec 4) (s : State) : exec (.vqmx x0 x1 x2 x3 x4 x5) s = execVqmx x0 x1 x2 x3 x4 x5 s := rfl
theorem exec_vdqmx (x0 : Bool) (x1 : BitVec 4) (x2 : BitVec 4) (x3 : BitVec 4) (x4 : BitVec 4) (x5 : BitVec 4) (x6 : BitVec 2) (x7 : BitVec 1) (s : State) : exec (.vdqmx x0 x1 x2 x3 x4 x5 x6 x7) s = execVdqmx x0 x1 x2 x3 x4 x5 x6 x7 s := rfl
theorem exec_vrotr (x0 : Bool) (x1 : BitVec 4) (x2 : BitVec 4) (x3 : BitVec 4) (x4 : BitVec 6) (s : State) : exec (.vrotr x0 x1 x2 x3 x4) s = execVrotr x0 x1 x2 x3 x4 s := rfl
theorem exec_vrotc (x0 : Bool) (x1 : BitVec 4) (x2 : BitVec 4) (x3 : BitVec 4) (x4 : BitVec 4) (s : State) : exec (.vrotc x0 x1 x2 x3 x4) s = execVrotc x0 x1 x2 x3 x4 s := rfl
theorem exec_vbcr (x0 : Bool) (x1 : BitVec 4) (x2 : BitVec 4) (x3 : BitVec 4) (x4 : BitVec 6) (s : State) : exec (.vbcr x0 x1 x2 x3 x4) s = execVbcr x0 x1 x2 x3 x4 s := rfl
theorem exec_vbcc (x0 : Bool) (x1 : BitVec 4) (x2 : BitVec 4) (x3 : BitVec 4) (x4 : BitVec 4) (s : State) : exec (.vbcc x0 x1 x2 x3 x4) s = execVbcc x0 x1 x2 x3 x4 s := rfl
theorem exec_vredr (x0 : Bool) (x1 : BitVec 4) (x2 : BitVec 4) (x3 : BitVec 4) (x4 : BitVec 3) (s : State) : exec (.vredr x0 x1 x2 x3 x4) s = execVredr x0 x1 x2 x3 x4 s := rfl
theorem exec_vredc (x0 : Bool) (x1 : BitVec 4) (x2 : BitVec 4) (x3 : BitVec 4) (x4 : BitVec 3) (s : State) : exec (.vredc x0 x1 x2 x3 x4) s = execVredc x0 x1 x2 x3 x4 s := rfl
theorem exec_vscanr (x0 : Bool) (x1 : BitVec 4) (x2 : BitVec 4) (x3 : BitVec 4) (x4 : BitVec 3) (s : State) : exec (.vscanr x0 x1 x2 x3 x4) s = execVscanr x0 x1 x2 x3 x4 s := rfl
theorem exec_vscanc (x0 : Bool) (x1 : BitVec 4) (x2 : BitVec 4) (x3 : BitVec 4) (x4 : BitVec 3) (s : State) : exec (.vscanc x0 x1 x2 x3 x4) s = execVscanc x0 x1 x2 x3 x4 s := rfl
theorem exec_vtrn (x0 : Bool) (x1 : BitVec 4) (x2 : BitVec 4) (x3 : BitVec 4) (s : State) : exec (.vtrn x0 x1 x2 x3) s = execVtrn x0 x1 x2 x3 s := rfl
theorem exec_vld (x0 : Bool) (x1 : BitVec 4) (x2 : BitVec 5) (x3 : BitVec 3) (x4 : BitVec 4) (x5 : BitVec 9) (s : State) : exec (.vld x0 x1 x2 x3 x4 x5) s = execVld x0 x1 x2 x3 x4 x5 s := rfl
theorem exec_vst (x0 : Bool) (x1 : BitVec 4) (x2 : BitVec 5) (x3 : BitVec 3) (x4 : BitVec 4) (x5 : BitVec 9) (s : State) : exec (.vst x0 x1 x2 x3 x4 x5) s = execVst x0 x1 x2 x3 x4 x5 s := rfl
theorem exec_vldk (x0 : Bool) (x1 : BitVec 4) (x2 : BitVec 5) (x3 : BitVec 4) (x4 : BitVec 9) (s : State) : exec (.vldk x0 x1 x2 x3 x4) s = execVldk x0 x1 x2 x3 x4 s := rfl
theorem exec_vmovq (x0 : Bool) (x1 : BitVec 4) (x2 : BitVec 4) (s : State) : exec (.vmovq x0 x1 x2) s = execVmovq x0 x1 x2 s := rfl
theorem exec_vret (x0 : Bool) (x1 : BitVec 4) (x2 : BitVec 4) (x3 : BitVec 6) (s : State) : exec (.vret x0 x1 x2 x3) s = execVret x0 x1 x2 x3 s := rfl
theorem exec_vimm (x0 : Bool) (x1 : BitVec 4) (x2 : BitVec 8) (x3 : BitVec 4) (x4 : BitVec 8) (s : State) : exec (.vimm x0 x1 x2 x3 x4) s = execVimm x0 x1 x2 x3 x4 s := rfl
theorem exec_vimmHi (x0 : Bool) (x1 : BitVec 4) (x2 : BitVec 8) (x3 : BitVec 4) (x4 : BitVec 8) (s : State) : exec (.vimmHi x0 x1 x2 x3 x4) s = execVimmHi x0 x1 x2 x3 x4 s := rfl
theorem exec_pand (x0 : Bool) (x1 : BitVec 4) (x2 : BitVec 4) (x3 : BitVec 4) (s : State) : exec (.pand x0 x1 x2 x3) s = execPand x0 x1 x2 x3 s := rfl
theorem exec_por (x0 : Bool) (x1 : BitVec 4) (x2 : BitVec 4) (x3 : BitVec 4) (s : State) : exec (.por x0 x1 x2 x3) s = execPor x0 x1 x2 x3 s := rfl
theorem exec_pxor (x0 : Bool) (x1 : BitVec 4) (x2 : BitVec 4) (x3 : BitVec 4) (s : State) : exec (.pxor x0 x1 x2 x3) s = execPxor x0 x1 x2 x3 s := rfl
theorem exec_pandn (x0 : Bool) (x1 : BitVec 4) (x2 : BitVec 4) (x3 : BitVec 4) (s : State) : exec (.pandn x0 x1 x2 x3) s = execPandn x0 x1 x2 x3 s := rfl
theorem exec_pnot (x0 : Bool) (x1 : BitVec 4) (x2 : BitVec 4) (s : State) : exec (.pnot x0 x1 x2) s = execPnot x0 x1 x2 s := rfl
theorem exec_pset (x0 : Bool) (x1 : BitVec 4) (s : State) : exec (.pset x0 x1) s = execPset x0 x1 s := rfl
theorem exec_pclr (x0 : Bool) (x1 : BitVec 4) (s : State) : exec (.pclr x0 x1) s = execPclr x0 x1 s := rfl
theorem exec_vsetsh (x0 : Bool) (x1 : BitVec 13) (s : State) : exec (.vsetsh x0 x1) s = execVsetsh x0 x1 s := rfl
theorem exec_vsetshReg (x0 : Bool) (x1 : BitVec 5) (s : State) : exec (.vsetshReg x0 x1) s = execVsetshReg x0 x1 s := rfl
theorem exec_vsig (x0 : Bool) (x1 : BitVec 4) (s : State) : exec (.vsig x0 x1) s = execVsig x0 x1 s := rfl
theorem exec_vwaitf (x0 : Bool) (x1 : BitVec 4) (x2 : BitVec 8) (s : State) : exec (.vwaitf x0 x1 x2) s = execVwaitf x0 x1 x2 s := rfl
theorem exec_vlbuf (x0 : Bool) (x1 : BitVec 5) (x2 : BitVec 6) (s : State) : exec (.vlbuf x0 x1 x2) s = execVlbuf x0 x1 x2 s := rfl
theorem exec_vnop (x0 : Bool) (s : State) : exec (.vnop x0) s = execVnop x0 s := rfl
theorem exec_end (x0 : Bool) (s : State) : exec (.end_ x0) s = execEnd x0 s := rfl
theorem exec_mwl (x0 : Bool) (x1 : BitVec 4) (x2 : BitVec 4) (x3 : BitVec 3) (x4 : BitVec 1) (s : State) : exec (.mwl x0 x1 x2 x3 x4) s = execMwl x0 x1 x2 x3 x4 s := rfl
theorem exec_mswap (x0 : Bool) (x1 : BitVec 4) (x2 : BitVec 4) (s : State) : exec (.mswap x0 x1 x2) s = execMswap x0 x1 x2 s := rfl
theorem exec_mscl (x0 : Bool) (x1 : BitVec 4) (x2 : BitVec 4) (x3 : BitVec 3) (s : State) : exec (.mscl x0 x1 x2 x3) s = execMscl x0 x1 x2 x3 s := rfl
theorem exec_mma (x0 : Bool) (x1 : BitVec 4) (x2 : BitVec 4) (x3 : BitVec 3) (x4 : BitVec 2) (x5 : BitVec 3) (s : State) : exec (.mma x0 x1 x2 x3 x4 x5) s = execMma x0 x1 x2 x3 x4 x5 s := rfl
theorem exec_mmas (x0 : Bool) (x1 : BitVec 4) (x2 : BitVec 4) (x3 : BitVec 3) (x4 : BitVec 2) (x5 : BitVec 3) (s : State) : exec (.mmas x0 x1 x2 x3 x4 x5) s = execMmas x0 x1 x2 x3 x4 x5 s := rfl
theorem exec_mzero (x0 : Bool) (x1 : BitVec 4) (x2 : BitVec 4) (x3 : BitVec 2) (x4 : BitVec 3) (s : State) : exec (.mzero x0 x1 x2 x3 x4) s = execMzero x0 x1 x2 x3 x4 s := rfl
theorem exec_mdrain (x0 : Bool) (x1 : BitVec 4) (x2 : BitVec 4) (x3 : BitVec 3) (x4 : BitVec 2) (x5 : BitVec 3) (x6 : BitVec 4) (s : State) : exec (.mdrain x0 x1 x2 x3 x4 x5 x6) s = execMdrain x0 x1 x2 x3 x4 x5 x6 s := rfl
theorem exec_mrep (x0 : Bool) (x1 : BitVec 8) (x2 : BitVec 9) (s : State) : exec (.mrep x0 x1 x2) s = execMrep x0 x1 x2 s := rfl
theorem exec_mseta (x0 : Bool) (x1 : BitVec 4) (x2 : BitVec 4) (x3 : BitVec 3) (s : State) : exec (.mseta x0 x1 x2 x3) s = execMseta x0 x1 x2 x3 s := rfl
theorem exec_msetaImm (x0 : Bool) (x1 : BitVec 4) (x2 : BitVec 4) (x3 : BitVec 3) (x4 : BitVec 13) (s : State) : exec (.msetaImm x0 x1 x2 x3 x4) s = execMsetaImm x0 x1 x2 x3 x4 s := rfl
theorem exec_madda (x0 : Bool) (x1 : BitVec 4) (x2 : BitVec 4) (x3 : BitVec 3) (x4 : BitVec 14) (s : State) : exec (.madda x0 x1 x2 x3 x4) s = execMadda x0 x1 x2 x3 x4 s := rfl
theorem exec_mnop (x0 : Bool) (x1 : BitVec 4) (x2 : BitVec 4) (s : State) : exec (.mnop x0 x1 x2) s = execMnop x0 x1 x2 s := rfl
theorem exec_acopy (x0 : Bool) (x1 : BitVec 5) (x2 : BitVec 5) (x3 : BitVec 5) (x4 : BitVec 3) (x5 : BitVec 3) (x6 : BitVec 3) (s : State) : exec (.acopy x0 x1 x2 x3 x4 x5 x6) s = execAcopy x0 x1 x2 x3 x4 x5 x6 s := rfl
theorem exec_acopy2 (x0 : Bool) (x1 : BitVec 5) (x2 : BitVec 5) (x3 : BitVec 5) (x4 : BitVec 3) (x5 : BitVec 3) (x6 : BitVec 3) (s : State) : exec (.acopy2 x0 x1 x2 x3 x4 x5 x6) s = execAcopy2 x0 x1 x2 x3 x4 x5 x6 s := rfl
theorem exec_agath (x0 : Bool) (x1 : BitVec 5) (x2 : BitVec 5) (x3 : BitVec 5) (x4 : BitVec 3) (x5 : BitVec 3) (x6 : BitVec 3) (s : State) : exec (.agath x0 x1 x2 x3 x4 x5 x6) s = execAgath x0 x1 x2 x3 x4 x5 x6 s := rfl
theorem exec_ascat (x0 : Bool) (x1 : BitVec 5) (x2 : BitVec 5) (x3 : BitVec 5) (x4 : BitVec 3) (x5 : BitVec 3) (x6 : BitVec 3) (s : State) : exec (.ascat x0 x1 x2 x3 x4 x5 x6) s = execAscat x0 x1 x2 x3 x4 x5 x6 s := rfl
theorem exec_amcast (x0 : Bool) (x1 : BitVec 5) (x2 : BitVec 5) (x3 : BitVec 5) (x4 : BitVec 3) (x5 : BitVec 3) (x6 : BitVec 3) (s : State) : exec (.amcast x0 x1 x2 x3 x4 x5 x6) s = execAmcast x0 x1 x2 x3 x4 x5 x6 s := rfl
theorem exec_amcastSet (x0 : Bool) (x1 : BitVec 5) (x2 : BitVec 5) (x3 : BitVec 5) (x4 : BitVec 3) (x5 : BitVec 3) (x6 : BitVec 3) (s : State) : exec (.amcastSet x0 x1 x2 x3 x4 x5 x6) s = execAmcastSet x0 x1 x2 x3 x4 x5 x6 s := rfl
theorem exec_anote (x0 : Bool) (x1 : BitVec 5) (x2 : BitVec 5) (x3 : BitVec 3) (s : State) : exec (.anote x0 x1 x2 x3) s = execAnote x0 x1 x2 x3 s := rfl
theorem exec_twait (x0 : Bool) (x1 : BitVec 8) (s : State) : exec (.twait x0 x1) s = execTwait x0 x1 s := rfl
theorem exec_tpend (x0 : Bool) (x1 : BitVec 5) (x2 : BitVec 3) (s : State) : exec (.tpend x0 x1 x2) s = execTpend x0 x1 x2 s := rfl
theorem exec_haulgo (x0 : Bool) (x1 : BitVec 5) (x2 : BitVec 5) (s : State) : exec (.haulgo x0 x1 x2) s = execHaulgo x0 x1 x2 s := rfl
theorem exec_qpost (x0 : Bool) (x1 : BitVec 5) (x2 : BitVec 5) (s : State) : exec (.qpost x0 x1 x2) s = execQpost x0 x1 x2 s := rfl
theorem exec_hadd (x0 : Bool) (x1 : BitVec 5) (x2 : BitVec 5) (x3 : BitVec 5) (s : State) : exec (.hadd x0 x1 x2 x3) s = execHadd x0 x1 x2 x3 s := rfl
theorem exec_haddQueue (x0 : Bool) (x1 : BitVec 5) (x2 : BitVec 5) (x3 : BitVec 1) (x4 : BitVec 1) (s : State) : exec (.haddQueue x0 x1 x2 x3 x4) s = execHaddQueue x0 x1 x2 x3 x4 s := rfl
theorem exec_haddi (x0 : Bool) (x1 : BitVec 5) (x2 : BitVec 5) (x3 : BitVec 15) (s : State) : exec (.haddi x0 x1 x2 x3) s = execHaddi x0 x1 x2 x3 s := rfl
theorem exec_hmovh (x0 : Bool) (x1 : BitVec 5) (x2 : BitVec 2) (x3 : BitVec 1) (x4 : BitVec 16) (s : State) : exec (.hmovh x0 x1 x2 x3 x4) s = execHmovh x0 x1 x2 x3 x4 s := rfl
theorem exec_hsend (x0 : Bool) (x1 : BitVec 2) (x2 : BitVec 5) (x3 : BitVec 5) (s : State) : exec (.hsend x0 x1 x2 x3) s = execHsend x0 x1 x2 x3 s := rfl
theorem exec_hsig (x0 : Bool) (x1 : BitVec 4) (s : State) : exec (.hsig x0 x1) s = execHsig x0 x1 s := rfl
theorem exec_hwaitf (x0 : Bool) (x1 : BitVec 4) (x2 : BitVec 8) (s : State) : exec (.hwaitf x0 x1 x2) s = execHwaitf x0 x1 x2 s := rfl
theorem exec_hlbuf (x0 : Bool) (x1 : BitVec 5) (x2 : BitVec 6) (s : State) : exec (.hlbuf x0 x1 x2) s = execHlbuf x0 x1 x2 s := rfl
theorem exec_abfmt (x0 : Bool) (x1 : BitVec 5) (x2 : BitVec 1) (x3 : BitVec 5) (s : State) : exec (.abfmt x0 x1 x2 x3) s = execAbfmt x0 x1 x2 x3 s := rfl
theorem exec_hnop (x0 : Bool) (s : State) : exec (.hnop x0) s = execHnop x0 s := rfl
theorem exec_wordNotInstruction (x0 : Reject) (s : State) : exec (.wordNotInstruction x0) s = execWordNotInstruction x0 s := rfl
theorem exec_instructionFetch (x0 : FetchFault) (s : State) : exec (.instructionFetch x0) s = execInstructionFetch x0 s := rfl
theorem exec_vResultLand (x0 : Fin 192) (x1 : Nat) (s : State) : exec (.vResultLand x0 x1) s = execVResultLand x0 x1 s := rfl
theorem exec_mWordComplete (x0 : Fin 192) (x1 : Nat) (s : State) : exec (.mWordComplete x0 x1) s = execMWordComplete x0 x1 s := rfl
theorem exec_requestEnqueue (x0 : Fin 192) (x1 : Fin 16) (s : State) : exec (.requestEnqueue x0 x1) s = execRequestEnqueue x0 x1 s := rfl
theorem exec_calendarSlotStart (x0 : Fin 16) (x1 : List (Nat × Bool)) (s : State) : exec (.calendarSlotStart x0 x1) s = execCalendarSlotStart x0 x1 s := rfl
theorem exec_hbmReadLand (x0 : Fin 16) (x1 : Nat) (s : State) : exec (.hbmReadLand x0 x1) s = execHbmReadLand x0 x1 s := rfl
theorem exec_hbmWritePerformed (x0 : Fin 16) (s : State) : exec (.hbmWritePerformed x0) s = execHbmWritePerformed x0 s := rfl
theorem exec_atomicResponse (x0 : Fin 192) (s : State) : exec (.atomicResponse x0) s = execAtomicResponse x0 s := rfl
theorem exec_constFill (x0 : Fin 192) (x1 : Nat) (s : State) : exec (.constFill x0 x1) s = execConstFill x0 x1 s := rfl
theorem exec_copyBytesLand (x0 : Fin 192) (x1 : Nat) (x2 : Nat) (s : State) : exec (.copyBytesLand x0 x1 x2) s = execCopyBytesLand x0 x1 x2 s := rfl
theorem exec_anoteWrite (x0 : Fin 192) (x1 : Nat) (s : State) : exec (.anoteWrite x0 x1) s = execAnoteWrite x0 x1 s := rfl
theorem exec_waitaTimeout (x0 : Fin 192) (s : State) : exec (.waitaTimeout x0) s = execWaitaTimeout x0 s := rfl
theorem exec_handlerEntry (x0 : Fin 192) (s : State) : exec (.handlerEntry x0) s = execHandlerEntry x0 s := rfl
theorem exec_engineFault (x0 : Fin 192) (s : State) : exec (.engineFault x0) s = execEngineFault x0 s := rfl
theorem exec_preemptionRequest (x0 : Fin 192) (s : State) : exec (.preemptionRequest x0) s = execPreemptionRequest x0 s := rfl
theorem exec_copyAbort (x0 : Fin 192) (s : State) : exec (.copyAbort x0) s = execCopyAbort x0 s := rfl
theorem exec_granarySwap (x0 : Fin 192) (s : State) : exec (.granarySwap x0) s = execGranarySwap x0 s := rfl
theorem exec_saveAreaMove (x0 : Nat) (x1 : Nat) (x2 : Nat) (s : State) : exec (.saveAreaMove x0 x1 x2) s = execSaveAreaMove x0 x1 x2 s := rfl
theorem exec_strandResume (x0 : Nat) (s : State) : exec (.strandResume x0) s = execStrandResume x0 s := rfl
theorem exec_strandStart (x0 : Nat) (s : State) : exec (.strandStart x0) s = execStrandStart x0 s := rfl
theorem exec_scheduleDecision  (s : State) : exec (.scheduleDecision ) s = execScheduleDecision  s := rfl
theorem exec_psliceExpiry (x0 : Fin 48) (s : State) : exec (.psliceExpiry x0) s = execPsliceExpiry x0 s := rfl
theorem exec_vtUpdate  (s : State) : exec (.vtUpdate ) s = execVtUpdate  s := rfl
theorem exec_haulRecordRead (x0 : Fin 192) (s : State) : exec (.haulRecordRead x0) s = execHaulRecordRead x0 s := rfl
theorem exec_copy (x0 : Fin 192) (x1 : Nat) (s : State) : exec (.copy x0 x1) s = execCopy x0 x1 s := rfl
theorem exec_copy2d (x0 : Fin 192) (x1 : Nat) (s : State) : exec (.copy2d x0 x1) s = execCopy2d x0 x1 s := rfl
theorem exec_fill (x0 : Fin 192) (x1 : Nat) (s : State) : exec (.fill x0 x1) s = execFill x0 x1 s := rfl
theorem exec_pack (x0 : Fin 192) (x1 : Nat) (s : State) : exec (.pack x0 x1) s = execPack x0 x1 s := rfl
theorem exec_unpack (x0 : Fin 192) (x1 : Nat) (s : State) : exec (.unpack x0 x1) s = execUnpack x0 x1 s := rfl
theorem exec_reduce (x0 : Fin 192) (x1 : Nat) (s : State) : exec (.reduce x0 x1) s = execReduce x0 x1 s := rfl
theorem exec_reduceArrival (x0 : Fin 48) (x1 : Nat) (s : State) : exec (.reduceArrival x0 x1) s = execReduceArrival x0 x1 s := rfl
theorem exec_migrate (x0 : Fin 192) (x1 : Nat) (s : State) : exec (.migrate x0 x1) s = execMigrate x0 x1 s := rfl
theorem exec_stow (x0 : Fin 192) (x1 : Nat) (s : State) : exec (.stow x0 x1) s = execStow x0 x1 s := rfl
theorem exec_note (x0 : Fin 192) (x1 : Nat) (s : State) : exec (.note x0 x1) s = execNote x0 x1 s := rfl
theorem exec_scoutPass (x0 : Fin 192) (x1 : Bool) (s : State) : exec (.scoutPass x0 x1) s = execScoutPass x0 x1 s := rfl
theorem exec_tableWalk (x0 : Fin 25) (x1 : Fin 64) (x2 : Nat) (x3 : Bool) (x4 : Bool) (s : State) : exec (.tableWalk x0 x1 x2 x3 x4) s = execTableWalk x0 x1 x2 x3 x4 s := rfl
theorem exec_slabSend (x0 : Fin 192) (x1 : Fin 16) (s : State) : exec (.slabSend x0 x1) s = execSlabSend x0 x1 s := rfl
theorem exec_slabArrival (x0 : Fin 16) (s : State) : exec (.slabArrival x0) s = execSlabArrival x0 s := rfl
theorem exec_gsum (x0 : Fin 16) (s : State) : exec (.gsum x0) s = execGsum x0 s := rfl
theorem exec_gsearch (x0 : Fin 16) (s : State) : exec (.gsearch x0) s = execGsearch x0 s := rfl
theorem exec_subquery (x0 : Fin 16) (s : State) : exec (.subquery x0) s = execSubquery x0 s := rfl
theorem exec_gsearchMerge (x0 : Fin 16) (x1 : Nat) (s : State) : exec (.gsearchMerge x0 x1) s = execGsearchMerge x0 x1 s := rfl
theorem exec_submit (x0 : Fin 64) (s : State) : exec (.submit x0) s = execSubmit x0 s := rfl
theorem exec_cancel (x0 : Fin 64) (s : State) : exec (.cancel x0) s = execCancel x0 s := rfl
theorem exec_verdict (x0 : Fin 64) (s : State) : exec (.verdict x0) s = execVerdict x0 s := rfl
theorem exec_invalidate (x0 : Fin 64) (s : State) : exec (.invalidate x0) s = execInvalidate x0 s := rfl
theorem exec_setPtroot (x0 : Fin 64) (s : State) : exec (.setPtroot x0) s = execSetPtroot x0 s := rfl
theorem exec_setShare (x0 : Fin 64) (s : State) : exec (.setShare x0) s = execSetShare x0 s := rfl
theorem exec_setPslice (x0 : Fin 64) (s : State) : exec (.setPslice x0) s = execSetPslice x0 s := rfl
theorem exec_setSeedQueues (x0 : Fin 64) (s : State) : exec (.setSeedQueues x0) s = execSetSeedQueues x0 s := rfl
theorem exec_setStagingPool (x0 : Fin 64) (s : State) : exec (.setStagingPool x0) s = execSetStagingPool x0 s := rfl
theorem exec_setSaveArea (x0 : Fin 64) (s : State) : exec (.setSaveArea x0) s = execSetSaveArea x0 s := rfl
theorem exec_setParkArea (x0 : Fin 64) (s : State) : exec (.setParkArea x0) s = execSetParkArea x0 s := rfl
theorem exec_curve (x0 : Fin 64) (s : State) : exec (.curve x0) s = execCurve x0 s := rfl
theorem exec_keyinst (x0 : Fin 64) (s : State) : exec (.keyinst x0) s = execKeyinst x0 s := rfl
theorem exec_extend (x0 : Fin 64) (s : State) : exec (.extend x0) s = execExtend x0 s := rfl
theorem exec_partitionCreate (x0 : Fin 64) (s : State) : exec (.partitionCreate x0) s = execPartitionCreate x0 s := rfl
theorem exec_partitionDestroy (x0 : Fin 64) (s : State) : exec (.partitionDestroy x0) s = execPartitionDestroy x0 s := rfl
theorem exec_fabricPackageNumber (x0 : Fin 64) (s : State) : exec (.fabricPackageNumber x0) s = execFabricPackageNumber x0 s := rfl
theorem exec_fabricRoute (x0 : Fin 64) (s : State) : exec (.fabricRoute x0) s = execFabricRoute x0 s := rfl
theorem exec_fabricImport (x0 : Fin 64) (s : State) : exec (.fabricImport x0) s = execFabricImport x0 s := rfl
theorem exec_nodeStaging (x0 : Nat) (x1 : Nat) (x2 : Bool) (s : State) : exec (.nodeStaging x0 x1 x2) s = execNodeStaging x0 x1 x2 s := rfl
theorem exec_launch (x0 : Nat) (x1 : Nat) (s : State) : exec (.launch x0 x1) s = execLaunch x0 x1 s := rfl
theorem exec_launchEnd (x0 : Nat) (s : State) : exec (.launchEnd x0) s = execLaunchEnd x0 s := rfl
theorem exec_stagedCopyBack (x0 : Nat) (s : State) : exec (.stagedCopyBack x0) s = execStagedCopyBack x0 s := rfl
theorem exec_completionEvent (x0 : Fin 64) (s : State) : exec (.completionEvent x0) s = execCompletionEvent x0 s := rfl
theorem exec_commandEvent (x0 : Fin 64) (s : State) : exec (.commandEvent x0) s = execCommandEvent x0 s := rfl
theorem exec_strandFaultEvent (x0 : Fin 64) (s : State) : exec (.strandFaultEvent x0) s = execStrandFaultEvent x0 s := rfl
theorem exec_stallEvent (x0 : Fin 64) (s : State) : exec (.stallEvent x0) s = execStallEvent x0 s := rfl
theorem exec_pagefaultEvent (x0 : Fin 64) (s : State) : exec (.pagefaultEvent x0) s = execPagefaultEvent x0 s := rfl
theorem exec_noticeEvent (x0 : Fin 64) (s : State) : exec (.noticeEvent x0) s = execNoticeEvent x0 s := rfl
theorem exec_hostRegisterWrite (x0 : Fin 64) (x1 : Nat) (x2 : BitVec 64) (s : State) : exec (.hostRegisterWrite x0 x1 x2) s = execHostRegisterWrite x0 x1 x2 s := rfl
theorem exec_hostWindowRead (x0 : Fin 64) (x1 : Nat) (x2 : Nat) (s : State) : exec (.hostWindowRead x0 x1 x2) s = execHostWindowRead x0 x1 x2 s := rfl
theorem exec_hostWindowWrite (x0 : Fin 64) (x1 : Nat) (x2 : List (BitVec 8)) (s : State) : exec (.hostWindowWrite x0 x1 x2) s = execHostWindowWrite x0 x1 x2 s := rfl
theorem exec_atsInvalidation (x0 : Fin 64) (x1 : Nat) (x2 : Nat) (s : State) : exec (.atsInvalidation x0 x1 x2) s = execAtsInvalidation x0 x1 x2 s := rfl
theorem exec_flr (x0 : Fin 64) (s : State) : exec (.flr x0) s = execFlr x0 s := rfl
theorem exec_packageReset (x0 : Bool) (x1 : Option Nat) (s : State) : exec (.packageReset x0 x1) s = execPackageReset x0 x1 s := rfl
theorem exec_getVersion (x0 : Fin 64) (s : State) : exec (.getVersion x0) s = execGetVersion x0 s := rfl
theorem exec_getCapabilities (x0 : Fin 64) (s : State) : exec (.getCapabilities x0) s = execGetCapabilities x0 s := rfl
theorem exec_negotiateAlgorithms (x0 : Fin 64) (s : State) : exec (.negotiateAlgorithms x0) s = execNegotiateAlgorithms x0 s := rfl
theorem exec_getDigests (x0 : Fin 64) (s : State) : exec (.getDigests x0) s = execGetDigests x0 s := rfl
theorem exec_getCertificate (x0 : Fin 64) (x1 : Nat) (x2 : Nat) (x3 : Nat) (s : State) : exec (.getCertificate x0 x1 x2 x3) s = execGetCertificate x0 x1 x2 x3 s := rfl
theorem exec_challenge (x0 : Fin 64) (x1 : BitVec 256) (s : State) : exec (.challenge x0 x1) s = execChallenge x0 x1 s := rfl
theorem exec_getMeasurements (x0 : Fin 64) (x1 : Nat) (x2 : BitVec 256) (s : State) : exec (.getMeasurements x0 x1 x2) s = execGetMeasurements x0 x1 x2 s := rfl
theorem exec_spdmUnsupportedRequest (x0 : Fin 64) (x1 : BitVec 8) (s : State) : exec (.spdmUnsupportedRequest x0 x1) s = execSpdmUnsupportedRequest x0 x1 s := rfl
theorem exec_syndromeRead (x0 : Fin 64) (x1 : BitVec 32) (x2 : BitVec 32) (s : State) : exec (.syndromeRead x0 x1 x2) s = execSyndromeRead x0 x1 x2 s := rfl
theorem exec_syndromeClear (x0 : Fin 64) (x1 : BitVec 32) (x2 : BitVec 32) (s : State) : exec (.syndromeClear x0 x1 x2) s = execSyndromeClear x0 x1 x2 s := rfl
theorem exec_flitReceive (x0 : Fin 48) (x1 : List (BitVec 8)) (s : State) : exec (.flitReceive x0 x1) s = execFlitReceive x0 x1 s := rfl
theorem exec_linkTraining (x0 : Fin 48) (x1 : Nat) (x2 : Nat) (x3 : BitVec 5) (s : State) : exec (.linkTraining x0 x1 x2 x3) s = execLinkTraining x0 x1 x2 x3 s := rfl
theorem exec_laneRetire (x0 : Fin 48) (x1 : Fin 5) (s : State) : exec (.laneRetire x0 x1) s = execLaneRetire x0 x1 s := rfl
theorem exec_peerAccess (x0 : Nat) (x1 : Fin 64) (x2 : Nat) (x3 : Option (List (BitVec 8))) (x4 : Nat) (s : State) : exec (.peerAccess x0 x1 x2 x3 x4) s = execPeerAccess x0 x1 x2 x3 x4 s := rfl
theorem exec_marketClear (x0 : Nat) (x1 : Nat) (x2 : List Nat) (s : State) : exec (.marketClear x0 x1 x2) s = execMarketClear x0 x1 x2 s := rfl
theorem exec_curveSlowEvent (x0 : Nat) (x1 : Nat) (s : State) : exec (.curveSlowEvent x0 x1) s = execCurveSlowEvent x0 x1 s := rfl
theorem exec_curveParkEvent (x0 : Nat) (x1 : Nat) (s : State) : exec (.curveParkEvent x0 x1) s = execCurveParkEvent x0 x1 s := rfl
theorem exec_curveShedEvent (x0 : Nat) (x1 : Nat) (s : State) : exec (.curveShedEvent x0 x1) s = execCurveShedEvent x0 x1 s := rfl
theorem exec_droopStretch (x0 : Fin 48) (x1 : Nat) (s : State) : exec (.droopStretch x0 x1) s = execDroopStretch x0 x1 s := rfl
theorem exec_guardBreach (x0 : Fin 48) (x1 : Nat) (s : State) : exec (.guardBreach x0 x1) s = execGuardBreach x0 x1 s := rfl
theorem exec_stallHoldEnd (x0 : Fin 192) (s : State) : exec (.stallHoldEnd x0) s = execStallHoldEnd x0 s := rfl
theorem exec_clusterGate (x0 : Fin 48) (s : State) : exec (.clusterGate x0) s = execClusterGate x0 s := rfl
theorem exec_dieGate (x0 : Fin 8) (s : State) : exec (.dieGate x0) s = execDieGate x0 s := rfl
theorem exec_diePowerUp (x0 : Fin 8) (s : State) : exec (.diePowerUp x0) s = execDiePowerUp x0 s := rfl
theorem exec_hotMigration  (s : State) : exec (.hotMigration ) s = execHotMigration  s := rfl
theorem exec_bankRetire (x0 : Fin 16) (x1 : Fin 64) (x2 : Fin 64) (s : State) : exec (.bankRetire x0 x1 x2) s = execBankRetire x0 x1 x2 s := rfl
theorem exec_siloScrub (x0 : Nat) (x1 : Option Bool) (s : State) : exec (.siloScrub x0 x1) s = execSiloScrub x0 x1 s := rfl
theorem exec_sramScrub (x0 : BitVec 4) (x1 : Fin 192) (x2 : Nat) (x3 : Option Bool) (s : State) : exec (.sramScrub x0 x1 x2 x3) s = execSramScrub x0 x1 x2 x3 s := rfl
theorem exec_eccWriteback (x0 : Nat) (s : State) : exec (.eccWriteback x0) s = execEccWriteback x0 s := rfl
theorem exec_heartbeatTimeout (x0 : Fin 11) (x1 : Option Nat) (s : State) : exec (.heartbeatTimeout x0 x1) s = execHeartbeatTimeout x0 x1 s := rfl
theorem exec_fatalDieError (x0 : Fin 11) (x1 : BitVec 7) (x2 : Option Nat) (s : State) : exec (.fatalDieError x0 x1 x2) s = execFatalDieError x0 x1 x2 s := rfl
theorem exec_accessResponse (x0 : Fin 192) (x1 : Nat) (s : State) : exec (.accessResponse x0 x1) s = execAccessResponse x0 x1 s := rfl
theorem exec_preIssueRead (x0 : Fin 192) (s : State) : exec (.preIssueRead x0) s = execPreIssueRead x0 s := rfl
theorem exec_constantPathDiscard (x0 : Fin 192) (s : State) : exec (.constantPathDiscard x0) s = execConstantPathDiscard x0 s := rfl
theorem exec_clusterPowerUp (x0 : Fin 48) (s : State) : exec (.clusterPowerUp x0) s = execClusterPowerUp x0 s := rfl
theorem exec_badCommand (x0 : Fin 64) (s : State) : exec (.badCommand x0) s = execBadCommand x0 s := rfl

end Sys2Proof.Laws
end

