-- ==== Sys2Proof/Laws/State.lean ====
section
/-! SUPPORT. What each named update of the state leaves of each field, and what it makes of its own. -/

namespace Sys2Proof.Laws

open Sys2Proof.Machine

/-! ## setSt -/

@[simp] theorem setSt_cur (s : State) (c : Fin 192) (st : Strand) : (s.setSt c st).cur = s.cur := rfl
@[simp] theorem setSt_agenda (s : State) (c : Fin 192) (st : Strand) : (s.setSt c st).agenda = s.agenda := rfl
@[simp] theorem setSt_tick (s : State) (c : Fin 192) (st : Strand) : (s.setSt c st).tick = s.tick := rfl
@[simp] theorem setSt_free (s : State) (c : Fin 192) (st : Strand) : (s.setSt c st).free = s.free := rfl
@[simp] theorem setSt_cores (s : State) (c : Fin 192) (st : Strand) : (s.setSt c st).cores = s.cores.set c { s.cores[c] with strand := some st } := rfl
@[simp] theorem setSt_mons (s : State) (c : Fin 192) (st : Strand) : (s.setSt c st).mons = s.mons := rfl
@[simp] theorem setSt_clusters (s : State) (c : Fin 192) (st : Strand) : (s.setSt c st).clusters = s.clusters := rfl
@[simp] theorem setSt_hbm (s : State) (c : Fin 192) (st : Strand) : (s.setSt c st).hbm = s.hbm := rfl
@[simp] theorem setSt_quarry (s : State) (c : Fin 192) (st : Strand) : (s.setSt c st).quarry = s.quarry := rfl
@[simp] theorem setSt_rsvs (s : State) (c : Fin 192) (st : Strand) : (s.setSt c st).rsvs = s.rsvs := rfl
@[simp] theorem setSt_pins (s : State) (c : Fin 192) (st : Strand) : (s.setSt c st).pins = s.pins := rfl
@[simp] theorem setSt_upkeep (s : State) (c : Fin 192) (st : Strand) : (s.setSt c st).upkeep = s.upkeep := rfl
@[simp] theorem setSt_mem (s : State) (c : Fin 192) (st : Strand) : (s.setSt c st).mem = s.mem := rfl
@[simp] theorem setSt_wback (s : State) (c : Fin 192) (st : Strand) : (s.setSt c st).wback = s.wback := rfl
@[simp] theorem setSt_nextObj (s : State) (c : Fin 192) (st : Strand) : (s.setSt c st).nextObj = s.nextObj := rfl
@[simp] theorem setSt_nextSid (s : State) (c : Fin 192) (st : Strand) : (s.setSt c st).nextSid = s.nextSid := rfl
@[simp] theorem setSt_graphs (s : State) (c : Fin 192) (st : Strand) : (s.setSt c st).graphs = s.graphs := rfl
@[simp] theorem setSt_nextGid (s : State) (c : Fin 192) (st : Strand) : (s.setSt c st).nextGid = s.nextGid := rfl
@[simp] theorem setSt_nextOrder (s : State) (c : Fin 192) (st : Strand) : (s.setSt c st).nextOrder = s.nextOrder := rfl
@[simp] theorem setSt_images (s : State) (c : Fin 192) (st : Strand) : (s.setSt c st).images = s.images := rfl
@[simp] theorem setSt_launches (s : State) (c : Fin 192) (st : Strand) : (s.setSt c st).launches = s.launches := rfl
@[simp] theorem setSt_lastLaunch (s : State) (c : Fin 192) (st : Strand) : (s.setSt c st).lastLaunch = s.lastLaunch := rfl
@[simp] theorem setSt_gangs (s : State) (c : Fin 192) (st : Strand) : (s.setSt c st).gangs = s.gangs := rfl
@[simp] theorem setSt_halted (s : State) (c : Fin 192) (st : Strand) : (s.setSt c st).halted = s.halted := rfl
@[simp] theorem setSt_preqs (s : State) (c : Fin 192) (st : Strand) : (s.setSt c st).preqs = s.preqs := rfl
@[simp] theorem setSt_placing (s : State) (c : Fin 192) (st : Strand) : (s.setSt c st).placing = s.placing := rfl
@[simp] theorem setSt_vtUs (s : State) (c : Fin 192) (st : Strand) : (s.setSt c st).vtUs = s.vtUs := rfl
@[simp] theorem setSt_parts (s : State) (c : Fin 192) (st : Strand) : (s.setSt c st).parts = s.parts := rfl
@[simp] theorem setSt_classes (s : State) (c : Fin 192) (st : Strand) : (s.setSt c st).classes = s.classes := rfl
@[simp] theorem setSt_chans (s : State) (c : Fin 192) (st : Strand) : (s.setSt c st).chans = s.chans := rfl
@[simp] theorem setSt_xlats (s : State) (c : Fin 192) (st : Strand) : (s.setSt c st).xlats = s.xlats := rfl
@[simp] theorem setSt_pfaults (s : State) (c : Fin 192) (st : Strand) : (s.setSt c st).pfaults = s.pfaults := rfl
@[simp] theorem setSt_nextFseq (s : State) (c : Fin 192) (st : Strand) : (s.setSt c st).nextFseq = s.nextFseq := rfl
@[simp] theorem setSt_arrivals (s : State) (c : Fin 192) (st : Strand) : (s.setSt c st).arrivals = s.arrivals := rfl
@[simp] theorem setSt_reductions (s : State) (c : Fin 192) (st : Strand) : (s.setSt c st).reductions = s.reductions := rfl
@[simp] theorem setSt_wires (s : State) (c : Fin 192) (st : Strand) : (s.setSt c st).wires = s.wires := rfl
@[simp] theorem setSt_power (s : State) (c : Fin 192) (st : Strand) : (s.setSt c st).power = s.power := rfl
@[simp] theorem setSt_diePower (s : State) (c : Fin 192) (st : Strand) : (s.setSt c st).diePower = s.diePower := rfl
@[simp] theorem setSt_bootstat (s : State) (c : Fin 192) (st : Strand) : (s.setSt c st).bootstat = s.bootstat := rfl
@[simp] theorem setSt_measd (s : State) (c : Fin 192) (st : Strand) : (s.setSt c st).measd = s.measd := rfl
@[simp] theorem setSt_keys (s : State) (c : Fin 192) (st : Strand) : (s.setSt c st).keys = s.keys := rfl
@[simp] theorem setSt_nextKey (s : State) (c : Fin 192) (st : Strand) : (s.setSt c st).nextKey = s.nextKey := rfl
@[simp] theorem setSt_funcs (s : State) (c : Fin 192) (st : Strand) : (s.setSt c st).funcs = s.funcs := rfl
@[simp] theorem setSt_hostOut (s : State) (c : Fin 192) (st : Strand) : (s.setSt c st).hostOut = s.hostOut := rfl
@[simp] theorem setSt_package (s : State) (c : Fin 192) (st : Strand) : (s.setSt c st).package = s.package := rfl
@[simp] theorem setSt_routes (s : State) (c : Fin 192) (st : Strand) : (s.setSt c st).routes = s.routes := rfl
@[simp] theorem setSt_imports (s : State) (c : Fin 192) (st : Strand) : (s.setSt c st).imports = s.imports := rfl
@[simp] theorem setSt_ports (s : State) (c : Fin 192) (st : Strand) : (s.setSt c st).ports = s.ports := rfl
@[simp] theorem setSt_syn (s : State) (c : Fin 192) (st : Strand) : (s.setSt c st).syn = s.syn := rfl

/-! ## clearSt -/

@[simp] theorem clearSt_cur (s : State) (c : Fin 192) : (s.clearSt c).cur = s.cur := rfl
@[simp] theorem clearSt_agenda (s : State) (c : Fin 192) : (s.clearSt c).agenda = s.agenda := rfl
@[simp] theorem clearSt_tick (s : State) (c : Fin 192) : (s.clearSt c).tick = s.tick := rfl
@[simp] theorem clearSt_free (s : State) (c : Fin 192) : (s.clearSt c).free = s.free := rfl
@[simp] theorem clearSt_cores (s : State) (c : Fin 192) : (s.clearSt c).cores = s.cores.set c { s.cores[c] with strand := none } := rfl
@[simp] theorem clearSt_mons (s : State) (c : Fin 192) : (s.clearSt c).mons = s.mons := rfl
@[simp] theorem clearSt_clusters (s : State) (c : Fin 192) : (s.clearSt c).clusters = s.clusters := rfl
@[simp] theorem clearSt_hbm (s : State) (c : Fin 192) : (s.clearSt c).hbm = s.hbm := rfl
@[simp] theorem clearSt_quarry (s : State) (c : Fin 192) : (s.clearSt c).quarry = s.quarry := rfl
@[simp] theorem clearSt_rsvs (s : State) (c : Fin 192) : (s.clearSt c).rsvs = s.rsvs := rfl
@[simp] theorem clearSt_pins (s : State) (c : Fin 192) : (s.clearSt c).pins = s.pins := rfl
@[simp] theorem clearSt_upkeep (s : State) (c : Fin 192) : (s.clearSt c).upkeep = s.upkeep := rfl
@[simp] theorem clearSt_mem (s : State) (c : Fin 192) : (s.clearSt c).mem = s.mem := rfl
@[simp] theorem clearSt_wback (s : State) (c : Fin 192) : (s.clearSt c).wback = s.wback := rfl
@[simp] theorem clearSt_nextObj (s : State) (c : Fin 192) : (s.clearSt c).nextObj = s.nextObj := rfl
@[simp] theorem clearSt_nextSid (s : State) (c : Fin 192) : (s.clearSt c).nextSid = s.nextSid := rfl
@[simp] theorem clearSt_graphs (s : State) (c : Fin 192) : (s.clearSt c).graphs = s.graphs := rfl
@[simp] theorem clearSt_nextGid (s : State) (c : Fin 192) : (s.clearSt c).nextGid = s.nextGid := rfl
@[simp] theorem clearSt_nextOrder (s : State) (c : Fin 192) : (s.clearSt c).nextOrder = s.nextOrder := rfl
@[simp] theorem clearSt_images (s : State) (c : Fin 192) : (s.clearSt c).images = s.images := rfl
@[simp] theorem clearSt_launches (s : State) (c : Fin 192) : (s.clearSt c).launches = s.launches := rfl
@[simp] theorem clearSt_lastLaunch (s : State) (c : Fin 192) : (s.clearSt c).lastLaunch = s.lastLaunch := rfl
@[simp] theorem clearSt_gangs (s : State) (c : Fin 192) : (s.clearSt c).gangs = s.gangs := rfl
@[simp] theorem clearSt_halted (s : State) (c : Fin 192) : (s.clearSt c).halted = s.halted := rfl
@[simp] theorem clearSt_preqs (s : State) (c : Fin 192) : (s.clearSt c).preqs = s.preqs := rfl
@[simp] theorem clearSt_placing (s : State) (c : Fin 192) : (s.clearSt c).placing = s.placing := rfl
@[simp] theorem clearSt_vtUs (s : State) (c : Fin 192) : (s.clearSt c).vtUs = s.vtUs := rfl
@[simp] theorem clearSt_parts (s : State) (c : Fin 192) : (s.clearSt c).parts = s.parts := rfl
@[simp] theorem clearSt_classes (s : State) (c : Fin 192) : (s.clearSt c).classes = s.classes := rfl
@[simp] theorem clearSt_chans (s : State) (c : Fin 192) : (s.clearSt c).chans = s.chans := rfl
@[simp] theorem clearSt_xlats (s : State) (c : Fin 192) : (s.clearSt c).xlats = s.xlats := rfl
@[simp] theorem clearSt_pfaults (s : State) (c : Fin 192) : (s.clearSt c).pfaults = s.pfaults := rfl
@[simp] theorem clearSt_nextFseq (s : State) (c : Fin 192) : (s.clearSt c).nextFseq = s.nextFseq := rfl
@[simp] theorem clearSt_arrivals (s : State) (c : Fin 192) : (s.clearSt c).arrivals = s.arrivals := rfl
@[simp] theorem clearSt_reductions (s : State) (c : Fin 192) : (s.clearSt c).reductions = s.reductions := rfl
@[simp] theorem clearSt_wires (s : State) (c : Fin 192) : (s.clearSt c).wires = s.wires := rfl
@[simp] theorem clearSt_power (s : State) (c : Fin 192) : (s.clearSt c).power = s.power := rfl
@[simp] theorem clearSt_diePower (s : State) (c : Fin 192) : (s.clearSt c).diePower = s.diePower := rfl
@[simp] theorem clearSt_bootstat (s : State) (c : Fin 192) : (s.clearSt c).bootstat = s.bootstat := rfl
@[simp] theorem clearSt_measd (s : State) (c : Fin 192) : (s.clearSt c).measd = s.measd := rfl
@[simp] theorem clearSt_keys (s : State) (c : Fin 192) : (s.clearSt c).keys = s.keys := rfl
@[simp] theorem clearSt_nextKey (s : State) (c : Fin 192) : (s.clearSt c).nextKey = s.nextKey := rfl
@[simp] theorem clearSt_funcs (s : State) (c : Fin 192) : (s.clearSt c).funcs = s.funcs := rfl
@[simp] theorem clearSt_hostOut (s : State) (c : Fin 192) : (s.clearSt c).hostOut = s.hostOut := rfl
@[simp] theorem clearSt_package (s : State) (c : Fin 192) : (s.clearSt c).package = s.package := rfl
@[simp] theorem clearSt_routes (s : State) (c : Fin 192) : (s.clearSt c).routes = s.routes := rfl
@[simp] theorem clearSt_imports (s : State) (c : Fin 192) : (s.clearSt c).imports = s.imports := rfl
@[simp] theorem clearSt_ports (s : State) (c : Fin 192) : (s.clearSt c).ports = s.ports := rfl
@[simp] theorem clearSt_syn (s : State) (c : Fin 192) : (s.clearSt c).syn = s.syn := rfl

/-! ## setCore -/

@[simp] theorem setCore_cur (s : State) (c : Fin 192) (k : Core) : (s.setCore c k).cur = s.cur := rfl
@[simp] theorem setCore_agenda (s : State) (c : Fin 192) (k : Core) : (s.setCore c k).agenda = s.agenda := rfl
@[simp] theorem setCore_tick (s : State) (c : Fin 192) (k : Core) : (s.setCore c k).tick = s.tick := rfl
@[simp] theorem setCore_free (s : State) (c : Fin 192) (k : Core) : (s.setCore c k).free = s.free := rfl
@[simp] theorem setCore_cores (s : State) (c : Fin 192) (k : Core) : (s.setCore c k).cores = s.cores.set c k := rfl
@[simp] theorem setCore_mons (s : State) (c : Fin 192) (k : Core) : (s.setCore c k).mons = s.mons := rfl
@[simp] theorem setCore_clusters (s : State) (c : Fin 192) (k : Core) : (s.setCore c k).clusters = s.clusters := rfl
@[simp] theorem setCore_hbm (s : State) (c : Fin 192) (k : Core) : (s.setCore c k).hbm = s.hbm := rfl
@[simp] theorem setCore_quarry (s : State) (c : Fin 192) (k : Core) : (s.setCore c k).quarry = s.quarry := rfl
@[simp] theorem setCore_rsvs (s : State) (c : Fin 192) (k : Core) : (s.setCore c k).rsvs = s.rsvs := rfl
@[simp] theorem setCore_pins (s : State) (c : Fin 192) (k : Core) : (s.setCore c k).pins = s.pins := rfl
@[simp] theorem setCore_upkeep (s : State) (c : Fin 192) (k : Core) : (s.setCore c k).upkeep = s.upkeep := rfl
@[simp] theorem setCore_mem (s : State) (c : Fin 192) (k : Core) : (s.setCore c k).mem = s.mem := rfl
@[simp] theorem setCore_wback (s : State) (c : Fin 192) (k : Core) : (s.setCore c k).wback = s.wback := rfl
@[simp] theorem setCore_nextObj (s : State) (c : Fin 192) (k : Core) : (s.setCore c k).nextObj = s.nextObj := rfl
@[simp] theorem setCore_nextSid (s : State) (c : Fin 192) (k : Core) : (s.setCore c k).nextSid = s.nextSid := rfl
@[simp] theorem setCore_graphs (s : State) (c : Fin 192) (k : Core) : (s.setCore c k).graphs = s.graphs := rfl
@[simp] theorem setCore_nextGid (s : State) (c : Fin 192) (k : Core) : (s.setCore c k).nextGid = s.nextGid := rfl
@[simp] theorem setCore_nextOrder (s : State) (c : Fin 192) (k : Core) : (s.setCore c k).nextOrder = s.nextOrder := rfl
@[simp] theorem setCore_images (s : State) (c : Fin 192) (k : Core) : (s.setCore c k).images = s.images := rfl
@[simp] theorem setCore_launches (s : State) (c : Fin 192) (k : Core) : (s.setCore c k).launches = s.launches := rfl
@[simp] theorem setCore_lastLaunch (s : State) (c : Fin 192) (k : Core) : (s.setCore c k).lastLaunch = s.lastLaunch := rfl
@[simp] theorem setCore_gangs (s : State) (c : Fin 192) (k : Core) : (s.setCore c k).gangs = s.gangs := rfl
@[simp] theorem setCore_halted (s : State) (c : Fin 192) (k : Core) : (s.setCore c k).halted = s.halted := rfl
@[simp] theorem setCore_preqs (s : State) (c : Fin 192) (k : Core) : (s.setCore c k).preqs = s.preqs := rfl
@[simp] theorem setCore_placing (s : State) (c : Fin 192) (k : Core) : (s.setCore c k).placing = s.placing := rfl
@[simp] theorem setCore_vtUs (s : State) (c : Fin 192) (k : Core) : (s.setCore c k).vtUs = s.vtUs := rfl
@[simp] theorem setCore_parts (s : State) (c : Fin 192) (k : Core) : (s.setCore c k).parts = s.parts := rfl
@[simp] theorem setCore_classes (s : State) (c : Fin 192) (k : Core) : (s.setCore c k).classes = s.classes := rfl
@[simp] theorem setCore_chans (s : State) (c : Fin 192) (k : Core) : (s.setCore c k).chans = s.chans := rfl
@[simp] theorem setCore_xlats (s : State) (c : Fin 192) (k : Core) : (s.setCore c k).xlats = s.xlats := rfl
@[simp] theorem setCore_pfaults (s : State) (c : Fin 192) (k : Core) : (s.setCore c k).pfaults = s.pfaults := rfl
@[simp] theorem setCore_nextFseq (s : State) (c : Fin 192) (k : Core) : (s.setCore c k).nextFseq = s.nextFseq := rfl
@[simp] theorem setCore_arrivals (s : State) (c : Fin 192) (k : Core) : (s.setCore c k).arrivals = s.arrivals := rfl
@[simp] theorem setCore_reductions (s : State) (c : Fin 192) (k : Core) : (s.setCore c k).reductions = s.reductions := rfl
@[simp] theorem setCore_wires (s : State) (c : Fin 192) (k : Core) : (s.setCore c k).wires = s.wires := rfl
@[simp] theorem setCore_power (s : State) (c : Fin 192) (k : Core) : (s.setCore c k).power = s.power := rfl
@[simp] theorem setCore_diePower (s : State) (c : Fin 192) (k : Core) : (s.setCore c k).diePower = s.diePower := rfl
@[simp] theorem setCore_bootstat (s : State) (c : Fin 192) (k : Core) : (s.setCore c k).bootstat = s.bootstat := rfl
@[simp] theorem setCore_measd (s : State) (c : Fin 192) (k : Core) : (s.setCore c k).measd = s.measd := rfl
@[simp] theorem setCore_keys (s : State) (c : Fin 192) (k : Core) : (s.setCore c k).keys = s.keys := rfl
@[simp] theorem setCore_nextKey (s : State) (c : Fin 192) (k : Core) : (s.setCore c k).nextKey = s.nextKey := rfl
@[simp] theorem setCore_funcs (s : State) (c : Fin 192) (k : Core) : (s.setCore c k).funcs = s.funcs := rfl
@[simp] theorem setCore_hostOut (s : State) (c : Fin 192) (k : Core) : (s.setCore c k).hostOut = s.hostOut := rfl
@[simp] theorem setCore_package (s : State) (c : Fin 192) (k : Core) : (s.setCore c k).package = s.package := rfl
@[simp] theorem setCore_routes (s : State) (c : Fin 192) (k : Core) : (s.setCore c k).routes = s.routes := rfl
@[simp] theorem setCore_imports (s : State) (c : Fin 192) (k : Core) : (s.setCore c k).imports = s.imports := rfl
@[simp] theorem setCore_ports (s : State) (c : Fin 192) (k : Core) : (s.setCore c k).ports = s.ports := rfl
@[simp] theorem setCore_syn (s : State) (c : Fin 192) (k : Core) : (s.setCore c k).syn = s.syn := rfl

/-! ## commit -/

@[simp] theorem commit_cur (s : State) (w : MWrite) : (s.commit w).cur = s.cur := rfl
@[simp] theorem commit_agenda (s : State) (w : MWrite) : (s.commit w).agenda = s.agenda := rfl
@[simp] theorem commit_tick (s : State) (w : MWrite) : (s.commit w).tick = s.tick := rfl
@[simp] theorem commit_free (s : State) (w : MWrite) : (s.commit w).free = s.free := rfl
@[simp] theorem commit_cores (s : State) (w : MWrite) : (s.commit w).cores = s.cores := rfl
@[simp] theorem commit_mons (s : State) (w : MWrite) : (s.commit w).mons = s.mons.map (Monitor.see w.touched) := rfl
@[simp] theorem commit_clusters (s : State) (w : MWrite) : (s.commit w).clusters = s.clusters := rfl
@[simp] theorem commit_hbm (s : State) (w : MWrite) : (s.commit w).hbm = s.hbm := rfl
@[simp] theorem commit_quarry (s : State) (w : MWrite) : (s.commit w).quarry = s.quarry := rfl
@[simp] theorem commit_rsvs (s : State) (w : MWrite) : (s.commit w).rsvs = s.rsvs := rfl
@[simp] theorem commit_pins (s : State) (w : MWrite) : (s.commit w).pins = s.pins := rfl
@[simp] theorem commit_upkeep (s : State) (w : MWrite) : (s.commit w).upkeep = s.upkeep := rfl
@[simp] theorem commit_mem (s : State) (w : MWrite) : (s.commit w).mem = s.mem.apply w := rfl
@[simp] theorem commit_wback (s : State) (w : MWrite) : (s.commit w).wback = s.wback := rfl
@[simp] theorem commit_nextObj (s : State) (w : MWrite) : (s.commit w).nextObj = s.nextObj := rfl
@[simp] theorem commit_nextSid (s : State) (w : MWrite) : (s.commit w).nextSid = s.nextSid := rfl
@[simp] theorem commit_graphs (s : State) (w : MWrite) : (s.commit w).graphs = s.graphs := rfl
@[simp] theorem commit_nextGid (s : State) (w : MWrite) : (s.commit w).nextGid = s.nextGid := rfl
@[simp] theorem commit_nextOrder (s : State) (w : MWrite) : (s.commit w).nextOrder = s.nextOrder := rfl
@[simp] theorem commit_images (s : State) (w : MWrite) : (s.commit w).images = s.images := rfl
@[simp] theorem commit_launches (s : State) (w : MWrite) : (s.commit w).launches = s.launches := rfl
@[simp] theorem commit_lastLaunch (s : State) (w : MWrite) : (s.commit w).lastLaunch = s.lastLaunch := rfl
@[simp] theorem commit_gangs (s : State) (w : MWrite) : (s.commit w).gangs = s.gangs := rfl
@[simp] theorem commit_halted (s : State) (w : MWrite) : (s.commit w).halted = s.halted := rfl
@[simp] theorem commit_preqs (s : State) (w : MWrite) : (s.commit w).preqs = s.preqs := rfl
@[simp] theorem commit_placing (s : State) (w : MWrite) : (s.commit w).placing = s.placing := rfl
@[simp] theorem commit_vtUs (s : State) (w : MWrite) : (s.commit w).vtUs = s.vtUs := rfl
@[simp] theorem commit_parts (s : State) (w : MWrite) : (s.commit w).parts = s.parts := rfl
@[simp] theorem commit_classes (s : State) (w : MWrite) : (s.commit w).classes = s.classes := rfl
@[simp] theorem commit_chans (s : State) (w : MWrite) : (s.commit w).chans = s.chans := rfl
@[simp] theorem commit_xlats (s : State) (w : MWrite) : (s.commit w).xlats = s.xlats := rfl
@[simp] theorem commit_pfaults (s : State) (w : MWrite) : (s.commit w).pfaults = s.pfaults := rfl
@[simp] theorem commit_nextFseq (s : State) (w : MWrite) : (s.commit w).nextFseq = s.nextFseq := rfl
@[simp] theorem commit_arrivals (s : State) (w : MWrite) : (s.commit w).arrivals = s.arrivals := rfl
@[simp] theorem commit_reductions (s : State) (w : MWrite) : (s.commit w).reductions = s.reductions := rfl
@[simp] theorem commit_wires (s : State) (w : MWrite) : (s.commit w).wires = s.wires := rfl
@[simp] theorem commit_power (s : State) (w : MWrite) : (s.commit w).power = s.power := rfl
@[simp] theorem commit_diePower (s : State) (w : MWrite) : (s.commit w).diePower = s.diePower := rfl
@[simp] theorem commit_bootstat (s : State) (w : MWrite) : (s.commit w).bootstat = s.bootstat := rfl
@[simp] theorem commit_measd (s : State) (w : MWrite) : (s.commit w).measd = s.measd := rfl
@[simp] theorem commit_keys (s : State) (w : MWrite) : (s.commit w).keys = s.keys := rfl
@[simp] theorem commit_nextKey (s : State) (w : MWrite) : (s.commit w).nextKey = s.nextKey := rfl
@[simp] theorem commit_funcs (s : State) (w : MWrite) : (s.commit w).funcs = s.funcs := rfl
@[simp] theorem commit_hostOut (s : State) (w : MWrite) : (s.commit w).hostOut = s.hostOut := rfl
@[simp] theorem commit_package (s : State) (w : MWrite) : (s.commit w).package = s.package := rfl
@[simp] theorem commit_routes (s : State) (w : MWrite) : (s.commit w).routes = s.routes := rfl
@[simp] theorem commit_imports (s : State) (w : MWrite) : (s.commit w).imports = s.imports := rfl
@[simp] theorem commit_ports (s : State) (w : MWrite) : (s.commit w).ports = s.ports := rfl
@[simp] theorem commit_syn (s : State) (w : MWrite) : (s.commit w).syn = s.syn := rfl

/-! ## logEvent -/

@[simp] theorem logEvent_cur (s : State) (p : Fin 64) (kind : Nat) (args : List Byte) : (s.logEvent p kind args).cur = s.cur := rfl
@[simp] theorem logEvent_agenda (s : State) (p : Fin 64) (kind : Nat) (args : List Byte) : (s.logEvent p kind args).agenda = s.agenda := rfl
@[simp] theorem logEvent_tick (s : State) (p : Fin 64) (kind : Nat) (args : List Byte) : (s.logEvent p kind args).tick = s.tick := rfl
@[simp] theorem logEvent_free (s : State) (p : Fin 64) (kind : Nat) (args : List Byte) : (s.logEvent p kind args).free = s.free := rfl
@[simp] theorem logEvent_cores (s : State) (p : Fin 64) (kind : Nat) (args : List Byte) : (s.logEvent p kind args).cores = s.cores := rfl
@[simp] theorem logEvent_mons (s : State) (p : Fin 64) (kind : Nat) (args : List Byte) : (s.logEvent p kind args).mons = s.mons := rfl
@[simp] theorem logEvent_clusters (s : State) (p : Fin 64) (kind : Nat) (args : List Byte) : (s.logEvent p kind args).clusters = s.clusters := rfl
@[simp] theorem logEvent_hbm (s : State) (p : Fin 64) (kind : Nat) (args : List Byte) : (s.logEvent p kind args).hbm = s.hbm := rfl
@[simp] theorem logEvent_quarry (s : State) (p : Fin 64) (kind : Nat) (args : List Byte) : (s.logEvent p kind args).quarry = s.quarry := rfl
@[simp] theorem logEvent_rsvs (s : State) (p : Fin 64) (kind : Nat) (args : List Byte) : (s.logEvent p kind args).rsvs = s.rsvs := rfl
@[simp] theorem logEvent_pins (s : State) (p : Fin 64) (kind : Nat) (args : List Byte) : (s.logEvent p kind args).pins = s.pins := rfl
@[simp] theorem logEvent_upkeep (s : State) (p : Fin 64) (kind : Nat) (args : List Byte) : (s.logEvent p kind args).upkeep = s.upkeep := rfl
@[simp] theorem logEvent_mem (s : State) (p : Fin 64) (kind : Nat) (args : List Byte) : (s.logEvent p kind args).mem = s.mem := rfl
@[simp] theorem logEvent_wback (s : State) (p : Fin 64) (kind : Nat) (args : List Byte) : (s.logEvent p kind args).wback = s.wback := rfl
@[simp] theorem logEvent_nextObj (s : State) (p : Fin 64) (kind : Nat) (args : List Byte) : (s.logEvent p kind args).nextObj = s.nextObj := rfl
@[simp] theorem logEvent_nextSid (s : State) (p : Fin 64) (kind : Nat) (args : List Byte) : (s.logEvent p kind args).nextSid = s.nextSid := rfl
@[simp] theorem logEvent_graphs (s : State) (p : Fin 64) (kind : Nat) (args : List Byte) : (s.logEvent p kind args).graphs = s.graphs := rfl
@[simp] theorem logEvent_nextGid (s : State) (p : Fin 64) (kind : Nat) (args : List Byte) : (s.logEvent p kind args).nextGid = s.nextGid := rfl
@[simp] theorem logEvent_nextOrder (s : State) (p : Fin 64) (kind : Nat) (args : List Byte) : (s.logEvent p kind args).nextOrder = s.nextOrder := rfl
@[simp] theorem logEvent_images (s : State) (p : Fin 64) (kind : Nat) (args : List Byte) : (s.logEvent p kind args).images = s.images := rfl
@[simp] theorem logEvent_launches (s : State) (p : Fin 64) (kind : Nat) (args : List Byte) : (s.logEvent p kind args).launches = s.launches := rfl
@[simp] theorem logEvent_lastLaunch (s : State) (p : Fin 64) (kind : Nat) (args : List Byte) : (s.logEvent p kind args).lastLaunch = s.lastLaunch := rfl
@[simp] theorem logEvent_gangs (s : State) (p : Fin 64) (kind : Nat) (args : List Byte) : (s.logEvent p kind args).gangs = s.gangs := rfl
@[simp] theorem logEvent_halted (s : State) (p : Fin 64) (kind : Nat) (args : List Byte) : (s.logEvent p kind args).halted = s.halted := rfl
@[simp] theorem logEvent_preqs (s : State) (p : Fin 64) (kind : Nat) (args : List Byte) : (s.logEvent p kind args).preqs = s.preqs := rfl
@[simp] theorem logEvent_placing (s : State) (p : Fin 64) (kind : Nat) (args : List Byte) : (s.logEvent p kind args).placing = s.placing := rfl
@[simp] theorem logEvent_vtUs (s : State) (p : Fin 64) (kind : Nat) (args : List Byte) : (s.logEvent p kind args).vtUs = s.vtUs := rfl
@[simp] theorem logEvent_parts (s : State) (p : Fin 64) (kind : Nat) (args : List Byte) : (s.logEvent p kind args).parts = s.parts := rfl
@[simp] theorem logEvent_classes (s : State) (p : Fin 64) (kind : Nat) (args : List Byte) : (s.logEvent p kind args).classes = s.classes := rfl
@[simp] theorem logEvent_chans (s : State) (p : Fin 64) (kind : Nat) (args : List Byte) : (s.logEvent p kind args).chans = s.chans := rfl
@[simp] theorem logEvent_xlats (s : State) (p : Fin 64) (kind : Nat) (args : List Byte) : (s.logEvent p kind args).xlats = s.xlats := rfl
@[simp] theorem logEvent_pfaults (s : State) (p : Fin 64) (kind : Nat) (args : List Byte) : (s.logEvent p kind args).pfaults = s.pfaults := rfl
@[simp] theorem logEvent_nextFseq (s : State) (p : Fin 64) (kind : Nat) (args : List Byte) : (s.logEvent p kind args).nextFseq = s.nextFseq := rfl
@[simp] theorem logEvent_arrivals (s : State) (p : Fin 64) (kind : Nat) (args : List Byte) : (s.logEvent p kind args).arrivals = s.arrivals := rfl
@[simp] theorem logEvent_reductions (s : State) (p : Fin 64) (kind : Nat) (args : List Byte) : (s.logEvent p kind args).reductions = s.reductions := rfl
@[simp] theorem logEvent_wires (s : State) (p : Fin 64) (kind : Nat) (args : List Byte) : (s.logEvent p kind args).wires = s.wires := rfl
@[simp] theorem logEvent_power (s : State) (p : Fin 64) (kind : Nat) (args : List Byte) : (s.logEvent p kind args).power = s.power := rfl
@[simp] theorem logEvent_diePower (s : State) (p : Fin 64) (kind : Nat) (args : List Byte) : (s.logEvent p kind args).diePower = s.diePower := rfl
@[simp] theorem logEvent_bootstat (s : State) (p : Fin 64) (kind : Nat) (args : List Byte) : (s.logEvent p kind args).bootstat = s.bootstat := rfl
@[simp] theorem logEvent_measd (s : State) (p : Fin 64) (kind : Nat) (args : List Byte) : (s.logEvent p kind args).measd = s.measd := rfl
@[simp] theorem logEvent_keys (s : State) (p : Fin 64) (kind : Nat) (args : List Byte) : (s.logEvent p kind args).keys = s.keys := rfl
@[simp] theorem logEvent_nextKey (s : State) (p : Fin 64) (kind : Nat) (args : List Byte) : (s.logEvent p kind args).nextKey = s.nextKey := rfl
@[simp] theorem logEvent_hostOut (s : State) (p : Fin 64) (kind : Nat) (args : List Byte) : (s.logEvent p kind args).hostOut = s.hostOut := rfl
@[simp] theorem logEvent_package (s : State) (p : Fin 64) (kind : Nat) (args : List Byte) : (s.logEvent p kind args).package = s.package := rfl
@[simp] theorem logEvent_routes (s : State) (p : Fin 64) (kind : Nat) (args : List Byte) : (s.logEvent p kind args).routes = s.routes := rfl
@[simp] theorem logEvent_imports (s : State) (p : Fin 64) (kind : Nat) (args : List Byte) : (s.logEvent p kind args).imports = s.imports := rfl
@[simp] theorem logEvent_ports (s : State) (p : Fin 64) (kind : Nat) (args : List Byte) : (s.logEvent p kind args).ports = s.ports := rfl
@[simp] theorem logEvent_syn (s : State) (p : Fin 64) (kind : Nat) (args : List Byte) : (s.logEvent p kind args).syn = s.syn := rfl

/-! ## notice -/

@[simp] theorem notice_cur (s : State) (p : Fin 64) (code a b : Nat) : (s.notice p code a b).cur = s.cur := rfl
@[simp] theorem notice_agenda (s : State) (p : Fin 64) (code a b : Nat) : (s.notice p code a b).agenda = s.agenda := rfl
@[simp] theorem notice_tick (s : State) (p : Fin 64) (code a b : Nat) : (s.notice p code a b).tick = s.tick := rfl
@[simp] theorem notice_free (s : State) (p : Fin 64) (code a b : Nat) : (s.notice p code a b).free = s.free := rfl
@[simp] theorem notice_cores (s : State) (p : Fin 64) (code a b : Nat) : (s.notice p code a b).cores = s.cores := rfl
@[simp] theorem notice_mons (s : State) (p : Fin 64) (code a b : Nat) : (s.notice p code a b).mons = s.mons := rfl
@[simp] theorem notice_clusters (s : State) (p : Fin 64) (code a b : Nat) : (s.notice p code a b).clusters = s.clusters := rfl
@[simp] theorem notice_hbm (s : State) (p : Fin 64) (code a b : Nat) : (s.notice p code a b).hbm = s.hbm := rfl
@[simp] theorem notice_quarry (s : State) (p : Fin 64) (code a b : Nat) : (s.notice p code a b).quarry = s.quarry := rfl
@[simp] theorem notice_rsvs (s : State) (p : Fin 64) (code a b : Nat) : (s.notice p code a b).rsvs = s.rsvs := rfl
@[simp] theorem notice_pins (s : State) (p : Fin 64) (code a b : Nat) : (s.notice p code a b).pins = s.pins := rfl
@[simp] theorem notice_upkeep (s : State) (p : Fin 64) (code a b : Nat) : (s.notice p code a b).upkeep = s.upkeep := rfl
@[simp] theorem notice_mem (s : State) (p : Fin 64) (code a b : Nat) : (s.notice p code a b).mem = s.mem := rfl
@[simp] theorem notice_wback (s : State) (p : Fin 64) (code a b : Nat) : (s.notice p code a b).wback = s.wback := rfl
@[simp] theorem notice_nextObj (s : State) (p : Fin 64) (code a b : Nat) : (s.notice p code a b).nextObj = s.nextObj := rfl
@[simp] theorem notice_nextSid (s : State) (p : Fin 64) (code a b : Nat) : (s.notice p code a b).nextSid = s.nextSid := rfl
@[simp] theorem notice_graphs (s : State) (p : Fin 64) (code a b : Nat) : (s.notice p code a b).graphs = s.graphs := rfl
@[simp] theorem notice_nextGid (s : State) (p : Fin 64) (code a b : Nat) : (s.notice p code a b).nextGid = s.nextGid := rfl
@[simp] theorem notice_nextOrder (s : State) (p : Fin 64) (code a b : Nat) : (s.notice p code a b).nextOrder = s.nextOrder := rfl
@[simp] theorem notice_images (s : State) (p : Fin 64) (code a b : Nat) : (s.notice p code a b).images = s.images := rfl
@[simp] theorem notice_launches (s : State) (p : Fin 64) (code a b : Nat) : (s.notice p code a b).launches = s.launches := rfl
@[simp] theorem notice_lastLaunch (s : State) (p : Fin 64) (code a b : Nat) : (s.notice p code a b).lastLaunch = s.lastLaunch := rfl
@[simp] theorem notice_gangs (s : State) (p : Fin 64) (code a b : Nat) : (s.notice p code a b).gangs = s.gangs := rfl
@[simp] theorem notice_halted (s : State) (p : Fin 64) (code a b : Nat) : (s.notice p code a b).halted = s.halted := rfl
@[simp] theorem notice_preqs (s : State) (p : Fin 64) (code a b : Nat) : (s.notice p code a b).preqs = s.preqs := rfl
@[simp] theorem notice_placing (s : State) (p : Fin 64) (code a b : Nat) : (s.notice p code a b).placing = s.placing := rfl
@[simp] theorem notice_vtUs (s : State) (p : Fin 64) (code a b : Nat) : (s.notice p code a b).vtUs = s.vtUs := rfl
@[simp] theorem notice_parts (s : State) (p : Fin 64) (code a b : Nat) : (s.notice p code a b).parts = s.parts := rfl
@[simp] theorem notice_classes (s : State) (p : Fin 64) (code a b : Nat) : (s.notice p code a b).classes = s.classes := rfl
@[simp] theorem notice_chans (s : State) (p : Fin 64) (code a b : Nat) : (s.notice p code a b).chans = s.chans := rfl
@[simp] theorem notice_xlats (s : State) (p : Fin 64) (code a b : Nat) : (s.notice p code a b).xlats = s.xlats := rfl
@[simp] theorem notice_pfaults (s : State) (p : Fin 64) (code a b : Nat) : (s.notice p code a b).pfaults = s.pfaults := rfl
@[simp] theorem notice_nextFseq (s : State) (p : Fin 64) (code a b : Nat) : (s.notice p code a b).nextFseq = s.nextFseq := rfl
@[simp] theorem notice_arrivals (s : State) (p : Fin 64) (code a b : Nat) : (s.notice p code a b).arrivals = s.arrivals := rfl
@[simp] theorem notice_reductions (s : State) (p : Fin 64) (code a b : Nat) : (s.notice p code a b).reductions = s.reductions := rfl
@[simp] theorem notice_wires (s : State) (p : Fin 64) (code a b : Nat) : (s.notice p code a b).wires = s.wires := rfl
@[simp] theorem notice_power (s : State) (p : Fin 64) (code a b : Nat) : (s.notice p code a b).power = s.power := rfl
@[simp] theorem notice_diePower (s : State) (p : Fin 64) (code a b : Nat) : (s.notice p code a b).diePower = s.diePower := rfl
@[simp] theorem notice_bootstat (s : State) (p : Fin 64) (code a b : Nat) : (s.notice p code a b).bootstat = s.bootstat := rfl
@[simp] theorem notice_measd (s : State) (p : Fin 64) (code a b : Nat) : (s.notice p code a b).measd = s.measd := rfl
@[simp] theorem notice_keys (s : State) (p : Fin 64) (code a b : Nat) : (s.notice p code a b).keys = s.keys := rfl
@[simp] theorem notice_nextKey (s : State) (p : Fin 64) (code a b : Nat) : (s.notice p code a b).nextKey = s.nextKey := rfl
@[simp] theorem notice_hostOut (s : State) (p : Fin 64) (code a b : Nat) : (s.notice p code a b).hostOut = s.hostOut := rfl
@[simp] theorem notice_package (s : State) (p : Fin 64) (code a b : Nat) : (s.notice p code a b).package = s.package := rfl
@[simp] theorem notice_routes (s : State) (p : Fin 64) (code a b : Nat) : (s.notice p code a b).routes = s.routes := rfl
@[simp] theorem notice_imports (s : State) (p : Fin 64) (code a b : Nat) : (s.notice p code a b).imports = s.imports := rfl
@[simp] theorem notice_ports (s : State) (p : Fin 64) (code a b : Nat) : (s.notice p code a b).ports = s.ports := rfl
@[simp] theorem notice_syn (s : State) (p : Fin 64) (code a b : Nat) : (s.notice p code a b).syn = s.syn := rfl

/-! ## addTraffic -/

@[simp] theorem addTraffic_cur (s : State) (p : Fin 64) (n : Nat) : (s.addTraffic p n).cur = s.cur := rfl
@[simp] theorem addTraffic_agenda (s : State) (p : Fin 64) (n : Nat) : (s.addTraffic p n).agenda = s.agenda := rfl
@[simp] theorem addTraffic_tick (s : State) (p : Fin 64) (n : Nat) : (s.addTraffic p n).tick = s.tick := rfl
@[simp] theorem addTraffic_free (s : State) (p : Fin 64) (n : Nat) : (s.addTraffic p n).free = s.free := rfl
@[simp] theorem addTraffic_cores (s : State) (p : Fin 64) (n : Nat) : (s.addTraffic p n).cores = s.cores := rfl
@[simp] theorem addTraffic_mons (s : State) (p : Fin 64) (n : Nat) : (s.addTraffic p n).mons = s.mons := rfl
@[simp] theorem addTraffic_clusters (s : State) (p : Fin 64) (n : Nat) : (s.addTraffic p n).clusters = s.clusters := rfl
@[simp] theorem addTraffic_hbm (s : State) (p : Fin 64) (n : Nat) : (s.addTraffic p n).hbm = s.hbm := rfl
@[simp] theorem addTraffic_quarry (s : State) (p : Fin 64) (n : Nat) : (s.addTraffic p n).quarry = s.quarry := rfl
@[simp] theorem addTraffic_rsvs (s : State) (p : Fin 64) (n : Nat) : (s.addTraffic p n).rsvs = s.rsvs := rfl
@[simp] theorem addTraffic_pins (s : State) (p : Fin 64) (n : Nat) : (s.addTraffic p n).pins = s.pins := rfl
@[simp] theorem addTraffic_upkeep (s : State) (p : Fin 64) (n : Nat) : (s.addTraffic p n).upkeep = s.upkeep := rfl
@[simp] theorem addTraffic_mem (s : State) (p : Fin 64) (n : Nat) : (s.addTraffic p n).mem = s.mem := rfl
@[simp] theorem addTraffic_wback (s : State) (p : Fin 64) (n : Nat) : (s.addTraffic p n).wback = s.wback := rfl
@[simp] theorem addTraffic_nextObj (s : State) (p : Fin 64) (n : Nat) : (s.addTraffic p n).nextObj = s.nextObj := rfl
@[simp] theorem addTraffic_nextSid (s : State) (p : Fin 64) (n : Nat) : (s.addTraffic p n).nextSid = s.nextSid := rfl
@[simp] theorem addTraffic_graphs (s : State) (p : Fin 64) (n : Nat) : (s.addTraffic p n).graphs = s.graphs := rfl
@[simp] theorem addTraffic_nextGid (s : State) (p : Fin 64) (n : Nat) : (s.addTraffic p n).nextGid = s.nextGid := rfl
@[simp] theorem addTraffic_nextOrder (s : State) (p : Fin 64) (n : Nat) : (s.addTraffic p n).nextOrder = s.nextOrder := rfl
@[simp] theorem addTraffic_images (s : State) (p : Fin 64) (n : Nat) : (s.addTraffic p n).images = s.images := rfl
@[simp] theorem addTraffic_launches (s : State) (p : Fin 64) (n : Nat) : (s.addTraffic p n).launches = s.launches := rfl
@[simp] theorem addTraffic_lastLaunch (s : State) (p : Fin 64) (n : Nat) : (s.addTraffic p n).lastLaunch = s.lastLaunch := rfl
@[simp] theorem addTraffic_gangs (s : State) (p : Fin 64) (n : Nat) : (s.addTraffic p n).gangs = s.gangs := rfl
@[simp] theorem addTraffic_halted (s : State) (p : Fin 64) (n : Nat) : (s.addTraffic p n).halted = s.halted := rfl
@[simp] theorem addTraffic_preqs (s : State) (p : Fin 64) (n : Nat) : (s.addTraffic p n).preqs = s.preqs := rfl
@[simp] theorem addTraffic_placing (s : State) (p : Fin 64) (n : Nat) : (s.addTraffic p n).placing = s.placing := rfl
@[simp] theorem addTraffic_vtUs (s : State) (p : Fin 64) (n : Nat) : (s.addTraffic p n).vtUs = s.vtUs := rfl
@[simp] theorem addTraffic_parts (s : State) (p : Fin 64) (n : Nat) : (s.addTraffic p n).parts = s.parts.set p { s.parts[p] with traffic := s.parts[p].traffic + n } := rfl
@[simp] theorem addTraffic_classes (s : State) (p : Fin 64) (n : Nat) : (s.addTraffic p n).classes = s.classes := rfl
@[simp] theorem addTraffic_chans (s : State) (p : Fin 64) (n : Nat) : (s.addTraffic p n).chans = s.chans := rfl
@[simp] theorem addTraffic_xlats (s : State) (p : Fin 64) (n : Nat) : (s.addTraffic p n).xlats = s.xlats := rfl
@[simp] theorem addTraffic_pfaults (s : State) (p : Fin 64) (n : Nat) : (s.addTraffic p n).pfaults = s.pfaults := rfl
@[simp] theorem addTraffic_nextFseq (s : State) (p : Fin 64) (n : Nat) : (s.addTraffic p n).nextFseq = s.nextFseq := rfl
@[simp] theorem addTraffic_arrivals (s : State) (p : Fin 64) (n : Nat) : (s.addTraffic p n).arrivals = s.arrivals := rfl
@[simp] theorem addTraffic_reductions (s : State) (p : Fin 64) (n : Nat) : (s.addTraffic p n).reductions = s.reductions := rfl
@[simp] theorem addTraffic_wires (s : State) (p : Fin 64) (n : Nat) : (s.addTraffic p n).wires = s.wires := rfl
@[simp] theorem addTraffic_power (s : State) (p : Fin 64) (n : Nat) : (s.addTraffic p n).power = s.power := rfl
@[simp] theorem addTraffic_diePower (s : State) (p : Fin 64) (n : Nat) : (s.addTraffic p n).diePower = s.diePower := rfl
@[simp] theorem addTraffic_bootstat (s : State) (p : Fin 64) (n : Nat) : (s.addTraffic p n).bootstat = s.bootstat := rfl
@[simp] theorem addTraffic_measd (s : State) (p : Fin 64) (n : Nat) : (s.addTraffic p n).measd = s.measd := rfl
@[simp] theorem addTraffic_keys (s : State) (p : Fin 64) (n : Nat) : (s.addTraffic p n).keys = s.keys := rfl
@[simp] theorem addTraffic_nextKey (s : State) (p : Fin 64) (n : Nat) : (s.addTraffic p n).nextKey = s.nextKey := rfl
@[simp] theorem addTraffic_funcs (s : State) (p : Fin 64) (n : Nat) : (s.addTraffic p n).funcs = s.funcs := rfl
@[simp] theorem addTraffic_hostOut (s : State) (p : Fin 64) (n : Nat) : (s.addTraffic p n).hostOut = s.hostOut := rfl
@[simp] theorem addTraffic_package (s : State) (p : Fin 64) (n : Nat) : (s.addTraffic p n).package = s.package := rfl
@[simp] theorem addTraffic_routes (s : State) (p : Fin 64) (n : Nat) : (s.addTraffic p n).routes = s.routes := rfl
@[simp] theorem addTraffic_imports (s : State) (p : Fin 64) (n : Nat) : (s.addTraffic p n).imports = s.imports := rfl
@[simp] theorem addTraffic_ports (s : State) (p : Fin 64) (n : Nat) : (s.addTraffic p n).ports = s.ports := rfl
@[simp] theorem addTraffic_syn (s : State) (p : Fin 64) (n : Nat) : (s.addTraffic p n).syn = s.syn := rfl

/-! ## addBytes -/

@[simp] theorem addBytes_cur (s : State) (launch n : Nat) : (s.addBytes launch n).cur = s.cur := rfl
@[simp] theorem addBytes_agenda (s : State) (launch n : Nat) : (s.addBytes launch n).agenda = s.agenda := rfl
@[simp] theorem addBytes_tick (s : State) (launch n : Nat) : (s.addBytes launch n).tick = s.tick := rfl
@[simp] theorem addBytes_free (s : State) (launch n : Nat) : (s.addBytes launch n).free = s.free := rfl
@[simp] theorem addBytes_cores (s : State) (launch n : Nat) : (s.addBytes launch n).cores = s.cores := rfl
@[simp] theorem addBytes_mons (s : State) (launch n : Nat) : (s.addBytes launch n).mons = s.mons := rfl
@[simp] theorem addBytes_clusters (s : State) (launch n : Nat) : (s.addBytes launch n).clusters = s.clusters := rfl
@[simp] theorem addBytes_hbm (s : State) (launch n : Nat) : (s.addBytes launch n).hbm = s.hbm := rfl
@[simp] theorem addBytes_quarry (s : State) (launch n : Nat) : (s.addBytes launch n).quarry = s.quarry := rfl
@[simp] theorem addBytes_rsvs (s : State) (launch n : Nat) : (s.addBytes launch n).rsvs = s.rsvs := rfl
@[simp] theorem addBytes_pins (s : State) (launch n : Nat) : (s.addBytes launch n).pins = s.pins := rfl
@[simp] theorem addBytes_upkeep (s : State) (launch n : Nat) : (s.addBytes launch n).upkeep = s.upkeep := rfl
@[simp] theorem addBytes_mem (s : State) (launch n : Nat) : (s.addBytes launch n).mem = s.mem := rfl
@[simp] theorem addBytes_wback (s : State) (launch n : Nat) : (s.addBytes launch n).wback = s.wback := rfl
@[simp] theorem addBytes_nextObj (s : State) (launch n : Nat) : (s.addBytes launch n).nextObj = s.nextObj := rfl
@[simp] theorem addBytes_nextSid (s : State) (launch n : Nat) : (s.addBytes launch n).nextSid = s.nextSid := rfl
@[simp] theorem addBytes_graphs (s : State) (launch n : Nat) : (s.addBytes launch n).graphs = s.graphs := rfl
@[simp] theorem addBytes_nextGid (s : State) (launch n : Nat) : (s.addBytes launch n).nextGid = s.nextGid := rfl
@[simp] theorem addBytes_nextOrder (s : State) (launch n : Nat) : (s.addBytes launch n).nextOrder = s.nextOrder := rfl
@[simp] theorem addBytes_images (s : State) (launch n : Nat) : (s.addBytes launch n).images = s.images := rfl
@[simp] theorem addBytes_lastLaunch (s : State) (launch n : Nat) : (s.addBytes launch n).lastLaunch = s.lastLaunch := rfl
@[simp] theorem addBytes_gangs (s : State) (launch n : Nat) : (s.addBytes launch n).gangs = s.gangs := rfl
@[simp] theorem addBytes_halted (s : State) (launch n : Nat) : (s.addBytes launch n).halted = s.halted := rfl
@[simp] theorem addBytes_preqs (s : State) (launch n : Nat) : (s.addBytes launch n).preqs = s.preqs := rfl
@[simp] theorem addBytes_placing (s : State) (launch n : Nat) : (s.addBytes launch n).placing = s.placing := rfl
@[simp] theorem addBytes_vtUs (s : State) (launch n : Nat) : (s.addBytes launch n).vtUs = s.vtUs := rfl
@[simp] theorem addBytes_parts (s : State) (launch n : Nat) : (s.addBytes launch n).parts = s.parts := rfl
@[simp] theorem addBytes_classes (s : State) (launch n : Nat) : (s.addBytes launch n).classes = s.classes := rfl
@[simp] theorem addBytes_chans (s : State) (launch n : Nat) : (s.addBytes launch n).chans = s.chans := rfl
@[simp] theorem addBytes_xlats (s : State) (launch n : Nat) : (s.addBytes launch n).xlats = s.xlats := rfl
@[simp] theorem addBytes_pfaults (s : State) (launch n : Nat) : (s.addBytes launch n).pfaults = s.pfaults := rfl
@[simp] theorem addBytes_nextFseq (s : State) (launch n : Nat) : (s.addBytes launch n).nextFseq = s.nextFseq := rfl
@[simp] theorem addBytes_arrivals (s : State) (launch n : Nat) : (s.addBytes launch n).arrivals = s.arrivals := rfl
@[simp] theorem addBytes_reductions (s : State) (launch n : Nat) : (s.addBytes launch n).reductions = s.reductions := rfl
@[simp] theorem addBytes_wires (s : State) (launch n : Nat) : (s.addBytes launch n).wires = s.wires := rfl
@[simp] theorem addBytes_power (s : State) (launch n : Nat) : (s.addBytes launch n).power = s.power := rfl
@[simp] theorem addBytes_diePower (s : State) (launch n : Nat) : (s.addBytes launch n).diePower = s.diePower := rfl
@[simp] theorem addBytes_bootstat (s : State) (launch n : Nat) : (s.addBytes launch n).bootstat = s.bootstat := rfl
@[simp] theorem addBytes_measd (s : State) (launch n : Nat) : (s.addBytes launch n).measd = s.measd := rfl
@[simp] theorem addBytes_keys (s : State) (launch n : Nat) : (s.addBytes launch n).keys = s.keys := rfl
@[simp] theorem addBytes_nextKey (s : State) (launch n : Nat) : (s.addBytes launch n).nextKey = s.nextKey := rfl
@[simp] theorem addBytes_funcs (s : State) (launch n : Nat) : (s.addBytes launch n).funcs = s.funcs := rfl
@[simp] theorem addBytes_hostOut (s : State) (launch n : Nat) : (s.addBytes launch n).hostOut = s.hostOut := rfl
@[simp] theorem addBytes_package (s : State) (launch n : Nat) : (s.addBytes launch n).package = s.package := rfl
@[simp] theorem addBytes_routes (s : State) (launch n : Nat) : (s.addBytes launch n).routes = s.routes := rfl
@[simp] theorem addBytes_imports (s : State) (launch n : Nat) : (s.addBytes launch n).imports = s.imports := rfl
@[simp] theorem addBytes_ports (s : State) (launch n : Nat) : (s.addBytes launch n).ports = s.ports := rfl
@[simp] theorem addBytes_syn (s : State) (launch n : Nat) : (s.addBytes launch n).syn = s.syn := rfl

/-! ## setLaunch -/

@[simp] theorem setLaunch_cur (s : State) (l : Launch) : (s.setLaunch l).cur = s.cur := rfl
@[simp] theorem setLaunch_agenda (s : State) (l : Launch) : (s.setLaunch l).agenda = s.agenda := rfl
@[simp] theorem setLaunch_tick (s : State) (l : Launch) : (s.setLaunch l).tick = s.tick := rfl
@[simp] theorem setLaunch_free (s : State) (l : Launch) : (s.setLaunch l).free = s.free := rfl
@[simp] theorem setLaunch_cores (s : State) (l : Launch) : (s.setLaunch l).cores = s.cores := rfl
@[simp] theorem setLaunch_mons (s : State) (l : Launch) : (s.setLaunch l).mons = s.mons := rfl
@[simp] theorem setLaunch_clusters (s : State) (l : Launch) : (s.setLaunch l).clusters = s.clusters := rfl
@[simp] theorem setLaunch_hbm (s : State) (l : Launch) : (s.setLaunch l).hbm = s.hbm := rfl
@[simp] theorem setLaunch_quarry (s : State) (l : Launch) : (s.setLaunch l).quarry = s.quarry := rfl
@[simp] theorem setLaunch_rsvs (s : State) (l : Launch) : (s.setLaunch l).rsvs = s.rsvs := rfl
@[simp] theorem setLaunch_pins (s : State) (l : Launch) : (s.setLaunch l).pins = s.pins := rfl
@[simp] theorem setLaunch_upkeep (s : State) (l : Launch) : (s.setLaunch l).upkeep = s.upkeep := rfl
@[simp] theorem setLaunch_mem (s : State) (l : Launch) : (s.setLaunch l).mem = s.mem := rfl
@[simp] theorem setLaunch_wback (s : State) (l : Launch) : (s.setLaunch l).wback = s.wback := rfl
@[simp] theorem setLaunch_nextObj (s : State) (l : Launch) : (s.setLaunch l).nextObj = s.nextObj := rfl
@[simp] theorem setLaunch_nextSid (s : State) (l : Launch) : (s.setLaunch l).nextSid = s.nextSid := rfl
@[simp] theorem setLaunch_graphs (s : State) (l : Launch) : (s.setLaunch l).graphs = s.graphs := rfl
@[simp] theorem setLaunch_nextGid (s : State) (l : Launch) : (s.setLaunch l).nextGid = s.nextGid := rfl
@[simp] theorem setLaunch_nextOrder (s : State) (l : Launch) : (s.setLaunch l).nextOrder = s.nextOrder := rfl
@[simp] theorem setLaunch_images (s : State) (l : Launch) : (s.setLaunch l).images = s.images := rfl
@[simp] theorem setLaunch_lastLaunch (s : State) (l : Launch) : (s.setLaunch l).lastLaunch = s.lastLaunch := rfl
@[simp] theorem setLaunch_gangs (s : State) (l : Launch) : (s.setLaunch l).gangs = s.gangs := rfl
@[simp] theorem setLaunch_halted (s : State) (l : Launch) : (s.setLaunch l).halted = s.halted := rfl
@[simp] theorem setLaunch_preqs (s : State) (l : Launch) : (s.setLaunch l).preqs = s.preqs := rfl
@[simp] theorem setLaunch_placing (s : State) (l : Launch) : (s.setLaunch l).placing = s.placing := rfl
@[simp] theorem setLaunch_vtUs (s : State) (l : Launch) : (s.setLaunch l).vtUs = s.vtUs := rfl
@[simp] theorem setLaunch_parts (s : State) (l : Launch) : (s.setLaunch l).parts = s.parts := rfl
@[simp] theorem setLaunch_classes (s : State) (l : Launch) : (s.setLaunch l).classes = s.classes := rfl
@[simp] theorem setLaunch_chans (s : State) (l : Launch) : (s.setLaunch l).chans = s.chans := rfl
@[simp] theorem setLaunch_xlats (s : State) (l : Launch) : (s.setLaunch l).xlats = s.xlats := rfl
@[simp] theorem setLaunch_pfaults (s : State) (l : Launch) : (s.setLaunch l).pfaults = s.pfaults := rfl
@[simp] theorem setLaunch_nextFseq (s : State) (l : Launch) : (s.setLaunch l).nextFseq = s.nextFseq := rfl
@[simp] theorem setLaunch_arrivals (s : State) (l : Launch) : (s.setLaunch l).arrivals = s.arrivals := rfl
@[simp] theorem setLaunch_reductions (s : State) (l : Launch) : (s.setLaunch l).reductions = s.reductions := rfl
@[simp] theorem setLaunch_wires (s : State) (l : Launch) : (s.setLaunch l).wires = s.wires := rfl
@[simp] theorem setLaunch_power (s : State) (l : Launch) : (s.setLaunch l).power = s.power := rfl
@[simp] theorem setLaunch_diePower (s : State) (l : Launch) : (s.setLaunch l).diePower = s.diePower := rfl
@[simp] theorem setLaunch_bootstat (s : State) (l : Launch) : (s.setLaunch l).bootstat = s.bootstat := rfl
@[simp] theorem setLaunch_measd (s : State) (l : Launch) : (s.setLaunch l).measd = s.measd := rfl
@[simp] theorem setLaunch_keys (s : State) (l : Launch) : (s.setLaunch l).keys = s.keys := rfl
@[simp] theorem setLaunch_nextKey (s : State) (l : Launch) : (s.setLaunch l).nextKey = s.nextKey := rfl
@[simp] theorem setLaunch_funcs (s : State) (l : Launch) : (s.setLaunch l).funcs = s.funcs := rfl
@[simp] theorem setLaunch_hostOut (s : State) (l : Launch) : (s.setLaunch l).hostOut = s.hostOut := rfl
@[simp] theorem setLaunch_package (s : State) (l : Launch) : (s.setLaunch l).package = s.package := rfl
@[simp] theorem setLaunch_routes (s : State) (l : Launch) : (s.setLaunch l).routes = s.routes := rfl
@[simp] theorem setLaunch_imports (s : State) (l : Launch) : (s.setLaunch l).imports = s.imports := rfl
@[simp] theorem setLaunch_ports (s : State) (l : Launch) : (s.setLaunch l).ports = s.ports := rfl
@[simp] theorem setLaunch_syn (s : State) (l : Launch) : (s.setLaunch l).syn = s.syn := rfl

/-! ## setStack -/

@[simp] theorem setStack_cur (s : State) (k : Fin 16) (q : Stack) : (s.setStack k q).cur = s.cur := rfl
@[simp] theorem setStack_agenda (s : State) (k : Fin 16) (q : Stack) : (s.setStack k q).agenda = s.agenda := rfl
@[simp] theorem setStack_tick (s : State) (k : Fin 16) (q : Stack) : (s.setStack k q).tick = s.tick := rfl
@[simp] theorem setStack_free (s : State) (k : Fin 16) (q : Stack) : (s.setStack k q).free = s.free := rfl
@[simp] theorem setStack_cores (s : State) (k : Fin 16) (q : Stack) : (s.setStack k q).cores = s.cores := rfl
@[simp] theorem setStack_mons (s : State) (k : Fin 16) (q : Stack) : (s.setStack k q).mons = s.mons := rfl
@[simp] theorem setStack_clusters (s : State) (k : Fin 16) (q : Stack) : (s.setStack k q).clusters = s.clusters := rfl
@[simp] theorem setStack_hbm (s : State) (k : Fin 16) (q : Stack) : (s.setStack k q).hbm = s.hbm.set k q := rfl
@[simp] theorem setStack_quarry (s : State) (k : Fin 16) (q : Stack) : (s.setStack k q).quarry = s.quarry := rfl
@[simp] theorem setStack_rsvs (s : State) (k : Fin 16) (q : Stack) : (s.setStack k q).rsvs = s.rsvs := rfl
@[simp] theorem setStack_pins (s : State) (k : Fin 16) (q : Stack) : (s.setStack k q).pins = s.pins := rfl
@[simp] theorem setStack_upkeep (s : State) (k : Fin 16) (q : Stack) : (s.setStack k q).upkeep = s.upkeep := rfl
@[simp] theorem setStack_mem (s : State) (k : Fin 16) (q : Stack) : (s.setStack k q).mem = s.mem := rfl
@[simp] theorem setStack_wback (s : State) (k : Fin 16) (q : Stack) : (s.setStack k q).wback = s.wback := rfl
@[simp] theorem setStack_nextObj (s : State) (k : Fin 16) (q : Stack) : (s.setStack k q).nextObj = s.nextObj := rfl
@[simp] theorem setStack_nextSid (s : State) (k : Fin 16) (q : Stack) : (s.setStack k q).nextSid = s.nextSid := rfl
@[simp] theorem setStack_graphs (s : State) (k : Fin 16) (q : Stack) : (s.setStack k q).graphs = s.graphs := rfl
@[simp] theorem setStack_nextGid (s : State) (k : Fin 16) (q : Stack) : (s.setStack k q).nextGid = s.nextGid := rfl
@[simp] theorem setStack_nextOrder (s : State) (k : Fin 16) (q : Stack) : (s.setStack k q).nextOrder = s.nextOrder := rfl
@[simp] theorem setStack_images (s : State) (k : Fin 16) (q : Stack) : (s.setStack k q).images = s.images := rfl
@[simp] theorem setStack_launches (s : State) (k : Fin 16) (q : Stack) : (s.setStack k q).launches = s.launches := rfl
@[simp] theorem setStack_lastLaunch (s : State) (k : Fin 16) (q : Stack) : (s.setStack k q).lastLaunch = s.lastLaunch := rfl
@[simp] theorem setStack_gangs (s : State) (k : Fin 16) (q : Stack) : (s.setStack k q).gangs = s.gangs := rfl
@[simp] theorem setStack_halted (s : State) (k : Fin 16) (q : Stack) : (s.setStack k q).halted = s.halted := rfl
@[simp] theorem setStack_preqs (s : State) (k : Fin 16) (q : Stack) : (s.setStack k q).preqs = s.preqs := rfl
@[simp] theorem setStack_placing (s : State) (k : Fin 16) (q : Stack) : (s.setStack k q).placing = s.placing := rfl
@[simp] theorem setStack_vtUs (s : State) (k : Fin 16) (q : Stack) : (s.setStack k q).vtUs = s.vtUs := rfl
@[simp] theorem setStack_parts (s : State) (k : Fin 16) (q : Stack) : (s.setStack k q).parts = s.parts := rfl
@[simp] theorem setStack_classes (s : State) (k : Fin 16) (q : Stack) : (s.setStack k q).classes = s.classes := rfl
@[simp] theorem setStack_chans (s : State) (k : Fin 16) (q : Stack) : (s.setStack k q).chans = s.chans := rfl
@[simp] theorem setStack_xlats (s : State) (k : Fin 16) (q : Stack) : (s.setStack k q).xlats = s.xlats := rfl
@[simp] theorem setStack_pfaults (s : State) (k : Fin 16) (q : Stack) : (s.setStack k q).pfaults = s.pfaults := rfl
@[simp] theorem setStack_nextFseq (s : State) (k : Fin 16) (q : Stack) : (s.setStack k q).nextFseq = s.nextFseq := rfl
@[simp] theorem setStack_arrivals (s : State) (k : Fin 16) (q : Stack) : (s.setStack k q).arrivals = s.arrivals := rfl
@[simp] theorem setStack_reductions (s : State) (k : Fin 16) (q : Stack) : (s.setStack k q).reductions = s.reductions := rfl
@[simp] theorem setStack_wires (s : State) (k : Fin 16) (q : Stack) : (s.setStack k q).wires = s.wires := rfl
@[simp] theorem setStack_power (s : State) (k : Fin 16) (q : Stack) : (s.setStack k q).power = s.power := rfl
@[simp] theorem setStack_diePower (s : State) (k : Fin 16) (q : Stack) : (s.setStack k q).diePower = s.diePower := rfl
@[simp] theorem setStack_bootstat (s : State) (k : Fin 16) (q : Stack) : (s.setStack k q).bootstat = s.bootstat := rfl
@[simp] theorem setStack_measd (s : State) (k : Fin 16) (q : Stack) : (s.setStack k q).measd = s.measd := rfl
@[simp] theorem setStack_keys (s : State) (k : Fin 16) (q : Stack) : (s.setStack k q).keys = s.keys := rfl
@[simp] theorem setStack_nextKey (s : State) (k : Fin 16) (q : Stack) : (s.setStack k q).nextKey = s.nextKey := rfl
@[simp] theorem setStack_funcs (s : State) (k : Fin 16) (q : Stack) : (s.setStack k q).funcs = s.funcs := rfl
@[simp] theorem setStack_hostOut (s : State) (k : Fin 16) (q : Stack) : (s.setStack k q).hostOut = s.hostOut := rfl
@[simp] theorem setStack_package (s : State) (k : Fin 16) (q : Stack) : (s.setStack k q).package = s.package := rfl
@[simp] theorem setStack_routes (s : State) (k : Fin 16) (q : Stack) : (s.setStack k q).routes = s.routes := rfl
@[simp] theorem setStack_imports (s : State) (k : Fin 16) (q : Stack) : (s.setStack k q).imports = s.imports := rfl
@[simp] theorem setStack_ports (s : State) (k : Fin 16) (q : Stack) : (s.setStack k q).ports = s.ports := rfl
@[simp] theorem setStack_syn (s : State) (k : Fin 16) (q : Stack) : (s.setStack k q).syn = s.syn := rfl

/-! ## setUpkeep -/

@[simp] theorem setUpkeep_cur (s : State) (k : Fin 16) (u : Upkeep) : (s.setUpkeep k u).cur = s.cur := rfl
@[simp] theorem setUpkeep_agenda (s : State) (k : Fin 16) (u : Upkeep) : (s.setUpkeep k u).agenda = s.agenda := rfl
@[simp] theorem setUpkeep_tick (s : State) (k : Fin 16) (u : Upkeep) : (s.setUpkeep k u).tick = s.tick := rfl
@[simp] theorem setUpkeep_free (s : State) (k : Fin 16) (u : Upkeep) : (s.setUpkeep k u).free = s.free := rfl
@[simp] theorem setUpkeep_cores (s : State) (k : Fin 16) (u : Upkeep) : (s.setUpkeep k u).cores = s.cores := rfl
@[simp] theorem setUpkeep_mons (s : State) (k : Fin 16) (u : Upkeep) : (s.setUpkeep k u).mons = s.mons := rfl
@[simp] theorem setUpkeep_clusters (s : State) (k : Fin 16) (u : Upkeep) : (s.setUpkeep k u).clusters = s.clusters := rfl
@[simp] theorem setUpkeep_hbm (s : State) (k : Fin 16) (u : Upkeep) : (s.setUpkeep k u).hbm = s.hbm := rfl
@[simp] theorem setUpkeep_quarry (s : State) (k : Fin 16) (u : Upkeep) : (s.setUpkeep k u).quarry = s.quarry := rfl
@[simp] theorem setUpkeep_rsvs (s : State) (k : Fin 16) (u : Upkeep) : (s.setUpkeep k u).rsvs = s.rsvs := rfl
@[simp] theorem setUpkeep_pins (s : State) (k : Fin 16) (u : Upkeep) : (s.setUpkeep k u).pins = s.pins := rfl
@[simp] theorem setUpkeep_upkeep (s : State) (k : Fin 16) (u : Upkeep) : (s.setUpkeep k u).upkeep = s.upkeep.set k u := rfl
@[simp] theorem setUpkeep_mem (s : State) (k : Fin 16) (u : Upkeep) : (s.setUpkeep k u).mem = s.mem := rfl
@[simp] theorem setUpkeep_wback (s : State) (k : Fin 16) (u : Upkeep) : (s.setUpkeep k u).wback = s.wback := rfl
@[simp] theorem setUpkeep_nextObj (s : State) (k : Fin 16) (u : Upkeep) : (s.setUpkeep k u).nextObj = s.nextObj := rfl
@[simp] theorem setUpkeep_nextSid (s : State) (k : Fin 16) (u : Upkeep) : (s.setUpkeep k u).nextSid = s.nextSid := rfl
@[simp] theorem setUpkeep_graphs (s : State) (k : Fin 16) (u : Upkeep) : (s.setUpkeep k u).graphs = s.graphs := rfl
@[simp] theorem setUpkeep_nextGid (s : State) (k : Fin 16) (u : Upkeep) : (s.setUpkeep k u).nextGid = s.nextGid := rfl
@[simp] theorem setUpkeep_nextOrder (s : State) (k : Fin 16) (u : Upkeep) : (s.setUpkeep k u).nextOrder = s.nextOrder := rfl
@[simp] theorem setUpkeep_images (s : State) (k : Fin 16) (u : Upkeep) : (s.setUpkeep k u).images = s.images := rfl
@[simp] theorem setUpkeep_launches (s : State) (k : Fin 16) (u : Upkeep) : (s.setUpkeep k u).launches = s.launches := rfl
@[simp] theorem setUpkeep_lastLaunch (s : State) (k : Fin 16) (u : Upkeep) : (s.setUpkeep k u).lastLaunch = s.lastLaunch := rfl
@[simp] theorem setUpkeep_gangs (s : State) (k : Fin 16) (u : Upkeep) : (s.setUpkeep k u).gangs = s.gangs := rfl
@[simp] theorem setUpkeep_halted (s : State) (k : Fin 16) (u : Upkeep) : (s.setUpkeep k u).halted = s.halted := rfl
@[simp] theorem setUpkeep_preqs (s : State) (k : Fin 16) (u : Upkeep) : (s.setUpkeep k u).preqs = s.preqs := rfl
@[simp] theorem setUpkeep_placing (s : State) (k : Fin 16) (u : Upkeep) : (s.setUpkeep k u).placing = s.placing := rfl
@[simp] theorem setUpkeep_vtUs (s : State) (k : Fin 16) (u : Upkeep) : (s.setUpkeep k u).vtUs = s.vtUs := rfl
@[simp] theorem setUpkeep_parts (s : State) (k : Fin 16) (u : Upkeep) : (s.setUpkeep k u).parts = s.parts := rfl
@[simp] theorem setUpkeep_classes (s : State) (k : Fin 16) (u : Upkeep) : (s.setUpkeep k u).classes = s.classes := rfl
@[simp] theorem setUpkeep_chans (s : State) (k : Fin 16) (u : Upkeep) : (s.setUpkeep k u).chans = s.chans := rfl
@[simp] theorem setUpkeep_xlats (s : State) (k : Fin 16) (u : Upkeep) : (s.setUpkeep k u).xlats = s.xlats := rfl
@[simp] theorem setUpkeep_pfaults (s : State) (k : Fin 16) (u : Upkeep) : (s.setUpkeep k u).pfaults = s.pfaults := rfl
@[simp] theorem setUpkeep_nextFseq (s : State) (k : Fin 16) (u : Upkeep) : (s.setUpkeep k u).nextFseq = s.nextFseq := rfl
@[simp] theorem setUpkeep_arrivals (s : State) (k : Fin 16) (u : Upkeep) : (s.setUpkeep k u).arrivals = s.arrivals := rfl
@[simp] theorem setUpkeep_reductions (s : State) (k : Fin 16) (u : Upkeep) : (s.setUpkeep k u).reductions = s.reductions := rfl
@[simp] theorem setUpkeep_wires (s : State) (k : Fin 16) (u : Upkeep) : (s.setUpkeep k u).wires = s.wires := rfl
@[simp] theorem setUpkeep_power (s : State) (k : Fin 16) (u : Upkeep) : (s.setUpkeep k u).power = s.power := rfl
@[simp] theorem setUpkeep_diePower (s : State) (k : Fin 16) (u : Upkeep) : (s.setUpkeep k u).diePower = s.diePower := rfl
@[simp] theorem setUpkeep_bootstat (s : State) (k : Fin 16) (u : Upkeep) : (s.setUpkeep k u).bootstat = s.bootstat := rfl
@[simp] theorem setUpkeep_measd (s : State) (k : Fin 16) (u : Upkeep) : (s.setUpkeep k u).measd = s.measd := rfl
@[simp] theorem setUpkeep_keys (s : State) (k : Fin 16) (u : Upkeep) : (s.setUpkeep k u).keys = s.keys := rfl
@[simp] theorem setUpkeep_nextKey (s : State) (k : Fin 16) (u : Upkeep) : (s.setUpkeep k u).nextKey = s.nextKey := rfl
@[simp] theorem setUpkeep_funcs (s : State) (k : Fin 16) (u : Upkeep) : (s.setUpkeep k u).funcs = s.funcs := rfl
@[simp] theorem setUpkeep_hostOut (s : State) (k : Fin 16) (u : Upkeep) : (s.setUpkeep k u).hostOut = s.hostOut := rfl
@[simp] theorem setUpkeep_package (s : State) (k : Fin 16) (u : Upkeep) : (s.setUpkeep k u).package = s.package := rfl
@[simp] theorem setUpkeep_routes (s : State) (k : Fin 16) (u : Upkeep) : (s.setUpkeep k u).routes = s.routes := rfl
@[simp] theorem setUpkeep_imports (s : State) (k : Fin 16) (u : Upkeep) : (s.setUpkeep k u).imports = s.imports := rfl
@[simp] theorem setUpkeep_ports (s : State) (k : Fin 16) (u : Upkeep) : (s.setUpkeep k u).ports = s.ports := rfl
@[simp] theorem setUpkeep_syn (s : State) (k : Fin 16) (u : Upkeep) : (s.setUpkeep k u).syn = s.syn := rfl

/-! ## setSyn -/

@[simp] theorem setSyn_cur (s : State) (d : Fin 11) (y : Syndrome) : (s.setSyn d y).cur = s.cur := rfl
@[simp] theorem setSyn_agenda (s : State) (d : Fin 11) (y : Syndrome) : (s.setSyn d y).agenda = s.agenda := rfl
@[simp] theorem setSyn_tick (s : State) (d : Fin 11) (y : Syndrome) : (s.setSyn d y).tick = s.tick := rfl
@[simp] theorem setSyn_free (s : State) (d : Fin 11) (y : Syndrome) : (s.setSyn d y).free = s.free := rfl
@[simp] theorem setSyn_cores (s : State) (d : Fin 11) (y : Syndrome) : (s.setSyn d y).cores = s.cores := rfl
@[simp] theorem setSyn_mons (s : State) (d : Fin 11) (y : Syndrome) : (s.setSyn d y).mons = s.mons := rfl
@[simp] theorem setSyn_clusters (s : State) (d : Fin 11) (y : Syndrome) : (s.setSyn d y).clusters = s.clusters := rfl
@[simp] theorem setSyn_hbm (s : State) (d : Fin 11) (y : Syndrome) : (s.setSyn d y).hbm = s.hbm := rfl
@[simp] theorem setSyn_quarry (s : State) (d : Fin 11) (y : Syndrome) : (s.setSyn d y).quarry = s.quarry := rfl
@[simp] theorem setSyn_rsvs (s : State) (d : Fin 11) (y : Syndrome) : (s.setSyn d y).rsvs = s.rsvs := rfl
@[simp] theorem setSyn_pins (s : State) (d : Fin 11) (y : Syndrome) : (s.setSyn d y).pins = s.pins := rfl
@[simp] theorem setSyn_upkeep (s : State) (d : Fin 11) (y : Syndrome) : (s.setSyn d y).upkeep = s.upkeep := rfl
@[simp] theorem setSyn_mem (s : State) (d : Fin 11) (y : Syndrome) : (s.setSyn d y).mem = s.mem := rfl
@[simp] theorem setSyn_wback (s : State) (d : Fin 11) (y : Syndrome) : (s.setSyn d y).wback = s.wback := rfl
@[simp] theorem setSyn_nextObj (s : State) (d : Fin 11) (y : Syndrome) : (s.setSyn d y).nextObj = s.nextObj := rfl
@[simp] theorem setSyn_nextSid (s : State) (d : Fin 11) (y : Syndrome) : (s.setSyn d y).nextSid = s.nextSid := rfl
@[simp] theorem setSyn_graphs (s : State) (d : Fin 11) (y : Syndrome) : (s.setSyn d y).graphs = s.graphs := rfl
@[simp] theorem setSyn_nextGid (s : State) (d : Fin 11) (y : Syndrome) : (s.setSyn d y).nextGid = s.nextGid := rfl
@[simp] theorem setSyn_nextOrder (s : State) (d : Fin 11) (y : Syndrome) : (s.setSyn d y).nextOrder = s.nextOrder := rfl
@[simp] theorem setSyn_images (s : State) (d : Fin 11) (y : Syndrome) : (s.setSyn d y).images = s.images := rfl
@[simp] theorem setSyn_launches (s : State) (d : Fin 11) (y : Syndrome) : (s.setSyn d y).launches = s.launches := rfl
@[simp] theorem setSyn_lastLaunch (s : State) (d : Fin 11) (y : Syndrome) : (s.setSyn d y).lastLaunch = s.lastLaunch := rfl
@[simp] theorem setSyn_gangs (s : State) (d : Fin 11) (y : Syndrome) : (s.setSyn d y).gangs = s.gangs := rfl
@[simp] theorem setSyn_halted (s : State) (d : Fin 11) (y : Syndrome) : (s.setSyn d y).halted = s.halted := rfl
@[simp] theorem setSyn_preqs (s : State) (d : Fin 11) (y : Syndrome) : (s.setSyn d y).preqs = s.preqs := rfl
@[simp] theorem setSyn_placing (s : State) (d : Fin 11) (y : Syndrome) : (s.setSyn d y).placing = s.placing := rfl
@[simp] theorem setSyn_vtUs (s : State) (d : Fin 11) (y : Syndrome) : (s.setSyn d y).vtUs = s.vtUs := rfl
@[simp] theorem setSyn_parts (s : State) (d : Fin 11) (y : Syndrome) : (s.setSyn d y).parts = s.parts := rfl
@[simp] theorem setSyn_classes (s : State) (d : Fin 11) (y : Syndrome) : (s.setSyn d y).classes = s.classes := rfl
@[simp] theorem setSyn_chans (s : State) (d : Fin 11) (y : Syndrome) : (s.setSyn d y).chans = s.chans := rfl
@[simp] theorem setSyn_xlats (s : State) (d : Fin 11) (y : Syndrome) : (s.setSyn d y).xlats = s.xlats := rfl
@[simp] theorem setSyn_pfaults (s : State) (d : Fin 11) (y : Syndrome) : (s.setSyn d y).pfaults = s.pfaults := rfl
@[simp] theorem setSyn_nextFseq (s : State) (d : Fin 11) (y : Syndrome) : (s.setSyn d y).nextFseq = s.nextFseq := rfl
@[simp] theorem setSyn_arrivals (s : State) (d : Fin 11) (y : Syndrome) : (s.setSyn d y).arrivals = s.arrivals := rfl
@[simp] theorem setSyn_reductions (s : State) (d : Fin 11) (y : Syndrome) : (s.setSyn d y).reductions = s.reductions := rfl
@[simp] theorem setSyn_wires (s : State) (d : Fin 11) (y : Syndrome) : (s.setSyn d y).wires = s.wires := rfl
@[simp] theorem setSyn_power (s : State) (d : Fin 11) (y : Syndrome) : (s.setSyn d y).power = s.power := rfl
@[simp] theorem setSyn_diePower (s : State) (d : Fin 11) (y : Syndrome) : (s.setSyn d y).diePower = s.diePower := rfl
@[simp] theorem setSyn_bootstat (s : State) (d : Fin 11) (y : Syndrome) : (s.setSyn d y).bootstat = s.bootstat := rfl
@[simp] theorem setSyn_measd (s : State) (d : Fin 11) (y : Syndrome) : (s.setSyn d y).measd = s.measd := rfl
@[simp] theorem setSyn_keys (s : State) (d : Fin 11) (y : Syndrome) : (s.setSyn d y).keys = s.keys := rfl
@[simp] theorem setSyn_nextKey (s : State) (d : Fin 11) (y : Syndrome) : (s.setSyn d y).nextKey = s.nextKey := rfl
@[simp] theorem setSyn_funcs (s : State) (d : Fin 11) (y : Syndrome) : (s.setSyn d y).funcs = s.funcs := rfl
@[simp] theorem setSyn_hostOut (s : State) (d : Fin 11) (y : Syndrome) : (s.setSyn d y).hostOut = s.hostOut := rfl
@[simp] theorem setSyn_package (s : State) (d : Fin 11) (y : Syndrome) : (s.setSyn d y).package = s.package := rfl
@[simp] theorem setSyn_routes (s : State) (d : Fin 11) (y : Syndrome) : (s.setSyn d y).routes = s.routes := rfl
@[simp] theorem setSyn_imports (s : State) (d : Fin 11) (y : Syndrome) : (s.setSyn d y).imports = s.imports := rfl
@[simp] theorem setSyn_ports (s : State) (d : Fin 11) (y : Syndrome) : (s.setSyn d y).ports = s.ports := rfl
@[simp] theorem setSyn_syn (s : State) (d : Fin 11) (y : Syndrome) : (s.setSyn d y).syn = s.syn.set d y := rfl

/-! ## setChan -/

@[simp] theorem setChan_cur (s : State) (c : Fin 192) (k : Chan) : (s.setChan c k).cur = s.cur := rfl
@[simp] theorem setChan_agenda (s : State) (c : Fin 192) (k : Chan) : (s.setChan c k).agenda = s.agenda := rfl
@[simp] theorem setChan_tick (s : State) (c : Fin 192) (k : Chan) : (s.setChan c k).tick = s.tick := rfl
@[simp] theorem setChan_free (s : State) (c : Fin 192) (k : Chan) : (s.setChan c k).free = s.free := rfl
@[simp] theorem setChan_cores (s : State) (c : Fin 192) (k : Chan) : (s.setChan c k).cores = s.cores := rfl
@[simp] theorem setChan_mons (s : State) (c : Fin 192) (k : Chan) : (s.setChan c k).mons = s.mons := rfl
@[simp] theorem setChan_clusters (s : State) (c : Fin 192) (k : Chan) : (s.setChan c k).clusters = s.clusters := rfl
@[simp] theorem setChan_hbm (s : State) (c : Fin 192) (k : Chan) : (s.setChan c k).hbm = s.hbm := rfl
@[simp] theorem setChan_quarry (s : State) (c : Fin 192) (k : Chan) : (s.setChan c k).quarry = s.quarry := rfl
@[simp] theorem setChan_rsvs (s : State) (c : Fin 192) (k : Chan) : (s.setChan c k).rsvs = s.rsvs := rfl
@[simp] theorem setChan_pins (s : State) (c : Fin 192) (k : Chan) : (s.setChan c k).pins = s.pins := rfl
@[simp] theorem setChan_upkeep (s : State) (c : Fin 192) (k : Chan) : (s.setChan c k).upkeep = s.upkeep := rfl
@[simp] theorem setChan_mem (s : State) (c : Fin 192) (k : Chan) : (s.setChan c k).mem = s.mem := rfl
@[simp] theorem setChan_wback (s : State) (c : Fin 192) (k : Chan) : (s.setChan c k).wback = s.wback := rfl
@[simp] theorem setChan_nextObj (s : State) (c : Fin 192) (k : Chan) : (s.setChan c k).nextObj = s.nextObj := rfl
@[simp] theorem setChan_nextSid (s : State) (c : Fin 192) (k : Chan) : (s.setChan c k).nextSid = s.nextSid := rfl
@[simp] theorem setChan_graphs (s : State) (c : Fin 192) (k : Chan) : (s.setChan c k).graphs = s.graphs := rfl
@[simp] theorem setChan_nextGid (s : State) (c : Fin 192) (k : Chan) : (s.setChan c k).nextGid = s.nextGid := rfl
@[simp] theorem setChan_nextOrder (s : State) (c : Fin 192) (k : Chan) : (s.setChan c k).nextOrder = s.nextOrder := rfl
@[simp] theorem setChan_images (s : State) (c : Fin 192) (k : Chan) : (s.setChan c k).images = s.images := rfl
@[simp] theorem setChan_launches (s : State) (c : Fin 192) (k : Chan) : (s.setChan c k).launches = s.launches := rfl
@[simp] theorem setChan_lastLaunch (s : State) (c : Fin 192) (k : Chan) : (s.setChan c k).lastLaunch = s.lastLaunch := rfl
@[simp] theorem setChan_gangs (s : State) (c : Fin 192) (k : Chan) : (s.setChan c k).gangs = s.gangs := rfl
@[simp] theorem setChan_halted (s : State) (c : Fin 192) (k : Chan) : (s.setChan c k).halted = s.halted := rfl
@[simp] theorem setChan_preqs (s : State) (c : Fin 192) (k : Chan) : (s.setChan c k).preqs = s.preqs := rfl
@[simp] theorem setChan_placing (s : State) (c : Fin 192) (k : Chan) : (s.setChan c k).placing = s.placing := rfl
@[simp] theorem setChan_vtUs (s : State) (c : Fin 192) (k : Chan) : (s.setChan c k).vtUs = s.vtUs := rfl
@[simp] theorem setChan_parts (s : State) (c : Fin 192) (k : Chan) : (s.setChan c k).parts = s.parts := rfl
@[simp] theorem setChan_classes (s : State) (c : Fin 192) (k : Chan) : (s.setChan c k).classes = s.classes := rfl
@[simp] theorem setChan_chans (s : State) (c : Fin 192) (k : Chan) : (s.setChan c k).chans = s.chans.set c k := rfl
@[simp] theorem setChan_xlats (s : State) (c : Fin 192) (k : Chan) : (s.setChan c k).xlats = s.xlats := rfl
@[simp] theorem setChan_pfaults (s : State) (c : Fin 192) (k : Chan) : (s.setChan c k).pfaults = s.pfaults := rfl
@[simp] theorem setChan_nextFseq (s : State) (c : Fin 192) (k : Chan) : (s.setChan c k).nextFseq = s.nextFseq := rfl
@[simp] theorem setChan_arrivals (s : State) (c : Fin 192) (k : Chan) : (s.setChan c k).arrivals = s.arrivals := rfl
@[simp] theorem setChan_reductions (s : State) (c : Fin 192) (k : Chan) : (s.setChan c k).reductions = s.reductions := rfl
@[simp] theorem setChan_wires (s : State) (c : Fin 192) (k : Chan) : (s.setChan c k).wires = s.wires := rfl
@[simp] theorem setChan_power (s : State) (c : Fin 192) (k : Chan) : (s.setChan c k).power = s.power := rfl
@[simp] theorem setChan_diePower (s : State) (c : Fin 192) (k : Chan) : (s.setChan c k).diePower = s.diePower := rfl
@[simp] theorem setChan_bootstat (s : State) (c : Fin 192) (k : Chan) : (s.setChan c k).bootstat = s.bootstat := rfl
@[simp] theorem setChan_measd (s : State) (c : Fin 192) (k : Chan) : (s.setChan c k).measd = s.measd := rfl
@[simp] theorem setChan_keys (s : State) (c : Fin 192) (k : Chan) : (s.setChan c k).keys = s.keys := rfl
@[simp] theorem setChan_nextKey (s : State) (c : Fin 192) (k : Chan) : (s.setChan c k).nextKey = s.nextKey := rfl
@[simp] theorem setChan_funcs (s : State) (c : Fin 192) (k : Chan) : (s.setChan c k).funcs = s.funcs := rfl
@[simp] theorem setChan_hostOut (s : State) (c : Fin 192) (k : Chan) : (s.setChan c k).hostOut = s.hostOut := rfl
@[simp] theorem setChan_package (s : State) (c : Fin 192) (k : Chan) : (s.setChan c k).package = s.package := rfl
@[simp] theorem setChan_routes (s : State) (c : Fin 192) (k : Chan) : (s.setChan c k).routes = s.routes := rfl
@[simp] theorem setChan_imports (s : State) (c : Fin 192) (k : Chan) : (s.setChan c k).imports = s.imports := rfl
@[simp] theorem setChan_ports (s : State) (c : Fin 192) (k : Chan) : (s.setChan c k).ports = s.ports := rfl
@[simp] theorem setChan_syn (s : State) (c : Fin 192) (k : Chan) : (s.setChan c k).syn = s.syn := rfl

/-! ## setPort -/

@[simp] theorem setPort_cur (s : State) (k : Fin 48) (t : Port) : (s.setPort k t).cur = s.cur := rfl
@[simp] theorem setPort_agenda (s : State) (k : Fin 48) (t : Port) : (s.setPort k t).agenda = s.agenda := rfl
@[simp] theorem setPort_tick (s : State) (k : Fin 48) (t : Port) : (s.setPort k t).tick = s.tick := rfl
@[simp] theorem setPort_free (s : State) (k : Fin 48) (t : Port) : (s.setPort k t).free = s.free := rfl
@[simp] theorem setPort_cores (s : State) (k : Fin 48) (t : Port) : (s.setPort k t).cores = s.cores := rfl
@[simp] theorem setPort_mons (s : State) (k : Fin 48) (t : Port) : (s.setPort k t).mons = s.mons := rfl
@[simp] theorem setPort_clusters (s : State) (k : Fin 48) (t : Port) : (s.setPort k t).clusters = s.clusters := rfl
@[simp] theorem setPort_hbm (s : State) (k : Fin 48) (t : Port) : (s.setPort k t).hbm = s.hbm := rfl
@[simp] theorem setPort_quarry (s : State) (k : Fin 48) (t : Port) : (s.setPort k t).quarry = s.quarry := rfl
@[simp] theorem setPort_rsvs (s : State) (k : Fin 48) (t : Port) : (s.setPort k t).rsvs = s.rsvs := rfl
@[simp] theorem setPort_pins (s : State) (k : Fin 48) (t : Port) : (s.setPort k t).pins = s.pins := rfl
@[simp] theorem setPort_upkeep (s : State) (k : Fin 48) (t : Port) : (s.setPort k t).upkeep = s.upkeep := rfl
@[simp] theorem setPort_mem (s : State) (k : Fin 48) (t : Port) : (s.setPort k t).mem = s.mem := rfl
@[simp] theorem setPort_wback (s : State) (k : Fin 48) (t : Port) : (s.setPort k t).wback = s.wback := rfl
@[simp] theorem setPort_nextObj (s : State) (k : Fin 48) (t : Port) : (s.setPort k t).nextObj = s.nextObj := rfl
@[simp] theorem setPort_nextSid (s : State) (k : Fin 48) (t : Port) : (s.setPort k t).nextSid = s.nextSid := rfl
@[simp] theorem setPort_graphs (s : State) (k : Fin 48) (t : Port) : (s.setPort k t).graphs = s.graphs := rfl
@[simp] theorem setPort_nextGid (s : State) (k : Fin 48) (t : Port) : (s.setPort k t).nextGid = s.nextGid := rfl
@[simp] theorem setPort_nextOrder (s : State) (k : Fin 48) (t : Port) : (s.setPort k t).nextOrder = s.nextOrder := rfl
@[simp] theorem setPort_images (s : State) (k : Fin 48) (t : Port) : (s.setPort k t).images = s.images := rfl
@[simp] theorem setPort_launches (s : State) (k : Fin 48) (t : Port) : (s.setPort k t).launches = s.launches := rfl
@[simp] theorem setPort_lastLaunch (s : State) (k : Fin 48) (t : Port) : (s.setPort k t).lastLaunch = s.lastLaunch := rfl
@[simp] theorem setPort_gangs (s : State) (k : Fin 48) (t : Port) : (s.setPort k t).gangs = s.gangs := rfl
@[simp] theorem setPort_halted (s : State) (k : Fin 48) (t : Port) : (s.setPort k t).halted = s.halted := rfl
@[simp] theorem setPort_preqs (s : State) (k : Fin 48) (t : Port) : (s.setPort k t).preqs = s.preqs := rfl
@[simp] theorem setPort_placing (s : State) (k : Fin 48) (t : Port) : (s.setPort k t).placing = s.placing := rfl
@[simp] theorem setPort_vtUs (s : State) (k : Fin 48) (t : Port) : (s.setPort k t).vtUs = s.vtUs := rfl
@[simp] theorem setPort_parts (s : State) (k : Fin 48) (t : Port) : (s.setPort k t).parts = s.parts := rfl
@[simp] theorem setPort_classes (s : State) (k : Fin 48) (t : Port) : (s.setPort k t).classes = s.classes := rfl
@[simp] theorem setPort_chans (s : State) (k : Fin 48) (t : Port) : (s.setPort k t).chans = s.chans := rfl
@[simp] theorem setPort_xlats (s : State) (k : Fin 48) (t : Port) : (s.setPort k t).xlats = s.xlats := rfl
@[simp] theorem setPort_pfaults (s : State) (k : Fin 48) (t : Port) : (s.setPort k t).pfaults = s.pfaults := rfl
@[simp] theorem setPort_nextFseq (s : State) (k : Fin 48) (t : Port) : (s.setPort k t).nextFseq = s.nextFseq := rfl
@[simp] theorem setPort_arrivals (s : State) (k : Fin 48) (t : Port) : (s.setPort k t).arrivals = s.arrivals := rfl
@[simp] theorem setPort_reductions (s : State) (k : Fin 48) (t : Port) : (s.setPort k t).reductions = s.reductions := rfl
@[simp] theorem setPort_wires (s : State) (k : Fin 48) (t : Port) : (s.setPort k t).wires = s.wires := rfl
@[simp] theorem setPort_power (s : State) (k : Fin 48) (t : Port) : (s.setPort k t).power = s.power := rfl
@[simp] theorem setPort_diePower (s : State) (k : Fin 48) (t : Port) : (s.setPort k t).diePower = s.diePower := rfl
@[simp] theorem setPort_bootstat (s : State) (k : Fin 48) (t : Port) : (s.setPort k t).bootstat = s.bootstat := rfl
@[simp] theorem setPort_measd (s : State) (k : Fin 48) (t : Port) : (s.setPort k t).measd = s.measd := rfl
@[simp] theorem setPort_keys (s : State) (k : Fin 48) (t : Port) : (s.setPort k t).keys = s.keys := rfl
@[simp] theorem setPort_nextKey (s : State) (k : Fin 48) (t : Port) : (s.setPort k t).nextKey = s.nextKey := rfl
@[simp] theorem setPort_funcs (s : State) (k : Fin 48) (t : Port) : (s.setPort k t).funcs = s.funcs := rfl
@[simp] theorem setPort_hostOut (s : State) (k : Fin 48) (t : Port) : (s.setPort k t).hostOut = s.hostOut := rfl
@[simp] theorem setPort_package (s : State) (k : Fin 48) (t : Port) : (s.setPort k t).package = s.package := rfl
@[simp] theorem setPort_routes (s : State) (k : Fin 48) (t : Port) : (s.setPort k t).routes = s.routes := rfl
@[simp] theorem setPort_imports (s : State) (k : Fin 48) (t : Port) : (s.setPort k t).imports = s.imports := rfl
@[simp] theorem setPort_ports (s : State) (k : Fin 48) (t : Port) : (s.setPort k t).ports = s.ports.set k t := rfl
@[simp] theorem setPort_syn (s : State) (k : Fin 48) (t : Port) : (s.setPort k t).syn = s.syn := rfl

/-! ## answer -/

@[simp] theorem answer_cur (s : State) (m : HostMsg) : (s.answer m).cur = s.cur := rfl
@[simp] theorem answer_agenda (s : State) (m : HostMsg) : (s.answer m).agenda = s.agenda := rfl
@[simp] theorem answer_tick (s : State) (m : HostMsg) : (s.answer m).tick = s.tick := rfl
@[simp] theorem answer_free (s : State) (m : HostMsg) : (s.answer m).free = s.free := rfl
@[simp] theorem answer_cores (s : State) (m : HostMsg) : (s.answer m).cores = s.cores := rfl
@[simp] theorem answer_mons (s : State) (m : HostMsg) : (s.answer m).mons = s.mons := rfl
@[simp] theorem answer_clusters (s : State) (m : HostMsg) : (s.answer m).clusters = s.clusters := rfl
@[simp] theorem answer_hbm (s : State) (m : HostMsg) : (s.answer m).hbm = s.hbm := rfl
@[simp] theorem answer_quarry (s : State) (m : HostMsg) : (s.answer m).quarry = s.quarry := rfl
@[simp] theorem answer_rsvs (s : State) (m : HostMsg) : (s.answer m).rsvs = s.rsvs := rfl
@[simp] theorem answer_pins (s : State) (m : HostMsg) : (s.answer m).pins = s.pins := rfl
@[simp] theorem answer_upkeep (s : State) (m : HostMsg) : (s.answer m).upkeep = s.upkeep := rfl
@[simp] theorem answer_mem (s : State) (m : HostMsg) : (s.answer m).mem = s.mem := rfl
@[simp] theorem answer_wback (s : State) (m : HostMsg) : (s.answer m).wback = s.wback := rfl
@[simp] theorem answer_nextObj (s : State) (m : HostMsg) : (s.answer m).nextObj = s.nextObj := rfl
@[simp] theorem answer_nextSid (s : State) (m : HostMsg) : (s.answer m).nextSid = s.nextSid := rfl
@[simp] theorem answer_graphs (s : State) (m : HostMsg) : (s.answer m).graphs = s.graphs := rfl
@[simp] theorem answer_nextGid (s : State) (m : HostMsg) : (s.answer m).nextGid = s.nextGid := rfl
@[simp] theorem answer_nextOrder (s : State) (m : HostMsg) : (s.answer m).nextOrder = s.nextOrder := rfl
@[simp] theorem answer_images (s : State) (m : HostMsg) : (s.answer m).images = s.images := rfl
@[simp] theorem answer_launches (s : State) (m : HostMsg) : (s.answer m).launches = s.launches := rfl
@[simp] theorem answer_lastLaunch (s : State) (m : HostMsg) : (s.answer m).lastLaunch = s.lastLaunch := rfl
@[simp] theorem answer_gangs (s : State) (m : HostMsg) : (s.answer m).gangs = s.gangs := rfl
@[simp] theorem answer_halted (s : State) (m : HostMsg) : (s.answer m).halted = s.halted := rfl
@[simp] theorem answer_preqs (s : State) (m : HostMsg) : (s.answer m).preqs = s.preqs := rfl
@[simp] theorem answer_placing (s : State) (m : HostMsg) : (s.answer m).placing = s.placing := rfl
@[simp] theorem answer_vtUs (s : State) (m : HostMsg) : (s.answer m).vtUs = s.vtUs := rfl
@[simp] theorem answer_parts (s : State) (m : HostMsg) : (s.answer m).parts = s.parts := rfl
@[simp] theorem answer_classes (s : State) (m : HostMsg) : (s.answer m).classes = s.classes := rfl
@[simp] theorem answer_chans (s : State) (m : HostMsg) : (s.answer m).chans = s.chans := rfl
@[simp] theorem answer_xlats (s : State) (m : HostMsg) : (s.answer m).xlats = s.xlats := rfl
@[simp] theorem answer_pfaults (s : State) (m : HostMsg) : (s.answer m).pfaults = s.pfaults := rfl
@[simp] theorem answer_nextFseq (s : State) (m : HostMsg) : (s.answer m).nextFseq = s.nextFseq := rfl
@[simp] theorem answer_arrivals (s : State) (m : HostMsg) : (s.answer m).arrivals = s.arrivals := rfl
@[simp] theorem answer_reductions (s : State) (m : HostMsg) : (s.answer m).reductions = s.reductions := rfl
@[simp] theorem answer_wires (s : State) (m : HostMsg) : (s.answer m).wires = s.wires := rfl
@[simp] theorem answer_power (s : State) (m : HostMsg) : (s.answer m).power = s.power := rfl
@[simp] theorem answer_diePower (s : State) (m : HostMsg) : (s.answer m).diePower = s.diePower := rfl
@[simp] theorem answer_bootstat (s : State) (m : HostMsg) : (s.answer m).bootstat = s.bootstat := rfl
@[simp] theorem answer_measd (s : State) (m : HostMsg) : (s.answer m).measd = s.measd := rfl
@[simp] theorem answer_keys (s : State) (m : HostMsg) : (s.answer m).keys = s.keys := rfl
@[simp] theorem answer_nextKey (s : State) (m : HostMsg) : (s.answer m).nextKey = s.nextKey := rfl
@[simp] theorem answer_funcs (s : State) (m : HostMsg) : (s.answer m).funcs = s.funcs := rfl
@[simp] theorem answer_hostOut (s : State) (m : HostMsg) : (s.answer m).hostOut = s.hostOut ++ [m] := rfl
@[simp] theorem answer_package (s : State) (m : HostMsg) : (s.answer m).package = s.package := rfl
@[simp] theorem answer_routes (s : State) (m : HostMsg) : (s.answer m).routes = s.routes := rfl
@[simp] theorem answer_imports (s : State) (m : HostMsg) : (s.answer m).imports = s.imports := rfl
@[simp] theorem answer_ports (s : State) (m : HostMsg) : (s.answer m).ports = s.ports := rfl
@[simp] theorem answer_syn (s : State) (m : HostMsg) : (s.answer m).syn = s.syn := rfl

/-! ## setGang -/

@[simp] theorem setGang_cur (s : State) (g : Gang) : (s.setGang g).cur = s.cur := rfl
@[simp] theorem setGang_agenda (s : State) (g : Gang) : (s.setGang g).agenda = s.agenda := rfl
@[simp] theorem setGang_tick (s : State) (g : Gang) : (s.setGang g).tick = s.tick := rfl
@[simp] theorem setGang_free (s : State) (g : Gang) : (s.setGang g).free = s.free := rfl
@[simp] theorem setGang_cores (s : State) (g : Gang) : (s.setGang g).cores = s.cores := rfl
@[simp] theorem setGang_mons (s : State) (g : Gang) : (s.setGang g).mons = s.mons := rfl
@[simp] theorem setGang_clusters (s : State) (g : Gang) : (s.setGang g).clusters = s.clusters := rfl
@[simp] theorem setGang_hbm (s : State) (g : Gang) : (s.setGang g).hbm = s.hbm := rfl
@[simp] theorem setGang_quarry (s : State) (g : Gang) : (s.setGang g).quarry = s.quarry := rfl
@[simp] theorem setGang_rsvs (s : State) (g : Gang) : (s.setGang g).rsvs = s.rsvs := rfl
@[simp] theorem setGang_pins (s : State) (g : Gang) : (s.setGang g).pins = s.pins := rfl
@[simp] theorem setGang_upkeep (s : State) (g : Gang) : (s.setGang g).upkeep = s.upkeep := rfl
@[simp] theorem setGang_mem (s : State) (g : Gang) : (s.setGang g).mem = s.mem := rfl
@[simp] theorem setGang_wback (s : State) (g : Gang) : (s.setGang g).wback = s.wback := rfl
@[simp] theorem setGang_nextObj (s : State) (g : Gang) : (s.setGang g).nextObj = s.nextObj := rfl
@[simp] theorem setGang_nextSid (s : State) (g : Gang) : (s.setGang g).nextSid = s.nextSid := rfl
@[simp] theorem setGang_graphs (s : State) (g : Gang) : (s.setGang g).graphs = s.graphs := rfl
@[simp] theorem setGang_nextGid (s : State) (g : Gang) : (s.setGang g).nextGid = s.nextGid := rfl
@[simp] theorem setGang_nextOrder (s : State) (g : Gang) : (s.setGang g).nextOrder = s.nextOrder := rfl
@[simp] theorem setGang_images (s : State) (g : Gang) : (s.setGang g).images = s.images := rfl
@[simp] theorem setGang_launches (s : State) (g : Gang) : (s.setGang g).launches = s.launches := rfl
@[simp] theorem setGang_lastLaunch (s : State) (g : Gang) : (s.setGang g).lastLaunch = s.lastLaunch := rfl
@[simp] theorem setGang_halted (s : State) (g : Gang) : (s.setGang g).halted = s.halted := rfl
@[simp] theorem setGang_preqs (s : State) (g : Gang) : (s.setGang g).preqs = s.preqs := rfl
@[simp] theorem setGang_placing (s : State) (g : Gang) : (s.setGang g).placing = s.placing := rfl
@[simp] theorem setGang_vtUs (s : State) (g : Gang) : (s.setGang g).vtUs = s.vtUs := rfl
@[simp] theorem setGang_parts (s : State) (g : Gang) : (s.setGang g).parts = s.parts := rfl
@[simp] theorem setGang_classes (s : State) (g : Gang) : (s.setGang g).classes = s.classes := rfl
@[simp] theorem setGang_chans (s : State) (g : Gang) : (s.setGang g).chans = s.chans := rfl
@[simp] theorem setGang_xlats (s : State) (g : Gang) : (s.setGang g).xlats = s.xlats := rfl
@[simp] theorem setGang_pfaults (s : State) (g : Gang) : (s.setGang g).pfaults = s.pfaults := rfl
@[simp] theorem setGang_nextFseq (s : State) (g : Gang) : (s.setGang g).nextFseq = s.nextFseq := rfl
@[simp] theorem setGang_arrivals (s : State) (g : Gang) : (s.setGang g).arrivals = s.arrivals := rfl
@[simp] theorem setGang_reductions (s : State) (g : Gang) : (s.setGang g).reductions = s.reductions := rfl
@[simp] theorem setGang_wires (s : State) (g : Gang) : (s.setGang g).wires = s.wires := rfl
@[simp] theorem setGang_power (s : State) (g : Gang) : (s.setGang g).power = s.power := rfl
@[simp] theorem setGang_diePower (s : State) (g : Gang) : (s.setGang g).diePower = s.diePower := rfl
@[simp] theorem setGang_bootstat (s : State) (g : Gang) : (s.setGang g).bootstat = s.bootstat := rfl
@[simp] theorem setGang_measd (s : State) (g : Gang) : (s.setGang g).measd = s.measd := rfl
@[simp] theorem setGang_keys (s : State) (g : Gang) : (s.setGang g).keys = s.keys := rfl
@[simp] theorem setGang_nextKey (s : State) (g : Gang) : (s.setGang g).nextKey = s.nextKey := rfl
@[simp] theorem setGang_funcs (s : State) (g : Gang) : (s.setGang g).funcs = s.funcs := rfl
@[simp] theorem setGang_hostOut (s : State) (g : Gang) : (s.setGang g).hostOut = s.hostOut := rfl
@[simp] theorem setGang_package (s : State) (g : Gang) : (s.setGang g).package = s.package := rfl
@[simp] theorem setGang_routes (s : State) (g : Gang) : (s.setGang g).routes = s.routes := rfl
@[simp] theorem setGang_imports (s : State) (g : Gang) : (s.setGang g).imports = s.imports := rfl
@[simp] theorem setGang_ports (s : State) (g : Gang) : (s.setGang g).ports = s.ports := rfl
@[simp] theorem setGang_syn (s : State) (g : Gang) : (s.setGang g).syn = s.syn := rfl

/-! ## setGraph -/

@[simp] theorem setGraph_cur (s : State) (g : Graph) : (s.setGraph g).cur = s.cur := rfl
@[simp] theorem setGraph_agenda (s : State) (g : Graph) : (s.setGraph g).agenda = s.agenda := rfl
@[simp] theorem setGraph_tick (s : State) (g : Graph) : (s.setGraph g).tick = s.tick := rfl
@[simp] theorem setGraph_free (s : State) (g : Graph) : (s.setGraph g).free = s.free := rfl
@[simp] theorem setGraph_cores (s : State) (g : Graph) : (s.setGraph g).cores = s.cores := rfl
@[simp] theorem setGraph_mons (s : State) (g : Graph) : (s.setGraph g).mons = s.mons := rfl
@[simp] theorem setGraph_clusters (s : State) (g : Graph) : (s.setGraph g).clusters = s.clusters := rfl
@[simp] theorem setGraph_hbm (s : State) (g : Graph) : (s.setGraph g).hbm = s.hbm := rfl
@[simp] theorem setGraph_quarry (s : State) (g : Graph) : (s.setGraph g).quarry = s.quarry := rfl
@[simp] theorem setGraph_rsvs (s : State) (g : Graph) : (s.setGraph g).rsvs = s.rsvs := rfl
@[simp] theorem setGraph_pins (s : State) (g : Graph) : (s.setGraph g).pins = s.pins := rfl
@[simp] theorem setGraph_upkeep (s : State) (g : Graph) : (s.setGraph g).upkeep = s.upkeep := rfl
@[simp] theorem setGraph_mem (s : State) (g : Graph) : (s.setGraph g).mem = s.mem := rfl
@[simp] theorem setGraph_wback (s : State) (g : Graph) : (s.setGraph g).wback = s.wback := rfl
@[simp] theorem setGraph_nextObj (s : State) (g : Graph) : (s.setGraph g).nextObj = s.nextObj := rfl
@[simp] theorem setGraph_nextSid (s : State) (g : Graph) : (s.setGraph g).nextSid = s.nextSid := rfl
@[simp] theorem setGraph_nextGid (s : State) (g : Graph) : (s.setGraph g).nextGid = s.nextGid := rfl
@[simp] theorem setGraph_nextOrder (s : State) (g : Graph) : (s.setGraph g).nextOrder = s.nextOrder := rfl
@[simp] theorem setGraph_images (s : State) (g : Graph) : (s.setGraph g).images = s.images := rfl
@[simp] theorem setGraph_launches (s : State) (g : Graph) : (s.setGraph g).launches = s.launches := rfl
@[simp] theorem setGraph_lastLaunch (s : State) (g : Graph) : (s.setGraph g).lastLaunch = s.lastLaunch := rfl
@[simp] theorem setGraph_gangs (s : State) (g : Graph) : (s.setGraph g).gangs = s.gangs := rfl
@[simp] theorem setGraph_halted (s : State) (g : Graph) : (s.setGraph g).halted = s.halted := rfl
@[simp] theorem setGraph_preqs (s : State) (g : Graph) : (s.setGraph g).preqs = s.preqs := rfl
@[simp] theorem setGraph_placing (s : State) (g : Graph) : (s.setGraph g).placing = s.placing := rfl
@[simp] theorem setGraph_vtUs (s : State) (g : Graph) : (s.setGraph g).vtUs = s.vtUs := rfl
@[simp] theorem setGraph_parts (s : State) (g : Graph) : (s.setGraph g).parts = s.parts := rfl
@[simp] theorem setGraph_classes (s : State) (g : Graph) : (s.setGraph g).classes = s.classes := rfl
@[simp] theorem setGraph_chans (s : State) (g : Graph) : (s.setGraph g).chans = s.chans := rfl
@[simp] theorem setGraph_xlats (s : State) (g : Graph) : (s.setGraph g).xlats = s.xlats := rfl
@[simp] theorem setGraph_pfaults (s : State) (g : Graph) : (s.setGraph g).pfaults = s.pfaults := rfl
@[simp] theorem setGraph_nextFseq (s : State) (g : Graph) : (s.setGraph g).nextFseq = s.nextFseq := rfl
@[simp] theorem setGraph_arrivals (s : State) (g : Graph) : (s.setGraph g).arrivals = s.arrivals := rfl
@[simp] theorem setGraph_reductions (s : State) (g : Graph) : (s.setGraph g).reductions = s.reductions := rfl
@[simp] theorem setGraph_wires (s : State) (g : Graph) : (s.setGraph g).wires = s.wires := rfl
@[simp] theorem setGraph_power (s : State) (g : Graph) : (s.setGraph g).power = s.power := rfl
@[simp] theorem setGraph_diePower (s : State) (g : Graph) : (s.setGraph g).diePower = s.diePower := rfl
@[simp] theorem setGraph_bootstat (s : State) (g : Graph) : (s.setGraph g).bootstat = s.bootstat := rfl
@[simp] theorem setGraph_measd (s : State) (g : Graph) : (s.setGraph g).measd = s.measd := rfl
@[simp] theorem setGraph_keys (s : State) (g : Graph) : (s.setGraph g).keys = s.keys := rfl
@[simp] theorem setGraph_nextKey (s : State) (g : Graph) : (s.setGraph g).nextKey = s.nextKey := rfl
@[simp] theorem setGraph_funcs (s : State) (g : Graph) : (s.setGraph g).funcs = s.funcs := rfl
@[simp] theorem setGraph_hostOut (s : State) (g : Graph) : (s.setGraph g).hostOut = s.hostOut := rfl
@[simp] theorem setGraph_package (s : State) (g : Graph) : (s.setGraph g).package = s.package := rfl
@[simp] theorem setGraph_routes (s : State) (g : Graph) : (s.setGraph g).routes = s.routes := rfl
@[simp] theorem setGraph_imports (s : State) (g : Graph) : (s.setGraph g).imports = s.imports := rfl
@[simp] theorem setGraph_ports (s : State) (g : Graph) : (s.setGraph g).ports = s.ports := rfl
@[simp] theorem setGraph_syn (s : State) (g : Graph) : (s.setGraph g).syn = s.syn := rfl

/-! ## endLaunch -/

@[simp] theorem endLaunch_cur (s : State) (id status : Nat) : (s.endLaunch id status).cur = s.cur := rfl
@[simp] theorem endLaunch_agenda (s : State) (id status : Nat) : (s.endLaunch id status).agenda = s.agenda := rfl
@[simp] theorem endLaunch_tick (s : State) (id status : Nat) : (s.endLaunch id status).tick = s.tick := rfl
@[simp] theorem endLaunch_free (s : State) (id status : Nat) : (s.endLaunch id status).free = s.free := rfl
@[simp] theorem endLaunch_mons (s : State) (id status : Nat) : (s.endLaunch id status).mons = s.mons := rfl
@[simp] theorem endLaunch_clusters (s : State) (id status : Nat) : (s.endLaunch id status).clusters = s.clusters := rfl
@[simp] theorem endLaunch_hbm (s : State) (id status : Nat) : (s.endLaunch id status).hbm = s.hbm := rfl
@[simp] theorem endLaunch_quarry (s : State) (id status : Nat) : (s.endLaunch id status).quarry = s.quarry := rfl
@[simp] theorem endLaunch_rsvs (s : State) (id status : Nat) : (s.endLaunch id status).rsvs = s.rsvs := rfl
@[simp] theorem endLaunch_pins (s : State) (id status : Nat) : (s.endLaunch id status).pins = s.pins := rfl
@[simp] theorem endLaunch_upkeep (s : State) (id status : Nat) : (s.endLaunch id status).upkeep = s.upkeep := rfl
@[simp] theorem endLaunch_mem (s : State) (id status : Nat) : (s.endLaunch id status).mem = s.mem := rfl
@[simp] theorem endLaunch_wback (s : State) (id status : Nat) : (s.endLaunch id status).wback = s.wback := rfl
@[simp] theorem endLaunch_nextObj (s : State) (id status : Nat) : (s.endLaunch id status).nextObj = s.nextObj := rfl
@[simp] theorem endLaunch_nextSid (s : State) (id status : Nat) : (s.endLaunch id status).nextSid = s.nextSid := rfl
@[simp] theorem endLaunch_graphs (s : State) (id status : Nat) : (s.endLaunch id status).graphs = s.graphs := rfl
@[simp] theorem endLaunch_nextGid (s : State) (id status : Nat) : (s.endLaunch id status).nextGid = s.nextGid := rfl
@[simp] theorem endLaunch_nextOrder (s : State) (id status : Nat) : (s.endLaunch id status).nextOrder = s.nextOrder := rfl
@[simp] theorem endLaunch_images (s : State) (id status : Nat) : (s.endLaunch id status).images = s.images := rfl
@[simp] theorem endLaunch_lastLaunch (s : State) (id status : Nat) : (s.endLaunch id status).lastLaunch = s.lastLaunch := rfl
@[simp] theorem endLaunch_gangs (s : State) (id status : Nat) : (s.endLaunch id status).gangs = s.gangs := rfl
@[simp] theorem endLaunch_halted (s : State) (id status : Nat) : (s.endLaunch id status).halted = s.halted := rfl
@[simp] theorem endLaunch_preqs (s : State) (id status : Nat) : (s.endLaunch id status).preqs = s.preqs := rfl
@[simp] theorem endLaunch_placing (s : State) (id status : Nat) : (s.endLaunch id status).placing = s.placing := rfl
@[simp] theorem endLaunch_vtUs (s : State) (id status : Nat) : (s.endLaunch id status).vtUs = s.vtUs := rfl
@[simp] theorem endLaunch_parts (s : State) (id status : Nat) : (s.endLaunch id status).parts = s.parts := rfl
@[simp] theorem endLaunch_classes (s : State) (id status : Nat) : (s.endLaunch id status).classes = s.classes := rfl
@[simp] theorem endLaunch_chans (s : State) (id status : Nat) : (s.endLaunch id status).chans = s.chans := rfl
@[simp] theorem endLaunch_xlats (s : State) (id status : Nat) : (s.endLaunch id status).xlats = s.xlats := rfl
@[simp] theorem endLaunch_pfaults (s : State) (id status : Nat) : (s.endLaunch id status).pfaults = s.pfaults := rfl
@[simp] theorem endLaunch_nextFseq (s : State) (id status : Nat) : (s.endLaunch id status).nextFseq = s.nextFseq := rfl
@[simp] theorem endLaunch_arrivals (s : State) (id status : Nat) : (s.endLaunch id status).arrivals = s.arrivals := rfl
@[simp] theorem endLaunch_reductions (s : State) (id status : Nat) : (s.endLaunch id status).reductions = s.reductions := rfl
@[simp] theorem endLaunch_wires (s : State) (id status : Nat) : (s.endLaunch id status).wires = s.wires := rfl
@[simp] theorem endLaunch_power (s : State) (id status : Nat) : (s.endLaunch id status).power = s.power := rfl
@[simp] theorem endLaunch_diePower (s : State) (id status : Nat) : (s.endLaunch id status).diePower = s.diePower := rfl
@[simp] theorem endLaunch_bootstat (s : State) (id status : Nat) : (s.endLaunch id status).bootstat = s.bootstat := rfl
@[simp] theorem endLaunch_measd (s : State) (id status : Nat) : (s.endLaunch id status).measd = s.measd := rfl
@[simp] theorem endLaunch_keys (s : State) (id status : Nat) : (s.endLaunch id status).keys = s.keys := rfl
@[simp] theorem endLaunch_nextKey (s : State) (id status : Nat) : (s.endLaunch id status).nextKey = s.nextKey := rfl
@[simp] theorem endLaunch_funcs (s : State) (id status : Nat) : (s.endLaunch id status).funcs = s.funcs := rfl
@[simp] theorem endLaunch_hostOut (s : State) (id status : Nat) : (s.endLaunch id status).hostOut = s.hostOut := rfl
@[simp] theorem endLaunch_package (s : State) (id status : Nat) : (s.endLaunch id status).package = s.package := rfl
@[simp] theorem endLaunch_routes (s : State) (id status : Nat) : (s.endLaunch id status).routes = s.routes := rfl
@[simp] theorem endLaunch_imports (s : State) (id status : Nat) : (s.endLaunch id status).imports = s.imports := rfl
@[simp] theorem endLaunch_ports (s : State) (id status : Nat) : (s.endLaunch id status).ports = s.ports := rfl
@[simp] theorem endLaunch_syn (s : State) (id status : Nat) : (s.endLaunch id status).syn = s.syn := rfl

end Sys2Proof.Laws
end

