-- ==== Sys2Proof/Laws/Issue.lean ====
section
/-! SUPPORT. What the issue of a word can do: `issue` on a word that issues, and on one that traps; how the updates of a core combine. -/

namespace Sys2Proof.Laws

open Sys2Proof Sys2Proof.Machine Sys2Proof.Safety

@[simp] theorem setSt_cyc (s : State) (c e : Fin 192) (st : Strand) : (s.setSt c st).cyc e = s.cyc e := by
  unfold State.cyc State.setSt
  by_cases h : e = c
  · subst h; simp
  · have : (c : Nat) ≠ e := fun x => h (Fin.ext x.symm)
    simp [Vector.getElem_set_ne, this]

@[simp] theorem setSt_setSt (s : State) (c : Fin 192) (st st' : Strand) : (s.setSt c st).setSt c st' = s.setSt c st' := by
  unfold State.setSt
  simp

@[simp] theorem setSt_word? (s : State) (c : Fin 192) (st st' : Strand) (sl : Slot) : (s.setSt c st).word? st' sl = s.word? st' sl := rfl

@[simp] theorem setSt_strand? (s : State) (c : Fin 192) (st : Strand) : (s.setSt c st).strand? c = some st := by
  unfold State.strand? State.setSt
  simp

theorem finish_setSt (s : State) (sl : Slot) (st : Strand) (w : Option W32) (n : Next) (busy : Nat) :
    (s.setSt s.cur.core st).finish s.cur.core sl w n busy = moved s sl st w n busy := by
  unfold State.finish
  rw [setSt_strand?]
  simp only [setSt_cyc]
  unfold moved State.setSt State.setCore now
  simp

/-- A word that issues runs its body on the strand of `issuer`. -/
theorem issue_body {s : State} {sl : Slot} {rv flow : Bool} {regs : List (BitVec 5)} {st : Strand}
    (h : issuer s sl rv flow regs = some st) (body : State → Fin 192 → Strand → Res) :
    issue sl rv flow regs body s =
      .next ((s.setSt s.cur.core st).conclude s.cur.core st sl (s.word? st sl) (body (s.setSt s.cur.core st) s.cur.core st)) := by
  unfold issuer at h
  unfold issue
  cases h0 : s.strand? s.cur.core with
  | none => simp [h0] at h
  | some st0 =>
    simp only [h0] at h
    by_cases hm : s.mayTry s.cur.core (st0.settle (s.cyc s.cur.core)) sl = true
    · simp only [hm, if_true] at h
      cases hp : s.passRv s.cur.core (st0.settle (s.cyc s.cur.core)) sl rv with
      | none => simp [hp] at h
      | some st1 =>
        simp only [hp] at h
        by_cases hf : ((flow && st1.lbLive sl && !(st1.lb sl).captured) || (sl == .s && regs.any (st1.outstanding (s.cyc s.cur.core)))) = true
        · simp only [hf, if_true] at h; cases h
        · simp only [hf] at h
          have he : st1 = st := by simpa using h
          subst he
          rw [Bool.or_eq_true, not_or] at hf
          simp only [h0]
          rw [if_neg (by simp [hm])]
          simp only [hp]
          rw [if_neg hf.1, if_neg hf.2, setSt_word?]
    · simp only [hm] at h; cases h

/-- A word whose body is done. -/
theorem issue_ok {s : State} {sl : Slot} {rv flow : Bool} {regs : List (BitVec 5)} {st : Strand}
    (h : issuer s sl rv flow regs = some st) {body : State → Fin 192 → Strand → Res} {s' : State} {n : Next} {busy : Nat}
    (hb : body (s.setSt s.cur.core st) s.cur.core st = .ok s' n busy) :
    issue sl rv flow regs body s = .next (s'.finish s.cur.core sl (s.word? st sl) n busy) := by
  rw [issue_body h, hb]; rfl

/-- A word whose one effect is a new strand. -/
theorem issue_st {s : State} {sl : Slot} {rv flow : Bool} {regs : List (BitVec 5)} {st st' : Strand}
    (h : issuer s sl rv flow regs = some st) {body : State → Fin 192 → Strand → Res} {n : Next} {busy : Nat}
    (hb : body (s.setSt s.cur.core st) s.cur.core st = .ok ((s.setSt s.cur.core st).setSt s.cur.core st') n busy) :
    issue sl rv flow regs body s = .next (moved s sl st' (s.word? st sl) n busy) := by
  rw [issue_ok h hb, setSt_setSt, finish_setSt]

/-- A word whose body leaves the strand as it is. -/
theorem issue_same {s : State} {sl : Slot} {rv flow : Bool} {regs : List (BitVec 5)} {st : Strand}
    (h : issuer s sl rv flow regs = some st) {body : State → Fin 192 → Strand → Res} {n : Next} {busy : Nat}
    (hb : body (s.setSt s.cur.core st) s.cur.core st = .ok (s.setSt s.cur.core st) n busy) :
    issue sl rv flow regs body s = .next (moved s sl st (s.word? st sl) n busy) := by
  rw [issue_ok h hb, finish_setSt]

/-- A word whose body raises a trap. -/
theorem issue_trap {s : State} {sl : Slot} {rv flow : Bool} {regs : List (BitVec 5)} {st : Strand}
    (h : issuer s sl rv flow regs = some st) {body : State → Fin 192 → Strand → Res} {cause : Cause} {addr : W64}
    (hb : body (s.setSt s.cur.core st) s.cur.core st = .trap cause addr) :
    issue sl rv flow regs body s = .next ((s.setSt s.cur.core st).raiseTrap s.cur.core st sl cause addr) := by
  rw [issue_body h, hb]; rfl

/-- A word whose body stalls. -/
theorem issue_stall {s : State} {sl : Slot} {rv flow : Bool} {regs : List (BitVec 5)} {st : Strand}
    (h : issuer s sl rv flow regs = some st) {body : State → Fin 192 → Strand → Res} {s' : State}
    (hb : body (s.setSt s.cur.core st) s.cur.core st = .stall s') : issue sl rv flow regs body s = .next s' := by
  rw [issue_body h, hb]; rfl

/-- Everything `issue` can do: the word is not tried or waits for its rendezvous and nothing changes; it may not stand in a loop
buffer and traps; a register of S is awaited; or its own effect is concluded. -/
theorem issue_cases {s s' : State} {sl : Slot} {rv flow : Bool} {regs : List (BitVec 5)} {body : State → Fin 192 → Strand → Res}
    (h : issue sl rv flow regs body s = .next s') :
    s' = s ∨ ∃ st : Strand, s' = (s.setSt s.cur.core st).raiseTrap s.cur.core st sl .illegal 0 ∨ s' = s.setSt s.cur.core st ∨
      s' = (s.setSt s.cur.core st).conclude s.cur.core st sl (s.word? st sl) (body (s.setSt s.cur.core st) s.cur.core st) := by
  unfold issue at h
  simp only at h
  split at h
  · exact .inl (Host.Outcome.next.inj h).symm
  · split at h
    · exact .inl (Host.Outcome.next.inj h).symm
    · split at h
      · exact .inl (Host.Outcome.next.inj h).symm
      · rename_i st _
        refine .inr ⟨st, ?_⟩
        split at h
        · exact .inl (Host.Outcome.next.inj h).symm
        · split at h
          · exact .inr (.inl (Host.Outcome.next.inj h).symm)
          · exact .inr (.inr (by rw [setSt_word?] at h; exact (Host.Outcome.next.inj h).symm))

/-- A word of a slot always answers a next state. -/
theorem issue_next (sl : Slot) (rv flow : Bool) (regs : List (BitVec 5)) (body : State → Fin 192 → Strand → Res) (s : State) :
    ∃ s', issue sl rv flow regs body s = .next s' := by
  unfold issue
  simp only
  repeat' split
  all_goals exact ⟨_, rfl⟩

/-- A register word of S (R61, R96, R98, R99). -/
theorem aluWord_ok {s : State} {r : Bool} {d : BitVec 5} {srcs : List (BitVec 5)} {st : Strand} {lat : Nat} {f : Strand → W64}
    (h : issuer s .s r false (d :: srcs) = some st) (ho : st.owns false d = true) :
    aluWord r d srcs lat f s = .next (wroteX s .s st lat d (f st) (srcs.any st.xp)) := by
  unfold aluWord wroteX
  apply issue_st h
  simp [ho, now]

end Sys2Proof.Laws
end

