-- ==== Sys2Proof/Laws/SMap.lean ====
section
/-! SUPPORT. Sparse maps: reads after writes, and the canonical form that every operation keeps. -/

namespace Sys2Proof.Laws

open Sys2Proof.Machine

variable {α : Type} [DecidableEq α]

/-- Keys rise along a map. -/
def Rises (m : SMap α) : Prop := m.Pairwise fun x y => x.1 < y.1

theorem wfFrom_iff (d : α) : ∀ (m : SMap α) (lo : Option Nat),
    SMap.wfFrom d lo m = true ↔ (∀ e ∈ m, ∀ l ∈ lo, l < e.1) ∧ Rises m ∧ ∀ e ∈ m, e.2 ≠ d
  | [], lo => by simp [SMap.wfFrom, Rises]
  | (k, v) :: rest, lo => by
    simp only [SMap.wfFrom, Bool.and_eq_true, wfFrom_iff d rest (some k), Rises, List.pairwise_cons, List.forall_mem_cons,
      decide_eq_true_eq, Option.mem_def, Option.some.injEq, forall_eq']
    cases lo with
    | none => simp; tauto
    | some l =>
      simp only [decide_eq_true_eq, Option.some.injEq, forall_eq']
      constructor
      · rintro ⟨⟨h1, h2⟩, h3, h4, h5⟩
        exact ⟨⟨h1, fun e he => Nat.lt_trans h1 (h3 e he)⟩, ⟨h3, h4⟩, h2, h5⟩
      · rintro ⟨⟨h1, -⟩, ⟨h3, h4⟩, h2, h5⟩
        exact ⟨⟨h1, h2⟩, h3, h4, h5⟩

/-- The canonical form: keys rise and no entry holds what an unlisted key reads as. -/
theorem wf_iff (d : α) (m : SMap α) : SMap.wf d m = true ↔ Rises m ∧ ∀ e ∈ m, e.2 ≠ d := by
  simp [SMap.wf, wfFrom_iff]

omit [DecidableEq α] in
theorem get_of_mem (d : α) : ∀ {m : SMap α} {e : Nat × α}, Rises m → e ∈ m → SMap.get d m e.1 = e.2
  | (k, v) :: rest, e, h, he => by
    have hr := List.pairwise_cons.mp h
    rcases List.mem_cons.mp he with rfl | he
    · simp [SMap.get]
    · have := hr.1 e he
      have h1 : e.1 ≠ k := by simp at this; omega
      have h2 : ¬ e.1 < k := by simp at this; omega
      simp only [SMap.get, h1, h2, if_false]
      exact get_of_mem d hr.2 he

omit [DecidableEq α] in
theorem get_of_not_mem (d : α) : ∀ {m : SMap α} {a : Nat}, (∀ e ∈ m, e.1 ≠ a) → SMap.get d m a = d
  | [], _, _ => rfl
  | (k, v) :: rest, a, h => by
    have h1 := h (k, v) (by simp)
    simp only [SMap.get, Ne.symm h1, if_false]
    split
    · rfl
    · exact get_of_not_mem d fun e he => h e (by simp [he])

omit [DecidableEq α] in
/-- What a key reads as, through membership. -/
theorem get_eq_iff {d x : α} {m : SMap α} {a : Nat} (h : Rises m) (hx : x ≠ d) : SMap.get d m a = x ↔ (a, x) ∈ m := by
  constructor
  · intro hg
    by_cases hm : ∃ e ∈ m, e.1 = a
    · obtain ⟨⟨k, v⟩, he, rfl⟩ := hm
      rw [get_of_mem d h he] at hg
      rw [← hg]; exact he
    · rw [get_of_not_mem d fun e he hk => hm ⟨e, he, hk⟩] at hg
      exact absurd hg.symm hx
  · intro he; exact get_of_mem d h he

/-- Two canonical maps that read the same are the same. -/
theorem smap_ext {d : α} {m n : SMap α} (hm : SMap.wf d m = true) (hn : SMap.wf d n = true)
    (h : ∀ a, SMap.get d m a = SMap.get d n a) : m = n := by
  obtain ⟨rm, dm⟩ := (wf_iff d m).mp hm
  obtain ⟨rn, dn⟩ := (wf_iff d n).mp hn
  have key (e : Nat × α) : e ∈ m ↔ e ∈ n := by
    constructor
    · intro he
      exact (get_eq_iff rn (dm e he)).mp (by rw [← h]; exact get_of_mem d rm he)
    · intro he
      exact (get_eq_iff rm (dn e he)).mp (by rw [h]; exact get_of_mem d rn he)
  have irr {k : SMap α} (r : Rises k) : k.Nodup := r.imp (fun {a b} hab => by rintro rfl; exact absurd hab (Nat.lt_irrefl _))
  exact List.Perm.eq_of_pairwise (fun a b _ _ x y => absurd x (Nat.lt_asymm y)) rm rn
    ((List.perm_ext_iff_of_nodup (irr rm) (irr rn)).mpr key)

/- Single entries. -/

omit [DecidableEq α] in
theorem mem_erase : ∀ {m : SMap α} {a : Nat}, Rises m → ∀ e, e ∈ m.erase a ↔ e ∈ m ∧ e.1 ≠ a
  | [], _, _, e => by simp [SMap.erase]
  | (k, v) :: rest, a, h, e => by
    have hr := List.pairwise_cons.mp h
    simp only [SMap.erase]
    split
    · rename_i hk; subst hk
      simp only [List.mem_cons]
      constructor
      · intro he; exact ⟨.inr he, by have := hr.1 e he; simp at this; omega⟩
      · rintro ⟨rfl | he, hne⟩
        · exact absurd rfl hne
        · exact he
    · split
      · rename_i h1 h2
        constructor
        · intro he
          refine ⟨he, ?_⟩
          rcases List.mem_cons.mp he with rfl | he
          · simpa using Ne.symm h1
          · have := hr.1 e he; simp at this; omega
        · exact And.left
      · rename_i h1 h2
        simp only [List.mem_cons, mem_erase hr.2 e]
        constructor
        · rintro (rfl | ⟨he, hne⟩)
          · exact ⟨.inl rfl, by simpa using Ne.symm h1⟩
          · exact ⟨.inr he, hne⟩
        · rintro ⟨rfl | he, hne⟩
          · exact .inl rfl
          · exact .inr ⟨he, hne⟩

omit [DecidableEq α] in
theorem rises_erase : ∀ {m : SMap α} {a : Nat}, Rises m → Rises (m.erase a)
  | [], _, h => h
  | (k, v) :: rest, a, h => by
    have hr := List.pairwise_cons.mp h
    simp only [SMap.erase]
    split
    · exact hr.2
    · split
      · exact h
      · exact List.pairwise_cons.mpr ⟨fun e he => hr.1 e ((mem_erase hr.2 e).mp he).1, rises_erase hr.2⟩

omit [DecidableEq α] in
theorem mem_put {x : α} : ∀ {m : SMap α} {a : Nat}, Rises m → ∀ e, e ∈ m.put x a ↔ e = (a, x) ∨ e ∈ m ∧ e.1 ≠ a
  | [], a, _, e => by simp [SMap.put]
  | (k, v) :: rest, a, h, e => by
    have hr := List.pairwise_cons.mp h
    simp only [SMap.put]
    split
    · rename_i hk; subst hk
      simp only [List.mem_cons]
      constructor
      · rintro (rfl | he)
        · exact .inl rfl
        · exact .inr ⟨.inr he, by have := hr.1 e he; simp at this; omega⟩
      · rintro (rfl | ⟨rfl | he, hne⟩)
        · exact .inl rfl
        · exact absurd rfl hne
        · exact .inr he
    · split
      · rename_i h1 h2
        simp only [List.mem_cons]
        constructor
        · rintro (rfl | rfl | he)
          · exact .inl rfl
          · exact .inr ⟨.inl rfl, by simpa using Ne.symm h1⟩
          · exact .inr ⟨.inr he, by have := hr.1 e he; simp at this; omega⟩
        · rintro (rfl | ⟨he, -⟩)
          · exact .inl rfl
          · exact .inr he
      · rename_i h1 h2
        simp only [List.mem_cons, mem_put hr.2 e]
        constructor
        · rintro (rfl | rfl | ⟨he, hne⟩)
          · exact .inr ⟨.inl rfl, by simpa using Ne.symm h1⟩
          · exact .inl rfl
          · exact .inr ⟨.inr he, hne⟩
        · rintro (rfl | ⟨rfl | he, hne⟩)
          · exact .inr (.inl rfl)
          · exact .inl rfl
          · exact .inr (.inr ⟨he, hne⟩)

omit [DecidableEq α] in
theorem rises_put {x : α} : ∀ {m : SMap α} {a : Nat}, Rises m → Rises (m.put x a)
  | [], a, _ => by simp [SMap.put, Rises]
  | (k, v) :: rest, a, h => by
    have hr := List.pairwise_cons.mp h
    simp only [SMap.put]
    split
    · exact List.pairwise_cons.mpr ⟨hr.1, hr.2⟩
    · split
      · rename_i h1 h2
        refine List.pairwise_cons.mpr ⟨fun e he => ?_, h⟩
        rcases List.mem_cons.mp he with rfl | he
        · exact h2
        · exact Nat.lt_trans h2 (hr.1 e he)
      · rename_i h1 h2
        refine List.pairwise_cons.mpr ⟨fun e he => ?_, rises_put hr.2⟩
        rcases (mem_put hr.2 e).mp he with rfl | ⟨he, -⟩
        · show k < a; omega
        · exact hr.1 e he

theorem wf_set {d : α} {m : SMap α} (h : SMap.wf d m = true) (a : Nat) (x : α) : SMap.wf d (SMap.set d m a x) = true := by
  obtain ⟨hr, hd⟩ := (wf_iff d m).mp h
  unfold SMap.set
  split
  · exact (wf_iff d _).mpr ⟨rises_erase hr, fun e he => hd e ((mem_erase hr e).mp he).1⟩
  · rename_i hx
    refine (wf_iff d _).mpr ⟨rises_put hr, fun e he => ?_⟩
    rcases (mem_put hr e).mp he with rfl | ⟨he, -⟩
    · exact hx
    · exact hd e he

/-- A read after a write of one key. -/
theorem get_set {d : α} {m : SMap α} (h : SMap.wf d m = true) (a b : Nat) (x : α) :
    SMap.get d (SMap.set d m a x) b = if b = a then x else SMap.get d m b := by
  obtain ⟨hr, hd⟩ := (wf_iff d m).mp h
  unfold SMap.set
  split
  · rename_i hx
    subst hx
    by_cases hb : b = a
    · subst hb
      simp only [if_true]
      exact get_of_not_mem _ fun e he => ((mem_erase hr e).mp he).2
    · simp only [hb, if_false]
      by_cases hm : ∃ e ∈ m, e.1 = b
      · obtain ⟨e, he, rfl⟩ := hm
        rw [get_of_mem _ hr he, get_of_mem _ (rises_erase hr) ((mem_erase hr e).mpr ⟨he, hb⟩)]
      · rw [get_of_not_mem _ fun e he hk => hm ⟨e, he, hk⟩,
          get_of_not_mem _ fun e he hk => hm ⟨e, ((mem_erase hr e).mp he).1, hk⟩]
  · rename_i hx
    by_cases hb : b = a
    · subst hb
      simp only [if_true]
      exact get_of_mem d (rises_put hr) ((mem_put hr (b, x)).mpr (.inl rfl))
    · simp only [hb, if_false]
      by_cases hm : ∃ e ∈ m, e.1 = b
      · obtain ⟨e, he, rfl⟩ := hm
        rw [get_of_mem _ hr he, get_of_mem _ (rises_put hr) ((mem_put hr e).mpr (.inr ⟨he, hb⟩))]
      · rw [get_of_not_mem _ fun e he hk => hm ⟨e, he, hk⟩, get_of_not_mem _ fun e he hk => ?_]
        rcases (mem_put hr e).mp he with rfl | ⟨he, -⟩
        · exact hb hk.symm
        · exact hm ⟨e, he, hk⟩

/- Runs of keys. -/

omit [DecidableEq α] in
theorem takeWhile_lt {m : SMap α} (h : Rises m) (a : Nat) : (m.takeWhile fun e => decide (e.1 < a)) = m.filter fun e => decide (e.1 < a) := by
  induction m with
  | nil => rfl
  | cons e rest ih =>
    have hr := List.pairwise_cons.mp h
    by_cases he : e.1 < a
    · simp [he, ih hr.2]
    · simp only [he, decide_false, Bool.false_eq_true, not_false_eq_true, List.takeWhile_cons_of_neg, List.filter_cons_of_neg]
      symm
      rw [List.filter_eq_nil_iff]
      intro x hx
      have := hr.1 x hx
      simp; omega

omit [DecidableEq α] in
theorem dropWhile_lt {m : SMap α} (h : Rises m) (a : Nat) : (m.dropWhile fun e => decide (e.1 < a)) = m.filter fun e => decide (a ≤ e.1) := by
  induction m with
  | nil => rfl
  | cons e rest ih =>
    have hr := List.pairwise_cons.mp h
    by_cases he : e.1 < a
    · have : ¬ a ≤ e.1 := by omega
      simp [he, this, ih hr.2]
    · have h2 : a ≤ e.1 := by omega
      simp only [he, decide_false, Bool.false_eq_true, not_false_eq_true, List.dropWhile_cons_of_neg, h2, decide_true, List.filter_cons_of_pos]
      congr 1
      symm
      rw [List.filter_eq_self]
      intro x hx
      have := hr.1 x hx
      simp; omega

omit [DecidableEq α] in
/-- A run of values is what its keys read as. -/
theorem run_eq (d : α) : ∀ (n : Nat) (m : SMap α) (a : Nat), Rises m → (∀ e ∈ m, a ≤ e.1) →
    SMap.run d n m a = (List.range n).map fun i => SMap.get d m (a + i)
  | 0, _, _, _, _ => rfl
  | n + 1, [], a, _, _ => by
    simp only [SMap.run, run_eq d n [] (a + 1) List.Pairwise.nil (by simp), SMap.get]
    rw [List.range_succ_eq_map]
    simp [Function.comp_def]
  | n + 1, (k, v) :: rest, a, h, hb => by
    have hr := List.pairwise_cons.mp h
    have hk : a ≤ k := hb (k, v) (by simp)
    simp only [SMap.run]
    rw [List.range_succ_eq_map]
    split
    · rename_i hka
      rw [hka] at hk h hr
      simp only [List.map_cons, List.map_map]
      rw [run_eq d n rest (a + 1) hr.2 (fun e he => by have := hr.1 e he; simp at this; omega)]
      have h0 : SMap.get d ((k, v) :: rest) (a + 0) = v := by simp [SMap.get, hka]
      rw [h0]
      congr 1
      apply List.map_congr_left
      intro i _
      simp only [Function.comp, SMap.get, hka]
      have h1 : ¬ a + (i + 1) = a := by omega
      have h2 : ¬ a + (i + 1) < a := by omega
      have h3 : a + 1 + i = a + (i + 1) := by omega
      simp only [Nat.succ_eq_add_one, h1, h2, if_false, h3]
    · rename_i hka
      have hlt : a < k := by omega
      simp only [List.map_cons, List.map_map]
      rw [run_eq d n ((k, v) :: rest) (a + 1) h (fun e he => by
        rcases List.mem_cons.mp he with rfl | he
        · exact hlt
        · have := hr.1 e he; simp at this; omega)]
      have h0 : SMap.get d ((k, v) :: rest) (a + 0) = d := by
        have : ¬ a = k := by omega
        simp [SMap.get, this, hlt]
      rw [h0]
      congr 1
      apply List.map_congr_left
      intro i _
      have : a + 1 + i = a + Nat.succ i := by omega
      simp [this]

omit [DecidableEq α] in
/-- Keys below the first of a run do not matter to its reads. -/
theorem get_filter_ge {d : α} {m : SMap α} (h : Rises m) {a b : Nat} (hab : a ≤ b) :
    SMap.get d (m.filter fun e => decide (a ≤ e.1)) b = SMap.get d m b := by
  have hf : Rises (m.filter fun e => decide (a ≤ e.1)) := List.Pairwise.sublist List.filter_sublist h
  by_cases hm : ∃ e ∈ m, e.1 = b
  · obtain ⟨e, he, rfl⟩ := hm
    rw [get_of_mem d h he, get_of_mem d hf (List.mem_filter.mpr ⟨he, by simpa using hab⟩)]
  · rw [get_of_not_mem d fun e he hk => hm ⟨e, he, hk⟩,
      get_of_not_mem d fun e he hk => hm ⟨e, (List.mem_filter.mp he).1, hk⟩]

omit [DecidableEq α] in
theorem run_dropWhile {d : α} {m : SMap α} (h : Rises m) (n a : Nat) :
    SMap.run d n (m.dropWhile fun e => decide (e.1 < a)) a = (List.range n).map fun i => SMap.get d m (a + i) := by
  rw [dropWhile_lt h, run_eq d n _ a (List.Pairwise.sublist List.filter_sublist h) (fun e he => by simpa using (List.mem_filter.mp he).2)]
  exact List.map_congr_left fun i _ => get_filter_ge h (by omega)

theorem mem_entries (d : α) : ∀ (xs : List α) (a : Nat) (e : Nat × α),
    e ∈ SMap.entries d a xs ↔ a ≤ e.1 ∧ xs[e.1 - a]? = some e.2 ∧ e.2 ≠ d
  | [], a, e => by simp [SMap.entries]
  | x :: rest, a, e => by
    have step : (a ≤ e.1 ∧ (x :: rest)[e.1 - a]? = some e.2 ∧ e.2 ≠ d) ↔
        (e = (a, x) ∧ x ≠ d) ∨ (a + 1 ≤ e.1 ∧ rest[e.1 - (a + 1)]? = some e.2 ∧ e.2 ≠ d) := by
      constructor
      · rintro ⟨h1, h2, h3⟩
        by_cases he : e.1 = a
        · left
          rw [he, Nat.sub_self] at h2
          simp only [List.getElem?_cons_zero, Option.some.injEq] at h2
          exact ⟨Prod.ext he h2.symm, h2 ▸ h3⟩
        · right
          have h4 : e.1 - a = (e.1 - (a + 1)) + 1 := by omega
          rw [h4, List.getElem?_cons_succ] at h2
          exact ⟨by omega, h2, h3⟩
      · rintro (⟨rfl, hx⟩ | ⟨h1, h2, h3⟩)
        · exact ⟨Nat.le_refl _, by simp, hx⟩
        · have h4 : e.1 - a = (e.1 - (a + 1)) + 1 := by omega
          exact ⟨by omega, by rw [h4, List.getElem?_cons_succ]; exact h2, h3⟩
    rw [step]
    simp only [SMap.entries]
    split
    · rename_i hx
      rw [mem_entries d rest (a + 1) e]
      constructor
      · exact .inr
      · rintro (⟨-, h⟩ | h)
        · exact absurd hx h
        · exact h
    · rename_i hx
      rw [List.mem_cons, mem_entries d rest (a + 1) e]
      simp [hx]

theorem rises_entries (d : α) : ∀ (xs : List α) (a : Nat), Rises (SMap.entries d a xs)
  | [], a => by simp [SMap.entries, Rises]
  | x :: rest, a => by
    simp only [SMap.entries]
    split
    · exact rises_entries d rest (a + 1)
    · exact List.pairwise_cons.mpr ⟨fun e he => ((mem_entries d rest (a + 1) e).mp he).1, rises_entries d rest (a + 1)⟩

/-- What a map holds after a run of values is written. -/
theorem mem_setRun {d : α} {m : SMap α} (h : Rises m) (a : Nat) (xs : List (Option α)) (e : Nat × α) :
    e ∈ SMap.setRun d m a xs ↔ (e ∈ m ∧ (e.1 < a ∨ a + xs.length ≤ e.1)) ∨
      (a ≤ e.1 ∧ (∃ x, xs[e.1 - a]? = some x ∧ e.2 = x.getD (SMap.get d m e.1)) ∧ e.2 ≠ d) := by
  unfold SMap.setRun
  simp only
  rw [takeWhile_lt h, run_dropWhile h, dropWhile_lt h, List.mem_append, List.mem_append, mem_entries, List.mem_filter, List.mem_filter]
  have hz : ∀ x, (List.zipWith Option.getD xs ((List.range xs.length).map fun i => SMap.get d m (a + i)))[e.1 - a]? = some x ↔
      ∃ y, xs[e.1 - a]? = some y ∧ x = y.getD (SMap.get d m (a + (e.1 - a))) := by
    intro x
    rw [List.getElem?_zipWith, List.getElem?_map]
    by_cases hl : e.1 - a < xs.length
    · rw [List.getElem?_eq_getElem hl, List.getElem?_range hl]
      simp [eq_comm]
    · rw [List.getElem?_eq_none (by omega)]
      simp
  rw [hz]
  simp only [decide_eq_true_eq]
  constructor
  · rintro ((h1 | ⟨h1, ⟨y, h2, h3⟩, h4⟩) | h1)
    · exact .inl ⟨h1.1, .inl h1.2⟩
    · exact .inr ⟨h1, ⟨y, h2, by rw [h3]; congr 2; omega⟩, h4⟩
    · exact .inl ⟨h1.1, .inr h1.2⟩
  · rintro (⟨h1, h2 | h2⟩ | ⟨h1, ⟨y, h2, h3⟩, h4⟩)
    · exact .inl (.inl ⟨h1, h2⟩)
    · exact .inr ⟨h1, h2⟩
    · exact .inl (.inr ⟨h1, ⟨y, h2, by rw [h3]; congr 2; omega⟩, h4⟩)

theorem rises_setRun {d : α} {m : SMap α} (h : Rises m) (a : Nat) (xs : List (Option α)) : Rises (SMap.setRun d m a xs) := by
  unfold SMap.setRun
  simp only
  rw [takeWhile_lt h, dropWhile_lt h, dropWhile_lt h]
  have hlen : ∀ e ∈ SMap.entries d a (List.zipWith Option.getD xs (SMap.run d xs.length (m.filter fun e => decide (a ≤ e.1)) a)), e.1 < a + xs.length := by
    intro e he
    have h1 := (mem_entries d _ a e).mp he
    have h2 := (List.getElem?_eq_some_iff.mp h1.2.1).1
    simp only [List.length_zipWith] at h2
    omega
  rw [Rises, List.pairwise_append, List.pairwise_append]
  refine ⟨⟨List.Pairwise.sublist List.filter_sublist h, rises_entries d _ a, fun x hx y hy => ?_⟩,
    List.Pairwise.sublist List.filter_sublist h, fun x hx y hy => ?_⟩
  · have h1 : x.1 < a := by simpa using (List.mem_filter.mp hx).2
    have h2 := ((mem_entries d _ a y).mp hy).1
    omega
  · have h2 : a + xs.length ≤ y.1 := by simpa using (List.mem_filter.mp hy).2
    rcases List.mem_append.mp hx with hx | hx
    · have h1 : x.1 < a := by simpa using (List.mem_filter.mp hx).2
      omega
    · have := hlen x hx
      omega

theorem wf_setRun {d : α} {m : SMap α} (h : SMap.wf d m = true) (a : Nat) (xs : List (Option α)) :
    SMap.wf d (SMap.setRun d m a xs) = true := by
  obtain ⟨hr, hd⟩ := (wf_iff d m).mp h
  refine (wf_iff d _).mpr ⟨rises_setRun hr a xs, fun e he => ?_⟩
  rcases (mem_setRun hr a xs e).mp he with h1 | h1
  · exact hd e h1.1
  · exact h1.2.2

/-- A read after a run of values is written. -/
theorem get_setRun {d : α} {m : SMap α} (h : SMap.wf d m = true) (a : Nat) (xs : List (Option α)) (b : Nat) :
    SMap.get d (SMap.setRun d m a xs) b =
      if a ≤ b then (xs[b - a]?.join.getD (SMap.get d m b)) else SMap.get d m b := by
  obtain ⟨hr, hd⟩ := (wf_iff d m).mp h
  have hs := rises_setRun (d := d) hr a xs
  have key (x : α) (hx : x ≠ d) : SMap.get d (SMap.setRun d m a xs) b = x ↔
      (if a ≤ b then (xs[b - a]?.join.getD (SMap.get d m b)) else SMap.get d m b) = x := by
    rw [get_eq_iff hs hx, mem_setRun hr]
    simp only
    by_cases hab : a ≤ b
    · simp only [hab, if_true]
      by_cases hl : b - a < xs.length
      · rw [List.getElem?_eq_getElem hl]
        simp only [true_and, Option.some.injEq, exists_eq_left', hx, ne_eq, not_false_eq_true, and_true, Option.join_some]
        constructor
        · rintro (⟨-, h1 | h1⟩ | h1)
          · omega
          · omega
          · exact h1.symm
        · exact fun h1 => .inr h1.symm
      · rw [List.getElem?_eq_none (by omega)]
        simp only [reduceCtorEq, false_and, exists_false, and_false, or_false, get_eq_iff hr hx, Option.join_none, Option.getD_none]
        constructor
        · exact And.left
        · exact fun h1 => ⟨h1, .inr (by omega)⟩
    · simp only [hab, if_false, false_and, or_false, get_eq_iff hr hx]
      constructor
      · exact And.left
      · exact fun h1 => ⟨h1, .inl (by omega)⟩
  by_cases hx : SMap.get d (SMap.setRun d m a xs) b = d
  · by_contra hne
    exact hne (((key _ (fun h2 => hne (hx.trans h2.symm))).mpr rfl))
  · exact ((key _ hx).mp rfl).symm

end Sys2Proof.Laws
end

