-- ==== Sys2Proof/Laws/Memory.lean ====
section
/-! SUPPORT. What the operations over memory do: the value each byte, line and key reads as after a write, and that every one of
them keeps the canonical form. -/

namespace Sys2Proof.Laws

open Sys2Proof.Machine

theorem mem_wf_iff (m : Mem) :
    m.wf = true ↔ SMap.wf (0 : Byte) m.cells = true ∧ SMap.wf false m.poison = true ∧ SMap.wf 0 m.tags = true := by
  simp [Mem.wf, and_assoc]

/-! ## Bytes stored -/

theorem wf_putAll {m : Mem} (h : m.wf = true) (tag a : Nat) (bs : List (Option Byte)) : (m.putAll tag a bs).wf = true := by
  obtain ⟨h1, h2, h3⟩ := (mem_wf_iff m).mp h
  refine (mem_wf_iff _).mpr ⟨wf_setRun h1 a bs, h2, ?_⟩
  unfold Mem.putAll; dsimp only; split <;> exact wf_setRun h3 _ _

/-- A byte after bytes are stored from `a` on. -/
theorem byte_putAll {m : Mem} (h : m.wf = true) (tag a : Nat) (bs : List (Option Byte)) (b : Nat) :
    (m.putAll tag a bs).byte b =
      if a ≤ b then bs[b - a]?.join.getD (m.byte b) else m.byte b :=
  get_setRun ((mem_wf_iff m).mp h).1 a bs b

/-- Do bytes stored from `a` on store one at `b`. -/
def stores (a : Nat) (bs : List (Option Byte)) (b : Nat) : Bool := decide (a ≤ b) && (bs[b - a]?.join).isSome

theorem stores_in {a b : Nat} {bs : List (Option Byte)} (h : stores a bs b = true) : a ≤ b ∧ b < a + bs.length := by
  obtain ⟨h1, h2⟩ : a ≤ b ∧ _ := by simpa [stores] using h
  refine ⟨h1, ?_⟩
  by_contra hn
  simp [List.getElem?_eq_none (show bs.length ≤ b - a by omega)] at h2

/-- Do they store one in the 16-byte block of `b`. -/
def storesBlock (a : Nat) (bs : List (Option Byte)) (b : Nat) : Bool := (List.range 16).any fun k => stores a bs (b / 16 * 16 + k)

theorem storesBlock_false {a b : Nat} {bs : List (Option Byte)} (h : ∀ x, b / 16 * 16 ≤ x → x < b / 16 * 16 + 16 → stores a bs x = false) :
    storesBlock a bs b = false := by
  simp only [storesBlock, List.any_eq_false, List.mem_range]
  exact fun k hk => by simp [h _ (Nat.le_add_right _ k) (by omega)]

/-- R355: the keys of a write's blocks: of the bytes that it stores, and of those that it leaves under another key. -/
theorem blockKeys_getElem? (m : Mem) (tag a : Nat) (bs : List (Option Byte)) (b : Nat) (hb : a / 16 * 16 ≤ b) :
    ((m.blockKeys tag a bs)[b - a / 16 * 16]?.join).getD (m.key b) =
      if stores a bs b then tag else if m.key b % 2 ^ 64 != tag && storesBlock a bs b then staleKey tag (m.key b) else m.key b := by
  have hx : a / 16 * 16 + (b - a / 16 * 16) = b := by omega
  by_cases hn : b - a / 16 * 16 < (a + bs.length + 15) / 16 * 16 - a / 16 * 16
  · simp only [Mem.blockKeys, List.getElem?_map, List.getElem?_range hn, Option.map_some, Option.join_some, hx]
    change (if stores a bs b = true then some tag else if (m.key b % 2 ^ 64 != tag && storesBlock a bs b) = true
      then some (staleKey tag (m.key b)) else none).getD (m.key b) = _
    split
    · rfl
    · split <;> rfl
  · have hs : ∀ x, b / 16 * 16 ≤ x → stores a bs x = false := fun x hx => by
      by_contra hs
      have := stores_in (by simpa using hs)
      omega
    rw [List.getElem?_eq_none (by simpa [Mem.blockKeys] using hn), hs b (by omega), storesBlock_false fun x hx _ => hs x hx]
    simp

/-- R355: the key of a byte after bytes are stored from `a` on. -/
theorem key_putAll {m : Mem} (h : m.wf = true) (tag a : Nat) (bs : List (Option Byte)) (b : Nat) :
    (m.putAll tag a bs).key b =
      if stores a bs b then tag
      else if decide (a < 2 ^ 52) && (m.key b % 2 ^ 64 != tag && storesBlock a bs b) then staleKey tag (m.key b) else m.key b := by
  have h3 := ((mem_wf_iff m).mp h).2.2
  by_cases ha : a < 2 ^ 52
  · have e : (m.putAll tag a bs).key b = SMap.get 0 (SMap.setRun 0 m.tags (a / 16 * 16) (m.blockKeys tag a bs)) b := by
      simp only [Mem.putAll, Mem.key, if_pos ha]
    rw [e, get_setRun h3, decide_eq_true ha, Bool.true_and]
    split
    · exact blockKeys_getElem? m tag a bs b ‹_›
    · have hs : ∀ x, x < a / 16 * 16 → stores a bs x = false := fun x hx => by
        by_contra hs
        have := stores_in (by simpa using hs)
        omega
      rw [hs b (by omega), storesBlock_false fun x _ hx => hs x (by omega)]
      simp [Mem.key]
  · have e : (m.putAll tag a bs).key b = SMap.get 0 (SMap.setRun 0 m.tags a (bs.map fun b => b.map fun _ => tag)) b := by
      simp only [Mem.putAll, Mem.key, if_neg ha]
    rw [e, get_setRun h3, List.getElem?_map, decide_eq_false ha, Bool.false_and]
    by_cases hab : a ≤ b
    · rcases hx : bs[b - a]? with _ | _ | x <;> simp [hab, hx, stores, Mem.key]
    · simp [hab, stores, Mem.key]

@[simp] theorem bad_putAll (m : Mem) (tag a : Nat) (bs : List (Option Byte)) (l : Nat) : (m.putAll tag a bs).bad l = m.bad l := rfl

/-! ## Poison -/

@[simp] theorem byte_setBad (m : Mem) (line : Nat) (b : Bool) (a : Nat) : (m.setBad line b).byte a = m.byte a := rfl
@[simp] theorem key_setBad (m : Mem) (line : Nat) (b : Bool) (a : Nat) : (m.setBad line b).key a = m.key a := rfl

theorem wf_setBad {m : Mem} (h : m.wf = true) (line : Nat) (b : Bool) : (m.setBad line b).wf = true := by
  obtain ⟨h1, h2, h3⟩ := (mem_wf_iff m).mp h
  exact (mem_wf_iff _).mpr ⟨h1, wf_set h2 line b, h3⟩

theorem bad_setBad {m : Mem} (h : m.wf = true) (line : Nat) (b : Bool) (l : Nat) :
    (m.setBad line b).bad l = if l = line then b else m.bad l :=
  (get_set ((mem_wf_iff m).mp h).2.1 line l b).trans (by rfl)

/-- Lines set or cleared one after another. -/
theorem foldl_setBad (f : Nat → Bool) (v : Bool) : ∀ (ls : List Nat) {m : Mem}, m.wf = true →
    (ls.foldl (fun m l => if f l then m.setBad l v else m) m).wf = true ∧
    (∀ a, (ls.foldl (fun m l => if f l then m.setBad l v else m) m).byte a = m.byte a) ∧
    (∀ a, (ls.foldl (fun m l => if f l then m.setBad l v else m) m).key a = m.key a) ∧
    (∀ l, (ls.foldl (fun m l => if f l then m.setBad l v else m) m).bad l = if l ∈ ls ∧ f l then v else m.bad l)
  | [], m, h => by simp [h]
  | x :: rest, m, h => by
    simp only [List.foldl_cons]
    have h2 : (if f x then m.setBad x v else m).wf = true := by split; exacts [wf_setBad h x v, h]
    obtain ⟨i1, i2, i3, i4⟩ := foldl_setBad f v rest h2
    refine ⟨i1, fun a => (i2 a).trans (by split <;> rfl), fun a => (i3 a).trans (by split <;> rfl), fun l => (i4 l).trans ?_⟩
    by_cases hr : l ∈ rest ∧ f l
    · simp [hr]
    · rw [if_neg hr]
      by_cases hl : l = x
      · subst hl
        by_cases hf : f l = true
        · simp [hf, bad_setBad h]
        · simp [hf]
      · have : ¬ (l ∈ x :: rest ∧ f l) := by simpa [hl] using hr
        rw [if_neg this]
        split
        · rw [bad_setBad h, if_neg hl]
        · rfl

/-! ## Writes -/

/-- Memory after the bytes of a write are stored and the lines it covers are clean (R245). -/
def cleaned (m : Mem) (w : MWrite) : Mem :=
  w.lines.foldl (fun m l => if w.covers l && !w.marks.contains l then m.setBad l false else m) (m.putAll w.tag w.addr (w.bytesOn m))

theorem apply_eq (m : Mem) (w : MWrite) :
    m.apply w = w.marks.foldl (fun m l => if (fun _ => true) l then m.setBad l true else m) (cleaned m w) := by
  simp [Mem.apply, cleaned]

theorem cleaned_spec {m : Mem} (h : m.wf = true) (w : MWrite) :
    (cleaned m w).wf = true ∧ (∀ a, (cleaned m w).byte a = (m.putAll w.tag w.addr (w.bytesOn m)).byte a) ∧
      (∀ a, (cleaned m w).key a = (m.putAll w.tag w.addr (w.bytesOn m)).key a) ∧
      ∀ l, (cleaned m w).bad l = if l ∈ w.lines ∧ (w.covers l && !w.marks.contains l) then false else m.bad l :=
  foldl_setBad (fun l => w.covers l && !w.marks.contains l) false w.lines (wf_putAll h w.tag w.addr (w.bytesOn m))

theorem wf_apply {m : Mem} (h : m.wf = true) (w : MWrite) : (m.apply w).wf = true := by
  rw [apply_eq]
  exact (foldl_setBad _ true w.marks (cleaned_spec h w).1).1

@[simp] theorem bytesOn_length (w : MWrite) (m : Mem) : (w.bytesOn m).length = w.data.length := by
  unfold MWrite.bytesOn; split <;> simp

/-- R245: a byte after a write. -/
theorem byte_apply {m : Mem} (h : m.wf = true) (w : MWrite) (b : Nat) :
    (m.apply w).byte b =
      if w.addr ≤ b then (w.bytesOn m)[b - w.addr]?.join.getD (m.byte b) else m.byte b := by
  rw [apply_eq, (foldl_setBad _ true w.marks (cleaned_spec h w).1).2.1, (cleaned_spec h w).2.1, byte_putAll h]

/-- R355: the key of a byte after a write. -/
theorem key_apply {m : Mem} (h : m.wf = true) (w : MWrite) (b : Nat) :
    (m.apply w).key b = (m.putAll w.tag w.addr (w.bytesOn m)).key b := by
  rw [apply_eq, (foldl_setBad _ true w.marks (cleaned_spec h w).1).2.2.1, (cleaned_spec h w).2.2.1]

/-- R245: a line's poison after a write. -/
theorem bad_apply {m : Mem} (h : m.wf = true) (w : MWrite) (l : Nat) :
    (m.apply w).bad l = if l ∈ w.marks then true else if l ∈ w.lines ∧ w.covers l then false else m.bad l := by
  rw [apply_eq, (foldl_setBad _ true w.marks (cleaned_spec h w).1).2.2.2, (cleaned_spec h w).2.2.2]
  by_cases hm : l ∈ w.marks <;> simp [hm]

/-- A byte outside a write's bytes keeps its value. -/
theorem byte_apply_out {m : Mem} (h : m.wf = true) (w : MWrite) {b : Nat} (hb : b < w.addr ∨ w.addr + w.data.length ≤ b) :
    (m.apply w).byte b = m.byte b := by
  rw [byte_apply h]
  split
  · rw [List.getElem?_eq_none (by simp only [bytesOn_length]; omega)]; rfl
  · rfl

theorem wf_over : ∀ (ws : List MWrite) {m : Mem}, m.wf = true → (m.over ws).wf = true
  | [], _, h => h
  | w :: rest, _, h => wf_over rest (wf_apply h w)

theorem wf_commit {s : State} (h : s.mem.wf = true) (w : MWrite) : (s.commit w).mem.wf = true := wf_apply h w

@[simp] theorem commitAll_mem : ∀ (ws : List MWrite) (s : State), (s.commitAll ws).mem = s.mem.over ws
  | [], _ => rfl
  | w :: rest, s => commitAll_mem rest (s.commit w)

theorem wf_commitAll {s : State} (h : s.mem.wf = true) (ws : List MWrite) : (s.commitAll ws).mem.wf = true := by
  rw [commitAll_mem]; exact wf_over ws h

/-- R102: bytes of a yard are what its addresses read as. -/
theorem span_eq {m : Mem} (h : m.wf = true) (a n : Nat) : m.span a n = (List.range n).map fun i => m.byte (a + i) :=
  run_dropWhile ((wf_iff _ _).mp ((mem_wf_iff m).mp h).1).1 n a

/-! ## Little-endian bytes (R7) -/

@[simp] theorem leBytes_length : ∀ (n v : Nat), (leBytes n v).length = n
  | 0, _ => rfl
  | n + 1, v => congrArg (· + 1) (leBytes_length n (v / 256))

/-- The value of a value's bytes. -/
theorem leNat_leBytes : ∀ (n v : Nat), leNat (leBytes n v) = v % 2 ^ (8 * n)
  | 0, v => by simp [leBytes, leNat, Nat.mod_one]
  | n + 1, v => by
    simp only [leBytes, leNat, leNat_leBytes n, BitVec.toNat_ofNat]
    rw [show 8 * (n + 1) = 8 + 8 * n by omega, pow_add, Nat.mod_mul]
    norm_num

theorem leNat_lt : ∀ bs : List Byte, leNat bs < 2 ^ (8 * bs.length)
  | [] => by simp [leNat]
  | b :: rest => by
    have := leNat_lt rest
    have := b.isLt
    simp only [leNat, List.length_cons, show 8 * (rest.length + 1) = 8 + 8 * rest.length by omega, pow_add]
    omega

/-- The bytes of a value of bytes. -/
theorem leBytes_leNat : ∀ bs : List Byte, leBytes bs.length (leNat bs) = bs
  | [] => rfl
  | b :: rest => by
    have hb := b.isLt
    have h1 : (b.toNat + 256 * leNat rest) / 256 = leNat rest := by omega
    simp only [List.length_cons, leBytes, leNat, h1, leBytes_leNat rest]
    congr 1
    apply BitVec.eq_of_toNat_eq
    simp only [BitVec.toNat_ofNat]
    omega

end Sys2Proof.Laws
end

