-- ==== Sys2Proof/Laws/Occur.lean ====
section
/-! SUPPORT. An event of the agenda is the instruction of the same row of the opcode table: `occur` answers what `exec` answers. -/

namespace Sys2Proof.Laws

open Sys2Proof Sys2Proof.Machine

theorem occur_vResultLand : ∀ core i (s : State), occur (.vResultLand core i) s = exec (.vResultLand core i) s := by intros; rfl
theorem occur_mWordComplete : ∀ core i (s : State), occur (.mWordComplete core i) s = exec (.mWordComplete core i) s := by intros; rfl
theorem occur_requestEnqueue : ∀ core stack (s : State), occur (.requestEnqueue core stack) s = exec (.requestEnqueue core stack) s := by intros; rfl
theorem occur_calendarSlotStart : ∀ stack errs (s : State), occur (.calendarSlotStart stack errs) s = exec (.calendarSlotStart stack errs) s := by intros; rfl
theorem occur_hbmReadLand : ∀ stack i (s : State), occur (.hbmReadLand stack i) s = exec (.hbmReadLand stack i) s := by intros; rfl
theorem occur_hbmWritePerformed : ∀ stack (s : State), occur (.hbmWritePerformed stack) s = exec (.hbmWritePerformed stack) s := by intros; rfl
theorem occur_atomicResponse : ∀ core (s : State), occur (.atomicResponse core) s = exec (.atomicResponse core) s := by intros; rfl
theorem occur_constFill : ∀ core i (s : State), occur (.constFill core i) s = exec (.constFill core i) s := by intros; rfl
theorem occur_copyBytesLand : ∀ core i j (s : State), occur (.copyBytesLand core i j) s = exec (.copyBytesLand core i j) s := by intros; rfl
theorem occur_anoteWrite : ∀ core i (s : State), occur (.anoteWrite core i) s = exec (.anoteWrite core i) s := by intros; rfl
theorem occur_waitaTimeout : ∀ core (s : State), occur (.waitaTimeout core) s = exec (.waitaTimeout core) s := by intros; rfl
theorem occur_handlerEntry : ∀ core (s : State), occur (.handlerEntry core) s = exec (.handlerEntry core) s := by intros; rfl
theorem occur_engineFault : ∀ core (s : State), occur (.engineFault core) s = exec (.engineFault core) s := by intros; rfl
theorem occur_preemptionRequest : ∀ core (s : State), occur (.preemptionRequest core) s = exec (.preemptionRequest core) s := by intros; rfl
theorem occur_copyAbort : ∀ core (s : State), occur (.copyAbort core) s = exec (.copyAbort core) s := by intros; rfl
theorem occur_granarySwap : ∀ core (s : State), occur (.granarySwap core) s = exec (.granarySwap core) s := by intros; rfl
theorem occur_saveAreaMove : ∀ sid launch slot (s : State), occur (.saveAreaMove sid launch slot) s = exec (.saveAreaMove sid launch slot) s := by intros; rfl
theorem occur_strandResume : ∀ i (s : State), occur (.strandResume i) s = exec (.strandResume i) s := by intros; rfl
theorem occur_strandStart : ∀ i (s : State), occur (.strandStart i) s = exec (.strandStart i) s := by intros; rfl
theorem occur_scheduleDecision : ∀ s : State, occur (.scheduleDecision) s = exec (.scheduleDecision) s := by intros; rfl
theorem occur_psliceExpiry : ∀ cluster (s : State), occur (.psliceExpiry cluster) s = exec (.psliceExpiry cluster) s := by intros; rfl
theorem occur_vtUpdate : ∀ s : State, occur (.vtUpdate) s = exec (.vtUpdate) s := by intros; rfl
theorem occur_haulRecordRead : ∀ chan (s : State), occur (.haulRecordRead chan) s = exec (.haulRecordRead chan) s := by intros; rfl
theorem occur_copy : ∀ chan i (s : State), occur (.copy chan i) s = exec (.copy chan i) s := by intros; rfl
theorem occur_copy2d : ∀ chan i (s : State), occur (.copy2d chan i) s = exec (.copy2d chan i) s := by intros; rfl
theorem occur_fill : ∀ chan i (s : State), occur (.fill chan i) s = exec (.fill chan i) s := by intros; rfl
theorem occur_pack : ∀ chan i (s : State), occur (.pack chan i) s = exec (.pack chan i) s := by intros; rfl
theorem occur_unpack : ∀ chan i (s : State), occur (.unpack chan i) s = exec (.unpack chan i) s := by intros; rfl
theorem occur_reduce : ∀ chan i (s : State), occur (.reduce chan i) s = exec (.reduce chan i) s := by intros; rfl
theorem occur_reduceArrival : ∀ cluster i (s : State), occur (.reduceArrival cluster i) s = exec (.reduceArrival cluster i) s := by intros; rfl
theorem occur_migrate : ∀ chan i (s : State), occur (.migrate chan i) s = exec (.migrate chan i) s := by intros; rfl
theorem occur_stow : ∀ chan i (s : State), occur (.stow chan i) s = exec (.stow chan i) s := by intros; rfl
theorem occur_note : ∀ chan i (s : State), occur (.note chan i) s = exec (.note chan i) s := by intros; rfl
theorem occur_scoutPass : ∀ chan refused (s : State), occur (.scoutPass chan refused) s = exec (.scoutPass chan refused) s := by intros; rfl
theorem occur_tableWalk : ∀ engine part addr wr refused (s : State), occur (.tableWalk engine part addr wr refused) s = exec (.tableWalk engine part addr wr refused) s := by intros; rfl
theorem occur_slabSend : ∀ core stack (s : State), occur (.slabSend core stack) s = exec (.slabSend core stack) s := by intros; rfl
theorem occur_slabArrival : ∀ stack (s : State), occur (.slabArrival stack) s = exec (.slabArrival stack) s := by intros; rfl
theorem occur_gsum : ∀ stack (s : State), occur (.gsum stack) s = exec (.gsum stack) s := by intros; rfl
theorem occur_gsearch : ∀ stack (s : State), occur (.gsearch stack) s = exec (.gsearch stack) s := by intros; rfl
theorem occur_subquery : ∀ stack (s : State), occur (.subquery stack) s = exec (.subquery stack) s := by intros; rfl
theorem occur_gsearchMerge : ∀ stack i (s : State), occur (.gsearchMerge stack i) s = exec (.gsearchMerge stack i) s := by intros; rfl
theorem occur_submit : ∀ part (s : State), occur (.submit part) s = exec (.submit part) s := by intros; rfl
theorem occur_cancel : ∀ part (s : State), occur (.cancel part) s = exec (.cancel part) s := by intros; rfl
theorem occur_verdict : ∀ part (s : State), occur (.verdict part) s = exec (.verdict part) s := by intros; rfl
theorem occur_invalidate : ∀ part (s : State), occur (.invalidate part) s = exec (.invalidate part) s := by intros; rfl
theorem occur_setPtroot : ∀ part (s : State), occur (.setPtroot part) s = exec (.setPtroot part) s := by intros; rfl
theorem occur_setShare : ∀ part (s : State), occur (.setShare part) s = exec (.setShare part) s := by intros; rfl
theorem occur_setPslice : ∀ part (s : State), occur (.setPslice part) s = exec (.setPslice part) s := by intros; rfl
theorem occur_setSeedQueues : ∀ part (s : State), occur (.setSeedQueues part) s = exec (.setSeedQueues part) s := by intros; rfl
theorem occur_setStagingPool : ∀ part (s : State), occur (.setStagingPool part) s = exec (.setStagingPool part) s := by intros; rfl
theorem occur_setSaveArea : ∀ part (s : State), occur (.setSaveArea part) s = exec (.setSaveArea part) s := by intros; rfl
theorem occur_setParkArea : ∀ part (s : State), occur (.setParkArea part) s = exec (.setParkArea part) s := by intros; rfl
theorem occur_curve : ∀ part (s : State), occur (.curve part) s = exec (.curve part) s := by intros; rfl
theorem occur_keyinst : ∀ part (s : State), occur (.keyinst part) s = exec (.keyinst part) s := by intros; rfl
theorem occur_extend : ∀ part (s : State), occur (.extend part) s = exec (.extend part) s := by intros; rfl
theorem occur_partitionCreate : ∀ part (s : State), occur (.partitionCreate part) s = exec (.partitionCreate part) s := by intros; rfl
theorem occur_partitionDestroy : ∀ part (s : State), occur (.partitionDestroy part) s = exec (.partitionDestroy part) s := by intros; rfl
theorem occur_fabricPackageNumber : ∀ part (s : State), occur (.fabricPackageNumber part) s = exec (.fabricPackageNumber part) s := by intros; rfl
theorem occur_fabricRoute : ∀ part (s : State), occur (.fabricRoute part) s = exec (.fabricRoute part) s := by intros; rfl
theorem occur_fabricImport : ∀ part (s : State), occur (.fabricImport part) s = exec (.fabricImport part) s := by intros; rfl
theorem occur_nodeStaging : ∀ graph node refused (s : State), occur (.nodeStaging graph node refused) s = exec (.nodeStaging graph node refused) s := by intros; rfl
theorem occur_launch : ∀ graph node (s : State), occur (.launch graph node) s = exec (.launch graph node) s := by intros; rfl
theorem occur_launchEnd : ∀ launch (s : State), occur (.launchEnd launch) s = exec (.launchEnd launch) s := by intros; rfl
theorem occur_stagedCopyBack : ∀ launch (s : State), occur (.stagedCopyBack launch) s = exec (.stagedCopyBack launch) s := by intros; rfl
theorem occur_completionEvent : ∀ part (s : State), occur (.completionEvent part) s = exec (.completionEvent part) s := by intros; rfl
theorem occur_commandEvent : ∀ part (s : State), occur (.commandEvent part) s = exec (.commandEvent part) s := by intros; rfl
theorem occur_strandFaultEvent : ∀ part (s : State), occur (.strandFaultEvent part) s = exec (.strandFaultEvent part) s := by intros; rfl
theorem occur_stallEvent : ∀ part (s : State), occur (.stallEvent part) s = exec (.stallEvent part) s := by intros; rfl
theorem occur_pagefaultEvent : ∀ part (s : State), occur (.pagefaultEvent part) s = exec (.pagefaultEvent part) s := by intros; rfl
theorem occur_noticeEvent : ∀ part (s : State), occur (.noticeEvent part) s = exec (.noticeEvent part) s := by intros; rfl
theorem occur_hostRegisterWrite : ∀ fn off val (s : State), occur (.hostRegisterWrite fn off val) s = exec (.hostRegisterWrite fn off val) s := by intros; rfl
theorem occur_hostWindowRead : ∀ fn off len (s : State), occur (.hostWindowRead fn off len) s = exec (.hostWindowRead fn off len) s := by intros; rfl
theorem occur_hostWindowWrite : ∀ fn off bytes (s : State), occur (.hostWindowWrite fn off bytes) s = exec (.hostWindowWrite fn off bytes) s := by intros; rfl
theorem occur_atsInvalidation : ∀ fn base len (s : State), occur (.atsInvalidation fn base len) s = exec (.atsInvalidation fn base len) s := by intros; rfl
theorem occur_flr : ∀ fn (s : State), occur (.flr fn) s = exec (.flr fn) s := by intros; rfl
theorem occur_packageReset : ∀ powerOn bad (s : State), occur (.packageReset powerOn bad) s = exec (.packageReset powerOn bad) s := by intros; rfl
theorem occur_getVersion : ∀ fn (s : State), occur (.getVersion fn) s = exec (.getVersion fn) s := by intros; rfl
theorem occur_getCapabilities : ∀ fn (s : State), occur (.getCapabilities fn) s = exec (.getCapabilities fn) s := by intros; rfl
theorem occur_negotiateAlgorithms : ∀ fn (s : State), occur (.negotiateAlgorithms fn) s = exec (.negotiateAlgorithms fn) s := by intros; rfl
theorem occur_getDigests : ∀ fn (s : State), occur (.getDigests fn) s = exec (.getDigests fn) s := by intros; rfl
theorem occur_getCertificate : ∀ fn slot off len (s : State), occur (.getCertificate fn slot off len) s = exec (.getCertificate fn slot off len) s := by intros; rfl
theorem occur_challenge : ∀ fn nonce (s : State), occur (.challenge fn nonce) s = exec (.challenge fn nonce) s := by intros; rfl
theorem occur_getMeasurements : ∀ fn index nonce (s : State), occur (.getMeasurements fn index nonce) s = exec (.getMeasurements fn index nonce) s := by intros; rfl
theorem occur_spdmUnsupportedRequest : ∀ fn code (s : State), occur (.spdmUnsupportedRequest fn code) s = exec (.spdmUnsupportedRequest fn code) s := by intros; rfl
theorem occur_syndromeRead : ∀ fn dw0 dw1 (s : State), occur (.syndromeRead fn dw0 dw1) s = exec (.syndromeRead fn dw0 dw1) s := by intros; rfl
theorem occur_syndromeClear : ∀ fn dw0 dw1 (s : State), occur (.syndromeClear fn dw0 dw1) s = exec (.syndromeClear fn dw0 dw1) s := by intros; rfl
theorem occur_flitReceive : ∀ port flit (s : State), occur (.flitReceive port flit) s = exec (.flitReceive port flit) s := by intros; rfl
theorem occur_linkTraining : ∀ port peerPkg peerPort lanes (s : State), occur (.linkTraining port peerPkg peerPort lanes) s = exec (.linkTraining port peerPkg peerPort lanes) s := by intros; rfl
theorem occur_laneRetire : ∀ port lane (s : State), occur (.laneRetire port lane) s = exec (.laneRetire port lane) s := by intros; rfl
theorem occur_peerAccess : ∀ srcPkg srcPart addr bytes len (s : State), occur (.peerAccess srcPkg srcPart addr bytes len) s = exec (.peerAccess srcPkg srcPart addr bytes len) s := by intros; rfl
theorem occur_marketClear : ∀ pmeas outside temps (s : State), occur (.marketClear pmeas outside temps) s = exec (.marketClear pmeas outside temps) s := by intros; rfl
theorem occur_curveSlowEvent : ∀ seq ev (s : State), occur (.curveSlowEvent seq ev) s = exec (.curveSlowEvent seq ev) s := by intros; rfl
theorem occur_curveParkEvent : ∀ seq ev (s : State), occur (.curveParkEvent seq ev) s = exec (.curveParkEvent seq ev) s := by intros; rfl
theorem occur_curveShedEvent : ∀ seq ev (s : State), occur (.curveShedEvent seq ev) s = exec (.curveShedEvent seq ev) s := by intros; rfl
theorem occur_droopStretch : ∀ cluster cycles (s : State), occur (.droopStretch cluster cycles) s = exec (.droopStretch cluster cycles) s := by intros; rfl
theorem occur_guardBreach : ∀ cluster cycles (s : State), occur (.guardBreach cluster cycles) s = exec (.guardBreach cluster cycles) s := by intros; rfl
theorem occur_stallHoldEnd : ∀ core (s : State), occur (.stallHoldEnd core) s = exec (.stallHoldEnd core) s := by intros; rfl
theorem occur_clusterGate : ∀ cluster (s : State), occur (.clusterGate cluster) s = exec (.clusterGate cluster) s := by intros; rfl
theorem occur_dieGate : ∀ die (s : State), occur (.dieGate die) s = exec (.dieGate die) s := by intros; rfl
theorem occur_diePowerUp : ∀ die (s : State), occur (.diePowerUp die) s = exec (.diePowerUp die) s := by intros; rfl
theorem occur_hotMigration : ∀ s : State, occur (.hotMigration) s = exec (.hotMigration) s := by intros; rfl
theorem occur_bankRetire : ∀ stack pc bank (s : State), occur (.bankRetire stack pc bank) s = exec (.bankRetire stack pc bank) s := by intros; rfl
theorem occur_siloScrub : ∀ line err (s : State), occur (.siloScrub line err) s = exec (.siloScrub line err) s := by intros; rfl
theorem occur_sramScrub : ∀ unit core index err (s : State), occur (.sramScrub unit core index err) s = exec (.sramScrub unit core index err) s := by intros; rfl
theorem occur_eccWriteback : ∀ line (s : State), occur (.eccWriteback line) s = exec (.eccWriteback line) s := by intros; rfl
theorem occur_heartbeatTimeout : ∀ die bad (s : State), occur (.heartbeatTimeout die bad) s = exec (.heartbeatTimeout die bad) s := by intros; rfl
theorem occur_fatalDieError : ∀ die cause bad (s : State), occur (.fatalDieError die cause bad) s = exec (.fatalDieError die cause bad) s := by intros; rfl
theorem occur_accessResponse : ∀ core i (s : State), occur (.accessResponse core i) s = exec (.accessResponse core i) s := by intros; rfl
theorem occur_preIssueRead : ∀ core (s : State), occur (.preIssueRead core) s = exec (.preIssueRead core) s := by intros; rfl
theorem occur_constantPathDiscard : ∀ core (s : State), occur (.constantPathDiscard core) s = exec (.constantPathDiscard core) s := by intros; rfl
theorem occur_clusterPowerUp : ∀ cluster (s : State), occur (.clusterPowerUp cluster) s = exec (.clusterPowerUp cluster) s := by intros; rfl
theorem occur_badCommand : ∀ part (s : State), occur (.badCommand part) s = exec (.badCommand part) s := by intros; rfl

end Sys2Proof.Laws
end

