-- ==== Sys2Proof/Laws/Sched.lean ====
section
/-! SUPPORT. What the scheduler's operations leave alone. -/

namespace Sys2Proof.Machine

/-- A fold whose every step keeps the state keeps it. -/
theorem foldl_same {α β : Type} (f : β → α → β) (b : β) : ∀ l : List α, (∀ a ∈ l, f b a = b) → l.foldl f b = b
  | [], _ => rfl
  | a :: l, h => by rw [List.foldl_cons, h a List.mem_cons_self]; exact foldl_same f b l fun x m => h x (List.mem_cons_of_mem a m)

/-- R282, R396: no seed is discarded where each one's launch lives and its queue entry lies on no poisoned line. -/
theorem State.discardSeeds_same (s : State)
    (h : ∀ p : Fin 64, ∀ sd ∈ s.parts[p].queues.toList.flatten, (s.launch? sd.launch).any (fun l => l.ending == .live) = true ∧ ((s.storeAt p sd.phys).any fun a => s.mem.bad (lineOf a)) = false) :
    s.discardSeeds = s := by
  unfold State.discardSeeds
  refine foldl_same _ _ _ fun p _ => foldl_same _ _ _ fun sd m => ?_
  obtain ⟨live, clean⟩ := h p sd m
  match e : s.launch? sd.launch with
  | none => simp [e] at live
  | some l => simp_all [bne]

end Sys2Proof.Machine
end

