-- ==== Sys2Proof/Tests/Slice0.lean ====
section
/-! SUPPORT. Tests. Words written out bit by bit from the spec's tables and what they decode to; an ill-formed term for each check of
well-formedness; for every statement that has hypotheses a state and operands that meet them together (`meets_…`), at the boundaries of its
clauses; and a few single steps with values that the spec gives. -/

namespace Sys2Proof.Tests
open Sys2Proof Sys2Proof.Machine Sys2Proof.Safety

-- One test at a time: each is checked by evaluation, and a thread for each would take the memory of all.
set_option Elab.async false

/-- Each word, read by a slot, is the instruction beside it. -/
def reads (sl : Slot) (l : List (W32 × Instr)) : Bool := l.all fun x => match decodeWord sl x.1 with | .ok i => decide (i = x.2) | .error _ => false

theorem test_decodesS1 : reads .s
    [(0b0_000001_00010_00011_00100_0000000000, .add false 2 3 4),
     (0b1_000001_00010_00011_00100_0000000001, .sub true 2 3 4),
     (0b0_000001_00010_00011_00100_0000000010, .mul false 2 3 4),
     (0b1_000001_00010_00011_00100_0000000011, .mulh true 2 3 4),
     (0b0_000001_00010_00011_00100_0000000100, .mulhu false 2 3 4),
     (0b1_000001_00010_00011_00100_0000000101, .div true 2 3 4),
     (0b0_000001_00010_00011_00100_0000000110, .divu false 2 3 4),
     (0b1_000001_00010_00011_00100_0000000111, .rem true 2 3 4),
     (0b0_000001_00010_00011_00100_0000001000, .remu false 2 3 4),
     (0b1_000001_00010_00011_00100_0000001001, .and_ true 2 3 4),
     (0b0_000001_00010_00011_00100_0000001010, .or_ false 2 3 4),
     (0b1_000001_00010_00011_00100_0000001011, .xor_ true 2 3 4),
     (0b0_000001_00010_00011_00100_0000001100, .andn false 2 3 4),
     (0b1_000001_00010_00011_00100_0000001101, .shl true 2 3 4),
     (0b0_000001_00010_00011_00100_0000001110, .shr false 2 3 4),
     (0b1_000001_00010_00011_00100_0000001111, .shra true 2 3 4),
     (0b0_000001_00010_00011_00100_0000010000, .ror false 2 3 4),
     (0b1_000001_00010_00011_00100_0000010001, .min_ true 2 3 4),
     (0b0_000001_00010_00011_00100_0000010010, .max_ false 2 3 4),
     (0b1_000001_00010_00011_00100_0000010011, .minu true 2 3 4),
     (0b0_000001_00010_00011_00100_0000010100, .maxu false 2 3 4),
     (0b1_000001_00010_00011_00100_0000010101, .slt true 2 3 4),
     (0b0_000001_00010_00011_00100_0000010110, .sltu false 2 3 4),
     (0b1_000001_00010_00011_00100_0000010111, .seq true 2 3 4),
     (0b0_000001_00010_00011_00100_0000011000, .sne false 2 3 4),
     (0b1_000001_00010_00011_000000000011001, .clz true 2 3),
     (0b0_000001_00010_00011_000000000011010, .ctz false 2 3),
     (0b1_000001_00010_00011_000000000011011, .popc true 2 3),
     (0b0_000001_00010_00011_00010_0000011100, .sext false 2 3 2),
     (0b1_000001_00010_00011_00010_0000011101, .zext true 2 3 2),
     (0b0_000001_00010_00011_00100_0000011110, .cmov false 2 3 4),
     (0b1_000010_00010_00011_101001011010010, .addi true 2 3 21202),
     (0b0_000011_00010_00011_101001011010010, .andi false 2 3 21202),
     (0b1_000100_00010_00011_101001011010010, .ori true 2 3 21202),
     (0b0_000101_00010_00011_101001011010010, .xori false 2 3 21202),
     (0b1_000110_00010_00011_000000000_000100, .shli true 2 3 4),
     (0b0_000110_00010_00011_010000000_000100, .shri false 2 3 4),
     (0b1_000110_00010_00011_100000000_000100, .shrai true 2 3 4),
     (0b0_000111_00010_00011_101001011010010, .slti false 2 3 21202),
     (0b1_001000_00010_00011_101001011010010, .sltiu true 2 3 21202),
     (0b0_001001_00010_11_0_0_1101001011010010, .movh false 2 3 0 53970),
     (0b1_001010_00010_00011_101001011010010, .muli true 2 3 21202),
     (0b0_010000_00010_00011_101001011010010, .beq false 2 3 21202),
     (0b1_010001_00010_00011_101001011010010, .bne true 2 3 21202),
     (0b0_010010_00010_00011_101001011010010, .blt false 2 3 21202),
     (0b1_010011_00010_00011_101001011010010, .bge true 2 3 21202),
     (0b0_010100_00010_00011_101001011010010, .bltu false 2 3 21202),
     (0b1_010101_00010_00011_101001011010010, .bgeu true 2 3 21202)] = true := by decide +kernel

theorem test_decodesS2 : reads .s
    [(0b0_010110_0010_000000_101001011010010, .bpany false 2 21202),
     (0b1_010111_0010_000000_101001011010010, .bpall true 2 21202),
     (0b0_011000_1010100101101001011010010, .jmp false 22205138),
     (0b1_011001_1010100101101001011010010, .call true 22205138),
     (0b0_011010_00010_00011_101001011010010, .jr false 2 3 21202),
     (0b1_011011_00010_00000_101001011010010, .loop true 2 21202),
     (0b0_011100_00010_000011_00000000000000, .lbuf false 2 3),
     (0b1_100000_00010_00011_00_011_1011010010, .ld true 2 3 0 3 722),
     (0b0_100001_00010_00011_00_011_1011010010, .ldu false 2 3 0 3 722),
     (0b1_100010_00010_00011_00_011_1011010010, .st true 2 3 0 3 722),
     (0b0_100011_00010_00011_00_000_1011010010, .ldk false 2 3 0 722),
     (0b1_100100_00010_00011_00100_0000_1_0_11_0_1, .amoadd true 2 3 4 1 0 3 0 1),
     (0b0_100100_00010_00011_00100_0001_1_0_11_0_1, .amoand false 2 3 4 1 0 3 0 1),
     (0b1_100100_00010_00011_00100_0010_1_0_11_0_1, .amoor true 2 3 4 1 0 3 0 1),
     (0b0_100100_00010_00011_00100_0011_1_0_11_0_1, .amoxor false 2 3 4 1 0 3 0 1),
     (0b1_100100_00010_00011_00100_0100_1_0_11_0_1, .amomin true 2 3 4 1 0 3 0 1),
     (0b0_100100_00010_00011_00100_0101_1_0_11_0_1, .amomax false 2 3 4 1 0 3 0 1),
     (0b1_100100_00010_00011_00100_0110_1_0_11_0_1, .amominu true 2 3 4 1 0 3 0 1),
     (0b0_100100_00010_00011_00100_0111_1_0_11_0_1, .amomaxu false 2 3 4 1 0 3 0 1),
     (0b1_100100_00010_00011_00100_1000_1_0_11_0_1, .amoswap true 2 3 4 1 0 3 0 1),
     (0b0_100101_00010_00011_00100_0000_1_0_11_0_1, .cas false 2 3 4 1 0 3 0 1),
     (0b1_10011000000000000000_10_000000000, .fence true 2),
     (0b0_100111_0000010_0000011_00_000000000, .fencex false 2 3 0),
     (0b1_1010000000000000000000000000000, .fencek true),
     (0b0_10100100000_00010_000000000000000, .watch false 2),
     (0b1_101010_00010_00011_000000000000000, .waita true 2 3),
     (0b0_110000_0010_000000000000000000000, .sig false 2),
     (0b1_110001_0010_11010010_0000000000000, .waitf true 2 210),
     (0b0_11001000000_00010_00011_00000000_10, .send false 2 3 2),
     (0b1_110011_00010_00000000000000000000, .recv true 2),
     (0b0_110100_00010_0000000000_0001010001, .csrr false 2 81),
     (0b1_11010100000_00010_00000_0001010001, .csrw true 2 81),
     (0b0_11011000000_00010_000000000000_011, .sow false 2 3),
     (0b1_11011100000_00010_000000000000000, .join true 2),
     (0b0_1110000000000000000000000000000, .done_ false),
     (0b1_1110010000000000000000000000000, .yield true),
     (0b0_111010000000000000000_1011010010, .trap false 722),
     (0b1_1110110000000000000000000000000, .tret true),
     (0b0_111100_00010_00011_00000000000000_0, .locq false 2 3 0),
     (0b1_11110100000_00010_0000000000000_11, .mts true 2 3),
     (0b0_1111100000000000000000000000000, .nop false)] = true := by decide +kernel

theorem test_decodesV1 : reads .v
    [(0b0_000001_0010_0011_0100_0101_000000000, .vadd false 2 3 4 5),
     (0b1_000001_0010_0011_0100_0101_000000001, .vsub true 2 3 4 5),
     (0b0_000001_0010_0011_0100_0101_000000010, .vmul false 2 3 4 5),
     (0b1_000001_0010_0011_0100_0101_000000011, .vfma true 2 3 4 5),
     (0b0_000001_0010_0011_0100_0101_000000100, .vfms false 2 3 4 5),
     (0b1_000001_0010_0011_0100_0101_000000101, .vmin true 2 3 4 5),
     (0b0_000001_0010_0011_0100_0101_000000110, .vmax false 2 3 4 5),
     (0b1_000001_0010_0011_0000_0100_000000111, .vabs true 2 3 4),
     (0b0_000001_0010_0011_0000_0100_000001000, .vneg false 2 3 4),
     (0b1_000010_0010_0011_0100_0101_000000000, .viadd true 2 3 4 5),
     (0b0_000010_0010_0011_0100_0101_000000001, .visub false 2 3 4 5),
     (0b1_000010_0010_0011_0100_0101_000000010, .vimul true 2 3 4 5),
     (0b0_000010_0010_0011_0100_0101_000000011, .vimulh false 2 3 4 5),
     (0b1_000010_0010_0011_0100_0101_000000100, .vand true 2 3 4 5),
     (0b0_000010_0010_0011_0100_0101_000000101, .vor false 2 3 4 5),
     (0b1_000010_0010_0011_0100_0101_000000110, .vxor true 2 3 4 5),
     (0b0_000010_0010_0011_0100_0101_000000111, .vandn false 2 3 4 5),
     (0b1_000010_0010_0011_0100_0101_000001000, .vshl true 2 3 4 5),
     (0b0_000010_0010_0011_0100_0101_000001001, .vshr false 2 3 4 5),
     (0b1_000010_0010_0011_0100_0101_000001010, .vshra true 2 3 4 5),
     (0b0_000010_0010_0011_0100_0101_000001011, .vimin false 2 3 4 5),
     (0b1_000010_0010_0011_0100_0101_000001100, .vimax true 2 3 4 5),
     (0b0_000010_0010_0011_0100_0101_000001101, .viminu false 2 3 4 5),
     (0b1_000010_0010_0011_0100_0101_000001110, .vimaxu true 2 3 4 5),
     (0b0_000010_0010_0011_0100_0101_000001111, .viadds false 2 3 4 5),
     (0b1_000010_0010_0011_0100_0101_000010000, .visubs true 2 3 4 5),
     (0b0_000011_0010_0011_0100_0101_00000_0110, .vcmp false 2 3 4 5 6),
     (0b1_000100_0010_0011_0100_0101_000000000, .vsel true 2 3 4 5),
     (0b0_000101_0010_0011_0000_0100_000000000, .vexp2 false 2 3 4),
     (0b1_000101_0010_0011_0000_0100_000000001, .vlog2 true 2 3 4),
     (0b0_000101_0010_0011_0000_0100_000000010, .vrcp false 2 3 4),
     (0b1_000101_0010_0011_0000_0100_000000011, .vrsq true 2 3 4),
     (0b0_000101_0010_0011_0000_0100_000000100, .vsqrt false 2 3 4),
     (0b1_000101_0010_0011_0000_0100_000000101, .vsin true 2 3 4),
     (0b0_000101_0010_0011_0000_0100_000000110, .vcos false 2 3 4),
     (0b1_000101_0010_0011_0000_0100_000000111, .vtanh true 2 3 4),
     (0b0_000101_0010_0011_0000_0100_000001000, .vsigm false 2 3 4),
     (0b1_000110_0010_0011_0100_0101_0110_11_0_00, .vcvt true 2 3 4 5 6 3 0),
     (0b0_000111_0010_0011_0100_0101_0110_00000, .vqmx false 2 3 4 5 6),
     (0b1_001000_0010_0011_0100_0101_0110_11_0_00, .vdqmx true 2 3 4 5 6 3 0),
     (0b0_001001_0010_0011_0000_0100_000_000101, .vrotr false 2 3 4 5),
     (0b1_001010_0010_0011_0000_0100_00000_0101, .vrotc true 2 3 4 5),
     (0b0_001011_0010_0011_0000_0100_000_000101, .vbcr false 2 3 4 5),
     (0b1_001100_0010_0011_0000_0100_00000_0101, .vbcc true 2 3 4 5),
     (0b0_001101_0010_0011_0000_0100_010_000000, .vredr false 2 3 4 2),
     (0b1_001110_0010_0011_0000_0100_010_000000, .vredc true 2 3 4 2),
     (0b0_001111_0010_0011_0000_0100_010_000000, .vscanr false 2 3 4 2),
     (0b1_010000_0010_0011_0000_0100_010_000000, .vscanc true 2 3 4 2)] = true := by decide +kernel

theorem test_decodesV2 : reads .v
    [(0b0_010001_0010_0011_0000_0100_000000000, .vtrn false 2 3 4),
     (0b1_010010_0010_00011_100_0101_011010010, .vld true 2 3 4 5 210),
     (0b0_010011_0010_00011_100_0101_011010010, .vst false 2 3 4 5 210),
     (0b1_010100_0010_00011_000_0100_011010010, .vldk true 2 3 4 210),
     (0b0_010101_0010_00000000_0011_000000000, .vmovq false 2 3),
     (0b1_010110_0010_0011_00000000_000100_000, .vret true 2 3 4),
     (0b0_010111_0010_11010010_0100_11010010_0, .vimm false 2 210 4 210),
     (0b1_010111_0010_11010010_0100_11010010_1, .vimmHi true 2 210 4 210),
     (0b0_011000_0010_0011_0100_0000000000000, .pand false 2 3 4),
     (0b1_011000_0010_0011_0100_0000000000001, .por true 2 3 4),
     (0b0_011000_0010_0011_0100_0000000000010, .pxor false 2 3 4),
     (0b1_011000_0010_0011_0100_0000000000011, .pandn true 2 3 4),
     (0b0_011000_0010_0011_00000000000000100, .pnot false 2 3),
     (0b1_011000_0010_000000000000000000101, .pset true 2),
     (0b0_011000_0010_000000000000000000110, .pclr false 2),
     (0b1_011010000000000000_1001011010010, .vsetsh true 4818),
     (0b0_011010_00010_00000000000000000000, .vsetshReg false 2),
     (0b1_011011_0010_000000000000000000000, .vsig true 2),
     (0b0_011100_0010_11010010_0000000000000, .vwaitf false 2 210),
     (0b1_011101_00010_000011_00000000000000, .vlbuf true 2 3),
     (0b0_0111100000000000000000000000000, .vnop false),
     (0b1_1111110000000000000000000000000, .end_ true)] = true := by decide +kernel

theorem test_decodesM : reads .m
    [(0b0_000001_0010_0011_100_1_0000000000000, .mwl false 2 3 4 1),
     (0b1_000010_0010_0011_00000000000000000, .mswap true 2 3),
     (0b0_000011_0010_0011_100_00000000000000, .mscl false 2 3 4),
     (0b1_000100_0010_0011_100_01_110_000000000, .mma true 2 3 4 1 6),
     (0b0_000101_0010_0011_100_01_110_000000000, .mmas false 2 3 4 1 6),
     (0b1_000110_0010_0011_000_00_101_000000000, .mzero true 2 3 0 5),
     (0b0_000111_0010_0011_100_01_110_0111_00000, .mdrain false 2 3 4 1 6 7),
     (0b1_00100000000000_11010010_011010010, .mrep true 210 210),
     (0b0_001001_0010_0011_100_00000000000000, .mseta false 2 3 4),
     (0b1_001001_0010_0011_100_1_1001011010010, .msetaImm true 2 3 4 4818),
     (0b0_001010_0010_0011_100_01001011010010, .madda false 2 3 4 4818),
     (0b1_001011_0010_0011_00000000000000000, .mnop true 2 3)] = true := by decide +kernel

theorem test_decodesH : reads .h
    [(0b0_000001_00010_00011_00100_101_100_011_0, .acopy false 2 3 4 5 4 3),
     (0b1_000010_00010_00011_00100_101_100_011_0, .acopy2 true 2 3 4 5 4 3),
     (0b0_000011_00010_00011_00100_101_100_011_0, .agath false 2 3 4 5 4 3),
     (0b1_000100_00010_00011_00100_101_100_011_0, .ascat true 2 3 4 5 4 3),
     (0b0_000101_00010_00011_00100_101_100_011_0, .amcast false 2 3 4 5 4 3),
     (0b1_00011000000_00010_00011_100_0000000, .anote true 2 3 4),
     (0b0_000111_11010010_00000000000000000, .twait false 210),
     (0b1_001000_00010_0000000000_011_0000000, .tpend true 2 3),
     (0b0_00100100000_00010_00011_0000000000, .haulgo false 2 3),
     (0b1_00101000000_00010_00011_0000000000, .qpost true 2 3),
     (0b0_001011_00010_00011_00100_0000000000, .hadd false 2 3 4),
     (0b1_001011_00010_00011_000001_0_1_0000000, .haddQueue true 2 3 0 1),
     (0b0_001100_00010_00011_101001011010010, .haddi false 2 3 21202),
     (0b1_001101_00010_11_0_0_1101001011010010, .hmovh true 2 3 0 53970),
     (0b0_001110_10_000_00011_00100_0000000000, .hsend false 2 3 4),
     (0b1_001111_0010_000000000000000000000, .hsig true 2),
     (0b0_010000_0010_11010010_0000000000000, .hwaitf false 2 210),
     (0b1_010001_00010_000011_00000000000000, .hlbuf true 2 3),
     (0b0_010010_00010_1_00100_00000000000000, .abfmt false 2 1 4),
     (0b1_0100110000000000000000000000000, .hnop true)] = true := by decide +kernel

/-! Well-formedness: for each check a term that it refuses, beside the last one that it takes (R67, R71, R78 to R85). -/

theorem test_wfWidth : (Instr.sext false 1 2 2).wf = true ∧ (Instr.sext false 1 2 3).wf = false ∧ (Instr.zext false 1 2 31).wf = false := by decide

theorem test_wfPredicate : (Instr.bpany false 11 4).wf = true ∧ (Instr.bpany false 12 4).wf = false ∧ (Instr.bpall false 15 4).wf = false ∧ (Instr.pand false 0 1 12).wf = false ∧ (Instr.pnot false 12 0).wf = false := by decide

theorem test_wfSpace : (Instr.ld false 1 2 3 4 0).wf = true ∧ (Instr.ld false 1 2 3 5 0).wf = false ∧ (Instr.acopy false 1 2 3 0 0 5).wf = false ∧ (Instr.acopy false 1 2 3 0 7 0).wf = false := by decide

theorem test_wfVectorSpace : (Instr.vld false 1 2 4 15 0).wf = true ∧ (Instr.vld false 1 2 0 15 0).wf = false ∧ (Instr.vld false 1 2 2 15 0).wf = false := by decide

theorem test_wfQueue : (Instr.send false 1 2 3).wf = true ∧ (Instr.send false 1 2 0).wf = false := by decide

theorem test_wfHQueue : (Instr.hsend false 2 1 2).wf = true ∧ (Instr.hsend false 0 1 2).wf = false ∧ (Instr.hsend false 3 1 2).wf = false := by decide

theorem test_wfCondition : (Instr.vcmp false 1 2 3 15 8).wf = true ∧ (Instr.vcmp false 1 2 3 15 9).wf = false ∧ (Instr.vcmp false 12 2 3 15 0).wf = false := by decide

theorem test_wfAxis : (Instr.vredr false 1 2 15 2).wf = true ∧ (Instr.vredr false 1 2 15 3).wf = false ∧ (Instr.vscanc false 1 2 15 7).wf = false := by decide

theorem test_wfGoverning : (Instr.vadd false 1 2 3 11).wf = true ∧ (Instr.vadd false 1 2 3 12).wf = false ∧ (Instr.vsel false 1 2 3 14).wf = false := by decide

theorem test_wfControl : (Instr.csrr false 1 0xB).wf = true ∧ (Instr.csrr false 1 0xC).wf = false ∧ (Instr.csrw false 1 0x15).wf = false ∧ (Instr.csrr false 1 0x80).wf = false := by decide

theorem test_wfShape : (Instr.vsetshReg false 1).wf = true ∧ (Instr.vsetshReg false 0).wf = false := by decide

/-- R88: reserved codes of opcodes, functions and fields are ILLEGAL, and a reserved field that is not zero is RESERVED_NONZERO. -/
theorem test_refused :
    decodeWord .s 0 = .error .illegal ∧ decodeWord .s 0x0200001F = .error .illegal ∧ decodeWord .s (0x0200001C ||| 3 <<< 10) = .error .illegal ∧ decodeWord .v 0 = .error .illegal ∧ decodeWord .m 0 = .error .illegal ∧ decodeWord .h 0 = .error .illegal ∧
      decodeWord .s 0x7C000001 = .error .reservedNonzero := by decide +kernel

/-- A field of the launch that stands on core 0: 64 KiB from a device address, of a tier, constant or of a cluster slot where said. -/
def field (idx vbase : Nat) (tier : BitVec 2) (konst : Bool) (slot : Option Nat) : FieldEnt :=
  { handField with idx := idx, vbase := vbase, tier := tier, konst := konst, slot := slot, pbase := 16, peer := 5 }

/-- The state of the tests: a strand on core 0 whose slots stand at a word, its launch with fields in HBM from 2^32, the silo from 2^33, constants in the
silo from 2^34, its own yard from 2^35, host and a peer beyond; `sl` is to try the word, and `f` and `g` change strand and state. -/
def at_ (sl : Slot) (w : W32) (f : Strand → Strand) (g : State → State) : State :=
  let s := State.reset.placeWord sl w
  let fs : List FieldEnt := [handField, field 1 (2 ^ 33) 1 false none, field 2 (2 ^ 34) 1 true none, field 3 (2 ^ 35) 0 false (some 0), field 4 (2 ^ 36) 2 false none,
    field 5 (2 ^ 37) 3 false none]
  let s : State := { s with launches := s.launches.map fun (l : Launch) => ({ l with fields := fs } : Launch) }
  g (match s.strand? 0 with | some st => { s.setSt 0 (f st) with cur := { core := 0, slot := sl } } | none => s)

/-- Registers of a strand set. -/
def xs (l : List (Nat × Nat)) (st : Strand) : Strand := l.foldl (fun t r => { t with x := t.x.set! r.1 (BitVec.ofNat 64 r.2) }) st

/-- Registers poisoned. -/
def px (l : List Nat) (st : Strand) : Strand := { st with xbad := l.foldl (fun m r => m ||| (1#32 <<< r)) 0 }

/-- A word that names these registers issues on the state, and its strand meets a condition. -/
def can (sl : Slot) (flow : Bool) (regs : List (BitVec 5)) (f : Strand → Strand) (p : State → Strand → Bool) : Bool :=
  let s := at_ sl 0 f id
  match issuer s sl false flow regs with | some st => p s st | none => false

/-- The same of a state changed by `g`. -/
def canIn (g : State → State) (sl : Slot) (flow : Bool) (regs : List (BitVec 5)) (f : Strand → Strand) (p : State → Strand → Bool) : Bool :=
  let s := at_ sl 0 f g
  match issuer s sl false flow regs with | some st => p s st | none => false

/-- The place of an access, and a condition on it. -/
def lands (s : State) (st : Strand) (sp : BitVec 3) (a : W64) (need : Perm) (p : SPlace → Bool) : Bool :=
  match s.sPlace 0 st sp a need with | .ok pl => p pl | .error _ => false

/-- The place of an access fails so. -/
def misses (s : State) (st : Strand) (sp : BitVec 3) (a : W64) (need : Perm) (c : Cause) : Bool :=
  match s.sPlace 0 st sp a need with | .ok _ => false | .error x => decide (x = c)

/-! Witnesses of the statements about words of S. -/

theorem meets_RegisterAlu : (can .s false [1, 2, 3] id (fun _ st => st.owns false 1) && can .s false [1, 2] id (fun _ st => st.owns false 1) &&
    can .s false [1, 2, 3] id (fun _ st => st.owns false 1 && !st.xp 3) && can .s false [1, 2, 3] (px [3]) (fun _ st => st.owns false 1 && st.xp 3)) = true := by decide +kernel

theorem meets_ImmediateWords : (can .s false [31, 0] id (fun _ st => st.owns false 31) && can .s false [1] id (fun _ st => st.owns false 1) &&
    can .s false [1, 1] id (fun _ st => st.owns false 1)) = true := by decide +kernel

theorem meets_RegisterWrites : (can .s false [1, 2, 3] id (fun _ st => st.xpend.isEmpty && st.cpend.isEmpty && st.tspend.isEmpty && st.bpend.isEmpty) &&
    [[1, 2, 3], [1, 2], [1]].all (fun r => can .s false r (fun st => { st with xown := 2 }) fun _ st => !st.owns false 1) &&
    can .s true [1, 2] (fun st => { st with xown := 2 }) (fun _ st => !st.owns false 1) && can .s true [1] (fun st => { st with xown := 2 }) (fun _ st => !st.owns false 1)) = true := by decide +kernel

theorem meets_BranchesAndJumps : (can .s true [1, 2] id (fun _ st => !st.xp 1 && !st.xp 2) && can .s true [1, 2] (px [2]) (fun _ st => st.xp 2) &&
    can .s true [] (fun st => { st with p := st.p.set 5 1 }) (fun _ st => st.vpend.isEmpty && st.pbad[(5 : Fin 16)] == 0) &&
    can .s true [] (fun st => { st with pbad := st.pbad.set 5 0x8000 }) (fun _ st => st.vpend.isEmpty && (st.pbad[(5 : Fin 16)]).getLsbD (st.vshape.extractLsb' 0 4).toNat) &&
    can .s true [1] id (fun _ st => st.owns false 1) && can .s true [1, 2] id (fun _ st => st.owns false 1 && !st.xp 2) &&
    can .s true [1, 2] (px [2]) (fun _ st => st.owns false 1 && st.xp 2)) = true := by decide +kernel

/-- A loop level whose body is one word, the next after the strand's. -/
def oneLoop (st : Strand) : Loop := { start := st.pc.s + 4, last := st.pc.s + 4, remaining := 2 }

theorem meets_LoopsBegin : (can .s true [1] (fun st => { st with handler := true }) (fun _ st => st.handler) && can .s true [1] (px [1]) (fun _ st => !st.handler && st.xp 1) &&
    can .s true [1] id (fun _ st => !st.handler && !st.xp 1 && st.xv 1 == 0) &&
    can .s true [1] (fun st => { xs [(1, 3)] st with loops := List.replicate 4 (oneLoop st) }) (fun _ st => !st.xp 1 && st.xv 1 != 0 && decide (4 ≤ st.loops.length)) &&
    can .s true [1] (fun st => { xs [(1, 3)] st with loops := List.replicate 3 (oneLoop st) }) (fun _ st => !st.xp 1 && st.xv 1 != 0 && decide (st.loops.length < 4)) &&
    can .s true [1] (fun st => { st with loops := [oneLoop st] })
      (fun _ st => !st.handler && st.loops.any fun v => decide ((st.pc.s + 4).toNat ≤ v.last.toNat) && decide (v.last.toNat ≤ (st.pc.s + 4).toNat)) &&
    can .s true [1] (xs [(1, 3)]) (fun _ st => !st.handler && st.loops.isEmpty && st.xv 1 != 0) &&
    can .v true [] (px [1]) (fun _ st => st.xp 1) && can .v true [] id (fun _ st => st.xv 1 == 0) && can .v true [] (xs [(1, 3)]) (fun _ st => !st.xp 1 && st.xv 1 != 0) &&
    can .h true [] (px [1]) (fun _ st => st.xp 1) && can .h true [] id (fun _ st => st.xv 1 == 0) && can .h true [] (xs [(1, 3)]) (fun _ st => !st.xp 1 && st.xv 1 != 0)) = true := by
  decide +kernel

/-- A loop buffer of two words at a position, with passes left. -/
def twoWords (pos : Nat) (left : W64) : LBuf := { valid := true, start := 2 ^ 32, remaining := left, len := 2, pos := pos, captured := true, words := [some 0, some 0] }

theorem meets_SlotGoesOn : (can .s true [] id (fun _ st => !st.lbLive .s && st.loops.isEmpty) &&
    can .s true [] (fun st => { st with loops := [oneLoop st] }) (fun _ st => !st.lbLive .s && !st.handler && st.loops.all fun l => st.pc.s != l.last) &&
    can .s true [] (fun st => { st with loops := [{ oneLoop st with last := st.pc.s }] }) (fun _ st => !st.lbLive .s && st.loops.all fun l => st.pc.s == l.last && l.remaining != 1) &&
    can .s true [] (fun st => { st with loops := [{ oneLoop st with last := st.pc.s, remaining := 1 }, oneLoop st] })
      (fun _ st => !st.lbLive .s && (st.loops.drop 1).all fun l => st.pc.s != l.last) &&
    [(0, 1), (1, 1), (1, 0)].all (fun x => can .v false [] (fun st => { st with lbV := twoWords x.1 x.2 }) fun _ st => st.lbLive .v) &&
    can .s true [] (fun st => { st with loops := [{ oneLoop st with start := st.pc.s }] }) (fun _ st => st.loops.all fun l => l.holds st.pc.s && !l.holds 0)) = true := by decide +kernel

theorem meets_FlowWordsAreNotCaptured : ([Slot.s, .v, .h].all fun sl => let s := at_ sl 0 (fun st => st.setLb { twoWords 0 1 with captured := false } sl) id
    (catches s sl false).isSome && s.cur.slot == sl) = true := by decide +kernel

/-- A handler that issues: the rendezvous of the word it interrupted stays. -/
theorem meets_HandlerGoesOn : can .s true [] (fun st => { st with handler := true, rvGo := { st.rvGo with s := true }, loops := [oneLoop st] }) (fun _ st => st.handler && st.rvGo.get .s && !st.lbLive .s) = true := by decide +kernel

/-- An access in flight to 8 bytes. -/
def inFlight (op : SOp) (addr : Nat) : SAcc := { (default : SAcc) with id := 3, op := op, addr := addr, size := 8 }

/-- The launch on core 0 changed. -/
def onLaunch (f : Launch → Launch) (s : State) : State := { s with launches := s.launches.map f }

/-- An access in flight to the first bytes of the own yard. -/
def yardAhead (s : State) (st : Strand) : Bool := st.accs.any fun w => decide (w.addr < yardAddr (s.yardOfCore 0) 0 + 8) && decide (yardAddr (s.yardOfCore 0) 0 < w.addr + w.size)

theorem meets_YardAccesses : (can .s false [1, 2] (px [2]) (fun _ st => st.owns false 1 && st.xp 2) &&
    can .s false [1, 2] (xs [(2, 1)]) (fun _ st => !st.xp 2 && (st.xv 2).toNat % 8 != 0) &&
    can .s false [1, 2] (xs [(2, 25165824)]) (fun _ st => decide (25165824 ≤ (st.xv 2).toNat)) &&
    can .s false [1, 2] (xs [(2, 25165816)]) (fun s st => decide ((st.xv 2).toNat < 25165824) && !s.mem.bad (yardAddr (s.yardOfCore 0) 25165816 / 64)) &&
    canIn (fun s => { s with mem := s.mem.setBad (yardAddr (s.yardOfCore 0) 0 / 64) true }) .s false [1, 2] id (fun s _ => s.mem.bad (yardAddr (s.yardOfCore 0) 0 / 64) && s.mem.wf) &&
    can .s false [1, 2] (px [1]) (fun _ st => st.xp 1 && !st.xp 2 && !st.pmark) &&
    can .s false [1, 2] (fun st => { px [1] st with pmark := true }) (fun s st => st.xp 1 && st.pmark && s.mem.wf && (s.clusters[(0 : Fin 48)]).yard.isSome && !yardAhead s st) &&
    can .s false [1, 2] (fun st => { st with accs := [inFlight (.load 7 true) (yardAddr (State.reset.placeWord .s 0 |>.yardOfCore 0) 7)] }) (fun s st => yardAhead s st && (s.clusters[(0 : Fin 48)]).yard.isSome && s.mem.wf)) = true := by decide +kernel

theorem meets_AccessesIssue : ([2 ^ 32, 2 ^ 33, 2 ^ 35].all fun a =>
    can .s false [1, 2] (xs [(2, a)]) (fun s st => st.owns false 1 && [Perm.r, .w].all fun n => lands s st 0 (st.xv 2) n fun pl => !s.sStalls 0 st pl 8 && !pl.gated && !pl.disc) &&
    can .s false [1, 2] (fun st => { px [1] (xs [(2, a)] st) with pmark := true }) (fun _ st => st.xp 1 && st.pmark) &&
    can .s false [1, 2, 3] (xs [(2, a)]) (fun s st => st.accs.isEmpty && lands s st 0 (st.xv 2) .rw fun pl => !s.sStalls 0 st pl 8 && !pl.gated && !pl.disc)) = true := by decide +kernel

theorem meets_AccessesTrap : (can .s false [1, 2] (xs [(2, 2 ^ 40)]) (fun s st => misses s st 0 (st.xv 2) .r .fieldMiss && misses s st 0 (st.xv 2) .w .fieldMiss && misses s st 0 (st.xv 2) .rw .fieldMiss) &&
    can .s false [1, 2] (xs [(2, 2 ^ 37)]) (fun s st => lands s st 0 (st.xv 2) .r (fun pl => pl.gated && !pl.konst) && lands s st 0 (st.xv 2) .w fun pl => pl.gated) &&
    canIn (fun s => { s with launches := s.launches.map fun l => { l with disc := [(1, 0)] } }) .s false [1, 2] (xs [(2, 2 ^ 33)])
      (fun s st => lands s st 0 (st.xv 2) .w (fun pl => !pl.gated && pl.disc) && lands s st 0 (st.xv 2) .rw (fun pl => pl.disc) && lands s st 0 (st.xv 2) .r fun pl => !pl.gated && pl.disc) &&
    [false, true].all (fun so => canIn (onLaunch fun l => { l with fields := [{ field 6 (2 ^ 38) 3 true none with ord := if so then 0 else 1 }] }) .s false [1, 2] (xs [(2, 2 ^ 38)]) fun s st =>
      lands s st 0 (st.xv 2) .r fun pl => pl.konst && pl.gated && pl.so == so && (s.cores[(0 : Fin 192)].kcache).isEmpty) &&
    can .s false [1, 2, 3] (px [3]) (fun _ st => st.owns false 1 && st.xp 3) && can .s false [1, 2, 3] (px [1]) (fun _ st => st.xp 1 && !st.xp 2 && !st.xp 3) &&
    can .s false [1, 2, 3] (xs [(2, 2)]) (fun _ st => !st.xp 1 && (st.xv 2).toNat % 4 != 0)) = true := by decide +kernel

theorem meets_FieldMapTranslates : (let s := at_ .s 0 id fun s => { s with launches := s.launches.map fun l =>
      { l with fields := l.fields ++ [{ handField with idx := 6, vbase := 2 ^ 38, ilv := 1 }, { handField with idx := 7, vbase := 2 ^ 39, ilv := 2 },
        { field 8 (2 ^ 41) 1 false none with pbase := 2 ^ 25 - 1 }, { field 9 (2 ^ 42) 1 false none with pbase := 2 ^ 25 }] } }
    s.launches.all fun l => [(2 ^ 32, 255), (2 ^ 32 + 65535, 255), (2 ^ 33, 1), (2 ^ 35 + 65535, 3), (2 ^ 36, 4), (2 ^ 37, 5), (2 ^ 38, 6), (2 ^ 39, 7), (2 ^ 41 + 65535, 8), (2 ^ 42, 9)].all (fun x =>
        (l.fields.filter fun f => decide (f.vbase ≤ x.1) && decide (x.1 < f.vbase + 2 ^ (f.lsz + 16))).map FieldEnt.idx == [x.2]) &&
      !(l.fields.any fun f => decide (f.vbase ≤ 2 ^ 32 + 65536) && decide (2 ^ 32 + 65536 < f.vbase + 2 ^ (f.lsz + 16)))) = true := by decide +kernel

/-- A held constant line. -/
def heldLine (line : Nat) : KLine := { line := line, data := List.replicate 64 0x81, bad := false }

theorem meets_ConstantPath : (can .s false [1, 2] (xs [(2, 2 ^ 34)]) (fun s st => lands s st 0 (st.xv 2) .r fun pl => pl.konst && decide (2 ^ 40 ≤ pl.addr) &&
      (s.cores[(0 : Fin 192)].kcache.find? (fun l => l.line == pl.addr / 64)).isNone) &&
    canIn (fun s => s.setCore 0 { s.cores[(0 : Fin 192)] with kcache := [heldLine (siloAddr (2 ^ 20) / 64)] }) .s false [1, 2] (xs [(2, 2 ^ 34)])
      (fun s st => lands s st 0 (st.xv 2) .r fun pl => pl.konst && (s.cores[(0 : Fin 192)].kcache.find? (fun l => l.line == pl.addr / 64)).isSome && !pl.gated && !pl.ownYard) &&
    -- an SO field, with and without an earlier access to one
    [true, false].all (fun busy => canIn (onLaunch fun l => { l with fields := l.fields.map fun f => if f.idx = 2 then { f with ord := 0 } else f }) .s false [1, 2]
      (fun st => { xs [(2, 2 ^ 34)] st with accs := if busy then [{ inFlight (.load 7 true) (siloAddr 0) with so := true }] else [] })
      fun s st => lands s st 0 (st.xv 2) .r fun pl => pl.konst && pl.so && !pl.gated && !pl.ownYard && st.accs.any SAcc.so == busy) &&
    (let s := at_ .s 0 (fun st => { st with fk := some 1 }) id
     (s.strand? 0).any fun st => (st.settle (s.cyc 0)).fk == some 1) &&
    [none, some 9].all (fun upto => [(none : Option (List Byte × Bool)), some (List.replicate 64 7, false)].all fun data => [siloAddr 0 / 64, 4].all fun line =>
      let acc : SAcc := { id := 3, op := .ldk 7, dev := 0, addr := 64 * line, size := 8, blocking := false, so := false, tag := 0, slot := none, performed := false, old := 0, cause := none,
                          inHandler := false, pc := 0, loops := [], lbuf := LBuf.moved (twoWords 0 0) 0 |>.1 }
      let s := at_ .s 0 (fun st => { st with accs := [acc] }) fun s => s.setCore 0 { s.cores[(0 : Fin 192)] with kfills := [{ id := 0, line := line, tag := 0, disc := false, data := data, upto := upto, sid := 2, keep := upto.isNone }] }
      s.cores[(0 : Fin 192)].kfills.all (fun f => f.keep == upto.isNone && (s.strand? 0).any fun st => st.accs.length == 1 && st.sid == f.sid) && s.halted.isEmpty && !s.isHalted 2) &&
    -- a fill that waits for one asked for before
    (let fill (i : Nat) : KFill := { id := i, line := siloAddr 0 / 64 + i, tag := 0, disc := false, data := none, upto := none }
     let s := at_ .s 0 id fun s => s.setCore 0 { s.cores[(0 : Fin 192)] with kfills := [fill 0, fill 1] }
     s.cores[(0 : Fin 192)].fillWaits (fill 1) && !s.cores[(0 : Fin 192)].fillWaits (fill 0))) = true := by decide +kernel

/-- A condition on the state of the tests and the strand on core 0. -/
def holds (f : Strand → Strand) (g : State → State) (p : State → Strand → Bool) : Bool := let s := at_ .s 0 f g; (s.strand? 0).any (p s)

/-- Bytes in memory. -/
def stored (a : Nat) (bs : List Byte) (s : State) : State := { s with mem := s.mem.apply (MWrite.plain a 0 bs) }

/-- A poisoned line. -/
def bad (a : Nat) (s : State) : State := { s with mem := s.mem.setBad (a / 64) true }

/-- The strand on core 0 halted there. -/
def halt0 (s : State) : State :=
  match s.strand? 0 with
  | some st => { s with
      cores := s.cores.set 0 { s.cores[(0 : Fin 192)] with strand := none },
      halted := [{ st := st, core := 0, place := .core 0, time := 0, badLines := [] }] }
  | none => s

/-- An access in flight that is not held up, of a strand that stands on core 0 or is halted there. -/
def onlyAcc (op : SOp) (a : Nat) (gated out : Bool) : Bool :=
  let q : SAcc := { inFlight op a with slot := if gated then some 0 else none }
  let g (s : State) : State := if gated then { s with clusters := s.clusters.set 0 { s.clusters[(0 : Fin 48)] with gated := true } } else s
  let s0 := at_ .s 0 (fun st => { st with accs := [q] }) g
  let s := if out then halt0 s0 else s0
  (s.accsOf 0)[0]?.any fun p => p.2 == q && s.accGated p.1 q == gated && !p.1.olderMeets q && !s.peerGated a && s.isHalted p.1.sid == out && p.1.trapAt.isNone && !p.1.handler && s.mem.wf &&
    decide (2 ^ 40 ≤ a) && !(s.view p.1.sid 0).bad (a / 64)

theorem meets_AccessesArePerformed : ([false, true].all fun out => [AmoFn.add, .cas 0].all fun fn => onlyAcc (.amo fn 7 1) (siloAddr 0) false out &&
    (let s := at_ .s 0 (fun st => { st with accs := [inFlight (.amo fn 7 1) (siloAddr 0)] }) id
     let s := if out then halt0 s else s
     ((s.accsOf 0).find? (fun p => match p.2.op with | .amo _ _ _ => true | _ => false)).any fun p => p.2.id == 3)) = true := by decide +kernel

/-- A write that the yard of cluster 0 has taken in this cycle, to its first bytes. -/
def landedNow (s : State) : State := { s with clusters := s.clusters.set 0 { s.clusters[(0 : Fin 48)] with recent := [{ rank := 0, w := MWrite.plain (yardAddr 2 0) 0 [1, 2] }] } }

theorem meets_AtomicsWait : ([id, landedNow].all fun g => holds (fun st => { st with accs := [inFlight (.amo .add 7 1) (yardAddr 2 0)] }) g fun s _ =>
    s.unitBusy (yardAddr 2 0) 8 == (s.clusters[(0 : Fin 48)]).recent.any fun _ => true) = true := by decide +kernel

theorem meets_AtomicsFault : (onlyAcc (.amo .add 7 1) (siloAddr 0) true false && holds id id fun s _ => !s.unitBusy (siloAddr 0) 8) = true := by decide +kernel

theorem meets_AtomicsMeetPoison : ([siloAddr 0].all fun a => [AmoFn.add, .cas 0].all fun fn =>
    holds (fun st => { st with accs := [inFlight (.amo fn 7 1) a] }) (bad a) (fun s st =>
      ((s.accsOf 0).find? (fun p => match p.2.op with | .amo _ _ _ => true | _ => false)).map (fun p => (p.1.sid, p.2)) == some (st.sid, inFlight (.amo fn 7 1) a) && !s.accGated st (inFlight (.amo fn 7 1) a) && !st.olderMeets (inFlight (.amo fn 7 1) a) &&
      (s.view st.sid 0).bad (a / 64) && a % 8 == 0 && !s.isHalted st.sid && st.trapAt.isNone && !st.handler)) = true := by decide +kernel

theorem meets_AccessesAnswered : ([false, true].all (fun out => [SOp.load 7 true, .store (MWrite.plain (siloAddr 0) 0 [1, 2])].all fun op => onlyAcc op (siloAddr 0) false out) &&
    [SOp.load 7 true, .store (MWrite.plain (siloAddr 0) 0 [1, 2])].all (fun op => onlyAcc op (siloAddr 0) true false &&
      holds (fun st => { st with accs := [{ inFlight op (siloAddr 0) with slot := some 0, blocking := true }] }) (fun s => { s with clusters := s.clusters.set 0 { s.clusters[(0 : Fin 48)] with gated := true } }) fun s st =>
        st.accs.all fun q => q.blocking && s.accGated st q && q.inHandler == st.handler && !st.olderMeets q && !s.peerCut q.addr) &&
    -- an older access to a byte of it, and a peer that no port leads to
    holds (fun st => { st with accs := [{ inFlight (.load 7 true) (siloAddr 7) with id := 2 }, inFlight (.load 7 true) (siloAddr 0)] }) id (fun s st =>
      ((s.accsOf 0)[1]?).any (fun p => p.2.id == 3) && st.olderMeets (inFlight (.load 7 true) (siloAddr 0))) &&
    holds (fun st => { st with accs := [inFlight (.load 7 true) (peerAddr 5 0)] }) id (fun s _ => s.peerCut (peerAddr 5 0) && decide (2 ^ 40 ≤ peerAddr 5 0))) = true := by decide +kernel

/-- A FENCEX that waits. -/
def fence0 : FenceX := { before := 1, after := 1, vseq := 0, mseq := 0, cid := 0, aid := 0 }

theorem meets_Fences : (can .s false [] id (fun _ st => st.accs.isEmpty && st.fx.isNone && st.fk.isNone && st.vpend.isEmpty && st.mpend.isEmpty && st.copies.isEmpty) &&
    can .s false [] (fun st => { st with accs := [inFlight (.load 7 true) (siloAddr 0)], nextAid := 4 }) (fun _ st => !st.accs.isEmpty && st.fx.isNone && st.accs.any fun q => decide (q.id < st.nextAid)) &&
    -- a FENCEX that waits, one that may go on, and one that meets a COND
    [1, 4].all (fun n => can .s false [] (fun st => { st with fx := some { fence0 with aid := n }, accs := [inFlight (.load 7 true) (siloAddr 0)] }) fun _ st =>
      st.fx.any fun f => f.before.getLsbD 0 && (st.accs.any fun q => decide (q.id < f.aid)) == decide (n = 4)) &&
    can .s false [] (fun st => { st with tok := st.tok.set 7 { st.tok[7] with cond := 2 } }) (fun _ st => !st.handler && st.trapAt.isNone && st.accs.isEmpty && st.copies.isEmpty && (st.tok[7]).cond == 2 && (st.tok[6]).cond == 0) &&
    can .s false [] (fun st => { st with fk := some 9 }) (fun _ st => st.fk == some 9) && can .s false [] (fun st => { st with fk := some 0 }) (fun _ st => st.fk == some 0)) = true := by decide +kernel

theorem meets_Monitors : (can .s false [2] (px [2]) (fun _ st => st.xp 2) && can .s false [2] (xs [(2, 2 ^ 40)]) (fun s st => misses s st 0 (st.xv 2) .r .fieldMiss) &&
    can .s false [2] (xs [(2, 2 ^ 37)]) (fun s st => lands s st 0 (st.xv 2) .r fun pl => pl.gated) && can .s false [2] (xs [(2, 2 ^ 32)]) (fun s st => lands s st 0 (st.xv 2) .r fun pl => !pl.gated) &&
    can .s false [1, 2] (px [2]) (fun _ st => st.owns false 1 && st.xp 2) && can .s false [1, 2] (fun st => { st with mlost := true }) (fun _ st => st.owns false 1 && st.mlost && st.sleep.isNone) &&
    can .s false [1, 2] id (fun s st => !st.mlost && st.sleep.isNone && (s.mons[(0 : Fin 192)]).line.isNone) &&
    [(true, 0), (false, 0), (false, 9)].all (fun x => canIn (fun s => { s with mons := s.mons.set 0 { line := some 4, hit := x.1 } }) .s false [1, 2] (xs [(2, x.2)])
      fun s st => !st.mlost && (s.mons[(0 : Fin 192)]).line.isSome && (s.mons[(0 : Fin 192)]).hit == x.1 && (st.xv 2).toNat == x.2) &&
    [true, false].all (fun hit => canIn (fun s => { s with mons := s.mons.set 0 { line := some 4, hit := hit } }) .s false [1, 2]
      (fun st => { px [2] st with sleep := some { word := 0, xd := 1, since := 0, ends := some 9 } }) fun s st => st.xp 2 && st.sleep.isSome && (s.mons[(0 : Fin 192)]).hit == hit)) = true := by decide +kernel

theorem meets_SleepTimesOut : ([none, some (0, 4)].all fun hold => holds (fun st => { st with sleep := some { word := 0, xd := 1, since := 0, ends := some 5 } })
    (fun s => { s.setCore 0 { s.cores[(0 : Fin 192)] with hold := hold } with tick := 8, clusters := s.clusters.set 0 { s.clusters[(0 : Fin 48)] with cyc := 1 } }) fun s st =>
    s.held 0 == hold.isSome && (st.settle (s.cyc 0)).sleep == some { word := 0, xd := 1, since := 0, ends := some 5 } && decide (5 ≤ dtime s.tick) && !(s.mons[(0 : Fin 192)]).hit && decide (st.slept + (dtime s.tick - 0) ≤ 20000)) = true := by
  decide +kernel

/-- An M word in progress that will signal flag 5. -/
def sigs5 : MPend := { seq := 0, due := 99, sig := 5, eff := .zero [] 1 }

theorem meets_FlagWords : ([Slot.s, .v, .h].all fun sl => can sl false [] id (fun s st => st.f[5] == 0 && !s.waitsHeld 0) &&
    can sl false [] (fun st => { st with f := st.f.set 5 254 }) (fun _ st => decide ((st.f[5]).toNat < 255)) && can sl false [] (fun st => { st with f := st.f.set 5 255 }) (fun _ st => st.f[5] == 255) &&
    can sl false [] (fun st => { st with f := st.f.set 5 254, mpend := [sigs5] }) (fun _ st => decide (255 ≤ (st.f[5]).toNat + (st.mpend.filter fun w => w.sig == 5).length)) &&
    canIn (fun s => { s with wires := [{ gang := 1, chan := 0, since := 0 }] }) sl false [] id fun s _ => s.waitsHeld 0) = true := by decide +kernel

/-- Entries of an operand queue. -/
def entries (n : Nat) : Fifo QEntry := { items := List.replicate n { lo := 1, hi := 2, plo := false, phi := true, from_ := 0 }, popCyc := 99, pops := 1 }

theorem meets_QueueWords : ([(Slot.s, [(1 : BitVec 5), 2]), (.h, [])].all fun x => can x.1 false x.2 (fun st => { st with qv := entries 15, qm := entries 15, qh := entries 15 }) (fun _ st => st.qv.items.length == 15) &&
    can x.1 false x.2 (fun st => { st with qv := entries 16, qm := entries 16, qh := entries 16 }) (fun _ st => st.qm.items.length == 16) &&
    can x.1 false x.2 (fun st => { st with qv := { entries 15 with popCyc := 0 } }) fun s st => decide (16 ≤ st.qv.items.length + if st.qv.popCyc = now s then st.qv.pops else 0)) = true := by decide +kernel

/-- Entries of the return queue. -/
def returned (n from_ : Nat) : Fifo REntry := { items := List.replicate n { val := 7, bad := false, from_ := from_ }, popCyc := 99, pops := 0 }

theorem meets_ReceiveWords : (can .s false [1] id (fun _ st => st.owns false 1 && st.qr.items.isEmpty) &&
    [0, 1].all (fun t => can .s false [1] (fun st => { st with qr := returned 2 t }) fun s st => st.owns false 1 && st.qr.items.head?.any fun e => decide (e.from_ ≤ now s) == decide (t = 0))) = true := by
  decide +kernel

theorem meets_ControlRegisters : (can .s false [1] id (fun s st => st.owns false 1 && s.wires.isEmpty) &&
    canIn (fun s => { s with wires := [{ gang := 1, chan := 0, since := 0 }] }) .s false [1] id (fun s st => st.owns false 1 && s.wires.any fun w => w.gang == st.gang) &&
    can .s false [1] (px [1]) (fun _ st => st.xp 1) && can .s false [1] (xs [(1, 0x1400)]) (fun _ st => (st.xv 1).extractLsb' 10 3 == 5) &&
    can .s false [1] (xs [(1, 0x13FF)]) (fun _ st => (st.xv 1).extractLsb' 10 3 == 4) &&
    can .s false [1] (fun st => st.xlater 99 9 1 false true) (fun _ st => !st.xp 1 && !st.xpend.isEmpty) && can .s false [1] id (fun _ st => !st.xp 1 && st.xpend.isEmpty && st.accs.isEmpty) &&
    holds id id (fun _ st => st.xpend.isEmpty && st.tspend.isEmpty && st.bpend.isEmpty && st.cpend.isEmpty && st.vshapeSet != 5 && st.fsetCyc + 1 != 5) &&
    holds (fun st => { st with vshapeSet := 5, fsetCyc := 4 }) id (fun _ st => st.vshapeSet == 5 && st.fsetCyc + 1 == 5)) = true := by decide +kernel

/-- A partition with seed queues. -/
def queued (n : Nat) (s : State) : State :=
  let q := (s.parts[(0 : Fin 64)]).queues.set 0 (List.replicate n (default : Seed))
  s.setPart 0 { s.parts[(0 : Fin 64)] with seedBase := 2 ^ 30, seedLog2 := 8, queues := q }

/-- A seed record with a counter and flags. -/
def record (join flags : Nat) : State → State := stored (siloAddr (2 ^ 20)) (leBytes 16 0 ++ leBytes 4 join ++ leBytes 4 flags ++ leBytes 8 0)

/-- What SOW and JOIN of the record at the silo field ask before they look at it. -/
def seedOk (s : State) (st : Strand) : Bool := !st.xp 1 && (st.xv 1).toNat % 32 == 0 && st.accs.isEmpty && s.mem.wf && s.hbm.toList.all (fun k => k.writes.isEmpty) &&
  lands s st 0 (st.xv 1) .rw fun pl => !pl.gated && !pl.disc && pl.addr % 32 == 0 && !s.mem.bad (pl.addr / 64)

/-- The request of a SOW or JOIN has served where its record is in HBM storage. -/
def recordMet (st : Strand) (pl : SPlace) : Bool := decide (2 ^ 40 ≤ pl.addr) || st.recReq == some (0, true)

/-- A strand whose X1 names the record at the silo field, or at the HBM field with the request for it served. -/
def recordAt (hbm : Bool) (st : Strand) : Strand := { xs [(1, if hbm then 2 ^ 32 else 2 ^ 33)] st with recReq := if hbm then some (0, true) else none }

theorem meets_SowWords : ([(1, 0, 0, false), (0, 0, 0, false), (0, 0, 256, false), (0, 0, 0, true)].all fun x => canIn (queued x.2.2.1 ∘ record x.1 x.2.1) .s false [1] (recordAt x.2.2.2) fun s st => seedOk s st && lands s st 0 (st.xv 1) .rw fun pl =>
    recordMet st pl && decide (pl.addr < 2 ^ 40) == x.2.2.2 &&
    let q := SeedRec.ofBytes (s.mem.reads pl.tag pl.addr 32)
    (s.launch? st.launch).any (fun l => !q.reservedBad && !q.gangTooBig l && !q.overService s && !q.sown && decide (l.nextIndex < 2 ^ 32 - 1) && s.hasRoom l.part 0 == decide (x.2.2.1 = 0)) &&
      q.join.toNat == x.1) = true := by decide +kernel

theorem meets_JoinWords : ([(0, 0, 0, false), (2, 0x80, 0, false), (1, 0, 0, false), (1, 0x80, 0, false), (1, 0x80, 256, false), (0, 0, 0, true)].all fun x => canIn (queued x.2.2.1 ∘ record x.1 x.2.1) .s false [1] (recordAt x.2.2.2) fun s st => seedOk s st &&
    lands s st 0 (st.xv 1) .rw fun pl => recordMet st pl && decide (pl.addr < 2 ^ 40) == x.2.2.2 &&
      let q := SeedRec.ofBytes (s.mem.reads pl.tag pl.addr 32)
      q.join.toNat == x.1 && q.sown == decide (x.2.1 = 0x80) && !q.resume && s.hasRoom st.part q.prio == decide (x.2.2.1 = 0)) = true := by decide +kernel

theorem meets_SeedWordsTrap : (can .s false [1] (px [1]) (fun _ st => st.xp 1) && can .s false [1] (xs [(1, 2 ^ 33 + 16)]) (fun _ st => (st.xv 1).toNat % 32 != 0) &&
    can .s false [1] (xs [(1, 2 ^ 40)]) (fun s st => misses s st 0 (st.xv 1) .rw .fieldMiss) && can .s false [1] (xs [(1, 2 ^ 37)]) (fun s st => lands s st 0 (st.xv 1) .rw fun pl => pl.gated) &&
    canIn (onLaunch fun l => { l with disc := [(1, 0)] }) .s false [1] (xs [(1, 2 ^ 33)]) (fun s st => lands s st 0 (st.xv 1) .rw fun pl => !pl.gated && pl.disc) &&
    can .s false [1] (fun st => { xs [(1, 2 ^ 33)] st with accs := [inFlight (.load 7 true) (siloAddr 0)] }) (fun s st => !st.accs.isEmpty && lands s st 0 (st.xv 1) .rw fun pl => !pl.gated && !pl.disc) &&
    canIn (onLaunch (fun l => { l with prioceil := 3 }) ∘ queued 0 ∘ stored (siloAddr (2 ^ 20)) (leBytes 16 0 ++ leBytes 12 0 ++ leBytes 4 0x802F0000)) .s false [1] (xs [(1, 2 ^ 33)]) (fun s st => lands s st 0 (st.xv 1) .rw fun pl =>
      let q := SeedRec.ofBytes (s.mem.reads pl.tag pl.addr 32)
      st.accs.isEmpty && !s.mem.bad (pl.addr / 64) && !q.reservedBad && (s.launch? st.launch).any fun l => q.gangTooBig l || q.overService s) &&
    canIn (bad (siloAddr (2 ^ 20))) .s false [1] (xs [(1, 2 ^ 33)]) (fun s st => lands s st 0 (st.xv 1) .rw fun pl => st.accs.isEmpty && s.mem.bad (pl.addr / 64)) &&
    -- a record in HBM storage: its request awaited, to be made, or to be made on a full queue; poisoned
    [(some (4, false), []), (none, []), (none, List.replicate 16 (0 : Nat))].all (fun (x : Option (Nat × Bool) × List Nat) => canIn (fun s => s.setCore 0 { s.cores[(0 : Fin 192)] with passed := x.2 }) .s false [1]
      (fun st => { recordAt true st with recReq := x.1 }) fun s st => st.accs.isEmpty && st.recReq == x.1 && lands s st 0 (st.xv 1) .rw fun pl => !pl.gated && !pl.disc && decide (pl.addr < 2 ^ 40) &&
        (s.cores[(0 : Fin 192)]).reqStalls (pl.addr / 2 ^ 36) == !x.2.isEmpty) &&
    (let a := (at_ .s 0 id id).launches.map fun l => ((at_ .s 0 id id).translate l (2 ^ 32) .rw).toOption.map fun t => t.addr
     a.all fun a => canIn (bad (a.getD 0)) .s false [1] (recordAt true) fun s st => st.accs.isEmpty && lands s st 0 (st.xv 1) .rw fun pl => recordMet st pl && decide (pl.addr < 2 ^ 40) && s.mem.bad (pl.addr / 64)) &&
    canIn (onLaunch (fun l => { l with prioceil := 3 }) ∘ record 0 8) .s false [1] (xs [(1, 2 ^ 33)]) (fun s st => lands s st 0 (st.xv 1) .rw fun pl =>
      (SeedRec.ofBytes (s.mem.reads pl.tag pl.addr 32)).reservedBad && (s.launch? st.launch).any fun l => l.prioceil == 3)) = true := by decide +kernel

/-- A strand whose other slots are parked. -/
def parked (st : Strand) : Strand := { st with ended := ⟨false, true, true, true⟩ }

/-- A ready seed of the launch at PRIO 7. -/
def ready1 (s : State) : State :=
  let q := (s.parts[(0 : Fin 64)]).queues.set 7 [{ (default : Seed) with place := 2 ^ 32, flags := 7 * 2 ^ 32 }]
  s.setPart 0 { s.parts[(0 : Fin 64)] with seedBase := 2 ^ 30, seedLog2 := 8, queues := q }

theorem meets_DoneAndYield : (can .s true [] (fun st => { st with ended := ⟨false, false, true, true⟩ }) (fun _ st => !st.ended.v && !st.handler) &&
    can .s true [] parked (fun s st => st.ended.v && st.accs.isEmpty && st.vpend.isEmpty && st.mpend.isEmpty && st.copies.isEmpty && st.efaultAddr.isEmpty && st.tok.toList.all (fun t => t.pend == 0 && t.cond == 0) &&
      (s.launch? st.launch).any fun l => (l.perIndex.find? (fun e => e.1 == st.index)).isSome) &&
    can .s true [] (fun st => { parked st with tok := st.tok.set 7 { st.tok[7] with cond := 2 } }) (fun _ st => (st.tok[7]).cond == 2 && (st.tok[6]).cond == 0) &&
    can .s true [] id (fun s _ => s.cands.isEmpty) &&
    canIn ready1 .s true [] id (fun s st => let s1 := s.setSt 0 st; !st.handler && s1.cands.any fun u => !keyLt (s1.strandKey st) (s1.candKey u))) = true := by decide +kernel

/-- A trap of a slot raised in cycle 0. -/
def raised (sl : Slot) (fatal : Bool) (eng : Option Nat) : TrapPend := { cyc := 0, slot := sl, fatal := fatal, eng := eng }

theorem meets_TrapsAndHandlers : (holds (fun st => { st with trapvec := 64 }) id (fun _ st => !st.handler && st.trapAt.isNone && st.trapvec != 0) && holds id id (fun _ st => !st.handler && st.trapAt.isNone && st.trapvec == 0) &&
    holds (fun st => { st with handler := true }) id (fun s st => st.handler && (s.launch? st.launch).any fun l => l.ending == .live) &&
    holds (fun st => { st with trapAt := some (raised .s false none), rvGo := ⟨true, true, false, false⟩ }) id (fun s st => !st.handler && st.rvGo.v && st.rvCyc == now s &&
      st.trapAt.any fun u => u.cyc == now s && decide (u.slot.num < Slot.v.num)) &&
    can .s true [] (fun st => { st with handler := true, lbS := { twoWords 0 0 with valid := false } }) (fun _ st => st.handler && !st.lbS.valid && !st.lbV.valid && !st.lbH.valid) &&
    [1, 2, 3].all (fun k => can .s true [] (fun st => { st with handler := true, trapslot := k }) (fun _ st => st.trapslot == k)) &&
    [(0, false, none), (0, true, none), (1, true, none), (2, false, none), (2, false, some 3)].all (fun (x : Nat × Bool × Option Nat) => let t := x.1; let u := raised .v x.2.1 x.2.2
      holds (fun st => { st with trapAt := some u, efaultAddr := [(3, 0)] }) (fun s => { s with clusters := s.clusters.set 0 { s.clusters[(0 : Fin 48)] with cyc := t } })
      fun s st => (st.settle (s.cyc 0)).trapAt == some u && decide ((if u.fatal then 1 else 2) ≤ s.cyc 0) == decide (t ≠ 0) && (s.launch? st.launch).any fun l => l.ending == .live)) = true := by decide +kernel

theorem meets_LocqWords : (can .s false [1, 2] (px [2]) (fun _ st => st.owns false 1 && st.xp 2) && can .s false [1, 2] (xs [(2, 2 ^ 64 - 1)]) (fun _ st => st.xv 2 == BitVec.allOnes 64) &&
    can .s false [1, 2] (xs [(2, 191)]) (fun s st => (s.launch? st.launch).any fun l => match s.translate l (st.xv 2) .none with | .error _ => true | .ok _ => false) &&
    can .s false [1, 2] (xs [(2, 192)]) (fun _ st => st.xv 2 == 192) &&
    [(2 ^ 32, 0), (2 ^ 33, 1), (2 ^ 36, 2), (2 ^ 37, 3)].all (fun x => can .s false [1, 2] (xs [(2, x.1)]) fun s st => (s.launch? st.launch).any fun l =>
      match s.translate l (st.xv 2) .none with | .ok t => t.fld.slot.isNone && t.fld.tier.toNat == x.2 | .error _ => false) &&
    [false, true].all (fun g => canIn (fun s => { s with clusters := s.clusters.set 0 { s.clusters[(0 : Fin 48)] with gated := g } }) .s false [1, 2] (xs [(2, 2 ^ 35)]) fun s st =>
      (s.launch? st.launch).any fun l => match s.translate l (st.xv 2) .none with | .ok t => t.fld.slot == some 0 && (s.clusters[(0 : Fin 48)]).gated == g | .error _ => false)) = true := by decide +kernel

theorem meets_PlainWords : (can .s false [1] (px [1]) (fun _ st => st.xp 1) && can .s false [1] (xs [(1, 2 ^ 27)]) (fun _ st => (st.xv 1).extractLsb' 27 17 != 0) &&
    can .s false [1] (xs [(1, 2 ^ 64 - 2 ^ 44)]) (fun _ st => !st.xp 1 && (st.xv 1).extractLsb' 27 17 == 0 && (st.xv 1).extractLsb' 22 2 == 0) &&
    can .s false [] id (fun s _ => s.cur.slot == .s) && [Slot.v, .m, .h].all (fun sl => can sl true [] id fun s st => s.cur.slot == sl && !st.mrep.valid) &&
    can .m true [] (fun st => { st with mrep := { valid := true, remaining := 2, mask := 0 } }) (fun _ st => st.mrep.valid) &&
    [Slot.s, .v, .m, .h].all (fun sl => can sl false [] id fun s _ => s.cur.slot == sl)) = true := by decide +kernel

/-! Witnesses of the statements about words of V and M. -/

/-- The element type of a strand. -/
def etype (st : Strand) : Nat := (st.vshape.extractLsb' 10 3).toNat

/-- A strand with an element type. -/
def typed (k : Nat) (st : Strand) : Strand := { st with vshape := BitVec.ofNat 3 k ++ (0x3FF : BitVec 10) }

theorem meets_VectorWords : ([0, 1, 2, 3, 4].all fun k => can .v false [] (typed k) fun s st => etype st == k && governed s st 15 1023 && !governed s st 3 0 && st.vpend.isEmpty) = true := by decide +kernel

theorem meets_ConversionFormats : ([(0 : BitVec 4), 10].all (fun f => decide (f.toNat < 11)) && decide (11 ≤ (11 : BitVec 4).toNat) && [(3 : BitVec 4), 7].all (fun f => decide (3 ≤ f.toNat) && decide (f.toNat ≤ 7)) &&
    [(2 : BitVec 4), 8].all (fun f => decide (f.toNat < 3) || decide (7 < f.toNat))) = true := by decide +kernel

theorem meets_AlgebraicFunctions : ([(Fmt.fp32, 0x40800000), (.bf16, 0xC080)].all fun x => match x.1.read x.2 with | .fin n m _ => m != 0 && n == (x.2 == 0xC080) | _ => false) = true := by decide +kernel

/-- A V word in flight that writes an element, or a predicate bit, of register 5, and lands in cycle `due`. -/
def lands5 (due : Nat) (pred : Bool) : VPend :=
  let g : VRegW := { reg := 5, mask := 1, vals := Vector.replicate 1024 7, full := 0, part := 1, bad := 1 }
  let h : PRegW := { reg := 5, mask := 1, vals := 1, full := 0, part := 1, bad := 1 }
  { seq := 0, due := due, regs := if pred then [] else [g], preds := if pred then [h] else [], writes := [], rowMarks := [], flags := 1 }

theorem meets_VectorResultsLand : ([true, false].all fun p => [0, 9].all fun due => holds (fun st => { st with vpend := [lands5 due p] }) id fun s st =>
    ((st.settle (s.cyc 0)).vpend.head?).any fun w => w.writes.isEmpty && w.rowMarks.isEmpty && decide (w.due ≤ s.cyc 0) == decide (due = 0) && (w.preds.isEmpty == !p)) = true := by decide +kernel

theorem meets_YardImages : (can .v false [] (px [1]) (fun _ st => st.fx.isNone && st.xp 1) && can .v false [] (xs [(1, 32)]) (fun _ st => !st.xp 1 && (st.xv 1).toNat % 64 != 0) &&
    can .v false [] (xs [(1, 25165824 - 4032)]) (fun s st => governed s st 15 1023 && decide (25165824 < (st.xv 1).toNat + 4 * 1023 + 4)) &&
    can .v false [] (xs [(1, 25165824 - 4096)]) (fun s st => governed s st 15 1023 && decide ((st.xv 1).toNat + 4 * 1023 + 4 ≤ 25165824) && (s.vMem st).wf &&
      (List.finRange 16).all fun q => !rowBad s st 4 q && !predRowBad s st 15 q) &&
    can .v false [] (fun st => { st with fx := some fence0 }) (fun _ st => st.fx.all fun f => !f.after.getLsbD 1)) = true := by decide +kernel

/-- Rows of V register 4 and of predicate 3 poisoned, under a policy. -/
def rowsBad (mark : Bool) (st : Strand) : Strand := { st with vbad := st.vbad.set 4 0x8000, pbad := st.pbad.set 3 1, pmark := mark }

theorem meets_PoisonedImages : ([false, true].all fun m => can .v false [] (rowsBad m) fun s st => st.pmark == m && st.vpend.isEmpty && governed s st 15 1023 && rowBad s st 4 15 && predRowBad s st 3 0) = true := by decide +kernel

/-- A strand whose banks of the A buffer have a format and 64 elements a row, and whose X1 is an address. -/
def packed (code a : Nat) (st : Strand) : Strand := xs [(1, a)] { st with tb := { st.tb with bfmtA := Vector.replicate 32 (BitVec.ofNat 32 (63 * 2 ^ 16 + code)) } }

/-- R25, R26: where an element of 64-element rows ends in the A buffer, from the address of its image. -/
def endsAt (f : Fmt) (e : Nat) : Nat :=
  let pitch := if f.width = 6 then 64 else 16 * ((64 * f.width + 127) / 128)
  e / 64 * pitch + 16 * (e % 64 / f.perWord) + (f.width * (e % 64 % f.perWord) + f.width + 7) / 8

theorem meets_ABufferImages : ([(0, 4096), (1, 2048), (3, 1024), (5, 1024), (7, 512), (11, 512), (12, 512)].all (fun x =>
      -- the last image that the buffer holds, and the first that it does not
      [0, 64].all (fun past => can .v false [] (packed x.1 (4194304 - x.2 + past)) fun s st =>
        let f := (Fmt.ofCode (BitVec.ofNat 4 x.1)).getD .fp32
        st.fx.isNone && !st.xp 1 && (st.xv 1).toNat % 64 == 0 && governed s st 15 1023 && (s.vMem st).wf &&
          (List.range 1024).all (fun e => decide ((st.xv 1).toNat + endsAt f e ≤ 4194304 + past)) && decide ((st.xv 1).toNat + endsAt f 1023 ≤ 4194304) == decide (past = 0))) &&
    can .v false [] (packed 15 0) (fun _ _ => (Fmt.ofCode 15).isNone) &&
    -- a reserved bit of a 6-bit word set
    canIn (fun s => match s.tbOn 0 with | some tb => stored (abufAddr tb.id 0) (leBytes 16 (2 ^ 127)) s | none => s) .v false [] (packed 5 0) fun s st =>
      (leNat ((s.vMem st).reads 0 (abufAddr st.tb.id 0) 16)).testBit 127 && !(s.vMem st).bad (abufAddr st.tb.id 0 / 64)) = true := by decide +kernel

theorem meets_CBufferImages : (can .v false [] (xs [(1, 1024 * 1009)]) (fun s st => st.fx.isNone && !st.xp 1 && governed s st 15 1023 && decide (1023 < (st.xv 1).toNat / 1024 + 15)) &&
    can .v false [] (xs [(1, 1024 * 1008 + 4 * 192)]) (fun s st => (s.vMem st).wf && st.mpend.isEmpty && decide ((st.xv 1).toNat / 1024 + 15 ≤ 1023) && decide ((st.xv 1).toNat % 1024 / 4 + 63 ≤ 255) &&
      !(s.vMem st).bad (cbufAddr st.tb.id (1024 * 1008 + 4 * 192) / 64) && !st.cMarked 1023 255)) = true := by decide +kernel

/-- The constant path of core 0 holds the 64 lines of a register image. -/
def held64 (s : State) : State := s.setCore 0 { s.cores[(0 : Fin 192)] with kcache := (List.range 64).map fun i => heldLine (siloAddr (2 ^ 20) / 64 + i) }

theorem meets_ConstantImages : (can .v false [] (px [1]) (fun s st => st.fx.isNone && st.fk.isNone && st.xp 1 && (s.launch? st.launch).isSome) && can .v false [] (xs [(1, 32)]) (fun _ st => (st.xv 1).toNat % 64 != 0) &&
    [(2 ^ 40, (Cause.fieldMiss : Cause)), (2 ^ 33, .fieldPerm)].all (fun x => can .v false [] (xs [(1, x.1)]) fun s st => governed s st 15 0 && (s.launch? st.launch).any fun l =>
      match s.translate l (st.xv 1) .r with | .error e => decide (e = x.2) | .ok t => !t.fld.konst && x.2 == .fieldPerm) &&
    -- fields of any order and SO ones
    [1, 0].all fun ord => canIn (held64 ∘ onLaunch fun l => { l with fields := l.fields.map fun f => { f with ord := ord } }) .v false [] (xs [(1, 2 ^ 34)]) (fun s st => (s.launch? st.launch).any fun l => (List.range 64).all fun i => match s.translate l (st.xv 1 + BitVec.ofNat 64 (64 * i)) .r with
      | .ok t => t.fld.konst && t.fld.ord == ord && (s.cores[(0 : Fin 192)].kcache.find? (fun k => k.line == t.addr / 64)).isSome | .error _ => false)) = true := by decide +kernel

theorem meets_VectorQueues : (can .v false [] id (fun _ st => st.qv.items.isEmpty && st.qr.items.isEmpty) &&
    [0, 1].all (fun t => can .v false [] (fun st => { st with qv := { entries 0 with items := [{ lo := 1, hi := 2, plo := true, phi := false, from_ := t }] } }) fun s st => st.qv.items.head?.any fun q => decide (q.from_ ≤ now s) == decide (t = 0)) &&
    [15, 16].all (fun n => can .v false [] (fun st => { st with qr := returned n 0 }) fun _ st => st.qr.items.length == n)) = true := by decide +kernel

theorem meets_VectorControl : (can .v false [] (px [1]) (fun _ st => st.xp 1) && can .v false [] (xs [(1, 0x1400)]) (fun _ st => !st.xp 1 && ((st.xv 1).extractLsb' 0 13).extractLsb' 10 3 == 5) &&
    can .v false [] (xs [(1, 0x13FF)]) (fun _ st => ((st.xv 1).extractLsb' 0 13).extractLsb' 10 3 == 4)) = true := by decide +kernel

/-- Is a strand's repeat state as said. -/
def repeating (n : Nat) (st : Strand) : Strand := { st with mrep := { valid := true, remaining := n, mask := 3 } }

theorem meets_MatrixControl : (can .m false [] id (fun s st => !st.mrep.valid && st.f[5] == 0 && st.qm.items.isEmpty && st.mpend.isEmpty && decide (st.arrayFree ≤ now s) && st.tb.wp1.fault.isNone) &&
    can .m false [] (fun st => { st with f := st.f.set 5 1 }) (fun s st => st.f[5] != 0 && !s.waitsHeld 0 && decide ((st.f[6]).toNat < 255)) &&
    canIn (fun s => { s with wires := [{ gang := 1, chan := 0, since := 0 }] }) .m false [] (fun st => { st with f := st.f.set 5 1 }) (fun s _ => s.waitsHeld 0) &&
    [false, true].all (fun b => [0, 1].all fun t => can .m false [] (fun st => { st with qm := { entries 0 with items := [{ lo := 1, hi := 2, plo := b, phi := false, from_ := t }] } })
      fun s st => st.qm.items.head?.any fun e => e.plo == b && decide (e.from_ ≤ now s) == decide (t = 0)) &&
    can .m false [] (fun st => { st with tb := { st.tb with wp1 := { st.tb.wp1 with fault := some 3 } } }) (fun _ st => (if st.tb.active then st.tb.wp0 else st.tb.wp1).fault == some 3) &&
    can .m false [] (fun st => { st with mpend := [{ sigs5 with sig := 0, eff := .loadW st.tb.wp0 }] }) (fun _ st => st.mpend.length == 1) && can .m false [] (fun st => { st with arrayFree := 9 }) (fun s st => decide (now s < st.arrayFree)) &&
    can .m false [] (fun st => { st with f := st.f.set 6 255 }) (fun _ st => decide (255 ≤ (st.f[6]).toNat)) &&
    -- a signal that was given ahead of the waits of this cycle
    canIn (fun s => s.setCore 0 { s.cores[(0 : Fin 192)] with given := 1 }) .m false [] (fun st => { st with f := (st.f.set 5 1).set 6 255 }) fun s _ => (s.cores[(0 : Fin 192)]).given == now s + 1) = true := by decide +kernel

theorem meets_MatrixRepeats : ([1, 2].all fun n => can .m false [] (repeating n) fun _ st => st.mrep.valid && st.mrep.remaining == n) = true := by decide +kernel

/-- A strand whose first weight bank has a format and row length, and whose MA0 is an address. -/
def weights (b : W32) (a : Nat) (st : Strand) : Strand :=
  { st with ma := st.ma.set 0 (BitVec.ofNat 64 a), tb := { st.tb with bfmtW := (st.tb.bfmtW.set 0 b).set 31 b, bfmtA := (st.tb.bfmtA.set 0 b).set 31 b } }

theorem meets_WeightLoads : (can .m false [] (weights 0x7F0003 32) (fun _ st => !st.mrep.valid && st.fx.isNone && (st.ma[0]).toNat % 64 != 0) &&
    can .m false [] (weights 0x7F0003 (4194304 - 64)) (fun _ st => decide (4194304 < (st.ma[0]).toNat + 256 * 128) && st.tb.bfmtW[31] == 0x7F0003) &&
    can .m false [] (weights 0x7E0003 0) (fun _ st => st.tb.bfmtW[0] == 0x7E0003) && can .m false [] (weights 0x7F0000 (4194304 - 131072)) (fun _ st => (st.ma[0]).toNat % 64 == 0 && st.tb.bfmtW[31] == 0x7F0000) && can .m false [] (fun st => { weights 0x7F0003 0 st with loadFree := 9 }) (fun s st => decide (now s < st.loadFree)) &&
    [(0x7F0003, 0), (0x7F0104, 0), (0x7F0107, 0), (0x7F030C, 0), (0x7F020B, 4194304 - 256 * 64)].all (fun x => can .m false [] (weights x.1 x.2) fun s st => decide (st.loadFree ≤ now s) && st.mpend.isEmpty &&
      decide ((st.ma[0]).toNat + 256 * 64 ≤ 4194304) && s.mem.wf) &&
    [(0x100, 4194304 - 1024), (0x200, 4194304 - 1024), (0x300, 0)].all (fun x => can .m false [] (weights x.1 x.2) fun s st => (st.ma[0]).toNat % 64 == 0 && (st.tb.bfmtW[31]).extractLsb' 8 3 == (x.1 : W32).extractLsb' 8 3 && !s.mem.bad (wbufAddr st.tb.id x.2 / 64))) = true := by
  decide +kernel

/-- A strand set for a step: activations of a format in bank 0, a tile shape, and the addresses of A in MA0 and of C in MA1. -/
def stepping (b : W32) (ts : W64) (a ca : Nat) (st : Strand) : Strand :=
  let u := weights b a st
  { u with ts := u.ts.set 0 ts, ma := u.ma.set 1 (BitVec.ofNat 64 ca) }

/-- A tile shape of M = 2, N = 256 in a format, rows 4 apart. -/
def shape2 (f : Nat) : W64 := BitVec.ofNat 64 (1 + 255 * 2 ^ 10 + f * 2 ^ 18 + 4 * 2 ^ 44)

theorem meets_MatrixSteps : ([1, 3, 4].all fun f => let b : W32 := BitVec.ofNat 32 (0x7F0000 + f)
    let dense (st : Strand) : Strand := { st with tb := { st.tb with wp0 := { st.tb.wp0 with load := 1, smode := 0 } } }
    can .m false [] (stepping b (shape2 f) 32 0) (fun _ st => !st.mrep.valid && st.fx.isNone && (st.ma[0]).toNat % 64 != 0) && can .m false [] (stepping b (shape2 f) 0 512) (fun _ st => (st.ma[1]).toNat % 1024 != 0) &&
    can .m false [] (stepping b (shape2 f) 0 (2 ^ 20)) (fun _ st => decide (2 ^ 20 ≤ (st.ma[1]).toNat)) &&
    can .m false [] (stepping b (shape2 f) 0 (1020 * 1024)) (fun _ st => decide (1023 < (st.ma[1]).toNat / 1024 + 4) && decide ((st.ma[1]).toNat / 1024 ≤ 1023)) &&
    can .m false [] (stepping b (shape2 f) 0 (1019 * 1024)) (fun _ st => decide ((st.ma[1]).toNat / 1024 + 4 ≤ 1023) && st.tb.wp0.load != 1 && !st.tb.active) &&
    can .m false [] (dense ∘ stepping b (shape2 f) 0 0) (fun s st => (if st.tb.active then st.tb.wp1 else st.tb.wp0).load == 1 && decide (st.arrayFree ≤ now s) && (st.ts[0]).extractLsb' 18 4 == (BitVec.ofNat 4 f) && decide (st.drainFree ≤ now s)) &&
    can .m false [] ((fun st => { st with arrayFree := 9, drainFree := 9 }) ∘ dense ∘ stepping b (shape2 f) 0 0) (fun s st => decide (now s < st.arrayFree) && decide (now s < st.drainFree))) = true := by decide +kernel

/-- A step on FP8 activations with their scales (R170), and weights with scales of the plane. -/
theorem meets_MatrixPairs : ([0, 1, 2].all fun k => can .m false [] (fun st => let u := stepping 0x7F0403 (shape2 3) 0 0 st
      { u with tb := { u.tb with wp0 := { u.tb.wp0 with load := 1, smode := BitVec.ofNat 3 k }, sp0 := { u.tb.sp0 with kind := BitVec.ofNat 2 k } } }) fun s st =>
    (st.tb.bfmtA[0]).extractLsb' 8 3 == 4 && (st.tb.bfmtA[0]).extractLsb' 0 4 == 3 && !st.tb.active && st.tb.wp0.load == 1 && st.tb.wp0.smode.toNat == k && st.tb.sp0.kind.toNat == k && (s.mView st).1.wf &&
      decide (st.arrayFree ≤ now s)) = true := by decide +kernel

/-- The values of a group: what is not finite, and what is, of FP8 and of BF16. -/
theorem meets_GroupValues : ((Val.fin false 0 0).isZero && (Val.inf true).isInf && (((Val.fin true 3 0).mul (.inf false)).1 == .inf true) && ((Val.fin true 3 (-2)).mul (.fin false 5 1)).1 == .fin true 15 (-1)) = true ∧
    (∃ k : Int, (-15 : ℚ) * 2 ^ (-1 : Int) = k * 2 ^ (-40 : Int)) ∧ |(-15 : ℚ) * 2 ^ (-1 : Int)| < 2 ^ ((2 : Int) + 1) ∧ (2 : ℚ) ^ (2 : Int) ≤ |(-15 : ℚ) * 2 ^ (-1 : Int)| :=
  ⟨by decide, ⟨-15 * 2 ^ 39, by norm_num⟩, by norm_num [abs_of_neg], by norm_num [abs_of_neg]⟩

theorem meets_MatrixDrains : ([(0, 4), (1, 2), (2, 2), (3, 1), (4, 1), (8, 4), (9, 2), (10, 1)].all fun x => can .m false [] (stepping (BitVec.ofNat 32 (0xFF0000 + x.1)) (shape2 1) (4194304 - 2 * 256 * x.2) (1019 * 1024)) fun s st =>
    let b := st.tb.bfmtA[31]
    !st.mrep.valid && st.fx.isNone && st.mpend.isEmpty && s.mem.wf && b.extractLsb' 0 4 == BitVec.ofNat 4 x.1 && b.extractLsb' 8 3 == 0 && decide (256 ≤ (b.extractLsb' 16 16).toNat + 1) &&
      decide ((st.ma[0]).toNat + 16 * ((256 * (8 * x.2) + 127) / 128) + 256 * x.2 ≤ 4194304) && decide ((st.ma[0]).toNat / 2 ^ 17 % 32 = 31) && decide ((st.ma[1]).toNat / 1024 + 4 ≤ 1023) &&
      decide (st.drainFree ≤ now s) && !st.tb.marked 1023 255) = true := by decide +kernel

theorem meets_MatrixWordsComplete : ([0, 9].all fun due => [MEff.zero [0, 1023] 256, .drain [MWrite.plain (abufAddr 1 0) 0 [5]] 1, .step [(1023, [[1, 2, 3, 4]])] [1023] 0 1 0].all fun e =>
    holds (fun st => { st with mpend := [{ seq := 0, due := due, sig := 5, eff := e }] }) id fun s st =>
      ((st.settle (s.cyc 0)).mpend.head?).any (fun p => decide (p.due ≤ s.cyc 0) == decide (due = 0)) && s.mem.wf) = true := by decide +kernel

theorem meets_MatrixLoadsComplete : holds (fun st => { st with mpend := [{ seq := 0, due := 0, sig := 0, eff := .loadW st.tb.wp0 }, { seq := 1, due := 0, sig := 0, eff := .loadS st.tb.sp0 }] }) id (fun s st =>
    (st.settle (s.cyc 0)).mpend.length == 2 && (st.mpend.all fun p => decide (p.due ≤ s.cyc 0))) = true := by decide +kernel

/-! Witnesses of the statements about words of H and what they have in flight. -/

/-- Operands of a copy: xd in X1, xa in X2, xb in X3. -/
def copying (d a b : Nat) : Strand → Strand := xs [(1, d), (2, a), (3, b)]

/-- Are the three operands clean, aligned and away from a pair of banks of different formats. -/
def clean (st : Strand) (e sp : BitVec 3) : Bool :=
  !st.xp 1 && !st.xp 2 && !st.xp 3 && (st.xv 1).toNat % 16 == 0 && (st.xv 2).toNat % 16 == 0 && !st.banksDiffer e sp (st.xv 1) (st.xv 2) && st.fx.isNone && decide (st.copies.length < 1024)

/-- The pieces of a copy between spaces exist. -/
def spread (s : State) (st : Strand) (e sp : BitVec 3) : Bool :=
  let loc : Local := { tb := st.tb.id, yard := s.yardOfCore 0 }
  match s.allSegs st.launch loc loc sp e [((st.xv 2).toNat, (st.xv 1).toNat, (st.xv 3).toNat)] with | .ok l => !l.isEmpty | .error _ => false

theorem meets_CopiesIssue : (can .h false [] (copying 0 4194288 16) (fun s st => clean st 1 2 && st.xv 3 != 0 && spread s st 1 2) && can .h false [] id (fun _ st => st.xv 3 == 0 && st.fx.isNone) &&
    can .h false [] (copying (2 ^ 32) (2 ^ 33) 65536) (fun s st => clean st 0 0 && spread s st 0 0) &&
    can .h false [] (copying (4194304 - 32) (1048576 - 16) (4096 + 2 ^ 44)) (fun s st => clean st 3 4 && (st.xv 3).toNat / 2 ^ 12 % 2 ^ 12 == 1 && (st.xv 3).toNat % 2 ^ 12 == 0 && s.mem.wf) &&
    [none, some { pc := (2 ^ 32 : W64), ready := 0 }].all (fun pre => can .h false [] (fun st => { copying 0 64 (25165820 * 2 ^ 24) st with pre := pre }) fun s st => clean st 3 2 && decide ((st.xv 3).toNat < 2 ^ 49) &&
      decide ((st.xv 3).toNat / 2 ^ 24 % 2 ^ 25 + 4 = 25165824) && s.mem.wf && !s.mem.bad (yardAddr (s.yardOfCore 0) 25165820 / 64) && st.pre.all fun p => p.pc == st.pc.h && p.ready == 0) &&
    canIn (fun s => { s with gangs := s.gangs.map fun g => { g with table := (g.table.set 31 [0]) } }) .h false [] (copying 0 0 (31 * 2 ^ 24 + 32)) (fun s st => clean st 2 1 && !(st.xv 3).getLsbD 63 && decide ((st.xv 3).toNat < 2 ^ 29) &&
      (s.gang? st.gang).any fun g => !(s.castTargets g 31 2).isEmpty) &&
    [[], [3]].all (fun b => [true, false].all fun m => can .h false [] (fun st => { px b (copying 0 (2 ^ 33 + 8) 7 st) with pmark := m }) fun s st => !st.xp 2 && st.xp 3 == !b.isEmpty && st.pmark == m &&
      match s.spots st.launch { tb := st.tb.id, yard := s.yardOfCore 0 } 0 (st.xv 2).toNat 8 true with | .ok l => l.length == 1 | .error _ => false)) = true := by decide +kernel

theorem meets_CopiesStopShort : (can .h false [] (fun st => { copying 0 0 16 st with fx := some { fence0 with after := 8 } }) (fun _ st => st.xv 3 != 0 && st.fx.any fun f => f.after.getLsbD 3) &&
    can .h false [] (px [1] ∘ copying 0 0 16) (fun _ st => st.fx.isNone && st.xp 1) && can .h false [] (copying 0 0 (2 ^ 24 + 16)) (fun _ st => decide (2 ^ 24 < (st.xv 3).toNat)) &&
    can .h false [] (copying 0 0 (2 ^ 49)) (fun _ st => decide (2 ^ 49 ≤ (st.xv 3).toNat)) && can .h false [] (copying 8 0 16) (fun _ st => (st.xv 1).toNat % 16 != 0) && can .h false [] (copying 0 8 16) (fun _ st => (st.xv 2).toNat % 16 != 0) &&
    can .h false [] (copying 0 0 8) (fun _ st => (st.xv 3).toNat % 16 != 0) && can .h false [] (copying 0 25165824 16) (fun _ st => decide (25165824 < (st.xv 2).toNat + 16)) &&
    can .h false [] (copying 1048576 0 16) (fun _ st => decide (1048576 < (st.xv 1).toNat + 16))) = true := by decide +kernel

theorem meets_ConvertingCopies : ([none, some { pc := (2 ^ 32 : W64), ready := 0 }].all fun pre => can .h false [] (fun st => { copying 0 0 512 st with pre := pre, tb := { st.tb with bfmtW := st.tb.bfmtW.set 0 0x1F0000, bfmtA := st.tb.bfmtA.set 0 0x1F0001 } })
    fun s st => st.fx.isNone && s.mem.wf && !st.xp 1 && !st.xp 2 && !st.xp 3 && (st.bank 2 0).extractLsb' 0 4 == 0 && (st.bank 3 0).extractLsb' 0 4 == 1 && (st.bank 2 0).extractLsb' 8 3 == 0 && (st.bank 3 0).extractLsb' 8 3 == 0 &&
      (st.bank 3 0).extractLsb' 16 16 == (st.bank 2 0).extractLsb' 16 16 && (st.xv 3).toNat % (16 * ((32 * 32 + 127) / 128)) == 0 && !s.mem.bad (({ tb := st.tb.id, yard := s.yardOfCore 0 } : Local).addr 2 0 / 64) &&
      st.pre.all fun p => p.pc == st.pc.h && p.ready == 0) = true := by decide +kernel

/-- A group definition: `n` members from the yard's first bytes, group 31. -/
def group (n : Nat) (st : Strand) : Strand := { copying 0 0 (2 ^ 63 + 31 * 2 ^ 24 + n) st with pre := some { pc := st.pc.h, ready := 0 } }

theorem meets_MulticastGroups : (can .h false [] (px [3] ∘ group 1) (fun _ st => st.fx.isNone && (st.xv 3).getLsbD 63 && st.xp 3) && can .h false [] (group 65) (fun _ st => decide (64 < (st.xv 3).toNat % 128)) &&
    can .h false [] (xs [(2, 25165824)] ∘ group 1) (fun _ st => decide (25165824 < (st.xv 2).toNat + (st.xv 3).toNat % 128)) && can .h false [] (group 1) (fun _ st => !st.owns true 1) &&
    [(1, 1, 0), (2, 1, 0), (1, 1, 5)].all (fun x => canIn (stored (yardAddr 2 0) [BitVec.ofNat 8 x.2.2]) .h false [] (fun st => { group x.1 st with xown := 2 }) fun s st => st.owns true 1 && (s.view st.sid 3).wf && (s.gang? st.gang).isSome &&
      !s.peerGated (yardAddr (s.yardOfCore 0) 0) && !(s.view st.sid 3).bad (yardAddr (s.yardOfCore 0) 0 / 64) && s.yardOfCore 0 == 2 && (st.copies.isEmpty) && ((s.view st.sid 3).byte (yardAddr 2 0)).toNat == x.2.2) &&
    can .h false [] (fun st => { group 1 st with xown := 2, copies := [{ (default : Copy) with kind := 5, arg := BitVec.ofNat 64 (31 * 2 ^ 24) }] })
      (fun s st => (s.gangStrands st.gang).any fun o => o.copies.any fun q => q.kind == 5 && (q.arg.extractLsb' 24 5).toNat == 31)) = true := by decide +kernel

/-- A token with bytes pending, a condition and the cycle of its last landing. -/
def token (pend last : Nat) (cond : BitVec 2) (st : Strand) : Strand := { st with tok := st.tok.set 7 { st.tok[7] with pend := pend, last := last, cond := cond } }

theorem meets_TokenWords : (can .h false [] (token 16 0 0) (fun _ st => (st.tok[7]).pend != 0) && canIn (fun s => { s with clusters := s.clusters.set 0 { s.clusters[(0 : Fin 48)] with cyc := 5 } }) .h false [] (token 0 4 0)
      (fun s st => st.tok.toList.all fun t => t.pend == 0 && decide (t.last < now s) && t.cond == 0) &&
    canIn (fun s => { s with clusters := s.clusters.set 0 { s.clusters[(0 : Fin 48)] with cyc := 5 } }) .h false [] (token 0 4 2) (fun s st => (st.tok[7]).pend == 0 && decide ((st.tok[7]).last < now s) && (st.tok[7]).cond == 2 && (st.tok[6]).cond == 0) &&
    canIn (fun s => { s with clusters := s.clusters.set 0 { s.clusters[(0 : Fin 48)] with cyc := 5 } }) .h false [] (fun st => { token 0 4 2 st with trapAt := some { raised .v false none with cyc := 5 } })
      (fun s st => (st.tok[7]).pend == 0 && decide ((st.tok[7]).last < now s) && (st.tok[7]).cond == 2 && st.trapAt.any fun p => p.slot != .h) &&
    can .h false [] (token 0 0 0) (fun _ st => !st.owns true 1) && can .h false [] (fun st => { st with xown := 2 }) (fun _ st => st.owns true 1)) = true := by decide +kernel

theorem meets_HaulSlotArithmetic : (can .h false [] (px [2]) (fun _ st => st.xp 2) && can .h false [] (xs [(2, 0x10)]) (fun _ st => (st.xv 2).getLsbD 4) && can .h false [] (xs [(2, 13)]) (fun _ st => decide (12 < ((st.xv 2).extractLsb' 0 4).toNat)) &&
    can .h false [] (xs [(2, 0x50C)]) (fun _ st => decide (4 < ((st.xv 2).extractLsb' 8 3).toNat)) && can .h false [] (xs [(2, 0xFFFF040C)]) (fun _ st => !st.xp 2 && decide (((st.xv 2).extractLsb' 0 4).toNat ≤ 12) && decide (((st.xv 2).extractLsb' 8 3).toNat ≤ 4)) &&
    [0, 1].all (fun t => can .h false [] (fun st => { st with qh := { entries 0 with items := [{ lo := 1, hi := 2, plo := true, phi := false, from_ := t }] } }) fun s st => st.qh.items.head?.any fun q => decide (q.from_ ≤ now s) == decide (t = 0))) = true := by
  decide +kernel

/-- Channel 5 allotted to the launch on core 0 as its channel 15, running or not. -/
def channel (busy : Bool) (s : State) : State :=
  (onLaunch (fun l => { l with haulch := 0x8000 }) s).setChan 5 { s.chans[(5 : Fin 192)] with owner := some (1, 15), busy := busy }

theorem meets_HaulgoWords : (can .h false [] (px [1]) (fun _ st => st.fx.isNone && st.xp 1) && can .h false [] (xs [(2, 2 ^ 15)]) (fun _ st => decide (2 ^ 15 ≤ (st.xv 2).toNat)) && can .h false [] (xs [(1, 32), (2, 15)]) (fun _ st => (st.xv 1).toNat % 64 != 0) &&
    can .h false [] (xs [(1, 2 ^ 40), (2, 15)]) (fun s st => (s.launch? st.launch).any fun l => match s.translate l (st.xv 1) .rw with | .error _ => true | .ok _ => false) &&
    can .h false [] (xs [(1, 2 ^ 33), (2, 15)]) (fun s st => (s.launch? st.launch).any fun l => !l.haulch.getLsbD 15 && match s.translate l (st.xv 1) .rw with | .error _ => false | .ok _ => true) &&
    [true, false].all (fun b => canIn (channel b) .h false [] (xs [(1, 2 ^ 33), (2, 15 + 64 * 256)]) fun s st => (s.launch? st.launch).any fun l => l.haulch.getLsbD 15 && st.accs.isEmpty && (s.chans[(5 : Fin 192)]).busy == b &&
      (List.finRange 192).all fun q => ((s.chans[q]).owner == some (l.id, 15)) == decide (q = 5))) = true := by decide +kernel

/-- A packet of a kind whose completion record is at a device address, at position `j` of the yard's first slab. -/
def packet (j kind cpl : Nat) : State → State := stored (yardAddr 2 (128 * j)) (leBytes 8 kind ++ leBytes 8 cpl)

/-- A pre-issue read that is done. -/
def readDone (st : Strand) : Strand := { st with pre := some { pc := st.pc.h, ready := 0 } }

theorem meets_QpostWords : (can .h false [] (xs [(2, 16)]) (fun _ st => decide (16 ≤ (st.xv 2).toNat)) && can .h false [] (xs [(1, 1024)]) (fun _ st => (st.xv 1).toNat % 2048 != 0) && can .h false [] (xs [(1, 25165824)]) (fun _ st => decide (25165824 < (st.xv 1).toNat + 2048)) &&
    [3, 4].all (fun n => canIn (fun s => s.setCore 0 { s.cores[(0 : Fin 192)] with slabs := List.replicate n default }) .h false [] id fun s st => st.pre.isNone && (s.cores[(0 : Fin 192)].slabs.filter fun q => q.stack == 0).length == n) &&
    [0, 31].all (fun n => canIn (bad (yardAddr 2 (64 * n))) .h false [] readDone fun s st => s.yardOfCore 0 == 2 && st.pre.any (fun p => p.pc == st.pc.h && p.ready == 0) && (s.cores[(0 : Fin 192)]).slabs.isEmpty &&
      (List.range 32).all fun m => s.mem.bad (yardAddr 2 0 / 64 + m) == decide (m = n)) &&
    -- no packet, one whose record has no field, one that goes, and one whose stack's queue is full
    [(0, 0, 0), (1, 2 ^ 40, 0), (1, 2 ^ 33, 0), (1, 2 ^ 33, 16)].all (fun x => canIn (packet 15 x.1 x.2.1 ∘ fun s => s.setCore 0 { s.cores[(0 : Fin 192)] with passed := List.replicate x.2.2 0 }) .h false [] readDone fun s st =>
      (s.cores[(0 : Fin 192)]).reqStalls 0 == decide (x.2.2 = 16) && s.mem.wf && s.yardOfCore 0 == 2 && (s.launch? st.launch).any fun l =>
      let slab := s.mem.span (yardAddr 2 0) 2048
      (List.range 16).all (fun j => pktKind (packetOf slab j) == if j = 15 then x.1 else 0) && (x.1 == 0 || (match s.translate l (BitVec.ofNat 64 (pktCpl (packetOf slab 15) / 16 * 16)) .w with | .ok _ => x.2.1 == 2 ^ 33 | .error _ => x.2.1 == 2 ^ 40)))) = true := by
  decide +kernel

/-- A copy in flight whose one piece is between two yard addresses. -/
def copy0 (kind : Nat) (st : SegState) : Copy :=
  { (default : Copy) with kind := kind, tok := 7, segs := [{ (default : Seg) with src := some (yardAddr 2 0), dst := some (yardAddr 2 64), len := 64, st := st }] }

theorem meets_CopiesLand : ([0, 9].all (fun r => holds (fun st => { st with pre := some { pc := 0, ready := r } }) id fun s st => (st.settle (s.cyc 0)).pre.any fun p => decide (p.ready ≤ s.cyc 0) == decide (r = 0)) &&
    holds (fun st => { st with copies := [copy0 1 .idle] }) id (fun s st => ((st.settle (s.cyc 0)).copies.head?).any (fun k => k.kind == 1) && s.mem.wf && (cbufOf (yardAddr 2 0)).isNone && !s.mem.bad (yardAddr 2 0 / 64) &&
      !s.yardGated (s.yardOfCore 0) st.launch (yardAddr 2 0)) &&
    [0, 2].all (fun c => holds (token 0 0 c ∘ fun st => { st with copies := [copy0 6 (.ready (List.replicate 8 (some 1)) [])] }) id fun s st => !s.yardGated (s.yardOfCore 0) st.launch (yardAddr 2 64) && (st.tok[7]).cond == c) &&
    holds (fun st => { st with copies := [copy0 1 .idle, { copy0 6 (.ready [] []) with cid := 1 }] }) id (fun _ st => st.copies.any fun o => decide (o.cid < 1) && o.tok == 7 && o.kind != 6)) = true := by decide +kernel

/-- A copy in flight of one piece. -/
def copyOf (kind : Nat) (src dst : Option Nat) (st : SegState) : Copy := { (default : Copy) with kind := kind, segs := [{ (default : Seg) with src := src, dst := dst, len := 64, st := st }] }

/-- The bytes of a piece. -/
def pieceData : SegState := .ready (List.replicate 64 (some 1)) []

theorem meets_NotesLand : ([(3 * 2 ^ 36, false), (peerAddr 5 0, true), (siloAddr 0, false)].all fun x => holds (fun st => { st with copies := [copyOf 6 none (some x.1) pieceData] }) id fun s st =>
    s.yardGated (s.yardOfCore 0) st.launch x.1 == x.2 && ((s.cores[(0 : Fin 192)]).requested st.sid 0).isEmpty && (st.settle (s.cyc 0)).copies.all fun k => k.kind == 6 && k.segs.length == 1) = true := by decide +kernel

/-! Witnesses of the statements about events. -/

/-- A request of core 0 for an access of its strand, which reaches the controller in a cycle. -/
def req (bound : Option Nat) (reach : Nat) : Req := { stack := 3, addr := 3 * 2 ^ 36, len := 8, who := .acc 2 3, bound := bound, reach := reach }

/-- Core 0 with requests. -/
def asked (l : List Req) (s : State) : State := s.setCore 0 { s.cores[(0 : Fin 192)] with reqs := l }

/-- Stack 3 in its next maintenance slot, with an amount of refresh due. -/
def upkept (tick owed : Nat) (queue : List Nat) (s : State) : State :=
  { s with tick := tick, upkeep := s.upkeep.set 3 { s.upkeep[(3 : Fin 16)] with owed := owed, queue := queue } }

/-- Stack 3 with a load's data and a write on their way. -/
def onWay (s : State) : State :=
  { s with hbm := s.hbm.set 3 { started := 0, reads := [{ due := 200, core := 0, who := .acc 2 3, data := List.replicate 8 1, bad := [] }],
                                writes := [{ due := 200, sid := 2, path := 0, who := .acc 2 4, core := 0, w := MWrite.plain 0 0 [1] }] } }

theorem meets_CalendarSlots : ([(15, 0), (15, 1), (16, 0)].all (fun x => holds id (fun s => (asked (List.replicate x.1 (req (some 400) 0) ++ [req none 0]) s).setCore 0
      { (asked (List.replicate x.1 (req (some 400) 0) ++ [req none 0]) s).cores[(0 : Fin 192)] with passed := List.replicate x.2 3 }) fun s _ =>
      ((s.cores[(0 : Fin 192)]).boundOn 3).length + (s.cores[(0 : Fin 192)]).passed.count 3 == x.1 + x.2 && (s.cores[(0 : Fin 192)]).reqs.any fun r => r.bound.isNone) &&
    [SOp.load 7 true, .store (MWrite.plain (3 * 2 ^ 36) 0 [1])].all (fun op => [0, 1].all fun reach =>
      holds (fun st => { st with accs := [{ inFlight op (3 * 2 ^ 36) with id := 3 }] }) (asked [req (some 192) reach] ∘ fun s => { s with tick := 192 }) fun s st =>
      st.sid == 2 && decide ((s.hbm[(3 : Fin 16)]).started ≤ s.tick) && decide (s.tick % 400 < 384) && s.tick % 400 % 192 == 0 && (s.findSid 2).any (fun o => (o.accs.find? fun a => a.id == 3).any fun a => a.op == op) &&
      decide (reach ≤ (s.clusters[(0 : Fin 48)]).cyc) == decide (reach = 0)) &&
    [(384, 0, []), (387, 1000, []), (399, 0, [4096])].all (fun (x : Nat × Nat × List Nat) => holds id (upkept x.1 x.2.1 x.2.2) fun s _ => let u := s.upkeep[(3 : Fin 16)]
      decide (384 ≤ s.tick % 400) && SMap.wf 0 u.rows && s.dieUp (stackDie 3) && u.queue == x.2.2 && (x.1 == 399 || decide (1000 ≤ u.owed + if s.tick % 400 = 384 then 3072 else 0))) &&
    holds id (fun s => { s with tick := 384, bootstat := 1 }) (fun s _ => !s.dieUp (stackDie 3)) &&
    holds id (fun s => { s with hbm := s.hbm.set 3 { s.hbm[(3 : Fin 16)] with started := 1 } }) (fun s _ => decide (s.tick < (s.hbm[(3 : Fin 16)]).started)) &&
    [200, 199].all (fun t => [id, halt0].all fun out =>
      let s := out (at_ .s 0 (fun st => { st with accs := [{ inFlight (.load 7 true) (3 * 2 ^ 36) with id := 3 }] }) (onWay ∘ fun s => { s with tick := t }))
      (s.hbm[(3 : Fin 16)]).reads.all (fun r => decide (r.due ≤ s.tick) == decide (t = 200) && decide (r.core < 192) && r.data.length == 8) && (s.hbm[(3 : Fin 16)]).writes.all (fun w => decide (w.due ≤ s.tick) == decide (t = 200)) &&
        (s.findSid 2).any fun o => o.accs.length == 1 && s.isHalted o.sid == (s.strand? 0).isNone)) = true := by decide +kernel

/-- A slab posted to stack 3. -/
def slabAt3 : Slab := { stack := 3, sid := 2, part := 0, launch := 1, data := [], pos := 0, go := false }

/-- In the slot of core 0 on stack 3 its one request, of a kind, is due. -/
def called (who : ReqWho) (f : Strand → Strand) (g : State → State) (p : State → Strand → Bool) : Bool :=
  let r : Req := { req (some 192) 0 with who := who }
  holds f (g ∘ asked [r] ∘ fun s => { s with tick := 192 }) fun s st => (s.cores[(0 : Fin 192)]).reqs == [r] && decide ((s.hbm[(3 : Fin 16)]).started ≤ s.tick) && s.tick % 400 % 192 == 0 && st.sid == 2 && (s.findSid 2).any (fun o => o.sid == 2) &&
    !s.isHalted 2 && p s st

theorem meets_CalendarRequests : (
    -- the record of a SOW or JOIN, a line of the constant path, an atomic
    called (.acc 2 3) (fun st => { st with recReq := some (3, false) }) id (fun _ st => (st.accs.find? fun a => a.id == 3).isNone && st.recReq == some (3, false)) &&
    called (.fill 7) id (fun s => s.setCore 0 { s.cores[(0 : Fin 192)] with kfills := [{ id := 7, line := 3 * 2 ^ 30, tag := 0, disc := false, data := none, upto := none, sid := 2 }] }) (fun s _ =>
      ((s.cores[(0 : Fin 192)]).kfills.find? fun f => f.id == 7).isSome) &&
    called (.acc 2 3) (fun st => { st with accs := [inFlight (.amo .add 7 1) (3 * 2 ^ 36)] }) id (fun s st => s.mem.wf && st.accs.all fun a => a.size == 8 && a.addr % 8 == 0) &&
    -- a piece of a copy read, and one written
    called (.copyRead 2 0 [0]) (fun st => { st with copies := [copyOf 1 (some (3 * 2 ^ 36)) (some (yardAddr 2 64)) .idle] }) id (fun s st => st.copies.all fun k => k.cid == 0 && k.segs.length == 1 && !(s.view 2 3).bad (3 * 2 ^ 36 / 64)) &&
    called (.copyWrite 2 0 [0]) (fun st => { st with copies := [copyOf 1 (some (yardAddr 2 64)) (some (3 * 2 ^ 36)) pieceData] }) id (fun _ st => st.copies.all fun k => k.cid == 0 && k.kind == 1 && k.segs.all fun g => g.st == pieceData) &&
    -- a slab whose quarry has room, and one that waits
    [0, 64].all fun n => called .slab id (fun s => ({ s with quarry := s.quarry.set 3 { s.quarry[(3 : Fin 16)] with transit := List.replicate n default } } : State).setCore 0 { s.cores[(0 : Fin 192)] with slabs := [slabAt3] }) fun s _ =>
      (s.quarry[(3 : Fin 16)]).transit.length == n && (s.cores[(0 : Fin 192)]).slabs == [slabAt3]) = true := by decide +kernel

/-- Data for a line or a piece that is due at core 0. -/
def arrived (who : ReqWho) (s : State) : State := { s with tick := 200, hbm := s.hbm.set 3 { s.hbm[(3 : Fin 16)] with reads := [{ due := 200, core := 0, who := who, data := List.replicate 64 1, bad := [] }] } }

theorem meets_CalendarData : (holds id (arrived (.fill 7)) (fun s _ => (s.hbm[(3 : Fin 16)]).reads.all fun r => decide (r.due ≤ s.tick) && r.who == .fill 7) &&
    [yardAddr 2 64, 3 * 2 ^ 36].all (fun b => holds (fun st => { st with copies := [copyOf 1 (some 0) (some b) .reading] }) (arrived (.copyRead 2 0 [0])) fun s st =>
      st.sid == 2 && s.mem.wf && (cbufOf b).isNone && !s.yardGated (s.yardOfCore 0) st.launch b && !s.yardGated (s.yardOfCore 0) st.launch 0 && ((s.cores[(0 : Fin 192)]).requested 2 0).isEmpty &&
        st.copies.all fun k => k.segs.all fun g => g.st == .reading && g.len == 64 && g.toHbm == decide (b < 2 ^ 40)) &&
    holds (fun st => { st with copies := [copyOf 1 (some (yardAddr 2 64)) (some (3 * 2 ^ 36)) .writing] }) (fun s => { s with tick := 200, hbm := s.hbm.set 3 { s.hbm[(3 : Fin 16)] with
        writes := [{ due := 200, sid := 2, path := 3, who := .copyWrite 2 0 [0], core := 0, w := MWrite.plain (3 * 2 ^ 36) 0 [1] }] } }) fun s st =>
      st.sid == 2 && (s.hbm[(3 : Fin 16)]).writes.all (fun w => decide (w.due ≤ s.tick) && decide (w.core < 192)) && st.copies.all fun k => k.cid == 0 && k.kind != 6 && k.segs.length == 1) = true := by decide +kernel

/-- A halted strand of the launch on core 0. -/
def halted (place : CtxPlace) (s : State) : State :=
  match s.strand? 0 with
  | some st => { s with halted := [{ st := { st with sid := 9 }, core := 0, place := place, time := 0, badLines := [] }] }
  | none => s

/-- Partition 0 with a save area. -/
def saving (s : State) : State := s.setPart 0 { s.parts[(0 : Fin 64)] with save := { base := 2 ^ 32, size := 2 ^ 30, used := [] } }

theorem meets_Preemption : ([none, some { word := 0, xd := 7, since := 0, ends := none }].all (fun z => holds (fun st => { st with sleep := z }) (fun s => { s with preqs := [{ sid := 2, yielded := false }] }) fun s st =>
      (s.preqs.find? fun r => r.sid == st.sid).isSome && st.trapAt.isNone && st.phase == .running && st.sleep == z) &&
    holds (fun st => { st with trapAt := some (raised .s false none) }) (fun s => { s with preqs := [{ sid := 2, yielded := false }] }) (fun s st => (s.preqs.find? fun r => r.sid == st.sid).isSome && st.trapAt.isSome) &&
    [Phase.halting true, .dying].all (fun p => [[], [inFlight (.load 7 true) (siloAddr 0)]].all fun a => holds (fun st => { st with phase := p, copies := [copy0 1 .idle, copy0 1 .landed], accs := a }) id fun s st =>
      let t := st.settle (s.cyc 0)
      t.phase == p && t.vpend.isEmpty && t.mpend.isEmpty && t.xpend.isEmpty) &&
    [8, 0].all (fun n => holds id (halted (.core 0) ∘ fun s => { s with clusters := s.clusters.set 0 { s.clusters[(0 : Fin 48)] with granary := Vector.ofFn fun i : Fin 8 => if i.val < n then some 7 else none } }) fun s _ =>
      (s.halted.find? fun h => h.place == .core 0).isSome && (s.clusters[(0 : Fin 48)]).granary.all fun g => g.isSome == decide (n = 8)) &&
    [CtxPlace.core 0, .granary 0 3].all (fun p => [[], [{ part := 0, off := 131072, size := 131072, sid := 9, launch := 1, slot := 0 }]].all fun r => holds id ((fun s => { s with rsvs := r }) ∘ halted p ∘ saving) fun s _ =>
      (s.halted.find? fun h => h.st.sid == 9).any fun h => h.badLines.isEmpty && h.place == p && (s.launch? h.st.launch).any (fun l => !l.parked) && (s.rsvOf 9 0 0).isSome == !r.isEmpty && (s.rsvOf 9 0 0).all (fun x => x.part == h.st.part) &&
      ((s.parts[h.st.part]).save.find 131072).isSome && s.mem.wf) &&
    -- system software asks for the pre-emption of the one launch, with and without a save area
    [id, saving].all (fun g => holds id g fun s st => (List.range 48).all (fun q => (s.strandsOn q).any (fun o => o.launch == st.launch) == decide (q = 0)) && s.canEvict 0 == decide (s.parts[st.part].save.size ≠ 0))) = true := by decide +kernel

/-- Work placed on core 0, which is free: a seed, or the halted strand. -/
def placed (sd : Option Seed) (s : State) : State :=
  let t := if sd.isSome then s else halted (.granary 0 3) s
  { t with cores := s.cores.set 0 { s.cores[(0 : Fin 192)] with strand := none },
                                 placing := [{ launch := 1, part := 0, seed := sd, sids := if sd.isSome then [] else [9], cores := [0], slots := [0], level := 0, prio := 0 }] }

theorem meets_Placing : ([none, some (default : Seed)].all fun sd => let s := at_ .s 0 id (placed sd)
    (s.placing.head?).any fun p => p.seed == sd && p.cores == [0] && s.coreReady 1 0 && (s.launch? p.launch).any (fun l => !l.parked && l.ending == .live) && (sd.isSome || (s.halted.find? fun h => h.st.sid == 9).any fun h =>
      h.place == .granary 0 3 && h.st.accs.isEmpty && h.st.copies.isEmpty && h.badLines.isEmpty && !h.st.clkFixed)) = true := by decide +kernel

theorem meets_FixedStart : ([0, 1].all fun t => let s := at_ .s 0 id ((fun s => { s with placing := s.placing.map fun p => { p with point := { tm1 := 0, variant := 0, freq := 1200, volt := 1 } } }) ∘ placed (some default) ∘ fun s => { s with tick := t })
    (s.placing.head?).any fun p => p.point.freq == 1200 && s.coreReady 1 0 && (s.tick % 400 == 0) == decide (t = 0)) = true := by decide +kernel

theorem meets_StartsPutOff : ((let s := at_ .s 0 id (onLaunch (fun l => { l with ending := .ending 1 }) ∘ placed (some default))
      (s.placing.head?).any fun p => (s.launch? p.launch).any fun l => l.ending != .live) &&
    [true, false].all fun parked => let s := at_ .s 0 id (onLaunch (fun l => { l with parked := parked }) ∘ fun s => if parked then placed (some default) s else { placed (some default) s with halted := (placed none s).halted })
      (s.placing.head?).any fun p => p.seed.isSome && (s.launch? p.launch).any fun l => l.ending == .live && (l.parked || s.halted.any fun h => h.st.launch == l.id)) = true := by decide +kernel

theorem meets_NoSeedDiscarded : [id, fun s => { placed none s with placing := [] }].all (fun g => (at_ .s 0 id g).parts.toList.all fun p => p.queues.toList.flatten.isEmpty) = true := by decide +kernel

theorem meets_SchedulerDecides : (holds id id (fun s _ => s.cands.isEmpty && decide (dtime s.tick / 1000 ≤ s.vtUs) && s.launches.all fun l => l.given.isEmpty && l.slots.all fun k => k.img.all fun a => !a.2) &&
    holds id (fun s => { s.setPart 0 { s.parts[(0 : Fin 64)] with active := true } with tick := 1600 })
      (fun s _ => decide (s.vtUs < dtime s.tick / 1000) && (s.parts[(0 : Fin 64)]).active && s.busyPart 0 && decide ((s.parts[(0 : Fin 64)]).vt ≤ 2 ^ 20)) &&
    holds id (fun s => { s with tick := 1600 }) (fun s _ => decide (s.vtUs < dtime s.tick / 1000) && s.parts.toList.all fun p => !p.active) &&
    holds id (fun s => { s with tick := 160000 }) (fun s st => (s.strandsOn 0).length == 1 && decide ((s.clusters[(0 : Fin 48)]).acquired + 1000 * (s.parts[st.part]).pslice < dtime s.tick)) &&
    holds id id (fun s st => decide (dtime s.tick ≤ (s.clusters[(0 : Fin 48)]).acquired + 1000 * (s.parts[st.part]).pslice))) = true := by decide +kernel

theorem meets_SchedulerPlaces : ([ready1, fun s => { placed none s with placing := [] }].all fun g => let s := at_ .s 0 id g
    !s.sweepRsvs.activate.givenAll.cands.isEmpty && [s, s.sweepRsvs.activate.givenAll].all fun s => (s.cands.head?).any fun u => match s.tryPlace u true with
      | some (s1, p) => p.cores.length == 1 && p.cores.all fun c => (s1.clusters[c / 4]?).any fun x => x.fixed == u.fixed | none => false) = true := by decide +kernel

/-- A second launch, of partition 1, whose ready seed wants the core. -/
def rival (s : State) : State :=
  let q := (s.parts[(1 : Fin 64)]).queues.set 0 [{ (default : Seed) with place := 2 ^ 33 }]
  let ls := s.launches.flatMap fun l => [l, { l with id := 2, part := 1, slots := [LSlot.fresh 9], unsown := [] }]
  ({ s with launches := ls, tick := 160000 }.setPart 1 { s.parts[(1 : Fin 64)] with exists_ := true, active := true, seedBase := 2 ^ 30, seedLog2 := 8, queues := q }).setPart 0 { s.parts[(0 : Fin 64)] with vt := 5, active := true }

theorem meets_SliceRunsOut : holds id (saving ∘ rival) (fun s st => !s.leaving 0 && s.canEvict 0 && (s.cands.any fun u => (s.launch? u.launch).any (fun l => l.part != st.part) && !s.hopeless u &&
    ((s.strandsOn 0).all fun t => t.prio == u.prio) && keyLt (s.candKey u) (s.clusterKey 0))) = true := by decide +kernel

/-- A ready seed that no cluster of its clock mode takes, and one for which a strand of lower PRIO would be stopped. -/
theorem meets_SchedulerWaits : ((let s := at_ .s 0 id (onLaunch (fun l => { l with ops := [{ tm1 := 0, variant := 0, freq := 1200, volt := 1 }] }) ∘ ready1)
      let s0 := s.sweepRsvs.activate.givenAll
      !s0.cands.isEmpty && s0.cands.all fun u => (s0.tryPlace u true).isNone && (s0.tryPlace u false).isNone) &&
    let s := at_ .s 0 id ((fun s => { s with clusters := (s.clusters.map fun k => { k with withheld := true }).set 0 s.clusters[(0 : Fin 48)] }) ∘ saving ∘ rival)
    s.cands.any fun u => (s.victims { u with prio := 7 }).any fun qs => qs.contains 0 && (s.strandsOn 0).all fun st => decide (st.prio < 7)) = true := by decide +kernel

/-- The page at partition address 2 MiB × i is HBM from 2^30 on, in the translation cache of channel 0's engine. -/
def cached (s : State) : State :=
  { s with xlats := s.xlats.set 0 ((List.range 8).map fun i => { part := 0, page := i, big := true, leaf := BitVec.ofNat 64 (2 ^ 30 + 2 ^ 21 * i + 0xF) }) }

/-- Channel 0 of the launch runs a chain whose one record is given. -/
def chained (r : Option HaulRec) (s : State) : State :=
  s.setChan 0 { s.chans[(0 : Fin 192)] with owner := some (1, 0), busy := true, at_ := if r.isSome then 0 else 2 ^ 21, seq := if r.isSome then none else some 6, recs := r.toList }

/-- A record of a kind from 4 MiB to 6 MiB. -/
def hauling (kind len : Nat) (done : List Nat) : HaulRec :=
  { (default : HaulRec) with addr := 2 ^ 21, kind := kind, src := 2 ^ 22, dst := 3 * 2 ^ 21, len := len, done := done }

/-- The ranges of a channel's unit can be reached, and no line is poisoned. -/
def reached (s : State) (wr : Bool) (l : List (Nat × Nat)) : Bool :=
  let k := s.chans[(0 : Fin 192)]
  match s.haulRuns 0 k.part (s.chanLaunch k) wr l with | .ok ps => ps.all fun p => !s.mem.anyBad p.phys p.len | .error _ => false

theorem meets_HaulRecords : ([(0, 0), (1 + 2 * 1, 5), (1 + 2 * 1, 7)].all fun x =>
    let s := at_ .s 0 id (cached ∘ chained none ∘ fun s => { s with mem := s.mem.apply (MWrite.plain (2 ^ 30 + 2 ^ 21) 1 (leBytes 4 x.1 ++ leBytes 4 x.2 ++ leBytes 24 0 ++ leBytes 32 4096)) })
    let k := s.chans[(0 : Fin 192)]
    s.mayRead k && k.recs.isEmpty && s.wires.isEmpty && reached s false [(k.at_, 64)] && reached s true [(k.at_, 64)] &&
      let bs := s.mem.bytesAt 1 (2 ^ 30 + 2 ^ 21) 64
      let r := recordOf k.at_ bs
      leNat (bs.take 8) % 2 == x.1 % 2 && (r.seq == 7) == decide (x.2 = 7) && (x.1 == 0 || !recordBad (leNat (bs.take 8)) r.next r.src r.dst r.len r.arg1.toNat r.arg2.toNat && r.units != 0)) = true := by decide +kernel

theorem meets_HaulMovesBytes : (holds id (chained none) (fun s _ => s.mayRead (s.chans[(0 : Fin 192)])) && holds id id (fun s _ => !s.mayRead (s.chans[(0 : Fin 192)])) &&
    [(1, 4096, [[], [0]]), (3, 4096, [[], [0]]), (8, 8192, [[], [0, 1, 2, 3], [0, 1, 2]]), (2, 2 ^ 25 + 16, [[], [0]])].all (fun (x : Nat × Nat × List (List Nat)) => x.2.2.all fun d => let r := hauling x.1 x.2.1 d
      holds id (cached ∘ chained (some r)) fun s _ => (s.chans[(0 : Fin 192)]).busy && r.status.isNone && r.wait.isNone && r.poison.isNone && !r.hurt && r.report == 0 && s.wires.isEmpty && decide (d.length < r.units) &&
        (s.chanLaunch s.chans[(0 : Fin 192)]).any (fun l => l.ending == .live) && reached s false (s.unitOf 0 r).reads && reached s true (s.unitOf 0 r).writes)) = true := by decide +kernel

/-- A record on the way to its end: the last unit of its kind, its own line still translated or not. -/
theorem meets_HaulLastUnits : ([(1, 4096, [0]), (3, 4096, [0]), (8, 8192, [0, 1, 2, 3]), (2, 2 ^ 25 + 16, [0])].all fun x => let r := hauling x.1 x.2.1 x.2.2
    decide (x.2.2.length + 1 = r.units) && [true, false].all fun t => holds id ((if t then cached else id) ∘ chained (some r)) fun s _ =>
      match s.haulTgt 0 (s.chans[(0 : Fin 192)]).part (s.chanLaunch s.chans[(0 : Fin 192)]) r.addr true with | .ok _ => t | .error (.walk _) => !t | .error _ => false) = true := by decide +kernel

theorem meets_PackFormat : ([4, 5].all (fun kind => let r := hauling kind 8192 []
    holds id (cached ∘ chained (some r)) fun s _ => r.wait.isNone && r.status.isNone && r.poison.isNone && !r.hurt && decide (r.done.length + 1 < r.len / 4096) && (s.chanLaunch s.chans[(0 : Fin 192)]).any (fun l => l.ending == .live) &&
      reached s false [(r.src, if kind = 4 then 4096 else 32)] && reached s true [(r.dst, 4128)] && (blockHead (List.replicate 32 0) false 0).isNone) &&
    (blockHead (leBytes 16 3 ++ leBytes 16 (10 * 2 ^ 16)) false 0).any (fun b => b.mode == 0 && b.size == 160 && (expandBlock b (List.replicate 128 7) []).2.isEmpty) &&
    (blockHead (leBytes 16 0 ++ leBytes 16 (2 * 2 ^ 16)) false 0).any (fun b => b.size == 32)) = true := by decide +kernel

/-! Witnesses of the statements about engines, quarry logic and the package. -/

/-- Partition 0 with page tables: eight pages of 2 MiB from partition address 0 map HBM from 2^30 on, and an entry for 16 MiB says `e`. -/
def tables (e : Nat) (s : State) : State :=
  let w (m : Mem) (a : Nat) (l : List Nat) : Mem := m.apply (MWrite.plain a 1 (l.flatMap (leBytes 8)))
  { s.setPart 0 { s.parts[(0 : Fin 64)] with ptroot := 2 ^ 31 } with
    mem := w (w (w s.mem (2 ^ 31) [2 ^ 31 + 4097]) (2 ^ 31 + 4096) [2 ^ 31 + 8193]) (2 ^ 31 + 8192) ((List.range 8).map (fun i => 2 ^ 30 + 2 ^ 21 * i + 0xF) ++ [e]) }

/-- A REDUCE of a line of 4 MiB into the yard of slot 0. -/
def reducing (fp : Bool) (j : Nat) : HaulRec :=
  { hauling 6 128 [] with dst := 2 ^ 48 - 2 ^ 31 + 64 * 5, arg1 := BitVec.ofNat 64 (j * 2 ^ 32 + if fp then 0 else 8), arg2 := 3 }

/-- Line `i` of the REDUCE of channel 0 on its way to its bank. -/
def sentLine (i : Nat) : Arrival := { chan := 0, rec_ := 0, off := i, cluster := 0, line := 0, j := 1, n := 3, fp := true, data := List.replicate 64 0, bad := false }

theorem meets_HaulReduces : ([(true, 0), (false, 0), (true, 1)].all fun (x : Bool × Nat) => let r := reducing x.1 0
    holds id ((fun s => { s with arrivals := (List.range x.2).map sentLine }) ∘ cached ∘ chained (some r)) fun s _ => let k := s.chans[(0 : Fin 192)]
      k.busy && (s.chanLaunch k).any (fun l => l.ending == .live) && !s.paused k && s.reductions.isEmpty && !recordBad (12 + 2 ^ 32) 0 r.src r.dst r.len r.arg1.toNat r.arg2.toNat &&
      ((List.range (r.len / 64)).find? fun i => !r.done.contains i && !s.arrivals.any fun a => a.chan == 0 && a.rec_ == r.seq.toNat && a.off == i) == some x.2 && reached s false [(r.src + 64 * x.2, 64)] &&
      match s.haulTgt 0 0 (s.chanLaunch k) (r.dst + 64 * x.2) true with
      | .ok (phys, _, _) => (s.clusters[(0 : Fin 48)]).yard == some ((phys - 2 ^ 72) / 2 ^ 25) && (List.finRange 48).all fun q => q == 0 || (s.clusters[q]).yard != some ((phys - 2 ^ 72) / 2 ^ 25)
      | .error _ => false) = true := by decide +kernel

theorem meets_ReducesPause : (let s := at_ .s 0 id (halt0 ∘ onLaunch (fun l => { l with asked := true }) ∘ chained (some (reducing true 0)) ∘ fun s => { s with reductions := [{ line := 0, n := 3, next := 0, held := [sentLine 0] }] })
    s.paused s.chans[(0 : Fin 192)] && (s.chanLaunch s.chans[(0 : Fin 192)]).any (fun l => l.ending == .live) && s.reductions.any fun d => d.held.any fun a => a.chan == 0 && a.rec_ == (reducing true 0).seq.toNat) = true := by decide +kernel

theorem meets_HaulNotes : (let r : HaulRec := { hauling 9 0 [] with src := 0, arg1 := 7 }
    holds id (cached ∘ chained (some r)) fun s _ => !r.noted && !r.hurt && r.dst != 0 && (s.chanLaunch s.chans[(0 : Fin 192)]).any (fun l => l.ending == .live) && reached s true [(r.dst, 8)] && s.wires.isEmpty) = true := by decide +kernel

/-- The leaf of the 2 MiB page `i` of the tables. -/
def leafIs (i e : Nat) (s : State) : State := { s with mem := s.mem.apply (MWrite.plain (2 ^ 31 + 8192 + 8 * i) 1 (leBytes 8 e)) }

/-- What a MIGRATE of pages 2 and 3 to pages 5 and 6 meets: the frames in use, the pages discarded, the first poisoned line. -/
def migrating (g : State → State) (live1 live2 zero1 zero2 hurt : Bool) (first : Option Nat) : Bool :=
  let r : HaulRec := { hauling 7 (2 ^ 22) [] with dst := 5 * 2 ^ 21, hurt := hurt }
  holds id (g ∘ tables 0 ∘ chained (some r)) fun s _ => (s.chanLaunch s.chans[(0 : Fin 192)]).any (fun l => l.ending == .live) &&
    match s.migLeaf 0 r.src, s.migLeaf 0 r.dst with
    | some x, some y => x.big && y.big && (s.migPoisoned 0 (r.migPages x.size)).isNone && s.migOk 0 r true && match s.leafTgt 0 (x.xlat 0 r.src) r.src, s.leafTgt 0 (y.xlat 0 r.dst) r.dst with
        | .ok (fa, _, za), .ok (fb, _, zb) => s.frameLive fa (2 ^ 21) == live1 && s.frameLive fb (2 ^ 21) == live2 && za == zero1 && zb == zero2 &&
            first == if hurt then some (fa / 64) else if za || s.mem.poison.isEmpty then none else (s.mem.poison.map Prod.fst).find? fun n => decide (fa / 64 ≤ n) && decide (n < (fa + 2 ^ 21) / 64)
        | _, _ => false
    | _, _ => false

theorem meets_HaulMigrates : (migrating id false false false false false none && migrating (leafIs 2 0xF) true false false false false none && migrating (leafIs 5 0xF) false true false false false none) = true := by decide +kernel

theorem meets_HaulMigratesPoison : (migrating (bad (2 ^ 30 + 2 ^ 22)) false false false false false (some ((2 ^ 30 + 2 ^ 22) / 64)) && migrating id false false false false true (some ((2 ^ 30 + 2 ^ 22) / 64)) &&
    migrating (leafIs 5 (2 ^ 30 + 5 * 2 ^ 21 + 0x1F)) false false false true false none && migrating (leafIs 2 (2 ^ 30 + 2 ^ 22 + 0x1F)) false false true false false none) = true := by decide +kernel

theorem meets_HaulMigratesNot : (let r : HaulRec := { hauling 7 (2 ^ 22) [] with dst := 5 * 2 ^ 21 }
    holds id (bad (2 ^ 31 + 8192) ∘ tables 0 ∘ chained (some r)) (fun s _ => (s.migPoisoned 0 (r.migPages (2 ^ 16))).any (fun x => (s.faultAt 0 x.1).isNone)) &&
      holds id (leafIs 2 0 ∘ tables 0 ∘ chained (some r)) fun s _ => (s.migPoisoned 0 (r.migPages (2 ^ 16))).isNone && (s.migLeaf 0 r.src).isNone) = true := by decide +kernel

/-- An arrival at the yard of cluster 0, of the second of three sources. -/
def arriving (j : Nat) : Arrival := { chan := 0, rec_ := 7, off := 0, cluster := 0, line := yardAddr 2 320 / 64, j := j, n := 3, fp := true, data := List.replicate 64 0x40, bad := false }

/-- A bank that holds `n` arrivals for a line of its yard, or for another line of the same bank. -/
def holding (n : Nat) : Reduction := { line := yardAddr 2 320 / 64 + 64, n := 3, next := 0, held := List.replicate n (arriving 2) }

theorem meets_Arrivals : (holds id (fun s => { s with arrivals := [arriving 0], clusters := s.clusters.set 0 { s.clusters[(0 : Fin 48)] with gated := true } }) (fun s _ => (s.clusters[(0 : Fin 48)]).gated && !s.arrivals.isEmpty) &&
    [(0, 0), (1, 0), (1, 1024)].all fun x => holds id (fun s => { s with arrivals := [arriving x.1], reductions := if x.2 = 0 then [] else [holding x.2] }) fun s _ =>
      let a := arriving x.1
      !(s.clusters[(0 : Fin 48)]).gated && (s.clusters[(0 : Fin 48)]).yard == some ((64 * a.line - 2 ^ 72) / 2 ^ 25) && s.mem.wf && decide (2 ^ 72 ≤ 64 * a.line) && (s.reductions.find? fun r => r.line == a.line).isNone &&
        s.bankHeld a.line == x.2 && (s.chans[(0 : Fin 192)]).recs.isEmpty) = true := by decide +kernel

theorem meets_ArrivalsCount : (let r : HaulRec := { reducing true 0 with seq := 7 }
    holds id ((fun s => { s with arrivals := [arriving 0] }) ∘ chained (some r)) fun s _ => (s.chans[(0 : Fin 192)]).recs == [r] && r.kind == 6 && r.seq.toNat == (arriving 0).rec_ && r.status.isNone && decide (r.done.length + 1 < r.units) &&
      !(s.clusters[(0 : Fin 48)]).gated && s.reductions.isEmpty) = true := by decide +kernel

/-- The scout of channel 0 on. -/
def scouting (s : State) : State := s.setChan 0 { s.chans[(0 : Fin 192)] with scout := 64 }

/-- What a walk finds: an entry (0), a fault (1), no storage (2). -/
def found (s : State) (a : Nat) (wr : Bool) : Nat := match s.lookUp 0 0 a wr false with | none => 2 | some (.ok _) => 0 | some (.error _) => 1

theorem meets_ScoutPasses : ([(2 ^ 30 + 2 ^ 24 + 0xF, 2 ^ 22, 0), (0, 2 ^ 24, 1), (2 ^ 41 + 0xF, 2 ^ 24, 2)].all (fun x => holds id (tables x.1 ∘ scouting ∘ chained (some { hauling 1 4096 [] with src := x.2.1, dst := x.2.1 + 4096 })) fun s _ =>
      s.scoutNext 0 == some (x.2.1, false) && found s x.2.1 false == x.2.2 && s.pfaults.isEmpty) &&
    holds id (chained none) fun s _ => (s.scoutNext 0).isNone) = true := by decide +kernel

theorem meets_TableWalks : [(2 ^ 30 + 2 ^ 24 + 0xF, 0), (0, 1), (2 ^ 41 + 0xF, 2)].all (fun x => holds id (tables x.1 ∘ (fun s => s.setChan 0 { s.chans[(0 : Fin 192)] with at_ := 2 ^ 24 }) ∘ chained none) fun s _ =>
      s.chanNeeds 0 == [(2 ^ 24, false, none)] && (s.chans[(0 : Fin 192)]).recs.isEmpty && found s (2 ^ 24) false == x.2 && s.pfaults.isEmpty && (List.finRange 192).all fun q => q == 0 || engOf q != 0 || (s.chanNeeds q).isEmpty) = true := by
  decide +kernel

theorem meets_FaultsQueuedOnce : holds id ((fun s => { s with pfaults := [{ fseq := 7, part := 0, kind := 0, write := false, scout := true, addr := 2 ^ 24 + 64, eng := 0, chan := 0 }] }) ∘ tables 0 ∘
      (fun s => s.setChan 0 { s.chans[(0 : Fin 192)] with at_ := 2 ^ 24 }) ∘ chained none) (fun s _ => s.chanNeeds 0 == [(2 ^ 24, false, none)] && found s (2 ^ 24) false == 1 && (s.faultAt 0 (2 ^ 24)).isSome) = true := by decide +kernel

theorem meets_RecordsRetire : (let r : HaulRec := { hauling 1 4096 [0, 1] with addr := 2 ^ 24, status := some 0 }
    holds id (tables (2 ^ 30 + 2 ^ 24 + 0xF) ∘ (fun s => s.setChan 0 { s.chans[(0 : Fin 192)] with at_ := 0 }) ∘ chained (some r)) fun s _ => s.chanNeeds 0 == [(2 ^ 24, true, none)] && (s.chans[(0 : Fin 192)]).recs == [r] && r.report == 0 &&
      found s (2 ^ 24) true == 0 && (List.finRange 192).all fun q => q == 0 || engOf q != 0 || (s.chanNeeds q).isEmpty) = true := by decide +kernel

theorem meets_EngineFaults : [[], [(3, 64)]].all (fun l => holds (fun st => { st with efaultAddr := l }) id fun s st => let t := st.settle (s.cyc 0)
      t.phase == .running && !t.handler && t.trapAt.isNone && t.efaultAddr == l) = true := by decide +kernel

/-- The doublewords of a packet. -/
def pkt (l : List Nat) : List Byte := l.flatMap (leBytes 8) ++ List.replicate (128 - 8 * l.length) 0

/-- A packet of a kind that names the HBM field, with its record in the silo. -/
def pktOf (kind : Nat) (l : List Nat) : List Byte := pkt ([kind + 2 ^ 8 + 9 * 2 ^ 32, 2 ^ 33, 255] ++ l)

/-- A slab of the launch with one packet. -/
def slabOf (k : Nat) (go : Bool) (p : List Byte) : Slab := { stack := k, sid := 2, part := 0, launch := 1, data := p, pos := 0, go := go }

/-- Stack 0 with a packet at the head of its queue, over 512 bytes of storage that hold zeros; and other contents of its quarry. -/
def quarried (p : List Byte) (f : Quarry → Quarry) (s : State) : State :=
  { s with mem := s.mem.apply (MWrite.plain 0 0 (List.replicate 512 0)), quarry := s.quarry.set 0 (f { s.quarry[(0 : Fin 16)] with arrived := [slabOf 0 true p] }) }

theorem meets_Slabs : ([(true, 63), (true, 64), (false, 0)].all (fun x => holds id (fun s => ({ s with quarry := s.quarry.set 0 { s.quarry[(0 : Fin 16)] with transit := List.replicate x.2 default } } : State).setCore 0 { s.cores[(0 : Fin 192)] with slabs := [slabOf 1 true [], slabOf 0 x.1 []] })
      fun s _ => (s.cores[(0 : Fin 192)]).slabs == [slabOf 1 true [], slabOf 0 x.1 []] && (s.quarry[(0 : Fin 16)]).transit.length == x.2) &&
    holds id id (fun s _ => (s.quarry[(0 : Fin 16)]).transit.isEmpty)) = true := by decide +kernel

/-- A GSUM of one row of four FP32 elements at byte 256, its index at 0, weight at 4, output at 128. -/
def sumBody : List Nat := [3 * 2 ^ 24, 256, 16, 0, 4, 128]

/-- The same without weights, and with BF16 output. -/
def plainSum : List Nat := [3 * 2 ^ 24 + 15 * 2 ^ 8, 256, 16, 0, 4, 128]

def halfSum : List Nat := [3 * 2 ^ 24 + 2 ^ 20, 256, 16, 0, 4, 128]

theorem meets_Gsum : ([(pktOf 3 [], none), (pktOf 1 [2 ^ 63], none), (pktOf 1 sumBody, none), (pktOf 1 plainSum, none), (pktOf 1 halfSum, none), (pktOf 1 sumBody, some 0), (pktOf 1 sumBody, some 256)].all fun (p : List Byte × Option Nat) =>
    holds id ((match p.2 with | some a => bad a | none => id) ∘ quarried p.1 id) fun s _ => match (s.quarry[(0 : Fin 16)]).head with
    | some (b, j) => (s.launch? b.launch).any fun l =>
      let pk := packetOf b.data j
      (match s.translate l (BitVec.ofNat 64 (pktCpl pk / 16 * 16)) .w with | .ok t => !t.gated && !t.disc | .error _ => false) && l.ending == .live && !(s.quarry[(0 : Fin 16)]).hurt && (decide (2 < pktKind pk) || (pktKind pk == 1 &&
        match gsumBody pk with
        | none => true
        | some g => !headerBad pk && l.fieldsOk pk && (g.wF == 15) == decide (p.1 = pktOf 1 plainSum) && g.bf16Out == decide (p.1 = pktOf 1 halfSum) &&
          let weights : List QRange := if g.wF = 15 then [] else [{ fld := g.wF, off := g.woff, len := 4 * g.n, write := false, stack := some 0 }]
          (match s.qRanges l pk ({ fld := g.iF, off := g.ioff, len := 4 * g.n, write := false, stack := some 0 } :: (weights ++
              [{ fld := g.outF, off := g.ooff, len := g.len * (if g.bf16Out then 2 else 4), write := true, stack := none }])) with
           | .ok (pi :: more) => more.length == weights.length + 1 &&
             (match s.gsumRows l pk g 0 (words32 (s.mem.gather pi).1) with
              | .ok rows => rows.length == 1 && (!(s.mem.gather pi).2.isEmpty || rows.any fun r => r.2.1) == p.2.isSome && rows.any (fun r => r.2.1) == (p.2 == some 256)
              | .error _ => false)
           | _ => false)))
    | none => false) = true := by decide +kernel

/-- A GSEARCH of one entry in two shards, on stacks `a` and `b`. -/
def searchPkt (bad : Nat) (a b : Nat) : List Byte := pktOf 2 [2 * 2 ^ 43, 64 + bad, 128, 0, a, 2 ^ 16 * 64 + b]

theorem meets_Gsearch : [(0, 0), (1, 0), (0, 960)].all (fun x => holds id (quarried (searchPkt x.1 0 1) fun q => { q with queries := List.replicate x.2 default }) fun s _ => match (s.quarry[(0 : Fin 16)]).head with
    | some (b, j) => (s.launch? b.launch).any fun l =>
      let pk := packetOf b.data j
      pktKind pk == 2 && (s.quarry[(0 : Fin 16)]).queries.length == x.2 && (match s.translate l (BitVec.ofNat 64 (pktCpl pk / 16 * 16)) .w with | .ok t => !t.gated | .error _ => false) &&
        (match (s.gsearchStart l pk 0).val with | .ok (g, _) => x.1 == 0 && g.shards.map (fun d => d.2.2) == [0, 1] | .error _ => x.1 == 1)
    | none => false) = true := by decide +kernel

/-- A search in progress with these reports. -/
def query (reps : List (Option ShardRep)) : Query := { qid := 0, sid := 2, part := 0, launch := 1, pkt := searchPkt 0 0 1, reps := reps }

/-- The report of a shard that found one node. -/
def report : ShardRep := { status := 0, w := [(0x3F800000, 7, 0)], hops := 1, visits := 1 }

/-- A stack whose query slots are taken, a launch that ends, and reports in the order of their keys. -/
theorem meets_QuarryWaits : ([960, 959].all (fun n => holds id (onLaunch (fun l => { l with ending := .ending 2 }) ∘ quarried (pktOf 1 sumBody) fun q => { q with queries := List.replicate n default }) fun s _ =>
      (s.quarry[(0 : Fin 16)]).sums.length + (s.quarry[(0 : Fin 16)]).queries.length == n && (s.quarry[(0 : Fin 16)]).head.any fun h => s.launches.all (fun l => l.ending != .live) && pktKind (packetOf h.1.data h.2) == 1) &&
    (let r (d : W32) : ShardRep := { status := 0, w := [(d, 7, 0)], hops := 1, visits := 1 }
     let m := mergeReps 1 [r 2, r 1]
     m.1.map (fun e => e.shard) == [1] && m.1.length == 1)) = true := by decide +kernel

/-- A sub-query from stack 1 at stack 0, and a sum and a search in progress there. -/
def inProgress (hurt : Bool) : State → State := quarried (searchPkt 0 1 0) fun q => { q with
  subs := [{ home := 1, qid := 0, shard := 1, part := 0, launch := 1, pkt := searchPkt 0 1 0, q := [0] }], hurt := hurt, queries := [query [some report]],
  sums := [{ part := 0, launch := 1, pkt := pktOf 1 sumBody, out := [MWrite.plain (siloAddr 0) 0 [1]], res := { status := 0, count := 1, hops := 1, visits := 0 } }] }

theorem meets_Subqueries : [false, true].all (fun h => holds id (inProgress h) (fun s _ =>
      (s.quarry[(0 : Fin 16)]).hurt == h && (s.quarry[(0 : Fin 16)]).subs.head?.any fun b => (s.launch? b.launch).any (fun l => l.ending == .live) && (gsearchBody b.pkt b.home).isSome && decide (b.home < 16) && b.home != 0)) = true := by decide +kernel

theorem meets_Sums : holds id (inProgress false) (fun s _ => (s.quarry[(0 : Fin 16)]).sums.any fun x => (s.launch? x.launch).any fun l => l.ending == .live && decide (x.res.hops < 2 ^ 32) && decide (x.res.visits < 2 ^ 32) &&
      match s.translate l (BitVec.ofNat 64 (pktCpl x.pkt / 16 * 16)) .w with | .ok t => !t.gated && !t.disc | .error _ => false) = true := by decide +kernel

theorem meets_EndedPackets : [pktOf 1 sumBody, searchPkt 0 1 0].all (fun p => holds id (onLaunch (fun l => { l with ending := .ending 2 }) ∘ inProgress false ∘ quarried p id) fun s _ => let q := s.quarry[(0 : Fin 16)]
      s.launches.all (fun l => l.ending != .live) && q.head.isSome && !q.subs.isEmpty && !q.sums.isEmpty && q.queries.all fun y => y.reps.all Option.isSome) = true := by decide +kernel

theorem meets_Merges : ([[some report, none], [some report, some report]].all (fun r => holds id (quarried [] fun q => { q with queries := [query r] }) fun s _ => (s.quarry[(0 : Fin 16)]).queries[0]?.any fun y =>
      y.reps.any Option.isNone || (s.launch? y.launch).any fun l => l.ending == .live && (match s.translate l (BitVec.ofNat 64 (pktCpl y.pkt / 16 * 16)) .w with | .ok t => !t.gated && !t.disc | .error _ => false) &&
        (gsearchBody y.pkt 0).any fun g => let m := mergeReps g.k (y.reps.filterMap id)
          m.1.length == 1 && decide (m.2.hops < 2 ^ 32) && decide (m.2.visits < 2 ^ 32) && (match s.qRange l y.pkt { fld := g.rF, off := g.roff, len := 8 * m.1.length, write := true, stack := none } with | .ok _ => true | .error _ => false)) &&
    decide (report.status < 4)) = true := by decide +kernel

/-- Memory that holds, under key 1, doublewords at addresses that rise. -/
def memOf (l : List (Nat × List Nat)) : Mem :=
  { cells := l.flatMap fun x => SMap.entries 0 x.1 (x.2.flatMap (leBytes 8)), poison := [], tags := l.flatMap fun x => (List.range (8 * x.2.length)).map fun i => (x.1 + i, 1) }

/-- Function `p` with a ring at 2 MiB whose next record is of these doublewords after SEQ 1 and its kind; `more` stands at 4 MiB. -/
def intake (p : Fin 64) (kind : Nat) (args more : List Nat) (s : State) : State :=
  { s with mem := memOf [(2 ^ 30 + 2 ^ 21 + 64, (1 + kind * 2 ^ 32) :: args ++ List.replicate (7 - args.length) 0), (2 ^ 30 + 2 ^ 22, more), (2 ^ 31, [2 ^ 31 + 4097]), (2 ^ 31 + 4096, [2 ^ 31 + 8193]),
              (2 ^ 31 + 8200, [2 ^ 30 + 2 ^ 21 + 0xF, 2 ^ 30 + 2 ^ 22 + 0xF, 0])]
           parts := s.parts.set p { s.parts[p] with exists_ := true, keyId := 1, ptroot := 2 ^ 31 }
           funcs := s.funcs.set p { s.funcs[p] with intakeBase := 2 ^ 21, intakeSize := 6 } }

/-- The next command of function `p` of a state. (Its acceptance changes INTAKE_ACC and the SEQ word of the record alone.) -/
def commands (p : Fin 64) (kind : Nat) (args more : List Nat) (g : State → State) (cond : State → Cmd → Bool) : Bool :=
  holds id (g ∘ intake p kind args more) fun s _ => match s.nextCmd p with | some c => s.bootstat == 0 && cond s c | none => false

/-- An argument of a command. -/
def Arg (c : Cmd) (o n : Nat) : Nat := leNat ((c.bs.drop o).take n)

theorem meets_Acceptance : (commands 0 8 [10] [] id fun s c => (s.acceptCmd 0 c).funcs[(0 : Fin 64)].intakeAcc == c.seq && c.seq == 1 && c.row == 8) = true := by decide +kernel

theorem meets_DeniedAll : holds id ((fun s => { s with bootstat := 2 ^ 63 + 11 }) ∘ intake 0 8 [10] []) (fun s _ => s.bootstat != 0 && (s.nextCmd 0).any fun c => c.row == 8) = true := by decide +kernel

theorem meets_BadCommands : (commands 0 11 [] [] id (fun _ c => c.row == 0 && !c.legal && !c.pfOnly) && commands 1 3 [1, 1] [] id (fun _ c => c.row == 0 && !c.legal && !c.pfOnly) && commands 0 5 [7 * 2 ^ 8] [] id (fun _ c => c.row == 0 && c.legal)) = true := by
  decide +kernel

/-- A command of the physical function given by another. -/
def denied (x : Nat × Nat × Nat) : Bool := commands 1 x.1 [if x.1 = 10 then x.2.1 else if x.1 = 6 || x.1 = 7 then 0 else x.2.1 * 2 ^ 8] [] id fun _ c => c.row == x.2.2

theorem meets_DeniedParams : [(5, 0, 0x50), (5, 1, 0x51), (5, 2, 0x52), (5, 3, 0x53)].all denied = true := by decide +kernel

theorem meets_DeniedAreas : [(5, 4, 0x54), (5, 5, 0x55), (5, 6, 0x56), (6, 0, 6)].all denied = true := by decide +kernel

theorem meets_DeniedKeys : [(7, 0, 7), (9, 0, 0x90), (9, 1, 0x91)].all denied = true := by decide +kernel

theorem meets_DeniedFabric : [(10, 0, 0xA0), (10, 1, 0xA1), (10, 2, 0xA2)].all denied = true := by decide +kernel

theorem meets_Submit : (commands 0 1 [2 ^ 22, 2] [0, 0, 0, 2 ^ 36, 2 ^ 22 + 128, 0, 0, 0, 0, 0, 0, 2 ^ 24, 0, 0, 0, 0, 1] id fun s c => c.row == 1 && Arg c 16 2 == 2 && Arg c 8 8 % 64 == 0 &&
      match s.cpBytes 0 (Arg c 8 8) 128 with
      | some (bs, bad) => bad.isEmpty && ((List.range 2).mapM fun i => s.readNode 0 ((bs.drop (64 * i)).take 64)).any fun ns => graphOk ns && (ns.map Node.npred == [0, 1]) && (ns.map Node.succ == [[1], []])
      | none => false) = true := by decide +kernel

theorem meets_SubmitBad : [(2 ^ 22, 0), (2 ^ 22, 4097), (2 ^ 22 + 32, 1)].all (fun x => commands 0 1 [x.1, x.2] [] id fun _ c => c.row == 1 && (Arg c 16 2 == 0 || decide (4096 < Arg c 16 2) || Arg c 8 8 % 64 != 0)) = true := by decide +kernel

/-- A node that waits. -/
def node0 : Node := { image := 0, bind := 0, deadline := 0, haulch := 0, npred := 1, succ := [], opmask := 1, prioceil := 0, eclass := 0, met := 0, st := .waiting, loaded := none }

/-- A fault of a partition. -/
def fault7 (q : Fin 64) (s : State) : State := { s with pfaults := [{ fseq := 7, part := q, kind := 0, write := false, scout := false, addr := 2 ^ 24, eng := 0, chan := 0 }] }

theorem meets_Cancel : (commands 0 2 [2 ^ 22] [] id (fun s c => c.row == 2 && s.graphs.isEmpty) &&
    commands 0 2 [2 ^ 22] [] (fun s => { s with graphs := [{ gid := 1, part := 0, addr := 2 ^ 22, nodes := [node0] }] }) fun s c => c.row == 2 && s.graphs.all fun g => g.part == 0 && g.addr == Arg c 8 8 && g.nodes == [node0]) = true := by decide +kernel

/-- The events of function 0 that the device can hold no more beside. -/
theorem meets_CancelCannotHold (s : State) : (({ s with funcs := s.funcs.set 0 { s.funcs[(0 : Fin 64)] with events := List.replicate (Config.eventHold 0 + 1) default } } : State).canHold 0) = false := by
  simp [State.canHold]

theorem meets_Verdict : (commands 0 3 [7] [] id (fun s c => c.row == 3 && s.pfaults.isEmpty) && commands 1 3 [7] [] (fault7 0) (fun s c => c.row == 3 && (s.pfaults.find? fun f => f.fseq == Arg c 8 4).any fun f => f.part != 1) &&
    [2, 1, 0].all fun v => commands 0 3 [7 + v * 2 ^ 32] [] (fault7 1) fun s c => c.row == 3 && Arg c 12 1 == v && (s.pfaults.find? fun f => f.fseq == Arg c 8 4).isSome) = true := by decide +kernel

theorem meets_Invalidate : ([0, 1, 2].all fun b => commands 0 4 [2 ^ 22, 2 ^ 16, 0] [] (fun s => onLaunch (fun l => { l with
      fields := l.fields.map fun f => { f with partbase := 2 ^ 22 }
      pageDisc := if b = 0 then [] else [(255, 0)]
      kept := if b = 2 then [(2, true, 0xF)] else [] }) s) fun s c => c.row == 4 &&
      Arg c 24 1 == 0 && s.discBusy 0 (Arg c 8 8) (Arg c 16 8) == (b != 0) && (s.pinsFor 0 (Arg c 8 8) (Arg c 16 8)).map Xlat.page == if b = 0 then [] else if b = 2 then [2] else [64]) = true := by decide +kernel

theorem meets_Extend : [9, 10, 15].all (fun i => commands 1 8 [i, 1, 2, 3, 4] [] id fun _ c => c.row == 8 && Arg c 8 1 == i) = true := by decide +kernel

/-- The values that a parameter takes and refuses. -/
def params : List (Nat × Nat × Nat × Bool) :=
  [(0, 4096, 0, true), (0, 2048, 0, false), (0, 0xBC0000000 + 2 ^ 28 - 4096, 0, true), (0, 0xBD0000000, 0, false), (1, 1, 0, true), (1, 65535, 0, true), (1, 0, 0, false), (1, 65536, 0, false), (2, 50, 0, true), (2, 100000, 0, true), (2, 49, 0, false),
   (2, 100001, 0, false), (3, 4096, 8, true), (3, 2 ^ 48 - 2 ^ 24, 16, true), (3, 2 ^ 48 - 4096, 8, false), (3, 4096, 17, false), (4, 65536, 2 ^ 20, true), (4, 65536, 2 ^ 16, false), (5, 4096, 2 ^ 20, true), (5, 64, 2 ^ 20, false), (6, 4096, 4096, true), (6, 0, 0, true), (6, 0, 64, false)]

/-- Is a value one that a parameter takes. -/
def paramOk (sel v n : Nat) : Bool :=
  let held (a n : Nat) : Bool := decide (a < 2 ^ 40) && decide (a % 2 ^ 36 + n ≤ 0xBD0000000)
  match sel with
  | 0 => v % 4096 == 0 && held v 4096
  | 1 => decide (1 ≤ v) && decide (v ≤ 65535)
  | 2 => decide (50 ≤ v) && decide (v ≤ 100000)
  | 3 => v % 4096 == 0 && decide (8 ≤ n) && decide (n ≤ 16) && decide (v + 256 * 2 ^ n ≤ 2 ^ 48)
  | 4 => v % 65536 == 0 && n % 2 ^ 20 == 0 && held v (n / 16)
  | 5 => v % 4096 == 0 && held v n
  | _ => v % 4096 == 0 && (n == 0 || decide (4096 ≤ n)) && decide (v + n ≤ 2 ^ 41)

/-- A parameter of partition 3, which exists and has no launch, is given a value that it takes or refuses. -/
def given (x : Nat × Nat × Nat × Bool) : Bool := paramOk x.1 x.2.1 x.2.2.1 == x.2.2.2 && commands 0 5 [3 + x.1 * 2 ^ 8, x.2.1, x.2.2.1] [] (fun s => s.setPart 3 { s.parts[(3 : Fin 64)] with exists_ := true }) fun s c =>
    c.row == 0x50 + x.1 && Arg c 8 1 == 3 && Arg c 16 8 == x.2.1 && Arg c 24 8 == x.2.2.1 && (s.parts[(3 : Fin 64)]).exists_ && s.launches.all fun l => l.part != 3

theorem meets_Params0 : ((params.drop 0).take 4).all given = true := by decide +kernel

theorem meets_Params1 : ((params.drop 4).take 4).all given = true := by decide +kernel

theorem meets_Params2 : ((params.drop 8).take 4).all given = true := by decide +kernel

theorem meets_Params3 : ((params.drop 12).take 4).all given = true := by decide +kernel

theorem meets_Params4 : ((params.drop 16).take 4).all given = true := by decide +kernel

theorem meets_Params5 : ((params.drop 20).take 4).all given = true := by decide +kernel

/-- A parameter of a partition that does not exist, or of one that has a launch. -/
def refused (k q : Nat) : Bool := commands 0 5 [q + k * 2 ^ 8] [] id fun s c => c.row == 0x50 + k && Arg c 8 1 == q && if q = 3 then !(s.parts[(3 : Fin 64)]).exists_ else s.launches.any fun l => l.part == 0

theorem meets_ParamsRefused0 : [0, 1].all (fun k => refused k 3 && refused k 0) = true := by decide +kernel

theorem meets_ParamsRefused1 : [2, 3].all (fun k => refused k 3 && refused k 0) = true := by decide +kernel

theorem meets_ParamsRefused2 : [4, 5].all (fun k => refused k 3 && refused k 0) = true := by decide +kernel

theorem meets_ParamsRefused3 : [6].all (fun k => refused k 3 && refused k 0) = true := by decide +kernel

/-- A key that a signature of its own confirms over 64 zero bytes, and the signature. -/
def ownKey : KeySlot := { x := 60263830746127050649225671339159499286810716306684729203030747263947976372500, y := 16006418470342222539581593901468186992020520898025061634386710314472844303757, mask := 0 }
def ownSig : Nat := 111109925611824843164212799849330761292948257037696933205019304127221294824267

/-- A 256-bit number as doublewords. -/
def dw4 (n : Nat) : List Nat := (List.range 4).map fun i => n / 2 ^ (64 * i) % 2 ^ 64

/-- A key given to a slot that is empty (0), or to slot 2 with its own signature (1) or without (2). -/
def keyGiven (slot how : Nat) : Bool :=
  commands 0 7 [slot, 2 ^ 22, 5] (List.replicate 8 0 ++ (if how = 1 then dw4 ownSig ++ dw4 ownSig else dw4 0 ++ dw4 0)) (fun s => { s with keys := if how = 0 then s.keys else s.keys.set 2 (some ownKey) }) fun s c =>
    c.row == 7 && Arg c 8 1 == slot && (s.cpRead 0 (Arg c 16 8) 128).any fun bs => how == 0 && s.keys[2].isNone || s.keys[2].any fun k =>
      ecdsaVerify k.x k.y (sha256 (bs.take 64)) (leNat ((bs.drop 64).take 32)) (leNat ((bs.drop 96).take 32)) == decide (how = 1)

theorem meets_KeyinstEmpty : (keyGiven 3 0 && keyGiven 2 0) = true := by decide +kernel

theorem meets_KeyinstSigned : keyGiven 2 1 = true := by decide +kernel

theorem meets_KeyinstUnsigned : keyGiven 2 2 = true := by decide +kernel

theorem meets_Partitions : (commands 0 9 [3] [] id (fun s c => c.row == 0x90 && Arg c 8 1 == 3 && !(s.parts[(3 : Fin 64)]).exists_) && commands 0 9 [3] [] (fun s => s.setPart 3 { s.parts[(3 : Fin 64)] with exists_ := true }) (fun s c => c.row == 0x90 && (s.parts[(3 : Fin 64)]).exists_) &&
    commands 0 9 [3 + 2 ^ 8] [] id (fun s c => c.row == 0x91 && !(s.parts[(3 : Fin 64)]).exists_) &&
    [true, false].all fun b => commands 0 9 [3 + 2 ^ 8] [] (fun s => onLaunch (fun l => if b then { l with part := 3 } else l) (s.setPart 3 { s.parts[(3 : Fin 64)] with exists_ := true })) fun s c => c.row == 0x91 && (s.parts[(3 : Fin 64)]).exists_ && (s.launches.any fun l => l.part == 3) == b) = true := by
  decide +kernel

theorem meets_Fabric : ([4095, 4096].all (fun n => commands 0 10 [0, n] [] id fun _ c => c.row == 0xA0 && Arg c 16 2 == n) && commands 0 10 [1, 4095, 2 ^ 48 - 1] [] id (fun _ c => c.row == 0xA1 && Arg c 16 2 == 4095 && decide (Arg c 24 8 < 2 ^ 48)) &&
    commands 0 10 [2, 4095 + 63 * 2 ^ 16 + 5 * 2 ^ 24 + 3 * 2 ^ 32] [] id fun _ c => c.row == 0xA2 && Arg c 16 2 == 4095 && Arg c 18 1 == 63 && Arg c 19 1 == 5 && Arg c 20 1 == 3) = true := by decide +kernel

/-- Cluster 0, fixed or elastic, at a cycle, and a hold of core 0. -/
def clocked (fixed : Bool) (cyc : Nat) (h : Option (Nat × Nat)) (s : State) : State :=
  ({ s with clusters := s.clusters.set 0 { s.clusters[(0 : Fin 48)] with fixed := fixed, cyc := cyc } } : State).setCore 0 { s.cores[(0 : Fin 192)] with hold := h }

theorem meets_StallWires : [(true, false, none), (true, true, some (0, 3)), (false, true, none)].all (fun x => holds (fun st => { st with clkFixed := true, clkFurrow := x.2.1 }) (clocked x.1 2 x.2.2) fun s st =>
    (s.clusters[(0 : Fin 48)]).fixed == x.1 && st.clkFixed && st.clkFurrow == x.2.1 && (s.breachGangs 0).length == 1 && (s.cores[(0 : Fin 192)]).hold == x.2.2 && s.halted.isEmpty && (s.clusters[(0 : Fin 48)]).stretch == 0 && (s.clusters[(0 : Fin 48)]).calm == 0) = true := by decide +kernel

theorem meets_StallHolds : [(2, 2), (3, 2)].all (fun x => holds id (clocked true x.1 (some (0, x.2))) fun s _ => (s.clusters[clusterOf 0]).cyc == x.1 && (s.cores[(0 : Fin 192)]).hold == some (0, x.2)) = true := by decide +kernel

theorem meets_Droop : [(false, 0, 0), (true, 0, 0), (false, 1, 0), (false, 0, 1)].all (fun x => holds id (fun s => { s with clusters := s.clusters.set 0 { s.clusters[(0 : Fin 48)] with fixed := x.1, stretch := x.2.1, calm := x.2.2 } })
    fun s _ => let k := s.clusters[(0 : Fin 48)]
      k.fixed == x.1 && k.stretch == x.2.1 && k.calm == x.2.2) = true := by decide +kernel

/-- What a loader kept of a container. -/
def kept (fs : List FieldEnt) : Loaded :=
  { fields := fs, heads := [], ops := [], banksW := .replicate 32 0, banksA := .replicate 32 0, mgroups := [], dataAt := 0, dataLen := 0, seeds := [], task := 0, staged := [], disc := [], device := 0, needs := 1 }

/-- A graph of partition 0 with one node, whose staged field is of 64 KiB in a tier; the pool has `free` of `size` bytes on every stack. -/
def staging (st : NodeState) (ld : Bool) (tier : BitVec 2) (size free : Nat) (s : State) : State :=
  let f : FieldEnt := { field 1 (2 ^ 33) tier false none with staged := true, lsz := 0 }
  let n : Node := { node0 with image := if ld then 0 else 64, st := st, opmask := 1, haulch := 1, loaded := if ld then some (kept [f]) else none }
  { s.setPart 0 { s.parts[(0 : Fin 64)] with pool := { base := 0, size := size, used := if free = 0 then (List.range 16).map fun k => (hbmAddr k 0, size) else [] } } with graphs := [{ gid := 1, part := 0, addr := 2 ^ 22, nodes := [n] }] }

/-- The one node of the one graph. -/
def theNode (s : State) (p : Node → Bool) : Bool := (s.graph? 1).any fun g => g.nodes[0]?.any p

theorem meets_NodesWait : ([NodeState.waiting, .staged, .ended, .launched 1].all (fun st => holds id (staging st false 2 0 0) fun s _ => theNode s fun n => decide (n.st = st)) &&
    holds id (staging (.eligible 0) false 2 0 0) fun s _ => theNode s fun n => decide (n.st = .eligible 0) && n.loaded.isNone && n.image % 4096 != 0) = true := by decide +kernel

theorem meets_NodesUnread : holds id (fun s => let t := staging (.eligible 0) false 2 0 0 (tables 0 s)
      { t with graphs := t.graphs.map fun g => { g with nodes := g.nodes.map fun n => { n with image := 2 ^ 21, bind := 2 ^ 24 } } }) (fun s _ => theNode s fun n =>
    n.image % 4096 == 0 && n.bind % 4096 == 0 && n.loaded.isNone && (s.cpRead 0 n.image 64).isSome && (s.cpRead 0 n.bind 4096).isNone) = true := by decide +kernel

theorem meets_NodesStage : [((2 : BitVec 2), 0, 1), (2, 2 ^ 16, 0), (2, 2 ^ 16, 1), (3, 2 ^ 16, 1)].all (fun x => holds id (staging (.eligible 0) true x.1 x.2.1 x.2.2) fun s _ => theNode s fun n => decide (n.st = .eligible 0) && s.stageFirst 1 0 &&
      n.loaded.any fun ld => let fs := ld.fields.filter FieldEnt.staged
        let pool := (s.parts[(0 : Fin 64)]).pool
        fs.length == 1 && (({ pool with used := [] } : Area).placeAll fs).isSome == decide (x.2.1 ≠ 0) && (pool.placeAll fs).isSome == decide (x.2.1 ≠ 0 ∧ x.2.2 ≠ 0) &&
          fs.all fun f => f.tier == x.1 && (f.tier != 3 || s.peerDown f.peer)) = true := by decide +kernel

theorem meets_NodesRankLater : holds id (fun s => let t := staging (.eligible 5) true 2 0 0 s
      { t with graphs := t.graphs ++ [{ gid := 2, part := 0, addr := 2 ^ 23, nodes := [{ node0 with st := .eligible 3, loaded := some (kept []) }] }] }) (fun s _ => theNode s fun n => decide (n.st = .eligible 5) && !s.stageFirst 1 0) = true := by decide +kernel

theorem meets_Launches : (holds id (staging .staged true 2 0 0) (fun s _ => theNode s (fun n => decide (n.st = .staged) && n.loaded.isSome && (chanList n.haulch).length == 1) && decide (1 ≤ s.freeChans.length) &&
      ((List.range 2).any fun j => (s.launches.all fun l => l.id != (s.lastLaunch + j) % 65535 + 1) && (List.range j).all fun j' => s.launches.any fun l => l.id == (s.lastLaunch + j') % 65535 + 1)) &&
    holds id (fun s => { staging .staged true 2 0 0 s with chans := s.chans.map fun k => { k with owner := some (1, 0) } }) fun s _ => theNode s fun n => decide (n.st = .staged) && decide (s.freeChans.length < (chanList n.haulch).length)) = true := by decide +kernel

/-- The launch's standing, its strand there or gone. -/
def ends (e : LaunchEnd) (there : Bool) (w : Bool) (s : State) : State :=
  let t := onLaunch (fun l => { l with ending := e, live := 0, unsown := [], staged := [{ (default : Staged) with home := { field 2 (2 ^ 34) 2 false none with permW := w }, size := 2 ^ 16 }] }) s
  if there then t else t.setCore 0 { t.cores[(0 : Fin 192)] with strand := none }

theorem meets_LaunchesEnd : ([(LaunchEnd.live, true, true), (.live, false, true), (.live, false, false), (.ending 2, true, true), (.ending 2, false, true), (.ending 3, false, true), (.ending 1, false, true)].all fun x =>
    let s := at_ .s 0 id (ends x.1 x.2.1 x.2.2)
    (s.launch? 1).any fun l => decide (l.ending = x.1) && (s.launchOver l == !x.2.1) && (l.staged.any fun y => y.home.permW) == x.2.2 && s.halted.isEmpty && ((s.cores[(0 : Fin 192)]).strand.isSome == x.2.1) && s.graphs.all fun y => y.gid != l.graph) = true := by decide +kernel

/-- Function 1 with events and a ring at 3 × 2 MiB, whose slots hold zeros but where `full`. -/
def logging (kinds : List Nat) (wr : BitVec 32) (full : Nat) (s : State) : State :=
  let a := 2 ^ 30 + 2 ^ 21
  { s with mem := memOf [(a, List.replicate 16 0), (a + 64 * ((wr.toNat + 1) % 64), [full]), (2 ^ 31, [2 ^ 31 + 4097]), (2 ^ 31 + 4096, [2 ^ 31 + 8193]), (2 ^ 31 + 8200, [a + 0xF])]
           parts := s.parts.set 1 { s.parts[(1 : Fin 64)] with exists_ := true, keyId := 1, ptroot := 2 ^ 31 }
           funcs := s.funcs.set 1 { s.funcs[(1 : Fin 64)] with evBase := 2 ^ 21, evSize := 6, evWr := wr, events := kinds.map fun k => { kind := k, body := List.replicate 56 9 } } }

/-- Function 1's ring has the slot of the next event free. -/
def slotFree (s : State) : Bool :=
  let f := s.funcs[(1 : Fin 64)]
  let n := if f.evWr = 0xFFFFFFFF then 1 else f.evWr + 1
  let a := f.evBase + 64 * (n.toNat % 2 ^ f.evSize)
  f.events.head?.any fun e => match s.cpBytes 1 a 4 with
    | some (bs, _) => leNat bs == 0 && match s.cpWrite 1 (a + 4) (leBytes 4 e.kind ++ e.body) with | some t => (t.cpWrite 1 a (leBytes 4 n.toNat)).isSome | none => false
    | none => false

theorem meets_Events0 : holds id (logging [1, 2] 0 0) (fun s _ => slotFree s) = true := by decide +kernel

theorem meets_Events1 : holds id (logging [6] 0xFFFFFFFE 0) (fun s _ => slotFree s) = true := by decide +kernel

theorem meets_Events2 : (holds id (logging [] 0 0) (fun s _ => (s.funcs[(1 : Fin 64)]).events.isEmpty) && holds id (logging [3] 0 5) fun s _ => !slotFree s && (s.cpBytes 1 (2 ^ 21 + 64) 4).isSome) = true := by decide +kernel

theorem meets_EventsHeldUp : holds id (fun s => { logging [1] 0 0 s with graphs := [{ gid := 1, part := 1, addr := 2 ^ 22, nodes := [{ node0 with st := .completing 1 1 }] }] }) (fun s _ => slotFree s && s.hasRings 1 && s.graphs.any fun g => g.nodes.any fun n => n.st == .completing 1 1) = true := by decide +kernel

/-- The host port with every die released, with all from I/O die 1 on, and not released. -/
theorem meets_HostPort : [(0, true, true), (2 ^ 63 + 11, true, false), (2 ^ 63 + 3, true, false), (2 ^ 63 + 2, false, false)].all (fun (x : Nat × Bool × Bool) => holds id (fun s => { s with bootstat := BitVec.ofNat 64 x.1 }) fun s _ =>
      let up (q : Nat) : Bool := s.bootstat == 0 || (q == 0 && decide (2 < s.bootstat.toNat % 16))
      up 0 == x.2.1 && up 1 == x.2.2) = true := by decide +kernel

theorem meets_HostRegisters : [true, false].all (fun b => holds id (onLaunch fun l => { l with part := if b then 1 else 0 }) fun s _ => s.bootstat == 0 && (s.launches.any fun l => l.part == 1) == b) = true := by decide +kernel

/-- What the port makes of an access. -/
def ports (s : State) (p : Fin 64) (w : Bool) (a n : Nat) : Nat := match (s.portRun p w (n / 65536 + 2) a n).2 with | .ok _ => 0 | .error (.fault _) => 1 | .error (.noStorage _) => 2

theorem meets_HostWindow : (holds id (tables 0) (fun s _ => let f := s.funcs[(0 : Fin 64)]
      s.bootstat == 0 && f.winbase == 0 && ports s 0 false (2 ^ 21 - 8) 16 == 0 && ports s 0 true 0 64 == 0 && ports s 0 false (2 ^ 24) 1 == 1 && ports s 0 true (2 ^ 24) 1 == 1) &&
    holds id (fun s => { s with funcs := s.funcs.set 0 { s.funcs[(0 : Fin 64)] with winbase := 2 ^ 48 - 2 ^ 36 } }) (fun s _ => let off := 2 ^ 36 - 2 ^ 31
      decide (off + 2 ^ 31 ≤ 2 ^ 36) && ((s.funcs[(0 : Fin 64)]).winbase + off) / 2 ^ 31 % 2 ^ 17 == 2 ^ 17 - 1) &&
    holds id (tables (2 ^ 41 + 0xF)) fun s _ => ports s 0 false (2 ^ 24) 8 == 2) = true := by decide +kernel

theorem meets_FunctionReset : (holds id (staging (.launched 1) false 2 0 0) fun s _ => s.graphs.length == 1 && s.graphs.any fun g => g.nodes.any fun n => n.st == .launched 1) = true := by decide +kernel

/-- Port 0 trained to package 5, with a payload of the peer waiting and two of its own not acknowledged. -/
def linked (up : Bool) (s : State) : State :=
  s.setPort 0 { Port.init with up := up, peer := 5, peerPort := 3, txSeq := 2, unacked := [[1], [2]], inq := [[3]] }

/-- What a flit holds before its CRC, and the flit with a CRC that is right, or with each bit of it wrong. -/
def flitBody (nak : Bool) (type : Nat) : List Byte := (Port.init.flit 0 nak type [7]).take 248
def flitOf (good nak : Bool) (type : Nat) : List Byte :=
  let c := crc64 (flitBody nak type)
  flitBody nak type ++ leBytes 8 (if good then c else ~~~c).toNat

theorem meets_Ports : (holds id (linked true) (fun s _ => (s.ports[(0 : Fin 48)]).up) && holds id (linked false) (fun s _ => !(s.ports[(0 : Fin 48)]).up && s.dieUp 1) &&
    holds id (fun s => { linked false s with bootstat := 2 ^ 63 + 2 }) fun s _ => !s.dieUp 1) = true := by decide +kernel

theorem meets_FlitBodies : [(false, 1), (true, 1), (false, 0), (true, 0)].all (fun x => (flitBody x.1 x.2).length == 248 && leNat (((flitBody x.1 x.2).drop 4).take 1) == x.1.toNat + 4 * x.2) = true := by decide +kernel

theorem meets_Flits (good nak : Bool) (type : Nat) (h : (flitBody nak type).length = 248) :
    (flitOf good nak type).length = 256 ∧ (leNat ((flitOf good nak type).drop 248) = (crc64 ((flitOf good nak type).take 248)).toNat ↔ good = true) := by
  have e : ∀ c : W64, (~~~c).toNat ≠ c.toNat := fun c hc => by
    have hb : (~~~c).getLsbD 0 = c.getLsbD 0 := congrArg (fun x : W64 => x.getLsbD 0) (BitVec.eq_of_toNat_eq hc)
    simp at hb
  constructor
  · simp [flitOf, h, Laws.leBytes_length]
  · simp only [flitOf]
    rw [List.drop_left' h, List.take_left' h, Laws.leNat_leBytes, Nat.mod_eq_of_lt (BitVec.isLt _)]
    cases good <;> simp [-BitVec.toNat_not, e]

theorem meets_LinkTraining : ([(0x1F, 5), (0xF, 4), (0x17, 4), (7, 3)].all (fun x => holds id (linked false) fun s _ => let t := s.ports[(0 : Fin 48)]
      !t.up && ((List.range 5).filter fun i => (t.lanes &&& BitVec.ofNat 5 x.1).getLsbD i).length == x.2 && t.peer == 5 && t.peerPort == 3)) = true := by decide +kernel

theorem meets_PortsStopped : holds id (fun s => (linked false s).setPort 0 { (linked false s).ports[(0 : Fin 48)] with stopped := true }) (fun s _ => let t := s.ports[(0 : Fin 48)]
    !t.up && t.stopped && s.dieUp 1 && t.lanes == 0x1F && t.peer == 5 && t.peerPort == 3 && t.unacked.length == 2) = true := by decide +kernel

theorem meets_PeerAccesses : (holds id (linked false) (fun s _ => (s.peerPort 5).isNone) &&
    [(true, true), (true, false), (false, true), (false, false)].all fun x => let i : Import := { pkg := 5, srcPart := 2, part := 0, r := x.1, w := x.2 }
      holds id (fun s => { tables 0 (linked true s) with imports := [i] }) fun s _ => s.peerPort 5 == some 0 && s.imports == [i] &&
        let s0 := s.setPort 0 { s.ports[(0 : Fin 48)] with inq := (s.ports[(0 : Fin 48)]).inq.drop 1 }
        [false, true].all fun w => ports s0 0 w (2 ^ 21) 64 == 0 && ports s0 0 w (2 ^ 24) 64 == 1) = true := by decide +kernel

theorem meets_SpdmRequests : ([0, 1, 2, 3].all (fun n => holds id (fun s => { s with funcs := s.funcs.set 1 { s.funcs[(1 : Fin 64)] with spdm := n } }) fun s _ => s.bootstat == 0 && (s.funcs[(1 : Fin 64)]).spdm == n) &&
    holds id id fun s _ => (s.parts[(0 : Fin 64)]).exists_ && !(s.parts[(1 : Fin 64)]).exists_ && (s.measd.toList[3]?).isSome && (s.parts[(0 : Fin 64)]).meas.toList.length == 16) = true := by
  decide +kernel

/-- A die that has been released, with and without a boot that stopped, and one that has not. -/
theorem meets_DiesFail : [(0, 10, true), (2 ^ 63 + 5, 3, true), (2 ^ 63 + 5, 4, false), (2 ^ 63 + 2, 0, true), (2 ^ 63 + 2, 1, false)].all (fun x => decide (x.1 = 0 ∨ x.2.1 + 1 < x.1 % 16) == x.2.2) = true := by decide +kernel

theorem meets_ResetStages : [some 1, some 2, some 11, some 12, none].all (fun bad => (bad.filter fun k => decide (2 ≤ k) && decide (k ≤ 11)) == if bad = some 2 ∨ bad = some 11 then bad else none) = true := by decide +kernel

theorem meets_SiloScrubs : ([true, false].all fun b => holds id (fun s => if b then { s with mem := s.mem.apply (MWrite.mark [siloAddr (64 * 5) / 64]) } else s) fun s _ => s.mem.bad (siloAddr (64 * 5) / 64) == b) = true := by decide +kernel

theorem meets_StoreScrubs : ([false, true].all (fun h => holds (fun st => { st with handler := h }) id (fun _ st => st.handler == h)) && holds id (halted (.granary 0 3)) fun s _ => s.halted.any fun h => h.place == .granary 0 3) = true := by decide +kernel

/-- A row of a silo device marked before and not, and marks at their greatest. -/
theorem meets_SiloRows : [([], 0#16), ([0], 0), ([7], 0xFF00)].all (fun (x : List Nat × W16) => holds id (fun s => { s with syn := s.syn.set 1 { s.syn[(1 : Fin 11)] with pprRows := x.1, ppr := s.syn[(1 : Fin 11)].ppr.set 0 x.2 } }) fun s _ =>
    !s.mem.bad (siloAddr (64 * 5) / 64) && s.dieUp 1 && (s.syn[(1 : Fin 11)]).pprRows.contains (5 / 64) == decide (x.1 = [0])) = true := by decide +kernel

/-- A slot of the calendar in which the core that owns it asks nothing of the stack, with an error found. -/
theorem meets_IdleSlots : [false, true].all (fun b => holds id (if b then bad (64 * ((hbmAddr 3 0) / 64 + 5)) else id) fun s _ => decide ((s.hbm[(3 : Fin 16)]).started ≤ s.tick) && decide (s.tick % 400 < 384) &&
    ((s.cores[slotOwner (s.tick % 400)]).reqs.all fun r => r.stack != 3) && s.mem.bad (hbmAddr 3 0 / 64 + 5 % (3 * 2 ^ 28)) == b) = true := by decide +kernel

/-- Beats retried through TSV 7 of the trust die, whose spares are given; and correctable errors of core 0. -/
def retried (n : Nat) (spare : W64) (s : State) : State := s.setSyn 0 { s.syn[(0 : Fin 11)] with retries := List.replicate n (7, 0), repair := spare <<< 32 }
def erring (n : Nat) (s : State) : State := s.setSyn (coreDie 0) { s.syn[coreDie 0] with coreErrs := List.replicate n (0, 0) }

theorem meets_Thresholds : ([(999, 1#64), (1000, 1), (1000, 0)].all (fun (x : Nat × W64) => holds id (retried x.1 x.2) fun s _ => let y := s.syn[(0 : Fin 11)]
      (65543 / 65536 - 1) % 11 == 0 && 65543 % 65536 == 7 && ((y.retries.filter fun e => e.1 == 7 && decide (dtime s.tick < e.2 + 1000000)).length == x.1) &&
      (y.repair.extractLsb' 24 8).ult (y.repair.extractLsb' 32 8) == decide (x.2 = 1)) &&
    [254, 255].all fun n => holds id (erring n) fun s _ => ((s.syn[coreDie 0]).coreErrs.filter fun e => e.1 == 0 && decide (dtime s.tick < e.2 + 86400000000000)).length == n && (s.tbOn 0).isSome) = true := by decide +kernel

/-- A sum under way on stack 0, none there, and a context halted in core 0. -/
theorem meets_EnginesScrubbed : ([true, false].all (fun b => holds id (quarried (pktOf 1 plainSum) fun q => { q with sums := if b then [{ part := 0, launch := 1, pkt := pktOf 1 plainSum, out := [], res := default }] else [] }) fun s _ =>
      let q := s.quarry[(0 : Fin 16)]
      decide (q.sums.length + q.queries.length ≤ 0) == !b && q.sums.all fun x => pktKind x.pkt == 1 && (s.launch? x.launch).any fun l => l.ending == .live) &&
    (let s := at_ .s 0 id (fun s => s.setCore 0 { s.cores[(0 : Fin 192)] with strand := none })
     let t := match (at_ .s 0 id (halted (.core 0))).halted with | l => { s with halted := l }
     (t.cores[(0 : Fin 192)]).strand.isNone && (t.halted.find? fun h => h.core == 0 && h.place == .core 0).isSome && t.halted.length == 1)) = true := by decide +kernel

/-- An SRAM row with 0, 2, 3 and 4 errors, and a column with 3. -/
theorem meets_SramParts : [0, 2, 3, 4].all (fun n => let y := { State.reset.syn[(3 : Fin 11)] with sramRows := [(2 * 5, n), (2 * 9 + 1, 3)] }
    let seen (part : Nat) : Nat := ((y.sramRows.find? fun r => r.1 == part).map Prod.snd).getD 0
    seen 10 == n && seen 19 == 3) = true := by decide +kernel

/-- Stack 0's die with bad rows in bank 1 of pseudo-channel 0, whose sparing register is given. -/
def worn (n : Nat) (r : W32) (s : State) : State :=
  { s with syn := s.syn.set 3 { s.syn[(3 : Fin 11)] with badRows := (List.range n).map fun i => dieRow 0 (rowKey 0 1 i) }, upkeep := s.upkeep.set 0 { s.upkeep[(0 : Fin 16)] with sparing := (Vector.replicate 64 0).set 0 r } }

/-- Scrubs of stores: what a unit finds at a place that holds a poison code word and at one that does not, and a unit of a die that stays in reset. -/
theorem meets_StoresScrubbed : ([(3, fun tb : TBuf => wbufAddr tb.id 64), (4, fun tb => abufAddr tb.id 64), (6, fun _ => yardAddr 2 64)].all (fun (x : BitVec 4 × (TBuf → Nat)) => [true, false].all fun b =>
      holds id (fun s => match s.tbOn 0 with | some tb => if b then bad (x.2 tb) s else s | none => s) fun s _ => (s.tbOn 0).isSome && s.sramWasBad x.1 0 1 == b) &&
    [(10 : BitVec 4), 11, 12, 13].all (fun u => holds id (chained (some (hauling 1 4096 []))) fun s _ => !s.sramWasBad u 0 1 && s.dieUp (coreDie 0) && (s.chans[(0 : Fin 192)]).recs.all fun r => r.status.isNone) &&
    holds id (fun s => { s with bootstat := 2 ^ 63 + 3 }) fun s _ => !s.dieUp (coreDie 0) && s.dieUp 1) = true := by decide +kernel

theorem meets_BanksRetire : [(1, 0#32), (2, 0), (2, 1 <<< 30), (2, 1 <<< 18), (2, 3 <<< 30)].all (fun x => holds id (worn x.1 x.2) fun s _ => s.bankWorn 0 0 1 == decide (x.1 = 2) &&
    (s.upkeep[(0 : Fin 16)]).sparing[(0 : Fin 64)] == x.2 && decide (x.2 = 3 <<< 30) == (List.finRange 64).any fun q => ((s.upkeep[(0 : Fin 16)]).sparing[q]).getLsbD 31) = true := by decide +kernel

theorem meets_SyndromeRequests : [((10, 0), (1, 1)), ((10, 0), (1, 128)), ((0, 0), (0, 0)), ((0, 0), (0, 129)), ((11, 0), (1, 1)), ((10, 1), (0, 0)), ((0, 2), (1, 1))].all (fun x => let dw0 := BitVec.ofNat 32 (x.1.1 + 16 * x.1.2)
    let dw1 := BitVec.ofNat 32 (x.2.1 + 1024 * x.2.2)
    (dw0.extractLsb' 0 4).toNat == x.1.1 && (dw0.extractLsb' 4 2).toNat == x.1.2 && (dw1.extractLsb' 10 10).toNat == x.2.2) = true := by decide +kernel

/-- A launch with two points, running at one of them. -/
def twoPoints (n : Nat) (s : State) : State :=
  onLaunch (fun l => { l with ops := [{ tm1 := 0, variant := 0, freq := 800, volt := 0 }, { tm1 := 0, variant := 0, freq := 1600, volt := 1 }], opmask := 3, point := n, heads := [2 ^ 32, 2 ^ 32, 2 ^ 32, 2 ^ 32] }) s

/-- A grant of the last clearing to what held cluster 0 then: launch `h`, at a clock. -/
def granting (h : Nat) (mhz : Option Nat) (s : State) : State := { s with power := { s.power with grants := [{ q := 0, holder := (h, 0), watts := 9, mhz := mhz }] } }

theorem meets_Grants : [(1, true, none), (1, false, some 900), (2, false, some 900)].all (fun (x : Nat × Bool × Option Nat) => holds id (granting x.1 x.2.2 ∘ clocked x.2.1 0 none) fun s _ => let k := s.clusters[(0 : Fin 48)]
    (s.power.grants.all fun g => g.q == 0 && g.mhz == x.2.2 && (k.holder == some g.holder) == decide (x.1 = 1) && (x.1 != 1 || (s.launch? g.holder.1).isSome)) && s.power.grants.length == 1 && k.fixed == x.2.1) = true := by decide +kernel

theorem meets_ForeignGrants : holds id (fun s => granting 2 (some 900) { s with launches := s.launches ++ s.launches.map fun l => { l with id := 2 } }) (fun s _ => s.power.grants.all fun g => (s.launch? g.holder.1).isSome && (s.clusters[(0 : Fin 48)]).holder != some g.holder) = true := by
  decide +kernel

theorem meets_Market : ([15999, 16000].all (fun t => holds id (fun s => { twoPoints 1 s with tick := t }) fun s _ => decide (s.power.round < dtime s.tick / 10000) == decide (t = 16000) && s.launches.length == 1) &&
    ([[], [(10, 10)], [(10, 30), (20, 25)]].all fun bs => (bs.map fun x => ({ q := 0, elastic := x.1 != x.2, d := x.2, full := x.2, f := x.1, b := 1, g := x.1 } : Bidder)).all fun b => b.g == b.f && decide (b.f ≤ b.d) && (b.elastic || b.d == b.f))) = true := by decide +kernel

/-- A parked launch that only the headrooms keep from resuming, and headrooms that let it. -/
theorem meets_Resumes : holds id (fun s => onLaunch (fun l => { l with parked := true, parkHeld := 1, parkSeed := some 4 }) (twoPoints 1 s)) (fun s _ => s.launches.all fun l =>
    l.parkDone && !l.resuming && !s.parkCovers l && s.liveLaunches.length == 1 && s.runningLaunches.isEmpty && (s.eventsOn 1).isEmpty) = true ∧
    ∀ fl : Nat, (List.replicate 100 (2 * fl : Int)).all (headOk fl) = true ∧ headOk fl ((2 * fl : Nat) : Int) = true := by
  refine ⟨by decide +kernel, fun fl => ⟨?_, ?_⟩⟩
  · rw [List.all_replicate]; simp [headOk]; omega
  · simp [headOk]; omega

/-- A curve in force since 0 with an event of a grade, for a class, after one millisecond. -/
def curved (grade cls : Nat) (acted : Bool) (t : Nat) (s : State) : State :=
  { onLaunch (fun l => { l with eclass := 0 }) (twoPoints 1 s) with tick := t, power := { s.power with curves := [{ seq := 4, start := 0, end_ := 10 ^ 12, fallback := 2000, points := [(0, 2500)], events := [{ off := 1, until_ := 9, grade := grade, cls := cls, acted := acted }] }] } }

theorem meets_CurveEvents : [(1, 3, false, 1600000), (2, 0, false, 1600000), (3, 2, false, 1600000), (3, 0, true, 1600000), (2, 0, false, 1599999), (1, 0, false, 0)].all (fun x => holds id (curved x.1 x.2.1 x.2.2.1 x.2.2.2) fun s _ =>
    s.launches.length == 1 && s.curveNow.any fun c => c.seq == 4 && c.events[0]?.any fun e => e.grade == x.1 && e.acted == x.2.2.1 && decide (c.start + e.off * 1000000 ≤ dtime s.tick) == decide (x.2.2.2 = 1600000) &&
      s.launches.all fun l => decide (l.ending = .live) && !l.parked && !l.cur.fixed && decide (l.eclass.toNat ≤ e.cls) && l.eclass != 3) = true := by decide +kernel

theorem meets_ResumingParked : [2, 3].all (fun g => holds id (fun s => onLaunch (fun l => { l with parked := true, resuming := true }) (curved g 2 false 1600000 s)) fun s _ => s.launches.all fun l =>
    decide (l.ending = .live) && l.parked && l.resuming && decide (l.eclass.toNat ≤ 2) && s.runningLaunches.length == 1) = true := by decide +kernel

theorem meets_CurveEventClasses : [(0 : BitVec 2), 2, 3].all (fun e => holds id (fun s => onLaunch (fun l => { l with eclass := e }) (curved 3 1 false 1600000 s)) fun s _ => s.launches.all fun l => (decide (l.eclass.toNat ≤ 1) && l.eclass != 3) == decide (e = 0)) = true := by
  decide +kernel

/-- The strand of core 0 gone. -/
def left (s : State) : State := s.setCore 0 { s.cores[(0 : Fin 192)] with strand := none }

theorem meets_ClusterGates : (holds id id (fun s _ => !s.mayGate 0) && let s := at_ .s 0 id (left ∘ saving)
    s.mayGate 0 && ((s.clusters[(0 : Fin 48)]).holder.bind fun h => s.launch? h.1).isSome) = true := by decide +kernel

theorem meets_ClusterPowers : ([(true, true), (true, false), (false, true)].all fun x => holds id (fun s => { s with clusters := s.clusters.set 0 { s.clusters[(0 : Fin 48)] with gated := x.1 }, diePower := s.diePower.set 0 x.2 }) fun s _ =>
      (s.clusters[(0 : Fin 48)]).gated == x.1 && (s.clusters[(0 : Fin 48)]).holder.isSome && (s.diePower[(0 : Fin 8)]) == x.2) = true := by decide +kernel

theorem meets_DieGates : ([(true, 0), (true, 1), (false, 0)].all fun x => holds id (fun s => { s with diePower := s.diePower.set 1 x.1, power := { s.power with nextGate := x.2 } }) fun s _ => (s.diePower[(1 : Fin 8)]) == x.1 && s.power.nextGate == x.2 && dtime s.tick == 0 &&
      (List.finRange 48).all fun k => k.val / 6 != 1 || ((s.clusters[k]).gated && (s.clusters[k]).holder.isNone)) = true := by decide +kernel

/-- Cluster 0 hot, cluster 1 at a temperature, at five milliseconds. -/
def hotFrom (cool : Nat) (s : State) : State :=
  saving { s with tick := 8000000, clusters := (s.clusters.map fun k => { k with temp := 96 }).set 1 { s.clusters[(1 : Fin 48)] with temp := cool } }

theorem meets_HotWork : [(91, true), (92, false)].all (fun x => holds id (hotFrom x.1) fun s st => s.movedOff.isNone && decide (s.power.moved < dtime s.tick / 1000000) && s.hotWork.isSome == x.2 && st.phase == .running &&
    s.hotWork.all fun h => h == (0, 1, 0, 1) && (s.launch? 1).isSome) = true := by decide +kernel

theorem meets_WorkMoves : ((let s := at_ .s 0 id (onLaunch (fun l => { l with slots := l.slots.map fun x => { x with goal := some 7 } }) ∘ left)
    s.movedOff.any fun m => m.1.id == 1 && m.2 == (0, 0, 7)) && holds id id fun s _ => s.movedOff.isNone && decide (dtime s.tick / 1000000 ≤ s.power.moved)) = true := by decide +kernel

/-- A key that the curve below is signed by: r and s of its signature are equal. -/
def curveKey : KeySlot := { x := 106108494608568557871076200188204367932574507384181513940439596100703240530714, y := 39917376797810354753948672327285267673330117464213885481438207143982754449758, mask := 0 }
def curveSig : Nat := 8832679183829598491491058541487164439580744021724922762247099767685220664835

theorem meets_Curve : [0, 1].all (fun how => commands 0 6 [2 ^ 22] ([9719666754, 8589934592001, 9, 1000, 1000000000000, 0, 0, 0, 10737418240000, 8589934592010, 85899345925, 769] ++ dw4 curveSig ++ dw4 curveSig)
      (fun s => { s with keys := if how = 0 then s.keys.set 2 none else s.keys.set 2 (some curveKey), power := { s.power with nextSeq := 9 } }) fun s c => c.row == 6 && match s.readCurve (Arg c 8 8) with
        | .ok v => how == 1 && v.seq == 9 && v.events.length == 1
        | .error e => how != 1 && e != 0) = true := by decide +kernel

theorem meets_Nops : (can .s false [] id (fun _ _ => true) && can .v false [] id fun _ _ => true) = true := by decide +kernel

/-! What one word does, on the spec's own values. -/

/-- What a word of S leaves in a register, its latency passed. -/
def leaves (i : Instr) (l : List (Nat × Nat)) (d v : Nat) : Bool :=
  match exec i (at_ .s 0 (xs l) id) with
  | .next t => (t.strand? 0).any fun st => (st.settle 1000).x[d]? == some (BitVec.ofNat 64 v)
  | _ => false

/-- R96: the sum wraps. -/
theorem test_addWraps : leaves (.add false 3 1 2) [(1, 2 ^ 64 - 1), (2, 2)] 3 1 = true := by decide +kernel

/-- R61: X0 reads as zero and takes no value. -/
theorem test_addX0 : leaves (.add false 0 1 2) [(1, 5), (2, 2)] 0 0 = true := by decide +kernel

/-- R97: division by zero gives ones, its remainder the dividend, and the most negative number by −1 itself. -/
theorem test_divByZero : leaves (.div false 3 1 2) [(1, 7)] 3 (2 ^ 64 - 1) = true := by decide +kernel

theorem test_remByZero : leaves (.rem false 3 1 2) [(1, 7)] 3 7 = true := by decide +kernel

theorem test_divOverflow : leaves (.div false 3 1 2) [(1, 2 ^ 63), (2, 2 ^ 64 - 1)] 3 (2 ^ 63) = true := by decide +kernel

theorem test_divTruncates : leaves (.div false 3 1 2) [(1, 2 ^ 64 - 7), (2, 2)] 3 (2 ^ 64 - 3) = true := by decide +kernel

theorem test_sltSigned : leaves (.slt false 3 1 2) [(1, 2 ^ 63), (2, 1)] 3 1 = true := by decide +kernel

theorem test_clzOfZero : leaves (.clz false 3 1) [] 3 64 = true := by decide +kernel

theorem test_shraSign : leaves (.shra false 3 1 2) [(1, 2 ^ 63), (2, 63)] 3 (2 ^ 64 - 1) = true := by decide +kernel

/-- R99: the immediate of ADDI is signed. -/
theorem test_addiSigned : leaves (.addi false 3 1 0x7FFF) [(1, 5)] 3 4 = true := by decide +kernel

/-- The source is also the destination. -/
theorem test_subSame : leaves (.sub false 1 1 2) [(1, 5), (2, 7)] 1 (2 ^ 64 - 2) = true := by decide +kernel

/-- The step runs the word that is placed where it fetches. -/
theorem test_stepRuns : (match step (State.reset.withFetchWord 32 0b0_000010_00101_00000_000000000000111) with
    | .next t => (t.strand? 0).any fun st => (st.settle 1000).x[5]? == some 7
    | _ => false) = true := by decide +kernel

theorem meets_StepRuns : (let s := { State.reset.placeWord .s 0x7C000000 with agenda := [.issue 0 .s] }
    (s.cores[(0 : Fin 192)]).strand.any fun st => (s.launch? st.launch).any fun l => !(st.lbLive .s && (st.lb .s).captured) && (st.pc.get .s).toNat % 4 == 0 && (match s.translate l (st.pc.get .s) .x with
      | .ok t => !t.gated && !t.disc && !s.mem.bad (lineOf t.addr) && BitVec.ofNat 32 (leNat (s.mem.reads t.tag t.addr 4)) == 0x7C000000
      | .error _ => false)) = true := by decide +kernel

theorem meets_StepReplays : (holds (fun st => { st with lbS := { valid := true, start := 0, remaining := 1, len := 1, pos := 0, captured := true, words := [some 0x7C000000] } }) id fun _ st =>
    (st.lbLive .s && (st.lb .s).captured) && (st.lb .s).words[(st.lb .s).pos]? == some (some 0x7C000000)) = true := by decide +kernel

/-- A word that is no instruction, a fetch that fails, and a core without a strand. -/
theorem meets_StepTraps : (holds id id (fun s st => match s.fetch st .s with | .ok w => w == 0 | .error _ => false) && holds (fun st => { st with pc := { st.pc with s := 2 ^ 47 } }) id (fun s st => match s.fetch st .s with | .ok _ => false | .error _ => true) &&
    (State.reset.cores[(0 : Fin 192)]).strand.isNone) = true := by decide +kernel

/-- A word that S sleeps in, and a rendezvous of S and V that would complete now but for V's word, which is no instruction. -/
theorem meets_StepSleeps : (holds (fun st => { st with sleep := some { word := 0x7C000000, xd := 1, since := 0, ends := none } }) id (fun _ st => st.sleep.any fun z => rvBit z.word == false && decide (decodeWord .s z.word = .ok (.nop false)))) = true := by
  decide +kernel

theorem meets_StepHoldsBack : (let s := at_ .s 0xFC000000 (fun st => { st with pc := { st.pc with v := st.pc.s }, ended := ⟨false, false, true, true⟩, syncmask := 3 }) id
    (s.strand? 0).any fun st => s.rvSpoiled 0 .s && !(s.tried 0 .s).trapped 0 && !(s.trappers 0).contains .s && !s.awaits 0 .s && match s.fetch st .s with | .ok w => rvBit w | .error _ => false) = true := by decide +kernel

/-- A V word that waits for S's; and a rendezvous of S, V and M whose M word is no instruction and whose signals are one too many for the flag. -/
theorem meets_StepWaits : ((let s := at_ .v 0x7C000000 (fun st => { st with ended := { st.ended with s := false } }) id
      s.awaits 0 .v) &&
    let s := at_ .v 0 (fun st => { st with pc := { st.pc with v := st.pc.s + 4, m := st.pc.s + 8 }, ended := ⟨false, false, false, true⟩, syncmask := 7, f := st.f.set 6 254 })
      (stored 0 (leBytes 4 0b1_110000_0110_000000000000000000000 ++ leBytes 4 0b1_011011_0110_000000000000000000000 ++ leBytes 4 (2 ^ 31)))
    s.rvSpoiled 0 .v && !(s.tried 0 .v).trapped 0 && (s.trappers 0).contains .v) = true := by decide +kernel

theorem meets_StepClock : ((let s : State := { State.reset with hbm := State.reset.hbm.map fun k => ({ k with started := 1 } : Stack) }; s.due.isEmpty && (List.finRange 192).all fun c => (s.untried c).isEmpty) &&
    let s := at_ .s 0x7C000000 id fun s => { s with clusters := s.clusters.set 0 { s.clusters[(0 : Fin 48)] with fixed := true, mhz := 1200, phase := 400 } }
    !(s.untried 0).isEmpty) = true := by decide +kernel

theorem meets_StepGoesOn : (State.reset.agenda.isEmpty && !State.reset.autoMoves.isEmpty) = true := by decide +kernel

theorem meets_Canonical : (State.reset.mem.wf && ((List.finRange 16).all fun k => SMap.wf 0 (State.reset.upkeep[k]).rows) && match step State.reset with | .next _ => true | _ => false) = true := by decide +kernel

end Sys2Proof.Tests
end

section
/-! PROOF. Control registers: what CSRR reads, what CSRW issues, and what a control-register write leaves when its cycle comes
(R71 to R76, R124). -/

namespace Sys2Proof.Proofs

open Sys2Proof Sys2Proof.Machine Sys2Proof.Safety Sys2Proof.Laws

/-! ## What CSRR reads -/

section Reads

variable {s : State} {r : Bool} {d : BitVec 5} {st : Strand}

/-- R124: a CSRR whose register S owns writes what the control register holds. -/
theorem csrr_reads {n : BitVec 10} {v : W64} (h : issuer s .s r false [d] = some st) (ho : st.owns false d = true)
    (hv : (s.setSt s.cur.core st).csr s.cur.core st n = v) : exec (.csrr r d n) s = .next (wroteX s .s st 1 d v false) := by
  subst hv
  rw [exec_csrr]
  unfold execCsrr wroteX
  apply issue_st h
  simp [ho, now]

/-- R47: FSTAT holds the flags of V in bits 4:0 and those of M in bits 12:8. -/
theorem fstat_eq (st : Strand) : st.fstat = BitVec.ofNat 64 (st.fstatV.toNat + 256 * st.fstatM.toNat) := by
  unfold Strand.fstat
  generalize st.fstatV = v
  generalize st.fstatM = m
  revert v m
  decide

/-- R73: CLKMODE holds whether the clock is fixed, and whether it is bound to a furrow. -/
theorem clkmode_eq (fixed furrow : Bool) : boolW fixed ||| (boolW furrow <<< 1) = BitVec.ofNat 64 (fixed.toNat + 2 * furrow.toNat) := by
  cases fixed <;> cases furrow <;> rfl

/-- R74, R300: SCYC stands still while a wire of the strand's gang is held. -/
theorem csr_scyc_frozen (h : ∃ w ∈ s.wires, w.gang = st.gang) :
    (s.setSt s.cur.core st).csr s.cur.core st 0x6 = BitVec.ofNat 64 st.scycBase := by
  have hw : (s.wires.any fun w => w.gang == st.gang) = true := by simpa using h
  show (s.setSt s.cur.core st).scyc s.cur.core st = _
  rw [State.scyc, setSt_wires, if_pos hw]

theorem csr_scyc_running (h : ¬ ∃ w ∈ s.wires, w.gang = st.gang) :
    (s.setSt s.cur.core st).csr s.cur.core st 0x6 = BitVec.ofNat 64 (st.scycBase + (now s - st.scycSince)) := by
  have hw : ¬ (s.wires.any fun w => w.gang == st.gang) = true := by simpa using h
  show (s.setSt s.cur.core st).scyc s.cur.core st = _
  rw [State.scyc, setSt_wires, if_neg hw, setSt_cyc, now]

theorem setSt_core (s : State) (c : Fin 192) (st : Strand) : (s.setSt c st).cores[c] = { s.cores[c] with strand := some st } := by
  simp

/-- R76: PMCYC of a core on which a strand stands. -/
theorem csr_pmcyc (c : Fin 192) : (s.setSt c st).csr c st 0x8 =
    s.cores[c].pmcyc + BitVec.ofNat 64 ((s.clusters[clusterOf c]).cyc - s.cores[c].pmSince) := by
  show Core.pmcycNow ((s.setSt c st).cores[c]) _ = _
  simp [Core.pmcycNow]

/-- R71: the typed-buffer format registers stand from 0x40 (those of W) and from 0x60 (those of A). -/
theorem csr_bfmtW (c : Fin 192) (i : Fin 32) : s.csr c st (BitVec.ofNat 10 (0x40 + i.val)) = (st.tb.bfmtW[i]).zeroExtend 64 := by
  fin_cases i <;> rfl

theorem csr_bfmtA (c : Fin 192) (i : Fin 32) : s.csr c st (BitVec.ofNat 10 (0x60 + i.val)) = (st.tb.bfmtA[i]).zeroExtend 64 := by
  fin_cases i <;> rfl

end Reads

theorem controlRegisterReads : Claims.ControlRegisterReads := by
  intro s r d st h ho
  refine ⟨csrr_reads h ho rfl, csrr_reads h ho rfl, csrr_reads h ho rfl, csrr_reads h ho rfl, csrr_reads h ho (fstat_eq st),
    csrr_reads h ho (clkmode_eq _ _), fun hf => csrr_reads h ho (csr_scyc_frozen hf),
    fun hf => csrr_reads h ho (csr_scyc_running hf), csrr_reads h ho rfl, csrr_reads h ho (csr_pmcyc _), ?_⟩
  have hk := setSt_core s s.cur.core st
  refine ⟨csrr_reads h ho (congrArg Core.pmlocal hk :), csrr_reads h ho (congrArg Core.pmremote hk :), csrr_reads h ho (congrArg Core.pmxdie hk :),
    csrr_reads h ho rfl, csrr_reads h ho rfl, csrr_reads h ho rfl, csrr_reads h ho rfl, csrr_reads h ho rfl, csrr_reads h ho rfl,
    csrr_reads h ho rfl, csrr_reads h ho rfl, fun i => ⟨csrr_reads h ho (csr_bfmtW _ i), csrr_reads h ho (csr_bfmtA _ i)⟩⟩

/-! ## What CSRW issues -/

theorem controlRegisterWrites : Claims.ControlRegisterWrites := by
  intro s r a n st h v busy
  have hbusy : (!st.xpend.isEmpty || st.accs.any fun q => q.dest.isSome) = true ↔ busy := by
    simp [busy, Option.isSome_iff_ne_none]
  simp only [exec_csrw, execCsrw]
  refine ⟨fun hp => issue_trap h (by simp [hp]), fun hp hn hv => issue_trap h ?_, fun hp hn hb => issue_stall h ?_,
    fun hp hv hb => issue_st h ?_⟩
  · have hshape : shapeBad (st.xv a) = true := decide_eq_true hv
    simp [hp, hn, hshape]
  · simp only [hp, hn, hbusy.mpr hb]
    rfl
  · have hshape : ¬ (decide (n = 2) && shapeBad v) = true := by
      simp only [shapeBad, Bool.and_eq_true, decide_eq_true_eq, not_and]
      intro hn; have := hv hn; omega
    have hown : ¬ (decide (n = 1) && (!st.xpend.isEmpty || st.accs.any fun q => q.dest.isSome)) = true := by
      rw [Bool.and_eq_true, decide_eq_true_eq, hbusy]
      exact fun hx => hb hx.1 hx.2
    simp only [hp, Bool.false_eq_true, if_false, setSt_cyc, now]
    rw [if_neg hshape, if_neg hown]

/-! ## What a write leaves when its cycle comes -/

section Lands

variable {st : Strand} {t : Nat}

/-- A control-register write touches none of the lists of pending writes. -/
theorem csrPut_pending (st : Strand) (w : CsrWrite) : (st.csrPut w).xpend = st.xpend ∧ (st.csrPut w).cpend = st.cpend ∧
    (st.csrPut w).tspend = st.tspend ∧ (st.csrPut w).bpend = st.bpend := by
  unfold Strand.csrPut
  repeat' split
  all_goals exact ⟨rfl, rfl, rfl, rfl⟩

theorem csrPut_withCpend (st : Strand) (w : CsrWrite) (l : List CsrWrite) :
    ({ st with cpend := l } : Strand).csrPut w = { st.csrPut w with cpend := l } := by
  unfold Strand.csrPut
  repeat' split
  all_goals rfl

/-- Where one control-register write alone is pending and its cycle has come, it takes effect and nothing is left pending. -/
theorem settle_of_cpend {u : Strand} {w : CsrWrite} (hx : u.xpend = []) (ht : u.tspend = []) (hb : u.bpend = []) (hc : u.cpend = [w])
    (hw : w.due ≤ t) : u.settle t = { u.csrPut w with cpend := [] } := by
  obtain ⟨hxp, -, htp, hbp⟩ := csrPut_pending u w
  have hsame : ({ u.csrPut w with cpend := [] } : Strand) = { u.csrPut w with xpend := u.xpend, cpend := [], tspend := u.tspend, bpend := u.bpend } := by
    rw [← hxp, ← htp, ← hbp]
  rw [hsame]
  unfold Strand.settle
  simp [hx, ht, hb, hc, hw, hbp, Nat.not_lt.mpr hw]

theorem settle_csrWrite (hx : st.xpend = []) (ht : st.tspend = []) (hb : st.bpend = []) (hc : st.cpend = []) (n : BitVec 10) (v : W64) :
    ({ st with cpend := [{ due := t, num := n, val := v }] } : Strand).settle t = st.csrPut { due := t, num := n, val := v } := by
  let w : CsrWrite := { due := t, num := n, val := v }
  calc ({ st with cpend := [w] } : Strand).settle t
      = { ({ st with cpend := [w] } : Strand).csrPut w with cpend := [] } :=
        settle_of_cpend (u := { st with cpend := [w] }) hx ht hb rfl (le_refl w.due)
    _ = { st.csrPut w with cpend := [] } := by rw [csrPut_withCpend]
    _ = st.csrPut w := by rw [← hc, ← (csrPut_pending st w).2.1]

/-- R62: bit 0 of XOWN stays 0. -/
theorem xown_written (v : W64) : v.extractLsb' 0 32 &&& ~~~1#32 = (v.extractLsb' 1 31 ++ (0#1 : BitVec 1)).setWidth 32 := by
  apply BitVec.eq_of_getLsbD_eq
  intro i hi
  simp only [BitVec.setWidth_eq, BitVec.getLsbD_and, BitVec.getLsbD_not, BitVec.getLsbD_extractLsb', BitVec.getLsbD_append, BitVec.getLsbD_one]
  rcases i with _ | i
  · simp
  · have hi' : i < 31 := by omega
    simp [hi, hi', Nat.add_comm 1 i]

/-- A write of a register that has no RW field leaves nothing. -/
theorem csrPut_other {w : CsrWrite} (h : w.num ∉ [0x0, 0x1, 0x2, 0x3, 0x4, 0x10, 0x13]) : st.csrPut w = st := by
  have hne : ∀ k : Nat, (∃ x ∈ ([0x0, 0x1, 0x2, 0x3, 0x4, 0x10, 0x13] : List (BitVec 10)), x.toNat = k) → w.num.toNat ≠ k := by
    rintro k ⟨x, hx, rfl⟩ e
    exact h (BitVec.eq_of_toNat_eq e ▸ hx)
  unfold Strand.csrPut
  split
  case h_8 => rfl
  all_goals exact absurd ‹_› (hne _ (by decide))

end Lands

theorem controlRegisterWritesLand : Claims.ControlRegisterWritesLand := by
  intro st t v hx ht hb hc wrote
  have lands : ∀ n, wrote n = st.csrPut { due := t, num := n, val := v } := fun n => settle_csrWrite hx ht hb hc n v
  simp only [lands]
  refine ⟨rfl, congrArg (fun o => { st with xown := o }) (xown_written v), fun h => if_neg h, fun h => if_pos h, rfl, fun h => ?_, fun h b hb5 => ?_,
    rfl, rfl, fun n hn => csrPut_other hn⟩
  · simp [Strand.csrPut, h]
  · simp [Strand.csrPut, h, hb5]

/-- Settles O13: the value of each register of R71 is what its CSRR writes; a CSRW adds its write to those pending, and alone it settles to `csrPut` of
its register. -/
theorem controlRegisters : Obligations.ControlRegisters :=
  ⟨controlRegisterReads, controlRegisterWrites, controlRegisterWritesLand⟩

end Sys2Proof.Proofs
end

section
/-! PROOF. The host port (R11, R211, R319, R344, R347, R352, R358, R359, R362, R364): its registers, its windows, ATS invalidation and
FLR. -/

namespace Sys2Proof.Proofs

open Sys2Proof Sys2Proof.Machine Sys2Proof.Laws

/-! ## States that differ in bookkeeping alone -/

/-- Nothing but the rows' counters, the syndrome registers and the cached translations differs: what walks and gleaned accesses leave. -/
def Bookkept (s t : State) : Prop := t = { s with upkeep := t.upkeep, syn := t.syn, xlats := t.xlats }

namespace Bookkept

variable {s t u : State}

theorem refl (s : State) : Bookkept s s := rfl

theorem trans (h : Bookkept s t) (h' : Bookkept t u) : Bookkept s u :=
  Eq.trans h' (congrArg (fun x : State => { x with upkeep := u.upkeep, syn := u.syn, xlats := u.xlats }) h)

theorem mem (h : Bookkept s t) : t.mem = s.mem := (congrArg State.mem h :)
theorem cores (h : Bookkept s t) : t.cores = s.cores := (congrArg State.cores h :)
theorem launches (h : Bookkept s t) : t.launches = s.launches := (congrArg State.launches h :)
theorem parts (h : Bookkept s t) : t.parts = s.parts := (congrArg State.parts h :)
theorem funcs (h : Bookkept s t) : t.funcs = s.funcs := (congrArg State.funcs h :)
theorem hostOut (h : Bookkept s t) : t.hostOut = s.hostOut := (congrArg State.hostOut h :)

theorem foldl {α : Type} {f : State → α → State} (hf : ∀ s x, Bookkept s (f s x)) : ∀ (l : List α) (s : State), Bookkept s (l.foldl f s)
  | [], s => refl s
  | x :: l, s => (hf s x).trans (foldl hf l (f s x))

end Bookkept

theorem bookkept_gleaned (s : State) (a n : Nat) : Bookkept s (s.gleaned a n) := by
  unfold State.gleaned
  split
  · exact .refl s
  · refine .foldl (fun t i => ?_) _ s
    rfl

theorem bookkept_countError (s : State) (d : Fin 11) (bad : Bool) (addr inst unit kind : Nat) :
    Bookkept s (s.countError d bad addr inst unit kind) := by
  unfold State.countError
  split <;> rfl

theorem bookkept_countPoison (s : State) (a : Nat) : Bookkept s (s.countPoison a) := by
  unfold State.countPoison
  split
  · exact bookkept_countError ..
  · split
    · exact bookkept_countError ..
    · split
      · exact bookkept_countError ..
      · exact .refl s

theorem bookkept_walked (s : State) (p : Fin 64) (a : Nat) : Bookkept s (s.walked p a) := by
  unfold State.walked
  split
  · exact .refl s
  · refine .foldl (fun t x => ?_) _ s
    simp only
    split
    · exact (bookkept_gleaned t x 8).trans (bookkept_countPoison _ x)
    · exact bookkept_gleaned t x 8

theorem bookkept_walkedBy (s : State) (e : Fin 25) (p : Fin 64) (a : Nat) : Bookkept s (s.walkedBy e p a) := by
  unfold State.walkedBy
  split
  · exact .refl s
  · exact bookkept_walked s p a

theorem bookkept_fillXlat {s t : State} {e : Fin 25} {p : Fin 64} {a : Nat} {x : Xlat} (h : s.fillXlat e p a = .ok (t, x)) : Bookkept s t := by
  unfold State.fillXlat at h
  split at h
  · cases h; rfl
  · split at h
    · cases h
    · cases h; rfl

/-! ## The pieces of an access of path E -/

/-- What a run of the host port does first: nothing is left to reach; an address stops it; or it reaches one piece and runs on. -/
theorem portRun_cases (s : State) (p : Fin 64) (w : Bool) (fuel a n : Nat) :
    (n = 0 ∧ s.portRun p w (fuel + 1) a n = (s, .ok [])) ∨
    (∃ t e, Bookkept s t ∧ s.portRun p w (fuel + 1) a n = (t, .error e)) ∨
    (∃ t q, Bookkept s t ∧ n ≠ 0 ∧ q.len = min n (2 ^ 16 - a % 2 ^ 16) ∧ s.portRun p w (fuel + 1) a n =
      ((t.portRun p w fuel (a + q.len) (n - q.len)).1, (t.portRun p w fuel (a + q.len) (n - q.len)).2.map (q :: ·))) := by
  rw [State.portRun]
  split
  · exact .inl ⟨‹_›, rfl⟩
  refine .inr ?_
  split
  · exact .inl ⟨s, _, .refl s, rfl⟩
  have hw := bookkept_walkedBy s 24 p a
  simp only
  split
  · exact .inl ⟨_, _, hw, rfl⟩
  · rename_i t x hfill
    have ht := hw.trans (bookkept_fillXlat hfill)
    split
    · exact .inl ⟨_, _, ht, rfl⟩
    split
    · exact .inl ⟨_, _, ht, rfl⟩
    split
    · exact .inl ⟨_, _, ht, rfl⟩
    · rename_i phys tag zero _
      exact .inr ⟨t, { at_ := a, len := min n (2 ^ 16 - a % 2 ^ 16), phys := phys, tag := tag, zero := zero }, ht, ‹_›, rfl, rfl⟩

/-- R344, R374: a run costs walks, and changes nothing else. -/
theorem bookkept_portRun (p : Fin 64) (w : Bool) : ∀ (fuel : Nat) (s : State) (a n : Nat), Bookkept s (s.portRun p w fuel a n).1 := by
  intro fuel
  induction fuel with
  | zero => exact fun s _ _ => .refl s
  | succ fuel ih =>
    intro s a n
    obtain ⟨-, h⟩ | ⟨t, e, ht, h⟩ | ⟨t, q, ht, -, -, h⟩ := portRun_cases s p w fuel a n <;> rw [h]
    · exact .refl s
    · exact ht
    · exact ht.trans (ih t _ _)

theorem portRun_len_le (p : Fin 64) (w : Bool) : ∀ (fuel : Nat) (s : State) (a n : Nat) (ps : List HPiece),
    (s.portRun p w fuel a n).2 = .ok ps → ∀ q ∈ ps, q.len ≤ 2 ^ 16 := by
  intro fuel
  induction fuel with
  | zero => intro s a n ps h; cases h; simp
  | succ fuel ih =>
    intro s a n ps hps
    obtain ⟨-, h⟩ | ⟨t, e, -, h⟩ | ⟨t, q, -, -, hq, h⟩ := portRun_cases s p w fuel a n <;> rw [h] at hps
    · cases hps; simp
    · cases hps
    · cases hr : (t.portRun p w fuel (a + q.len) (n - q.len)).2 with
      | error e => rw [hr] at hps; cases hps
      | ok rest =>
        rw [hr] at hps
        cases hps
        intro o ho
        rcases List.mem_cons.mp ho with rfl | ho
        · omega
        · exact ih t _ _ rest hr o ho

/-- The pieces of a run that has fuel for every 64 KiB page that the range meets cover the range. -/
theorem portRun_len_sum (p : Fin 64) (w : Bool) : ∀ (fuel : Nat) (s : State) (a n : Nat) (ps : List HPiece),
    n = 0 ∨ a % 2 ^ 16 + n ≤ fuel * 2 ^ 16 → (s.portRun p w fuel a n).2 = .ok ps → (ps.map HPiece.len).sum = n := by
  intro fuel
  induction fuel with
  | zero => intro s a n ps hn h; cases h; simp; omega
  | succ fuel ih =>
    intro s a n ps hn hps
    obtain ⟨rfl, h⟩ | ⟨t, e, -, h⟩ | ⟨t, q, -, hne, hq, h⟩ := portRun_cases s p w fuel a n <;> rw [h] at hps
    · cases hps; rfl
    · cases hps
    · cases hr : (t.portRun p w fuel (a + q.len) (n - q.len)).2 with
      | error e => rw [hr] at hps; cases hps
      | ok rest =>
        rw [hr] at hps
        cases hps
        have hrest := ih t _ _ rest (by omega) hr
        rw [List.map_cons, List.sum_cons, hrest]
        omega

/-- R211: the yard aperture is no part of what the host port reaches. -/
theorem portRun_aperture {a : Nat} (s : State) (p : Fin 64) (w : Bool) (fuel : Nat) {n : Nat} (hn : n ≠ 0) (ha : inAperture a = true) :
    s.portRun p w (fuel + 1) a n = (s, .error (.fault a)) := by
  rw [State.portRun, if_neg hn, if_pos (by simp [ha])]

/-! ## What moved bytes cost -/

/-- Every launch of the second state is one of the first, and none has come back to life. -/
def NoneRevived (s t : State) : Prop := ∀ m ∈ t.launches, ∃ l ∈ s.launches, l.id = m.id ∧ (l.ending ≠ .live → m.ending ≠ .live)

namespace NoneRevived

variable {s t u : State}

theorem of_eq (h : t.launches = s.launches) : NoneRevived s t := fun m hm => ⟨m, h ▸ hm, rfl, id⟩

theorem trans (h : NoneRevived s t) (h' : NoneRevived t u) : NoneRevived s u := by
  intro m hm
  obtain ⟨l, hl, hid, hend⟩ := h' m hm
  obtain ⟨k, hk, hid', hend'⟩ := h l hl
  exact ⟨k, hk, hid'.trans hid, hend ∘ hend'⟩

theorem of_map {f : Launch → Launch} (h : t.launches = s.launches.map f) (hid : ∀ l, (f l).id = l.id)
    (hend : ∀ l, l.ending ≠ .live → (f l).ending ≠ .live) : NoneRevived s t := by
  intro m hm
  rw [h, List.mem_map] at hm
  obtain ⟨l, hl, rfl⟩ := hm
  exact ⟨l, hl, (hid l).symm, hend l⟩

end NoneRevived

/-- The state has changed by bookkeeping, by the bytes that its launches have asked for, and by `n` bytes of traffic of partition `p`. -/
structure Charged (p : Fin 64) (n : Nat) (s t : State) : Prop where
  same : t = { s with upkeep := t.upkeep, syn := t.syn, xlats := t.xlats, parts := t.parts, launches := t.launches }
  traffic : t.parts[p].traffic = s.parts[p].traffic + n
  launches : NoneRevived s t

namespace Charged

variable {p : Fin 64} {m n : Nat} {s t u : State}

theorem mem (h : Charged p n s t) : t.mem = s.mem := (congrArg State.mem h.same :)
theorem cores (h : Charged p n s t) : t.cores = s.cores := (congrArg State.cores h.same :)
theorem graphs (h : Charged p n s t) : t.graphs = s.graphs := (congrArg State.graphs h.same :)
theorem funcs (h : Charged p n s t) : t.funcs = s.funcs := (congrArg State.funcs h.same :)
theorem hostOut (h : Charged p n s t) : t.hostOut = s.hostOut := (congrArg State.hostOut h.same :)

theorem trans (h : Charged p m s t) (h' : Charged p n t u) : Charged p (m + n) s u where
  same := Eq.trans h'.same (congrArg (fun x : State =>
    { x with upkeep := u.upkeep, syn := u.syn, xlats := u.xlats, parts := u.parts, launches := u.launches }) h.same)
  traffic := by rw [h'.traffic, h.traffic, Nat.add_assoc]
  launches := h.launches.trans h'.launches

theorem of_bookkept (h : Bookkept s t) : Charged p 0 s t where
  same := Eq.trans h (congrArg (fun x : Vector Partition 64 × List Launch =>
    { s with upkeep := t.upkeep, syn := t.syn, xlats := t.xlats, parts := x.1, launches := x.2 }) (Prod.ext h.parts.symm h.launches.symm :
      (s.parts, s.launches) = (t.parts, t.launches)))
  traffic := by rw [h.parts, Nat.add_zero]
  launches := .of_eq h.launches

end Charged

theorem charged_addTraffic (s : State) (p : Fin 64) (n : Nat) : Charged p n s (s.addTraffic p n) where
  same := rfl
  traffic := by simp
  launches := .of_eq rfl

theorem charged_addBytes (s : State) (p : Fin 64) (launch n : Nat) : Charged p 0 s (s.addBytes launch n) where
  same := rfl
  traffic := rfl
  launches := by
    refine .of_map (f := fun l => if l.id == launch then { l with bytes := l.bytes + n } else l) rfl (fun l => ?_) (fun l h => ?_)
    · split <;> rfl
    · split <;> exact h

theorem charged_countBytes (s : State) (p : Fin 64) (launch a n : Nat) :
    Charged p (if a < 2 ^ 72 then n else 0) s (s.countBytes p launch a n) := by
  unfold State.countBytes
  by_cases h : a < 2 ^ 72
  · rw [if_pos h, if_neg (Nat.not_le.mpr h)]
    split
    · simpa using (charged_addBytes s p launch n).trans (charged_addTraffic _ p n)
    · exact charged_addTraffic s p n
  · rw [if_neg h, if_pos (Nat.not_lt.mp h)]
    exact .of_bookkept (.refl s)

/-- R319: the bytes of pieces that go to a store, the fabric or the host: those of no discarded page and of no yard. -/
def trafficOf (ps : List HPiece) : Nat := ((ps.filter fun q => !q.zero && decide (q.phys < 2 ^ 72)).map HPiece.len).sum

theorem charged_moved (p : Fin 64) : ∀ (ps : List HPiece) (s : State), Charged p (trafficOf ps) s (s.moved p ps) := by
  intro ps
  induction ps with
  | nil => exact fun s => .of_bookkept (.refl s)
  | cons q ps ih =>
    intro s
    cases hz : q.zero with
    | true => simpa [State.moved, trafficOf, hz] using ih s
    | false =>
      have hq := ((charged_countBytes s p 0 q.phys q.len).trans (.of_bookkept (bookkept_gleaned _ q.phys q.len))).trans (ih _)
      have ht : trafficOf (q :: ps) = (if q.phys < 2 ^ 72 then q.len else 0) + 0 + trafficOf ps := by
        by_cases h : q.phys < 2 ^ 72 <;>
          simp only [trafficOf, List.filter_cons, hz, h, Bool.not_false, Bool.true_and, decide_true, decide_false, if_true, if_false,
            Bool.false_eq_true, List.map_cons, List.sum_cons, Nat.add_zero, Nat.zero_add]
      rw [ht]
      simpa [State.moved, hz] using hq

theorem charged_cpCost (p : Fin 64) (ps : List HPiece) (s : State) : Charged p (trafficOf ps) s (s.cpCost p ps) := by
  have hw : Bookkept s (ps.foldl (fun s q => s.walked p q.at_) s) := .foldl (fun t q => bookkept_walked t p q.at_) ps s
  simpa [State.cpCost] using (Charged.of_bookkept hw).trans (charged_moved p ps _)

/-! ## Functions that answer -/

/-- R352: which functions answer the host. -/
theorem answers_iff (s : State) (q : Fin 64) : s.answers q = true ↔ s.bootstat = 0 ∨ (q = 0 ∧ 2 < s.bootstat.toNat % 16) := by
  simp only [State.answers, State.dieUp, Bool.or_eq_true, Bool.and_eq_true, beq_iff_eq, decide_eq_true_eq, Fin.ext_iff, Fin.val_zero, Fin.val_one]
  tauto

/-- R352: where a function answers, the physical function does. -/
theorem answers_zero {s : State} {fn : Fin 64} (h : s.answers fn = true) : s.answers 0 = true := by
  rw [answers_iff] at h ⊢
  exact h.imp_right fun h => ⟨rfl, h.2⟩

/-! ## Registers -/

section Registers

variable {s : State} {fn : Fin 64}

theorem hostAccess_silent (h : ¬ s.answers 0 = true) (off n : Nat) (v : Option W64) : s.hostAccess fn off n v = s := by
  simp [State.hostAccess, h]

theorem hostAccess_unsupported (h : s.answers 0 = true) {off n : Nat} (v : Option W64)
    (hbad : ¬ s.answers fn = true ∨ n ≠ 8 ∨ off % 8 ≠ 0 ∨ 65536 ≤ off) : s.hostAccess fn off n v = s.answer (.unsupported fn.val) := by
  have hbad' : (!s.answers fn || n != 8 || off % 8 != 0 || decide (2 ^ 16 ≤ off)) = true := by
    simpa [or_assoc] using hbad
  unfold State.hostAccess
  rw [if_neg (by simp [h]), if_pos hbad']

theorem accessOk (h : s.answers fn = true) {off : Nat} (ha : off % 8 = 0) (hl : off < 65536) :
    ¬ (!s.answers fn || (8 : Nat) != 8 || off % 8 != 0 || decide (2 ^ 16 ≤ off)) = true := by
  simp [h, ha]; omega

theorem hostAccess_read (h : s.answers fn = true) {off : Nat} (ha : off % 8 = 0) (hl : off < 65536) :
    s.hostAccess fn off 8 none = s.answer (.data fn.val (leBytes 8 (s.readReg fn off).toNat) false) := by
  unfold State.hostAccess
  rw [if_neg (by simp [answers_zero h]), if_neg (accessOk h ha hl)]

theorem hostAccess_write (h : s.answers fn = true) {off : Nat} (ha : off % 8 = 0) (hl : off < 65536) (v : W64) :
    s.hostAccess fn off 8 (some v) = s.writeReg fn off v := by
  unfold State.hostAccess
  rw [if_neg (by simp [answers_zero h]), if_neg (accessOk h ha hl)]

/-- R11, R358: the registers that every function has. -/
theorem readReg_fixed (s : State) (fn : Fin 64) : ∀ r ∈ [(0, if fn = 0 then s.bootstat else 0), (8, BitVec.ofNat 64 (s.tick / 4 * 5 / 2)),
    (0x10, BitVec.ofNat 64 fn.val), (0x18, BitVec.ofNat 64 s.funcs[fn].intakeBase), (0x20, BitVec.ofNat 64 s.funcs[fn].intakeSize),
    (0x28, s.funcs[fn].intakeAcc.setWidth 64), (0x30, BitVec.ofNat 64 s.funcs[fn].evBase), (0x38, BitVec.ofNat 64 s.funcs[fn].evSize),
    (0x40, s.funcs[fn].evWr.setWidth 64), (0x48, s.funcs[fn].evvec), (0x50, BitVec.ofNat 64 s.funcs[fn].winbase)],
    s.readReg fn r.1 = r.2 := by
  simp [State.readReg, dtime]

/-- R319: the power block is the physical function's alone. -/
theorem readReg_powerBlock (s : State) (fn : Fin 64) {o : Nat} (ho : o < 0x800) :
    s.readReg fn (0x1000 + o) = if fn = 0 then s.powerReg o else 0 := by
  have hb : (decide (0x1000 ≤ 0x1000 + o) && decide (0x1000 + o < 0x1800) && fn.val == 0) = decide (fn = 0) := by
    have hlt : 0x1000 + o < 0x1800 := by omega
    simp [hlt, ← Fin.val_eq_zero_iff, Bool.beq_eq_decide_eq]
  simp only [State.readReg, hb]
  iterate 11 rw [if_neg (by omega)]
  simp

theorem powerReg_energy (s : State) (p : Fin 64) : s.powerReg (0x100 + 8 * p.val) = BitVec.ofNat 64 s.parts[p].energy := by
  have hp := p.isLt
  have hi : (0x100 + 8 * p.val - 0x100) / 8 % 64 = p.val := by omega
  unfold State.powerReg
  iterate 5 rw [if_neg (by omega)]
  rw [if_pos (by simp; omega)]
  simp only [hi]
  rfl

theorem powerReg_pstall (s : State) (p : Fin 64) : s.powerReg (0x400 + 8 * p.val) = BitVec.ofNat 64 s.parts[p].pstall := by
  have hp := p.isLt
  have hi : (0x400 + 8 * p.val - 0x400) / 8 % 64 = p.val := by omega
  unfold State.powerReg
  iterate 5 rw [if_neg (by omega)]
  rw [if_neg (by simp; omega), if_pos (by simp; omega)]
  simp only [hi]
  rfl

theorem powerReg_unnamed (s : State) {o : Nat} (h0 : o ∉ [0, 8, 0x10, 0x18, 0x300]) (h1 : ¬ (0x100 ≤ o ∧ o < 0x300)) (h4 : ¬ (0x400 ≤ o ∧ o < 0x600)) :
    s.powerReg o = 0 := by
  simp only [List.mem_cons, List.not_mem_nil, or_false, not_or] at h0
  obtain ⟨h0, h8, h10, h18, h300⟩ := h0
  simp only [State.powerReg, h0, h8, h10, h18, h300, if_false]
  simp [h1, h4]

/-- R319: the power registers that stand alone, of which only the physical function has the values. -/
theorem readReg_power (s : State) (fn : Fin 64) : ∀ r ∈ [(0x1000, BitVec.ofNat 64 (s.target % 2 ^ 32)), (0x1008, BitVec.ofNat 64 (s.power.pmeas % 2 ^ 32)),
    (0x1010, BitVec.ofNat 64 (s.curveNow.elim 0 Curve.seq)), (0x1018, BitVec.ofNat 64 s.power.hot), (0x1300, BitVec.ofNat 64 s.power.account)],
    s.readReg fn r.1 = if fn = 0 then r.2 else 0 := by
  simp only [List.forall_mem_cons]
  exact ⟨readReg_powerBlock s fn (o := 0) (by decide), readReg_powerBlock s fn (o := 8) (by decide),
    readReg_powerBlock s fn (o := 0x10) (by decide), readReg_powerBlock s fn (o := 0x18) (by decide),
    readReg_powerBlock s fn (o := 0x300) (by decide), by simp⟩

/-- R319: the power registers of each partition. -/
theorem readReg_perPartition (s : State) (fn p : Fin 64) :
    s.readReg fn (0x1100 + 8 * p.val) = (if fn = 0 then BitVec.ofNat 64 s.parts[p].energy else 0) ∧
      s.readReg fn (0x1400 + 8 * p.val) = if fn = 0 then BitVec.ofNat 64 s.parts[p].pstall else 0 := by
  rw [← powerReg_energy, ← powerReg_pstall, ← readReg_powerBlock s fn (by omega), ← readReg_powerBlock s fn (by omega), ← Nat.add_assoc, ← Nat.add_assoc]
  exact ⟨rfl, rfl⟩

/-- R358: an offset that names no register reads as zero. -/
theorem readReg_unnamed (s : State) (fn : Fin 64) {off : Nat}
    (hn : off ∉ [0, 8, 0x10, 0x18, 0x20, 0x28, 0x30, 0x38, 0x40, 0x48, 0x50, 0x1000, 0x1008, 0x1010, 0x1018, 0x1300])
    (h1 : ¬ (0x1100 ≤ off ∧ off < 0x1300)) (h4 : ¬ (0x1400 ≤ off ∧ off < 0x1600)) : s.readReg fn off = 0 := by
  by_cases hp : 0x1000 ≤ off ∧ off < 0x1800
  · obtain ⟨o, rfl⟩ := Nat.exists_eq_add_of_le hp.1
    rw [readReg_powerBlock s fn (by omega), powerReg_unnamed s (by simp at hn ⊢; omega) (by omega) (by omega), ite_self]
  · simp only [List.mem_cons, List.not_mem_nil, or_false, not_or] at hn
    have hb : ¬ (decide (0x1000 ≤ off) && decide (off < 0x1800) && fn.val == 0) = true := by
      simp; omega
    simp only [State.readReg, hn, hb, Bool.false_eq_true, if_false]

theorem partLive_iff (s : State) (p : Fin 64) : s.partLive p = true ↔ ∃ l ∈ s.launches, l.part = p := by
  simp [State.partLive]

/-- R358: a ring register takes what is written while the function's partition has no launch. -/
theorem writeReg_ring_idle (h : ∀ l ∈ s.launches, l.part ≠ fn) (v : W64) :
    s.writeReg fn 0x18 v = { s with funcs := s.funcs.set fn { s.funcs[fn] with intakeBase := v.toNat / 4096 * 4096 } } ∧
    s.writeReg fn 0x20 v = { s with funcs := s.funcs.set fn { s.funcs[fn] with intakeSize := v.toNat % 32 } } ∧
    s.writeReg fn 0x30 v = { s with funcs := s.funcs.set fn { s.funcs[fn] with evBase := v.toNat / 4096 * 4096 } } ∧
    s.writeReg fn 0x38 v = { s with funcs := s.funcs.set fn { s.funcs[fn] with evSize := v.toNat % 32 } } := by
  have hp : ¬ s.partLive fn = true := by
    rw [partLive_iff]
    exact fun ⟨l, hl, he⟩ => h l hl he
  simp [State.writeReg, hp]

theorem writeReg_ring_live (h : ∃ l ∈ s.launches, l.part = fn) {off : Nat} (hoff : off ∈ [0x18, 0x20, 0x30, 0x38]) (v : W64) :
    s.writeReg fn off v = s := by
  have hp := (partLive_iff s fn).mpr h
  simp only [List.mem_cons, List.not_mem_nil, or_false] at hoff
  rcases hoff with rfl | rfl | rfl | rfl <;> simp [State.writeReg, hp]

theorem writeReg_unnamed (s : State) (fn : Fin 64) (v : W64) {off : Nat} (h : off ∉ [0x18, 0x20, 0x30, 0x38, 0x48, 0x50, 0x1018]) :
    s.writeReg fn off v = s := by
  simp only [List.mem_cons, List.not_mem_nil, or_false, not_or] at h
  simp [State.writeReg, h]

theorem writeReg_hot (s : State) (fn : Fin 64) (v : W64) : s.writeReg fn 0x1018 v =
    if fn = 0 ∧ 70 ≤ v.toNat % 256 ∧ v.toNat % 256 ≤ 105 then { s with power := { s.power with hot := v.toNat % 256 } } else s := by
  by_cases h : fn = 0 <;> simp [State.writeReg, h]

end Registers

/-! ## Windows -/

section Windows

variable {s : State} {fn : Fin 64}

theorem inWindow_iff {off n : Nat} : s.inWindow fn off n = true ↔ off + n ≤ 2 ^ 36 ∧ s.answers fn = true := by
  simp only [State.inWindow, Bool.and_eq_true, decide_eq_true_eq]

theorem hostWindowRead_silent (h : ¬ s.answers 0 = true) (off len : Nat) : exec (.hostWindowRead fn off len) s = .next s := by
  rw [exec_hostWindowRead, execHostWindowRead, if_pos (by simp [h])]

theorem hostWindowWrite_silent (h : ¬ s.answers 0 = true) (off : Nat) (bs : List Byte) : exec (.hostWindowWrite fn off bs) s = .next s := by
  rw [exec_hostWindowWrite, execHostWindowWrite, if_pos (by simp [h])]

theorem hostWindowRead_unsupported (h : s.answers 0 = true) {off len : Nat} (hbad : 2 ^ 36 < off + len ∨ ¬ s.answers fn = true) :
    exec (.hostWindowRead fn off len) s = .next (s.answer (.unsupported fn.val)) := by
  have hw : ¬ s.inWindow fn off len = true := by
    rw [inWindow_iff, not_and_or, Nat.not_le]
    exact hbad
  rw [exec_hostWindowRead, execHostWindowRead, if_neg (by simp [h]), if_pos (by simp [hw])]

theorem hostWindowWrite_unsupported (h : s.answers 0 = true) {off : Nat} {bs : List Byte}
    (hbad : 2 ^ 36 < off + bs.length ∨ ¬ s.answers fn = true) :
    exec (.hostWindowWrite fn off bs) s = .next (s.answer (.unsupported fn.val)) := by
  have hw : ¬ s.inWindow fn off bs.length = true := by
    rw [inWindow_iff, not_and_or, Nat.not_le]
    exact hbad
  rw [exec_hostWindowWrite, execHostWindowWrite, if_neg (by simp [h]), if_pos (by simp [hw])]

variable {off : Nat}

/-- The run of an access of `n` bytes at offset `off` of a function's window (R359). -/
def windowRun (s : State) (fn : Fin 64) (w : Bool) (off n : Nat) : State × Except PortStop (List HPiece) :=
  s.portRun fn w (n / 65536 + 2) (s.funcs[fn].winbase + off) n

/-- R359: what a window read leaves, by how its run ends. -/
theorem hostWindowRead_eq (h : s.answers fn = true) {len : Nat} (hw : off + len ≤ 2 ^ 36) :
    exec (.hostWindowRead fn off len) s =
      let r := windowRun s fn false off len
      match r.2 with
      | .error (.fault a) => .next ((r.1.notice fn 6 a 0).answer (.abort fn.val))
      | .error (.noStorage a) => .fault (.noStorage a)
      | .ok ps => .next ((r.1.moved fn ps).answer (.data fn.val (r.1.mem.gather ps).1 (!(r.1.mem.gather ps).2.isEmpty))) := by
  rw [exec_hostWindowRead, execHostWindowRead, if_neg (by simp [answers_zero h]),
    if_neg (by simp only [inWindow_iff.mpr ⟨hw, h⟩, Bool.not_true, Bool.false_eq_true, not_false_iff])]
  unfold windowRun
  obtain ⟨t, e⟩ := s.portRun fn false (len / 65536 + 2) (s.funcs[fn].winbase + off) len
  rcases e with (_ | _) | _ <;> rfl

/-- R359: what a window write leaves, by how its run ends. -/
theorem hostWindowWrite_eq (h : s.answers fn = true) {bs : List Byte} (hw : off + bs.length ≤ 2 ^ 36) :
    exec (.hostWindowWrite fn off bs) s =
      let r := windowRun s fn true off bs.length
      match r.2 with
      | .error (.fault a) => .next (r.1.notice fn 6 a 0)
      | .error (.noStorage a) => .fault (.noStorage a)
      | .ok ps => .next ((r.1.moved fn ps).commitAll (hWrites ps bs [])) := by
  rw [exec_hostWindowWrite, execHostWindowWrite, if_neg (by simp [answers_zero h]),
    if_neg (by simp only [inWindow_iff.mpr ⟨hw, h⟩, Bool.not_true, Bool.false_eq_true, not_false_iff])]
  unfold windowRun
  obtain ⟨t, e⟩ := s.portRun fn true (bs.length / 65536 + 2) (s.funcs[fn].winbase + off) bs.length
  rcases e with (_ | _) | _ <;> rfl

end Windows

/-! ## Cancelled graphs -/

theorem graph?_gid {s : State} {k : Nat} {g : Graph} (h : s.graph? k = some g) : g.gid = k := by
  simpa using List.find?_some h

theorem graph?_setGraph (s : State) (g : Graph) (k : Nat) :
    (s.setGraph g).graph? k = (s.graph? k).map fun x => if x.gid == g.gid then g else x := by
  have hgid : ((fun x : Graph => x.gid == k) ∘ fun x => if x.gid == g.gid then g else x) = fun x => x.gid == k := by
    funext x
    by_cases hx : x.gid = g.gid <;> simp [hx]
  rw [State.graph?, State.setGraph, List.find?_map, hgid]
  rfl

theorem graph?_setGraph_ne {k : Nat} (s : State) {g : Graph} (h : k ≠ g.gid) : (s.setGraph g).graph? k = s.graph? k := by
  rw [graph?_setGraph]
  cases hx : s.graph? k with
  | none => rfl
  | some x => simp [graph?_gid hx, h]

/-- What cancelling the graph `gid` of partition `p` may change outside memory: the events of the partition's function, the graph, and launches,
none of which comes back to life. -/
structure Cancels (p : Fin 64) (gid : Nat) (s t : State) : Prop where
  funcs : ∀ o, o ≠ p → t.funcs[o] = s.funcs[o]
  regs : t.funcs[p].evvec = s.funcs[p].evvec ∧ t.funcs[p].winbase = s.funcs[p].winbase
  others : ∀ k, k ≠ gid → t.graph? k = s.graph? k
  part : ∀ g, t.graph? gid = some g → ∃ g0, s.graph? gid = some g0 ∧ g0.part = g.part
  launches : NoneRevived s t

/-- The graph `gid` is the partition's, where there is one. -/
def GraphOf (p : Fin 64) (gid : Nat) (s : State) : Prop := ∀ g, s.graph? gid = some g → g.part = p

namespace Cancels

variable {p : Fin 64} {gid : Nat} {s t u : State}

theorem of_same (hf : t.funcs = s.funcs) (hg : t.graphs = s.graphs) (hl : NoneRevived s t) : Cancels p gid s t where
  funcs o _ := by rw [hf]
  regs := by rw [hf]; exact ⟨rfl, rfl⟩
  others k _ := by rw [State.graph?, State.graph?, hg]
  part g h := ⟨g, by rwa [State.graph?, ← hg], rfl⟩
  launches := hl

theorem refl (s : State) : Cancels p gid s s := of_same rfl rfl (.of_eq rfl)

theorem trans (h : Cancels p gid s t) (h' : Cancels p gid t u) : Cancels p gid s u where
  funcs o ho := (h'.funcs o ho).trans (h.funcs o ho)
  regs := ⟨h'.regs.1.trans h.regs.1, h'.regs.2.trans h.regs.2⟩
  others k hk := (h'.others k hk).trans (h.others k hk)
  part g hg := by
    obtain ⟨g1, h1, e1⟩ := h'.part g hg
    obtain ⟨g0, h0, e0⟩ := h.part g1 h1
    exact ⟨g0, h0, e0.trans e1⟩
  launches := h.launches.trans h'.launches

theorem graphOf (h : Cancels p gid s t) (hs : GraphOf p gid s) : GraphOf p gid t := by
  intro g hg
  obtain ⟨g0, h0, e0⟩ := h.part g hg
  exact e0 ▸ hs g0 h0

theorem foldl {α : Type} {f : State → α → State} (hf : ∀ s x, GraphOf p gid s → Cancels p gid s (f s x)) :
    ∀ (l : List α) (s : State), GraphOf p gid s → Cancels p gid s (l.foldl f s)
  | [], s, _ => refl s
  | x :: l, s, hs => (hf s x hs).trans (foldl hf l (f s x) ((hf s x hs).graphOf hs))

end Cancels

section Cancel

variable {p : Fin 64} {gid : Nat} {s : State}

theorem cancels_setGraph {g g' : Graph} (hg : s.graph? gid = some g) (hid : g'.gid = g.gid) (hp : g'.part = g.part) :
    Cancels p gid s (s.setGraph g') where
  funcs _ _ := rfl
  regs := ⟨rfl, rfl⟩
  others k hk := graph?_setGraph_ne s (by rw [hid, graph?_gid hg]; exact hk)
  part x hx := by
    rw [graph?_setGraph, hg, Option.map_some, hid, beq_self_eq_true, if_pos rfl] at hx
    cases hx
    exact ⟨g, hg, hp.symm⟩
  launches := .of_eq rfl

theorem cancels_logEvent (s : State) (kind : Nat) (args : List Byte) : Cancels p gid s (s.logEvent p kind args) where
  funcs o ho := by
    have : (p : Nat) ≠ o := fun h => ho (Fin.ext h.symm)
    simp [State.logEvent, Vector.getElem_set_ne, this]
  regs := by simp [State.logEvent]
  others _ _ := rfl
  part g h := ⟨g, h, rfl⟩
  launches := .of_eq rfl

theorem commitAll_kept (ws : List MWrite) (s : State) :
    (s.commitAll ws).funcs = s.funcs ∧ (s.commitAll ws).graphs = s.graphs ∧ (s.commitAll ws).launches = s.launches ∧
      (s.commitAll ws).hostOut = s.hostOut ∧ (s.commitAll ws).parts = s.parts := by
  unfold State.commitAll
  induction ws generalizing s with
  | nil => exact ⟨rfl, rfl, rfl, rfl, rfl⟩
  | cons w ws ih => exact ih (s.commit w)

theorem cancels_cpWrite {t : State} {q : Fin 64} {a : Nat} {bs : List Byte} (h : s.cpWrite q a bs = some t) : Cancels p gid s t := by
  unfold State.cpWrite at h
  obtain ⟨ps, -, rfl⟩ := Option.map_eq_some_iff.mp h
  have hc := charged_cpCost q ps s
  obtain ⟨hf, hg, hl, -, -⟩ := commitAll_kept (hWrites ps bs []) (s.cpCost q ps)
  exact .of_same (hf.trans hc.funcs) (hg.trans hc.graphs) (hc.launches.trans (.of_eq hl))

theorem cancels_writeNode (s : State) (arr i status deadline launch : Nat) : Cancels p gid s (s.writeNode p arr i status deadline launch) := by
  unfold State.writeNode
  refine Cancels.trans ?_ (cancels_logEvent _ _ _)
  cases h : s.cpWrite p (arr + 64 * i + 24) [BitVec.ofNat 8 status] with
  | none => exact .refl s
  | some t => exact cancels_cpWrite h

theorem cancels_meetAll (s : State) (succ : List Nat) : Cancels p gid s (s.meetAll gid succ) := by
  unfold State.meetAll
  split
  · exact .refl s
  · rename_i g hg
    exact (cancels_setGraph (g' := { g with nodes := succ.foldl (fun ns j => ns.modify j fun m => m.met1 s.nextOrder) g.nodes }) hg rfl rfl).trans
      (.of_same rfl rfl (.of_eq rfl))

theorem cancels_completeAll : ∀ (fuel : Nat) (l : List (Nat × Nat × Nat)) (s : State), GraphOf p gid s →
    Cancels p gid s (s.completeAll gid fuel l) := by
  intro fuel
  induction fuel with
  | zero => exact fun l s _ => by rw [State.completeAll]; exact .refl s
  | succ fuel ih =>
    intro l s hs
    obtain _ | ⟨⟨i, status, launch⟩, rest⟩ := l
    · exact .refl s
    rw [State.completeAll]
    split
    · exact .refl s
    · rename_i g hg
      split
      · exact ih rest s hs
      · rename_i n hn
        have hset (n' : Node) : Cancels p gid s (s.setGraph (g.setNode i n')) := cancels_setGraph hg rfl rfl
        have hwrote (n' : Node) : Cancels p gid s ((s.setGraph (g.setNode i n')).writeNode g.part g.addr i status n.deadline launch) :=
          (hset n').trans (hs g hg ▸ cancels_writeNode _ _ _ _ _ _)
        extract_lets gone s1
        split
        · exact ih rest s hs
        · split
          · exact (hset _).trans (ih rest _ ((hset _).graphOf hs))
          · split
            · have hmet := (hwrote { n with st := .ended, loaded := none }).trans (cancels_meetAll _ n.succ)
              exact hmet.trans (ih rest _ (hmet.graphOf hs))
            · exact (hwrote _).trans (ih _ _ ((hwrote _).graphOf hs))

theorem cancels_setPart (s : State) (q : Fin 64) (x : Partition) : Cancels p gid s (s.setPart q x) := .of_same rfl rfl (.of_eq rfl)

theorem cancels_dropGraph (s : State) : Cancels p gid s { s with graphs := s.graphs.filter fun x => x.gid != gid } where
  funcs _ _ := rfl
  regs := ⟨rfl, rfl⟩
  others k hk := by
    have hgid : (fun x : Graph => decide ((x.gid != gid) = true ∧ (x.gid == k) = true)) = fun x => x.gid == k := by
      funext x
      by_cases hx : x.gid = k <;> simp [hx, hk]
    rw [State.graph?, List.find?_filter, hgid]
    rfl
  part g hg := by
    have hmem := (List.mem_filter.mp (List.mem_of_find?_eq_some hg)).2
    rw [graph?_gid hg] at hmem
    simp at hmem
  launches := .of_eq rfl

theorem cancels_completeNode (s : State) (hs : GraphOf p gid s) (i status launch : Nat) :
    Cancels p gid s (s.completeNode gid i status launch) := by
  unfold State.completeNode
  have hall := cancels_completeAll (((s.graph? gid).elim 0 fun g => g.nodes.length + (g.nodes.map fun n => n.succ.length).sum) + 1)
    [(i, status, launch)] s hs
  simp only
  split
  · split
    · exact hall.trans (cancels_dropGraph _)
    · exact hall
  · exact hall

theorem noneRevived_shed (s : State) (id status : Nat) : NoneRevived s (s.shed id status) := by
  refine .of_map (f := fun l => if l.id == id && l.ending == .live then { l with ending := .ending status } else l) rfl (fun l => ?_) (fun l h => ?_)
  · split <;> rfl
  · split
    · simp
    · exact h

theorem cancels_shed (s : State) (id status : Nat) : Cancels p gid s (s.shed id status) :=
  .of_same rfl rfl (noneRevived_shed s id status)

/-- No launch of this identifier is live. -/
def Over (id : Nat) (s : State) : Prop := ∀ l ∈ s.launches, l.id = id → l.ending ≠ .live

theorem NoneRevived.over {s t : State} {id : Nat} (h : NoneRevived s t) (hs : Over id s) : Over id t := by
  intro m hm hid
  obtain ⟨l, hl, e, hend⟩ := h m hm
  exact hend (hs l hl (e.trans hid))

theorem over_shed (s : State) (id status : Nat) : Over id (s.shed id status) := by
  intro m hm hid
  obtain ⟨l, -, rfl⟩ := List.mem_map.mp (show m ∈ s.launches.map _ from hm)
  by_cases h : (l.id == id && l.ending == .live) = true
  · simp [h]
  · rw [if_neg h] at hid ⊢
    simpa [hid] using h

/-- A fold in which the step at `x` attains `P`, which every step keeps; the steps before it keep `Q`, on which it rests. -/
theorem foldl_attains {σ α : Type} {f : σ → α → σ} {P Q : σ → Prop} {x : α} (hx : ∀ s, Q s → P (f s x)) (hP : ∀ s y, P s → P (f s y)) :
    ∀ (l : List α) (s : σ), x ∈ l → (∀ s, ∀ y ∈ l, y ≠ x → Q s → Q (f s y)) → Q s → P (l.foldl f s) := by
  have keeps : ∀ (l : List α) (s : σ), P s → P (l.foldl f s) := by
    intro l
    induction l with
    | nil => exact fun _ h => h
    | cons y l ih => exact fun s h => ih _ (hP s y h)
  intro l
  induction l with
  | nil => exact fun _ h => absurd h (by simp)
  | cons y l ih =>
    intro s hm hQ hs
    by_cases hy : y = x
    · exact keeps l _ (hy ▸ hx s hs)
    · exact ih _ ((List.mem_cons.mp hm).resolve_left (Ne.symm hy)) (fun s z hz => hQ s z (List.mem_cons_of_mem _ hz)) (hQ s y (by simp) hy hs)

/-- R361: cancelling a graph first sheds the launches of its nodes, and then completes the others. -/
theorem cancelGraph_sheds {g : Graph} (hg : s.graph? gid = some g) : ∃ t, (∀ n ∈ g.nodes, ∀ id, n.st = .launched id → Over id t) ∧
    Cancels g.part gid s t ∧ Cancels g.part gid t (s.cancelGraph gid) := by
  have hs : GraphOf g.part gid s := fun g' h => by rw [hg] at h; cases h; rfl
  have hshed : ∀ l : List Node, Cancels g.part gid s (l.foldl (fun s n => match n.st with | .launched id => s.shed id 3 | _ => s) s) := by
    refine fun l => .foldl (fun t n _ => ?_) l s hs
    split
    · exact cancels_shed t _ 3
    · exact .refl t
  unfold State.cancelGraph
  simp only [hg]
  refine ⟨_, fun n hn id hid => ?_, hshed g.nodes, Cancels.foldl (fun t n ht => ?_) _ _ ((hshed g.nodes).graphOf hs)⟩
  · refine foldl_attains (x := n) (Q := fun _ => True) (fun t _ => ?_) (fun t y ht => ?_) g.nodes s hn (fun _ _ _ _ _ => trivial) trivial
    · simp only [hid]
      exact over_shed t id 3
    · split
      · exact (noneRevived_shed t _ 3).over ht
      · exact ht
  · split
    · exact .refl t
    · exact .refl t
    · exact .refl t
    · have hpart := cancels_setPart (p := g.part) (gid := gid) t g.part
      exact (hpart _).trans (cancels_completeNode _ ((hpart _).graphOf ht) _ 4 0)

theorem cancels_cancelGraph (hs : GraphOf p gid s) : Cancels p gid s (s.cancelGraph gid) := by
  cases hg : s.graph? gid with
  | none => rw [State.cancelGraph, hg]; exact .refl s
  | some g =>
    obtain ⟨t, -, h, h'⟩ := cancelGraph_sheds hg
    exact hs g hg ▸ h.trans h'

/-- Whichever partition a graph has, cancelling it revives no launch and leaves the other graphs. -/
theorem cancelGraph_others (s : State) (gid : Nat) : NoneRevived s (s.cancelGraph gid) ∧ ∀ k, k ≠ gid → (s.cancelGraph gid).graph? k = s.graph? k := by
  cases hg : s.graph? gid with
  | none => rw [State.cancelGraph, hg]; exact ⟨.of_eq rfl, fun _ _ => rfl⟩
  | some g =>
    have h := cancels_cancelGraph (p := g.part) (gid := gid) (s := s) (fun g' h => by rw [hg] at h; cases h; rfl)
    exact ⟨h.launches, h.others⟩

/-- All graphs of a list cancelled. -/
def cancelAll (s : State) (l : List Graph) : State := l.foldl (fun s g => s.cancelGraph g.gid) s

theorem cancelAll_funcs : ∀ (l : List Graph) (s : State), (∀ g ∈ l, GraphOf p g.gid s) →
    (∀ o, o ≠ p → (cancelAll s l).funcs[o] = s.funcs[o]) ∧ (cancelAll s l).funcs[p].evvec = s.funcs[p].evvec ∧
      (cancelAll s l).funcs[p].winbase = s.funcs[p].winbase := by
  intro l
  induction l with
  | nil => exact fun s _ => ⟨fun _ _ => rfl, rfl, rfl⟩
  | cons g l ih =>
    intro s hs
    have hg := cancels_cancelGraph (hs g (by simp))
    have hl : ∀ x ∈ l, GraphOf p x.gid (s.cancelGraph g.gid) := by
      intro x hx
      by_cases he : x.gid = g.gid
      · exact he ▸ hg.graphOf (hs g (by simp))
      · exact fun y hy => hs x (List.mem_cons_of_mem _ hx) y (hg.others _ he ▸ hy)
    obtain ⟨hf, hev, hwin⟩ := ih _ hl
    exact ⟨fun o ho => (hf o ho).trans (hg.funcs o ho), hev.trans hg.regs.1, hwin.trans hg.regs.2⟩

theorem graph?_of_mem {g : Graph} (huniq : ∀ a ∈ s.graphs, ∀ b ∈ s.graphs, a.gid = b.gid → a = b) (hg : g ∈ s.graphs) :
    s.graph? g.gid = some g := by
  cases h : s.graph? g.gid with
  | none => exact absurd (List.find?_eq_none.mp h g hg) (by simp)
  | some x => rw [huniq x (List.mem_of_find?_eq_some h) g hg (graph?_gid h)]

/-- R361: the launches of the nodes of every cancelled graph are over. -/
theorem over_cancelAll {l : List Graph} {g : Graph} {n : Node} {id : Nat} (huniq : ∀ a ∈ s.graphs, ∀ b ∈ s.graphs, a.gid = b.gid → a = b)
    (hl : ∀ x ∈ l, x ∈ s.graphs) (hg : g ∈ l) (hn : n ∈ g.nodes) (hid : n.st = .launched id) : Over id (cancelAll s l) := by
  refine foldl_attains (x := g) (P := Over id) (Q := fun t => t.graph? g.gid = some g) (fun t ht => ?_) (fun t y ht => ?_) l s hg
    (fun t y hy hne ht => ?_) (graph?_of_mem huniq (hl g hg))
  · obtain ⟨u, hu, -, h⟩ := cancelGraph_sheds ht
    exact h.launches.over (hu n hn id hid)
  · exact (cancelGraph_others t y.gid).1.over ht
  · rw [(cancelGraph_others t y.gid).2 _ (fun e => hne (huniq y (hl y hy) g (hl g hg) e.symm)), ht]

end Cancel

/-! ## FLR and ATS invalidation -/

theorem flr_physical (s : State) {fn : Fin 64} (h : fn = 0) : exec (.flr fn) s = .next s := by
  have hv : fn.val = 0 := congrArg Fin.val h
  rw [exec_flr, execFlr, if_pos hv]

/-- R364: FLR of a virtual function. -/
theorem flr_virtual (s : State) {fn : Fin 64} (hfn : fn ≠ 0) (huniq : ∀ a ∈ s.graphs, ∀ b ∈ s.graphs, a.gid = b.gid → a = b) :
    ∃ u : State, exec (.flr fn) s = .next u ∧
      (let g := u.funcs[fn]; g.intakeBase = 0 ∧ g.intakeSize = 0 ∧ g.intakeAcc = 0 ∧ g.evBase = 0 ∧ g.evSize = 0 ∧ g.evWr = 0 ∧
        g.evvec = s.funcs[fn].evvec ∧ g.winbase = s.funcs[fn].winbase) ∧
      (∀ o : Fin 64, o ≠ fn → u.funcs[o] = s.funcs[o]) ∧
      ∀ g ∈ s.graphs, g.part = fn → ∀ n ∈ g.nodes, ∀ id, n.st = .launched id → ∀ l ∈ u.launches, l.id = id → l.ending ≠ .live := by
  have hmem : ∀ g ∈ s.graphs.filter fun g => g.part == fn, g ∈ s.graphs ∧ g.part = fn := fun g hg => by simpa using hg
  obtain ⟨hf, hev, hwin⟩ := cancelAll_funcs (p := fn) (s.graphs.filter fun g => g.part == fn) s (fun g hg x hx => by
    rw [graph?_of_mem huniq (hmem g hg).1] at hx
    cases hx
    exact (hmem g hg).2)
  rw [exec_flr, execFlr, if_neg (fun h : fn.val = 0 => hfn (Fin.ext h))]
  refine ⟨_, rfl, ?_, fun o ho => ?_, fun g hg hp n hn id hid => ?_⟩
  · simp only [Fin.getElem_fin, Vector.getElem_set_self]
    exact ⟨trivial, trivial, trivial, trivial, trivial, trivial, hev, hwin⟩
  · have hne : (fn : Nat) ≠ o := fun h => ho (Fin.ext h.symm)
    simp only [Fin.getElem_fin, Vector.getElem_set_ne _ _ hne]
    exact hf o ho
  · exact over_cancelAll huniq (fun x hx => (hmem x hx).1) (List.mem_filter.mpr ⟨hg, by simp [hp]⟩) hn hid

/-- R347: what an ATS invalidation leaves cached. -/
theorem atsInvalidation_answers (s : State) {fn : Fin 64} (h : s.answers fn = true) (base len : Nat) :
    ∃ u : State, exec (.atsInvalidation fn base len) s = .next u ∧ u.mem = s.mem ∧ u.hostOut = s.hostOut ++ [.atsDone fn.val] ∧
      ∀ (e : Fin 25) (x : Xlat), x ∈ u.xlats[e] ↔ x ∈ s.xlats[e] ∧
        ¬ (x.part = fn ∧ leafTier x.leaf = 2 ∧ leafAddr x.leaf < base + len ∧ base < leafAddr x.leaf + (if x.big then 2 ^ 21 else 2 ^ 16)) := by
  rw [exec_atsInvalidation, execAtsInvalidation, if_neg (by simp [h])]
  refine ⟨_, rfl, rfl, rfl, fun e x => ?_⟩
  simp only [State.answer, Fin.getElem_fin, Vector.getElem_map, List.mem_filter, Bool.not_eq_true', Bool.and_eq_false_iff, beq_eq_false_iff_ne,
    decide_eq_false_iff_not]
  tauto

/-! ## What the host port does, clause by clause -/

section Clauses

variable {s : State} {fn : Fin 64}

/-- R11, R319, R358: every register read. -/
theorem hostAccess_reads (h : s.answers fn = true) {off : Nat} (ha : off % 8 = 0) (hl : off < 65536) {v : W64} (hv : s.readReg fn off = v) :
    s.hostAccess fn off 8 none = s.answer (.data fn.val (leBytes 8 v.toNat) false) := by
  rw [hostAccess_read h ha hl, hv]

theorem hostRegisterWrite_eq (h : s.answers fn = true) {off : Nat} (ha : off % 8 = 0) (hl : off < 65536) (v : W64) :
    exec (.hostRegisterWrite fn off v) s = .next (s.writeReg fn off v) := by
  rw [exec_hostRegisterWrite, execHostRegisterWrite, hostAccess_write h ha hl]

theorem logEvent_events (s : State) (p : Fin 64) (kind : Nat) (args : List Byte) : (s.logEvent p kind args).funcs[p].events = s.funcs[p].events ++
    [{ kind := kind, body := leBytes 8 (dtime s.tick) ++ args ++ List.replicate (48 - args.length) 0 }] := by
  simp [State.logEvent]

/-- R362: an access that faults is logged as a NOTICE with its address. -/
theorem notice_events (s : State) (fn : Fin 64) (code a b : Nat) : ∃ e, (s.notice fn code a b).funcs[fn].events = s.funcs[fn].events ++ [e] ∧
    e.kind = 6 ∧ (e.body.drop 8).take 16 = leBytes 8 code ++ leBytes 8 a := by
  refine ⟨_, logEvent_events s fn 6 _, rfl, ?_⟩
  simp only [List.append_assoc]
  rw [List.drop_left' (leBytes_length 8 _), ← List.append_assoc]
  exact List.take_left' (by simp)

theorem bookkept_windowRun (s : State) (fn : Fin 64) (w : Bool) (off n : Nat) : Bookkept s (windowRun s fn w off n).1 :=
  bookkept_portRun fn w _ s _ n

variable {off : Nat}

theorem windowRun_aperture {w : Bool} {n : Nat} (hn : 0 < n) (ha : (s.funcs[fn].winbase + off) / 2 ^ 31 % 2 ^ 17 = 2 ^ 17 - 1) :
    (windowRun s fn w off n).2 = .error (.fault (s.funcs[fn].winbase + off)) :=
  congrArg Prod.snd (portRun_aperture s fn w (n / 65536 + 1) (Nat.ne_of_gt hn) (beq_iff_eq.mpr ha))

theorem hostWindowRead_fault (h : s.answers fn = true) {len : Nat} (hw : off + len ≤ 2 ^ 36) {a : Nat}
    (hr : (windowRun s fn false off len).2 = .error (.fault a)) :
    ∃ u : State, exec (.hostWindowRead fn off len) s = .next u ∧ u.mem = s.mem ∧ u.hostOut = s.hostOut ++ [.abort fn.val] ∧
      ∃ e, u.funcs[fn].events = s.funcs[fn].events ++ [e] ∧ e.kind = 6 ∧ (e.body.drop 8).take 16 = leBytes 8 6 ++ leBytes 8 a := by
  have hb := bookkept_windowRun s fn false off len
  rw [hostWindowRead_eq h hw]
  simp only [hr]
  obtain ⟨e, he, hbody⟩ := notice_events (windowRun s fn false off len).1 fn 6 a 0
  exact ⟨_, rfl, hb.mem, congrArg (· ++ _) hb.hostOut, e, he.trans (by rw [hb.funcs]), hbody⟩

theorem hostWindowRead_noStorage (h : s.answers fn = true) {len : Nat} (hw : off + len ≤ 2 ^ 36) {a : Nat}
    (hr : (windowRun s fn false off len).2 = .error (.noStorage a)) : exec (.hostWindowRead fn off len) s = .fault (.noStorage a) := by
  rw [hostWindowRead_eq h hw]
  simp only [hr]

theorem hostWindowRead_data (h : s.answers fn = true) {len : Nat} (hw : off + len ≤ 2 ^ 36) {ps : List HPiece}
    (hr : (windowRun s fn false off len).2 = .ok ps) :
    ∃ u : State, exec (.hostWindowRead fn off len) s = .next u ∧ u.mem = s.mem ∧ u.cores = s.cores ∧
      u.hostOut = s.hostOut ++ [.data fn.val (s.mem.gather ps).1 (!(s.mem.gather ps).2.isEmpty)] ∧
      u.parts[fn].traffic = s.parts[fn].traffic + trafficOf ps := by
  have hb := bookkept_windowRun s fn false off len
  have hc := charged_moved fn ps (windowRun s fn false off len).1
  rw [hostWindowRead_eq h hw]
  simp only [hr, hb.mem]
  exact ⟨_, rfl, hc.mem.trans hb.mem, hc.cores.trans hb.cores, congrArg (· ++ _) (hc.hostOut.trans hb.hostOut), hb.parts ▸ hc.traffic⟩

theorem hostWindowWrite_fault (h : s.answers fn = true) {bs : List Byte} (hw : off + bs.length ≤ 2 ^ 36) {a : Nat}
    (hr : (windowRun s fn true off bs.length).2 = .error (.fault a)) :
    ∃ u : State, exec (.hostWindowWrite fn off bs) s = .next u ∧ u.mem = s.mem ∧ u.hostOut = s.hostOut ∧
      ∃ e, u.funcs[fn].events = s.funcs[fn].events ++ [e] ∧ e.kind = 6 ∧ (e.body.drop 8).take 16 = leBytes 8 6 ++ leBytes 8 a := by
  have hb := bookkept_windowRun s fn true off bs.length
  rw [hostWindowWrite_eq h hw]
  simp only [hr]
  obtain ⟨e, he, hbody⟩ := notice_events (windowRun s fn true off bs.length).1 fn 6 a 0
  exact ⟨_, rfl, hb.mem, hb.hostOut, e, he.trans (by rw [hb.funcs]), hbody⟩

theorem hostWindowWrite_stores (h : s.answers fn = true) {bs : List Byte} (hw : off + bs.length ≤ 2 ^ 36) {ps : List HPiece}
    (hr : (windowRun s fn true off bs.length).2 = .ok ps) :
    ∃ u : State, exec (.hostWindowWrite fn off bs) s = .next u ∧ u.hostOut = s.hostOut ∧
      u.mem = (hWrites ps bs []).foldl Mem.apply s.mem ∧ u.parts[fn].traffic = s.parts[fn].traffic + trafficOf ps := by
  have hb := bookkept_windowRun s fn true off bs.length
  have hc := charged_moved fn ps (windowRun s fn true off bs.length).1
  obtain ⟨-, -, -, hout, hparts⟩ := commitAll_kept (hWrites ps bs []) ((windowRun s fn true off bs.length).1.moved fn ps)
  rw [hostWindowWrite_eq h hw]
  simp only [hr]
  refine ⟨_, rfl, hout.trans (hc.hostOut.trans hb.hostOut), ?_, by rw [hparts, ← hb.parts]; exact hc.traffic⟩
  rw [commitAll_mem, hc.mem, hb.mem]
  rfl

end Clauses

/-- Settles O49: a register access is legal or answered as unsupported; a window access is a run of pieces, which changes nothing but bookkeeping, and
what its outcome gives; FLR cancels graph after graph, and no cancellation reaches another function or revives a launch. -/
theorem hostPortServesFunctions : Obligations.HostPortServesFunctions := by
  intro s fn f up hidden put faulted traffic tell
  have hup : ∀ q, up q ↔ s.answers q = true := fun q => (answers_iff s q).symm
  have hzero : up fn → up 0 := fun h => (hup 0).mpr (answers_zero ((hup fn).mp h))
  have hhid : hidden → ¬ s.answers fn = true := fun h => mt (hup fn).mpr h.2
  have hnext : ∀ {t u : State}, t = u → (.next t : Host.Outcome State Fault Refusal) = .next u := congrArg _
  refine ⟨fun h => ?_, fun off v => rfl, fun off n v h => ?_, fun h => ?_, fun off v h ha hl => ?_, fun off len bs => ?_, fun p w a n => ?_, fun h base len => ?_,
    fun h base len => atsInvalidation_answers s ((hup fn).mp h) base len, flr_physical s, fun h huniq => flr_virtual s h huniq⟩
  · have h0 : ¬ s.answers 0 = true := mt (hup 0).mpr h
    exact ⟨hostAccess_silent h0, fun off v => hnext (hostAccess_silent h0 off 8 (some v)), hostWindowRead_silent h0, hostWindowWrite_silent h0⟩
  · rcases h with h | ⟨h, hbad⟩
    · exact hnext (hostAccess_unsupported ((hup 0).mp h.1) v (.inl (hhid h)))
    · exact hnext (hostAccess_unsupported ((hup 0).mp (hzero h)) v (.inr hbad))
  · intro reads fixed power
    have hreads : ∀ {off v}, off % 8 = 0 → off < 65536 → s.readReg fn off = v → reads off v :=
      fun ha hl hv => hnext (hostAccess_reads ((hup fn).mp h) ha hl hv)
    have hlegal : ∀ r ∈ fixed ++ power, r.1 % 8 = 0 ∧ r.1 < 65536 := by simp [fixed, power]
    refine ⟨fun r hr => ?_, fun r hr => ?_, fun p => ?_, fun off ha hl hn h1 h4 => hreads ha hl (readReg_unnamed s fn (fun hoff => ?_) h1 h4)⟩
    · obtain ⟨ha, hl⟩ := hlegal r (List.mem_append_left _ hr)
      exact hreads ha hl (readReg_fixed s fn r hr)
    · obtain ⟨ha, hl⟩ := hlegal r (List.mem_append_right _ hr)
      exact hreads ha hl (readReg_power s fn r hr)
    · obtain ⟨henergy, hpstall⟩ := readReg_perPartition s fn p
      exact ⟨hreads (by omega) (by omega) henergy, hreads (by omega) (by omega) hpstall⟩
    · obtain ⟨r, hr, he⟩ := List.mem_map.mp (show off ∈ (fixed ++ power).map Prod.fst from hoff)
      exact hn r hr he
  · intro r
    have hr : ∀ {u}, s.writeReg fn off v = u → r = .next u := fun hu => (hostRegisterWrite_eq ((hup fn).mp h) ha hl v).trans (hnext hu)
    refine ⟨fun hidle => ?_, fun hlive hoff => hr (writeReg_ring_live hlive hoff v), ?_, ?_, ?_, fun hoff => hr (writeReg_unnamed s fn v hoff), ?_⟩
    · obtain ⟨h18, h20, h30, h38⟩ := writeReg_ring_idle hidle v
      exact ⟨fun e => hr (e ▸ h18), fun e => hr (e ▸ h20), fun e => hr (e ▸ h30), fun e => hr (e ▸ h38)⟩
    · rintro rfl; exact hr rfl
    · rintro rfl; exact hr rfl
    · rintro rfl h0
      refine (hr (writeReg_hot s fn v)).trans ?_
      by_cases hv : 70 ≤ v.toNat % 256 ∧ v.toNat % 256 ≤ 105 <;> simp [h0, hv]
    · rintro rfl h0
      exact hr ((writeReg_hot s fn v).trans (if_neg fun h => h0 h.1))
  · refine ⟨fun h0 hbad => ?_, fun h0 hbad => ?_, fun h hw hlen hap => ?_, fun hw h => ⟨fun a hr => ?_, fun a hr => ?_, fun ps hr => ?_⟩,
      fun hw h => ⟨fun a hr => ?_, fun ps hr => ?_⟩⟩
    · exact hostWindowRead_unsupported ((hup 0).mp h0) (hbad.imp_right hhid)
    · exact hostWindowWrite_unsupported ((hup 0).mp h0) (hbad.imp_right hhid)
    · have hr := windowRun_aperture (w := false) (s := s) (fn := fn) hlen hap
      obtain ⟨u, hu, hmem, hout, -⟩ := hostWindowRead_fault ((hup fn).mp h) hw hr
      exact ⟨u, hu, hmem, hout⟩
    · exact hostWindowRead_fault ((hup fn).mp h) hw hr
    · exact hostWindowRead_noStorage ((hup fn).mp h) hw hr
    · exact hostWindowRead_data ((hup fn).mp h) hw hr
    · exact hostWindowWrite_fault ((hup fn).mp h) hw hr
    · exact hostWindowWrite_stores ((hup fn).mp h) hw hr
  · refine ⟨(bookkept_portRun p w _ s a n).mem, fun ps hps => ⟨portRun_len_sum p w _ s a n ps (.inr ?_) hps, portRun_len_le p w _ s a n ps hps⟩⟩
    omega
  · rw [exec_atsInvalidation, execAtsInvalidation, if_pos (by simp [mt (hup fn).mpr h])]

end Sys2Proof.Proofs
end

section
/-! PROOF. The register ALU, the immediate forms and MOVH (R95, R96, R98, R99, R100), and the words without effect (R133, R164). -/

namespace Sys2Proof.Proofs

open Sys2Proof Sys2Proof.Machine Sys2Proof.Safety Sys2Proof.Laws

/-! ## Words without effect -/

/-- What a word leaves whose effects are a new strand and an update `s1` of the rest of the state. -/
theorem finish_moved {s s1 t : State} {st : Strand} {sl : Slot} {w : Option W32} {n : Next} {busy : Nat} (hc : s1.cur = s.cur)
    (ht : t = s1.setSt s.cur.core st) : t.finish s.cur.core sl w n busy = moved s1 sl st w n busy := by
  rw [ht, ← hc, finish_setSt]

theorem issue_update {s s1 : State} {sl : Slot} {rv flow : Bool} {regs : List (BitVec 5)} {st st' : Strand} {n : Next} {busy : Nat}
    {body : State → Fin 192 → Strand → Res} (h : issuer s sl rv flow regs = some st) (hc : s1.cur = s.cur)
    (hb : body (s.setSt s.cur.core st) s.cur.core st = .ok (s1.setSt s.cur.core st') n busy) :
    issue sl rv flow regs body s = .next (moved s1 sl st' (s.word? st sl) n busy) := by
  rw [issue_ok h hb, finish_moved hc rfl]

/-- Settles O54: neither body changes anything, but VNOP's takes a free value as every V word does. -/
theorem nopsDoNothing : Obligations.NopsDoNothing := by
  intro s r st
  refine ⟨rfl, rfl, rfl, rfl, fun h => ?_, fun h => ?_⟩
  · rw [exec_nop, execNop, issue_same h rfl]
  · rw [exec_vnop, execVnop, vWord]
    exact issue_update (s1 := { s with free := s.free + 1 }) h rfl rfl

/-! ## The values of R98 and R99 -/

section Values

variable (x y : W64)

theorem add_eq_ofNat : x + y = BitVec.ofNat 64 (x.toNat + y.toNat) := BitVec.eq_of_toNat_eq (by simp)

theorem add_eq_ofInt : x + y = BitVec.ofInt 64 (x.toInt + y.toInt) := by rw [BitVec.ofInt_add]; simp

theorem sub_eq_ofInt : x - y = BitVec.ofInt 64 (x.toNat - y.toNat) := by
  rw [Int.sub_eq_add_neg, BitVec.ofInt_add, BitVec.ofInt_neg]
  simp [BitVec.sub_eq_add_neg]

theorem mul_eq_ofNat : x * y = BitVec.ofNat 64 (x.toNat * y.toNat) := BitVec.eq_of_toNat_eq (by simp)

theorem mul_eq_ofInt : x * y = BitVec.ofInt 64 (x.toInt * y.toInt) := by rw [BitVec.ofInt_mul]; simp

theorem shiftLeft_eq_ofNat (k : Nat) : x <<< k = BitVec.ofNat 64 (x.toNat * 2 ^ k) :=
  BitVec.eq_of_toNat_eq (by simp [Nat.shiftLeft_eq])

theorem shiftRight_eq_ofNat (k : Nat) : x >>> k = BitVec.ofNat 64 (x.toNat / 2 ^ k) := by
  rw [← Nat.shiftRight_eq_div_pow, ← BitVec.toNat_ushiftRight, BitVec.ofNat_toNat, BitVec.setWidth_eq]

theorem sshiftRight_eq_ofInt (k : Nat) : x.sshiftRight k = BitVec.ofInt 64 (x.toInt / 2 ^ k) := by
  have h := Int.shiftRight_eq_div_pow x.toInt k
  push_cast at h
  rw [← h, ← BitVec.toInt_sshiftRight, BitVec.ofInt_toInt]

theorem rotateRight_eq_ofNat {k : Nat} (hk : k < 64) :
    x.rotateRight k = BitVec.ofNat 64 (x.toNat / 2 ^ k + x.toNat * 2 ^ (64 - k)) := by
  have hdisj : (x >>> k) &&& (x <<< (64 - k)) = 0#64 := by
    apply BitVec.eq_of_getLsbD_eq
    intro i hi
    simp only [BitVec.getLsbD_and, BitVec.getLsbD_ushiftRight, BitVec.getLsbD_shiftLeft, BitVec.getLsbD_zero]
    by_cases h : i < 64 - k
    · simp [h]
    · rw [BitVec.getLsbD_of_ge x (k + i) (by omega), Bool.false_and]
  calc x.rotateRight k = x >>> k ||| x <<< (64 - k) := BitVec.rotateRight_eq_rotateRightAux_of_lt hk
    _ = x >>> k + x <<< (64 - k) := (BitVec.add_eq_or_of_and_eq_zero _ _ hdisj).symm
    _ = _ := by rw [shiftRight_eq_ofNat, shiftLeft_eq_ofNat, BitVec.ofNat_add]

/-- Bits 127:64 of a signed value. -/
theorem extract_hi_eq_ofInt (p : BitVec 128) : p.extractLsb' 64 64 = BitVec.ofInt 64 (p.toInt / 2 ^ 64) := by
  have hw : (p.sshiftRight 64).setWidth 64 = p.extractLsb' 64 64 := by
    apply BitVec.eq_of_getLsbD_eq
    intro i hi
    simp [BitVec.getLsbD_sshiftRight, hi, show ¬ 128 ≤ i by omega, show 64 + i < 128 by omega]
  have hi : p.toInt >>> (64 : ℕ) = p.toInt / 2 ^ 64 := Int.shiftRight_eq_div_pow p.toInt 64
  rw [← hw, ← hi, ← BitVec.toInt_sshiftRight]
  apply BitVec.eq_of_toInt_eq
  rw [BitVec.toInt_setWidth, BitVec.toInt_ofInt, BitVec.toInt_eq_toNat_bmod, Int.bmod_bmod_of_dvd (by decide)]

theorem mulhS_eq : mulhS x y = BitVec.ofInt 64 (x.toInt * y.toInt / 2 ^ 64) := by
  have hlo := BitVec.le_toInt_mul_toInt (x := x) (y := y)
  have hhi := BitVec.toInt_mul_toInt_le (x := x) (y := y)
  have hp : (x.signExtend 128 * y.signExtend 128).toInt = x.toInt * y.toInt := by
    rw [BitVec.toInt_mul, BitVec.toInt_signExtend_of_le (by decide), BitVec.toInt_signExtend_of_le (by decide)]
    exact Int.bmod_eq_of_le (by omega) (by omega)
  rw [mulhS, extract_hi_eq_ofInt, hp]

theorem mulhU_eq : mulhU x y = BitVec.ofNat 64 (x.toNat * y.toNat / 2 ^ 64) := by
  have hlt : x.toNat * y.toNat < 2 ^ 64 * 2 ^ 64 := Nat.mul_lt_mul'' x.isLt y.isLt
  apply BitVec.eq_of_toNat_eq
  simp [mulhU, BitVec.toNat_mul, Nat.shiftRight_eq_div_pow]
  omega

theorem min_slt : (if x.slt y then x else y) = BitVec.ofInt 64 (min x.toInt y.toInt) := by
  rcases lt_or_ge x.toInt y.toInt with h | h
  · rw [if_pos (BitVec.slt_iff_toInt_lt.mpr h), min_eq_left h.le, BitVec.ofInt_toInt]
  · rw [if_neg (mt BitVec.slt_iff_toInt_lt.mp h.not_gt), min_eq_right h, BitVec.ofInt_toInt]

theorem max_slt : (if x.slt y then y else x) = BitVec.ofInt 64 (max x.toInt y.toInt) := by
  rcases lt_or_ge x.toInt y.toInt with h | h
  · rw [if_pos (BitVec.slt_iff_toInt_lt.mpr h), max_eq_right h.le, BitVec.ofInt_toInt]
  · rw [if_neg (mt BitVec.slt_iff_toInt_lt.mp h.not_gt), max_eq_left h, BitVec.ofInt_toInt]

theorem min_ult : (if x.ult y then x else y) = BitVec.ofNat 64 (min x.toNat y.toNat) := by
  rcases lt_or_ge x.toNat y.toNat with h | h
  · rw [if_pos (BitVec.ult_iff_toNat_lt.mpr h), min_eq_left h.le, BitVec.ofNat_toNat, BitVec.setWidth_eq]
  · rw [if_neg (mt BitVec.ult_iff_toNat_lt.mp h.not_gt), min_eq_right h, BitVec.ofNat_toNat, BitVec.setWidth_eq]

theorem max_ult : (if x.ult y then y else x) = BitVec.ofNat 64 (max x.toNat y.toNat) := by
  rcases lt_or_ge x.toNat y.toNat with h | h
  · rw [if_pos (BitVec.ult_iff_toNat_lt.mpr h), max_eq_right h.le, BitVec.ofNat_toNat, BitVec.setWidth_eq]
  · rw [if_neg (mt BitVec.ult_iff_toNat_lt.mp h.not_gt), max_eq_left h, BitVec.ofNat_toNat, BitVec.setWidth_eq]

theorem boolW_slt : boolW (x.slt y) = if x.toInt < y.toInt then 1 else 0 := by simp [boolW, BitVec.slt_iff_toInt_lt]
theorem boolW_ult : boolW (x.ult y) = if x.toNat < y.toNat then 1 else 0 := by simp [boolW, BitVec.ult_iff_toNat_lt]
theorem boolW_eq : boolW (x == y) = if x = y then 1 else 0 := by simp [boolW]
theorem boolW_ne : boolW (x != y) = if x ≠ y then 1 else 0 := by simp [boolW]

/-- R98: the leading zeros of a value. -/
theorem clz64_spec : ∃ n, clz64 x = BitVec.ofNat 64 n ∧ n ≤ 64 ∧ x.toNat < 2 ^ (64 - n) ∧ (n < 64 → x.getLsbD (63 - n) = true) := by
  by_cases hx : x = 0
  · subst hx
    exact ⟨64, rfl, le_rfl, by decide, by omega⟩
  · have hne : x.toNat ≠ 0 := fun h => hx (BitVec.eq_of_toNat_eq h)
    have hlog : x.toNat.log2 < 64 := (Nat.log2_lt hne).mpr x.isLt
    refine ⟨63 - x.toNat.log2, if_neg hx, by omega, ?_, fun _ => ?_⟩
    · rw [show 64 - (63 - x.toNat.log2) = x.toNat.log2 + 1 by omega]
      exact Nat.lt_log2_self
    · rw [show 63 - (63 - x.toNat.log2) = x.toNat.log2 by omega]
      exact Nat.testBit_log2 hne

theorem mod_two_pow_eq_zero {n : Nat} (h : ∀ i < n, x.getLsbD i = false) : x.toNat % 2 ^ n = 0 := by
  apply Nat.eq_of_testBit_eq
  intro i
  rw [Nat.testBit_mod_two_pow, Nat.zero_testBit]
  by_cases hi : i < n
  · rw [show x.toNat.testBit i = false from h i hi, Bool.and_false]
  · simp [hi]

/-- R98: the trailing zeros of a value. -/
theorem ctz64_spec : ∃ n, ctz64 x = BitVec.ofNat 64 n ∧ n ≤ 64 ∧ x.toNat % 2 ^ n = 0 ∧ (n < 64 → x.getLsbD n = true) := by
  unfold ctz64
  cases hf : (List.range 64).find? fun i => x.getLsbD i with
  | none =>
    have hz := List.find?_range_eq_none.mp hf
    exact ⟨64, rfl, le_rfl, mod_two_pow_eq_zero x fun i hi => by simpa using hz i hi, by omega⟩
  | some n =>
    obtain ⟨hn, hlt, hz⟩ := List.find?_range_eq_some.mp hf
    exact ⟨n, rfl, (List.mem_range.mp hlt).le, mod_two_pow_eq_zero x fun i hi => by simpa using hz i hi, fun _ => hn⟩

theorem popc64_eq : popc64 x = BitVec.ofNat 64 (Finset.univ.filter fun i : Fin 64 => x.getLsbD i.val = true).card := by
  rw [popc64, Finset.card_filter, Fin.sum_univ_eq_sum_range (fun i => if x.getLsbD i = true then 1 else 0), ← Finset.card_filter, List.countP_eq_length_filter]
  show _ = BitVec.ofNat 64 ((List.range 64).filter fun i => decide (x.getLsbD i = true)).length
  simp

/-- R84: a width that SEXT and ZEXT admit fits a register. -/
theorem extWidth_le {w : BitVec 5} (hw : w.toNat ≤ 2) : extWidth w ≤ 64 := by
  have := Nat.pow_le_pow_right (n := 2) (by decide) hw
  unfold extWidth
  omega

theorem sextBy_eq {w : BitVec 5} (hw : w.toNat ≤ 2) : sextBy w x = (x.extractLsb' 0 (8 * 2 ^ w.toNat)).signExtend 64 :=
  congrArg (BitVec.signExtend 64) (BitVec.setWidth_eq_extractLsb' (extWidth_le hw))

theorem zextBy_eq {w : BitVec 5} (hw : w.toNat ≤ 2) : zextBy w x = (x.extractLsb' 0 (8 * 2 ^ w.toNat)).zeroExtend 64 :=
  congrArg (BitVec.zeroExtend 64) (BitVec.setWidth_eq_extractLsb' (extWidth_le hw))

end Values

/-! ## Register ALU words -/

section RegisterAlu

variable {s : State} {r : Bool} {d a b : BitVec 5} {st : Strand}

/-- A word of two source registers writes the value of its function. -/
theorem alu_two (h : issuer s .s r false [d, a, b] = some st) (ho : st.owns false d = true) {i : Instr} {lat : Nat} {f : Strand → W64} {v : W64}
    (hi : exec i s = aluWord r d [a, b] lat f s) (hv : f st = v) : exec i s = .next (wroteX s .s st lat d v (st.xp a || st.xp b)) := by
  rw [hi, aluWord_ok h ho, hv]
  simp

/-- A word of one source register writes the value of its function. -/
theorem alu_one (h : issuer s .s r false [d, a] = some st) (ho : st.owns false d = true) {i : Instr} {lat : Nat} {f : Strand → W64} {v : W64}
    (hi : exec i s = aluWord r d [a] lat f s) (hv : f st = v) : exec i s = .next (wroteX s .s st lat d v (st.xp a)) := by
  rw [hi, aluWord_ok h ho, hv]
  simp

end RegisterAlu

theorem registerAluOfTwo : Claims.RegisterAluOfTwo := by
  intro s r d a b st h ho x y sh gives
  have hsh : sh < 64 := Nat.mod_lt _ (by decide)
  exact ⟨alu_two h ho (exec_add ..) (add_eq_ofNat x y), alu_two h ho (exec_sub ..) (sub_eq_ofInt x y),
    alu_two h ho (exec_mul ..) (mul_eq_ofNat x y), alu_two h ho (exec_mulh ..) (mulhS_eq x y), alu_two h ho (exec_mulhu ..) (mulhU_eq x y),
    alu_two h ho (exec_div ..) rfl, alu_two h ho (exec_divu ..) rfl, alu_two h ho (exec_rem ..) rfl, alu_two h ho (exec_remu ..) rfl,
    alu_two h ho (exec_and ..) rfl, alu_two h ho (exec_or ..) rfl, alu_two h ho (exec_xor ..) rfl, alu_two h ho (exec_andn ..) rfl,
    alu_two h ho (exec_shl ..) (shiftLeft_eq_ofNat x sh), alu_two h ho (exec_shr ..) (shiftRight_eq_ofNat x sh),
    alu_two h ho (exec_shra ..) (sshiftRight_eq_ofInt x sh), alu_two h ho (exec_ror ..) (rotateRight_eq_ofNat x hsh),
    alu_two h ho (exec_min ..) (min_slt x y), alu_two h ho (exec_max ..) (max_slt x y),
    alu_two h ho (exec_minu ..) (min_ult x y), alu_two h ho (exec_maxu ..) (max_ult x y),
    alu_two h ho (exec_slt ..) (boolW_slt x y), alu_two h ho (exec_sltu ..) (boolW_ult x y),
    alu_two h ho (exec_seq ..) (boolW_eq x y), alu_two h ho (exec_sne ..) (boolW_ne x y)⟩

theorem registerAluOfOne : Claims.RegisterAluOfOne := by
  intro s r d a st
  refine ⟨fun h ho => ?_, fun b h ho hb => ?_, fun b h ho hb => ?_⟩
  · obtain ⟨nl, hl, hl64, hlbits, hltop⟩ := clz64_spec (st.xv a)
    obtain ⟨nt, ht, ht64, htbits, httop⟩ := ctz64_spec (st.xv a)
    exact ⟨⟨nl, alu_one h ho (exec_clz ..) hl, hl64, hlbits, hltop⟩, ⟨nt, alu_one h ho (exec_ctz ..) ht, ht64, htbits, httop⟩,
      alu_one h ho (exec_popc ..) (popc64_eq _), fun w hw => ⟨alu_one h ho (exec_sext ..) (sextBy_eq _ hw), alu_one h ho (exec_zext ..) (zextBy_eq _ hw)⟩⟩
  · rw [exec_cmov, execCmov]
    apply issue_st h
    simp [ho, hb, now, ite_not]
  · rw [exec_cmov, execCmov]
    exact issue_trap h (by simp [ho, hb])

/-! ## Words of the register ALU -/

section Words

variable (r : Bool) (d a x : BitVec 5) (fn : BitVec 10)

/-- R79: the word of a register ALU function. -/
def aluCode : W32 := BitVec.ofBool r ++ 1#6 ++ d ++ a ++ x ++ fn

/-- The word of a register ALU function is decoded by its function code. -/
theorem decodeWord_aluCode : decodeWord .s (aluCode r d a x fn) = decodeSfn1 (aluCode r d a x fn) := by
  obtain ⟨-, hmajor, -⟩ := word_1_6_5_5_5_10 r 1#6 d a x fn
  show decodeS _ = _
  unfold decodeS
  rw [show fld (aluCode r d a x fn) 25 6 = 1#6 from hmajor]
  rfl

theorem fld_aluCode_fn : fld (aluCode r d a x fn) 0 10 = fn := (word_1_6_5_5_5_10 r 1#6 d a x fn).2.2.2.2.2

theorem fld_aluCode_b : fld (aluCode r d a x fn) 10 5 = x := (word_1_6_5_5_5_10 r 1#6 d a x fn).2.2.2.2.1

theorem rvBit_aluCode : rvBit (aluCode r d a x fn) = r := (word_1_6_5_5_5_10 r 1#6 d a x fn).1

theorem fld_aluCode_d : fld (aluCode r d a x fn) 20 5 = d := (word_1_6_5_5_5_10 r 1#6 d a x fn).2.2.1

theorem fld_aluCode_a : fld (aluCode r d a x fn) 15 5 = a := (word_1_6_5_5_5_10 r 1#6 d a x fn).2.2.2.1

theorem decode_aluCode_illegal (hfn : 30 < fn.toNat) : decodeWord .s (aluCode r d a x fn) = .error .illegal := by
  rw [decodeWord_aluCode]
  unfold decodeSfn1
  rw [fld_aluCode_fn]
  split
  case h_32 => rfl
  all_goals omega

/-- The second source field of CLZ, CTZ and POPC is reserved. -/
theorem decode_aluCode_oneSource : ∀ p ∈ ([(25, .clz r d a), (26, .ctz r d a), (27, .popc r d a)] : List (BitVec 10 × Instr)),
    decodeWord .s (aluCode r d a x p.1) = checked true (x == 0) p.2 := by
  simp only [List.forall_mem_cons, List.not_mem_nil, false_implies, implies_true, and_true, decodeWord_aluCode, decodeSfn1, fld_aluCode_fn,
    fld_aluCode_b, fld_aluCode_d, fld_aluCode_a, rvBit_aluCode]
  exact ⟨rfl, rfl, rfl⟩

/-- SEXT and ZEXT have the code of their width in the second source field. -/
theorem decode_aluCode_width : decodeWord .s (aluCode r d a x 28) = checked (widthOk x) true (.sext r d a x) ∧
    decodeWord .s (aluCode r d a x 29) = checked (widthOk x) true (.zext r d a x) := by
  simp only [decodeWord_aluCode, decodeSfn1, fld_aluCode_fn, fld_aluCode_b, fld_aluCode_d, fld_aluCode_a, rvBit_aluCode]
  exact ⟨rfl, rfl⟩

end Words

theorem registerAluEncodings : Claims.RegisterAluEncodings := by
  intro r d a b n word two one
  have hone := fun x => decode_aluCode_oneSource r d a x
  obtain ⟨hsext, hzext⟩ := decode_aluCode_width r d a b
  refine ⟨?_, fun x hx => ⟨hone 0 x hx, fun hb => (hone b x hx).trans ?_⟩, fun hb => ?_, fun hb => ?_, decode_aluCode_illegal r d a b n⟩
  · simp only [two, List.forall_mem_cons, List.not_mem_nil, false_implies, implies_true, and_true]
    exact ⟨RoundTrip.add r d a b .s _ rfl rfl rfl, RoundTrip.sub r d a b .s _ rfl rfl rfl, RoundTrip.mul r d a b .s _ rfl rfl rfl,
      RoundTrip.mulh r d a b .s _ rfl rfl rfl, RoundTrip.mulhu r d a b .s _ rfl rfl rfl, RoundTrip.div r d a b .s _ rfl rfl rfl,
      RoundTrip.divu r d a b .s _ rfl rfl rfl, RoundTrip.rem r d a b .s _ rfl rfl rfl, RoundTrip.remu r d a b .s _ rfl rfl rfl,
      RoundTrip.and_ r d a b .s _ rfl rfl rfl, RoundTrip.or_ r d a b .s _ rfl rfl rfl, RoundTrip.xor_ r d a b .s _ rfl rfl rfl,
      RoundTrip.andn r d a b .s _ rfl rfl rfl, RoundTrip.shl r d a b .s _ rfl rfl rfl, RoundTrip.shr r d a b .s _ rfl rfl rfl,
      RoundTrip.shra r d a b .s _ rfl rfl rfl, RoundTrip.ror r d a b .s _ rfl rfl rfl, RoundTrip.min_ r d a b .s _ rfl rfl rfl,
      RoundTrip.max_ r d a b .s _ rfl rfl rfl, RoundTrip.minu r d a b .s _ rfl rfl rfl, RoundTrip.maxu r d a b .s _ rfl rfl rfl,
      RoundTrip.slt r d a b .s _ rfl rfl rfl, RoundTrip.sltu r d a b .s _ rfl rfl rfl, RoundTrip.seq r d a b .s _ rfl rfl rfl,
      RoundTrip.sne r d a b .s _ rfl rfl rfl, RoundTrip.cmov r d a b .s _ rfl rfl rfl⟩
  · rw [checked, if_pos rfl, if_neg (by simpa using hb)]
  · have hok : widthOk b = true := decide_eq_true (Nat.lt_succ_of_le hb)
    rw [hok] at hsext hzext
    exact ⟨hsext, hzext⟩
  · have hbad : widthOk b = false := decide_eq_false (Nat.not_lt.mpr hb)
    rw [hbad] at hsext hzext
    exact ⟨hsext, hzext⟩

/-- Settles O1: the values of R98 function by function, CMOV's poisoned condition, and the words by their function code. -/
theorem registerAlu : Obligations.RegisterAlu := ⟨registerAluOfTwo, registerAluOfOne, registerAluEncodings⟩

/-! ## Immediate forms and MOVH -/

section Immediates

variable (x : W64) (i : BitVec 15)

/-- R99: an immediate has its value sign-extended. -/
theorem toInt_imm15 : (imm15 i).toInt = i.toInt := BitVec.toInt_signExtend_of_le (by decide)

theorem getLsbD_ones16 (j : Nat) : (0xFFFF#64).getLsbD j = decide (j < 16) := by
  rw [show 0xFFFF#64 = (BitVec.allOnes 16).setWidth 64 from rfl, BitVec.getLsbD_setWidth, BitVec.getLsbD_allOnes]
  simp
  omega

/-- R100: the bits of MOVH's result. -/
theorem getLsbD_movhValue (h : BitVec 2) (z : BitVec 1) (k : BitVec 16) {j : Nat} (hj : j < 64) : (movhValue h z k x).getLsbD j =
    if 16 * h.toNat ≤ j ∧ j < 16 * h.toNat + 16 then k.getLsbD (j - 16 * h.toNat) else z == 0 && x.getLsbD j := by
  have hbase : (if z = 1 then 0 else x).getLsbD j = (z == 0 && x.getLsbD j) := by
    by_cases hz : z = 1
    · simp [hz]
    · simp [show z = 0 by bv_omega]
  simp only [movhValue, BitVec.getLsbD_or, BitVec.getLsbD_and, BitVec.getLsbD_not, BitVec.getLsbD_shiftLeft, BitVec.getLsbD_setWidth,
    getLsbD_ones16, hbase]
  by_cases hlo : 16 * h.toNat ≤ j
  · by_cases hhi : j < 16 * h.toNat + 16
    · simp [hj, hlo, hhi, Nat.not_lt.mpr hlo, show j - 16 * h.toNat < 16 by omega, show j - 16 * h.toNat < 64 by omega]
    · have hk := BitVec.getLsbD_of_ge k (j - 16 * h.toNat) (by omega)
      simp [hj, hhi, Nat.not_lt.mpr hlo, hk, show ¬ j - 16 * h.toNat < 16 by omega]
  · simp [hj, hlo, Nat.lt_of_not_ge hlo]

theorem movhValue_field (h : BitVec 2) (z : BitVec 1) (k : BitVec 16) : (movhValue h z k x).extractLsb' (16 * h.toNat) 16 = k := by
  have hh := h.isLt
  apply BitVec.eq_of_getLsbD_eq
  intro j hj
  rw [BitVec.getLsbD_extractLsb', getLsbD_movhValue x h z k (by omega), if_pos (by omega)]
  simp [hj]

end Immediates

/-- Settles O2: the values of R99 as those of R98, an immediate having its sign-extended value; MOVH bit by bit. -/
theorem immediateWords : Obligations.ImmediateWords := by
  intro s r d a st
  refine ⟨fun h ho => ?_, fun k z i h ho => ?_⟩
  · exact ⟨fun i => ⟨alu_one h ho (exec_addi ..) (by rw [add_eq_ofInt, toInt_imm15]), alu_one h ho (exec_andi ..) rfl,
        alu_one h ho (exec_ori ..) rfl, alu_one h ho (exec_xori ..) rfl,
        alu_one h ho (exec_slti ..) (by rw [boolW_slt, toInt_imm15]), alu_one h ho (exec_sltiu ..) (boolW_ult _ _),
        alu_one h ho (exec_muli ..) (by rw [mul_eq_ofInt, toInt_imm15])⟩,
      fun n => ⟨alu_one h ho (exec_shli ..) (shiftLeft_eq_ofNat _ _), alu_one h ho (exec_shri ..) (shiftRight_eq_ofNat _ _),
        alu_one h ho (exec_shrai ..) (sshiftRight_eq_ofInt _ _)⟩⟩
  · refine ⟨movhValue k z i (st.xv d), ?_, movhValue_field _ _ _ _, fun j hj hout => ?_⟩
    · rw [exec_movh, execMovh]
      by_cases hz : z = 1
      · rw [if_pos hz] at h
        rw [if_pos hz, aluWord_ok h ho]
        simp [hz]
      · rw [if_neg hz] at h
        rw [if_neg hz, aluWord_ok h ho]
        simp [show z = 0 by bv_omega]
    · rw [getLsbD_movhValue _ _ _ _ hj, if_neg (by omega)]

end Sys2Proof.Proofs
end

section
/-! PROOF. Compare branches, predicate branches, jumps and links (R66, R77, R96, R101, R102, R103). -/

namespace Sys2Proof.Proofs

open Sys2Proof Sys2Proof.Machine Sys2Proof.Safety Sys2Proof.Laws

/-! ## Targets -/

/-- R52: the target of a word offset. -/
theorem target_eq (pc : W64) {n : Nat} (o : BitVec n) (hn : n ≤ 64) : pc + 4 * o.signExtend 64 = BitVec.ofInt 64 (pc.toNat + 4 * o.toInt) := by
  have ho : o.signExtend 64 = BitVec.ofInt 64 o.toInt := by
    rw [← BitVec.toInt_signExtend_of_le hn, BitVec.ofInt_toInt]
  have hpc : BitVec.ofInt 64 pc.toNat = pc := by simp
  rw [BitVec.ofInt_add, BitVec.ofInt_mul, hpc, ho]
  rfl

theorem link_eq (pc : W64) : pc + 4 = BitVec.ofNat 64 (pc.toNat + 4) := BitVec.eq_of_toNat_eq (by simp)

/-! ## Compare branches -/

section Compare

variable {s : State} {r : Bool} {a b : BitVec 5} {o : BitVec 15} {st : Strand} {i : Instr} {cond : W64 → W64 → Bool}

/-- R101: a compare branch on registers without poison goes to its target or on. -/
theorem branch_goes (h : issuer s .s r true [a, b] = some st) (ha : st.xp a = false) (hb : st.xp b = false)
    (hi : exec i s = branchWord r a b o cond s) {taken : Prop} (ht : cond (st.xv a) (st.xv b) = true ↔ taken) :
    (taken → exec i s = .next (moved s .s st (s.word? st .s) (.jump (BitVec.ofInt 64 (st.pc.s.toNat + 4 * o.toInt)) false) 1)) ∧
      (¬ taken → exec i s = .next (moved s .s st (s.word? st .s) .seq 1)) := by
  rw [hi, branchWord, ← ht, ← target_eq st.pc.s o (by decide)]
  exact ⟨fun hc => issue_same h (by simp [ha, hb, hc, brTarget]), fun hc => issue_same h (by simp [ha, hb, hc])⟩

/-- R96, R101: a compare branch on a poisoned register traps. -/
theorem branch_traps (h : issuer s .s r true [a, b] = some st) (hp : st.xp a = true ∨ st.xp b = true)
    (hi : exec i s = branchWord r a b o cond s) : exec i s = .next (trapped s .s st .poison 0) := by
  rw [hi, branchWord]
  exact issue_trap h (if_pos (by simpa using hp))

end Compare

theorem compareBranches : Claims.CompareBranches := by
  intro s r a b o st h x y goes traps
  refine ⟨fun ha hb => ?_, fun hp => ?_⟩
  · have goesOn {i : Instr} {cond : W64 → W64 → Bool} {taken : Prop} (hi : exec i s = branchWord r a b o cond s) (ht : cond x y = true ↔ taken) :
        goes i taken := branch_goes h ha hb hi ht
    exact ⟨goesOn (exec_beq ..) (by simp), goesOn (exec_bne ..) (by simp), goesOn (exec_blt ..) BitVec.slt_iff_toInt_lt,
      goesOn (exec_bge ..) (by rw [BitVec.slt_eq_decide]; simp), goesOn (exec_bltu ..) BitVec.ult_iff_toNat_lt,
      goesOn (exec_bgeu ..) (by rw [BitVec.ult]; simp)⟩
  · exact ⟨branch_traps h hp (exec_beq ..), branch_traps h hp (exec_bne ..), branch_traps h hp (exec_blt ..),
      branch_traps h hp (exec_bge ..), branch_traps h hp (exec_bltu ..), branch_traps h hp (exec_bgeu ..)⟩

/-! ## Predicate branches -/

section Predicate

variable {s : State} {r : Bool} {n : BitVec 4} {o : BitVec 15} {st : Strand}

/-- R66: an active element stands in an active row and an active column. -/
theorem activeIn_iff (v : BitVec 13) (i : Nat) :
    activeIn v i = true ↔ i / 64 ≤ (v.extractLsb' 0 4).toNat ∧ i % 64 ≤ (v.extractLsb' 4 6).toNat := by
  simp only [activeIn, shapeRows, shapeCols, Bool.and_eq_true, decide_eq_true_eq, Nat.lt_succ_iff]

theorem getLsbD_activeMask (v : BitVec 13) (i : Nat) : (activeMask v).getLsbD i = (decide (i < 1024) && activeIn v i) := by
  rw [activeMask, BitVec.getLsbD_ofFnLE]
  by_cases hi : i < 1024 <;> simp [hi]

/-- R102: some bit of an active element is set. -/
theorem any_active (v : BitVec 13) (p : BitVec 1024) :
    (p &&& activeMask v != 0) = true ↔ ∃ i, (i < 1024 ∧ activeIn v i = true) ∧ p.getLsbD i = true := by
  have hz : p &&& activeMask v = 0 ↔ ∀ i < 1024, (p.getLsbD i && activeIn v i) = false := by
    constructor
    · intro h i hi
      have hbit := congrArg (BitVec.getLsbD · i) h
      simpa only [BitVec.getLsbD_and, getLsbD_activeMask, decide_eq_true hi, Bool.true_and, BitVec.ofNat_eq_ofNat, BitVec.getLsbD_zero] using hbit
    · intro h
      apply BitVec.eq_of_getLsbD_eq
      intro i hi
      rw [BitVec.getLsbD_and, getLsbD_activeMask, decide_eq_true hi, Bool.true_and, h i hi]
      simp
  rw [bne_iff_ne, ne_eq, hz]
  push Not
  simp only [ne_eq, Bool.not_eq_false, Bool.and_eq_true]
  exact exists_congr fun i => by tauto

/-- R102: the bits of all active elements are set. -/
theorem all_active (v : BitVec 13) (p : BitVec 1024) :
    (p &&& activeMask v == activeMask v) = true ↔ ∀ i, (i < 1024 ∧ activeIn v i = true) → p.getLsbD i = true := by
  rw [beq_iff_eq]
  constructor
  · rintro h i ⟨hi, ha⟩
    simpa [hi, ha, getLsbD_activeMask] using congrArg (BitVec.getLsbD · i) h
  · intro h
    apply BitVec.eq_of_getLsbD_eq
    intro i hi
    rw [BitVec.getLsbD_and, getLsbD_activeMask, decide_eq_true hi, Bool.true_and]
    cases ha : activeIn v i with
    | false => rw [Bool.and_false]
    | true => rw [h i ⟨hi, ha⟩, Bool.and_true]

/-- R77: a predicate that no V word in flight writes reads as it stands, poison and all. -/
theorem noneWrites {cyc : Nat} (hn : ∀ w ∈ st.vpend, ∀ p ∈ w.preds, p.reg ≠ n) :
    (st.vpend.any fun w => decide (cyc < w.due) && w.preds.any fun p => p.reg == n) = false := by
  rw [List.any_eq_false]
  intro w hw hany
  obtain ⟨-, hreg⟩ := Bool.and_eq_true_iff.mp hany
  obtain ⟨p, hp, he⟩ := List.any_eq_true.mp hreg
  exact hn w hw p hp (beq_iff_eq.mp he)

theorem predMask_of_noneWrites {cyc free : Nat} (hn : ∀ w ∈ st.vpend, ∀ p ∈ w.preds, p.reg ≠ n) : st.predMask cyc free n = st.p[n.toNat] := by
  rw [Strand.predMask, noneWrites hn]; rfl

theorem foldl_eq_self {α β : Type} {f : β → α → β} {l : List α} (h : ∀ b, ∀ x ∈ l, f b x = b) (b : β) : l.foldl f b = b :=
  (List.foldl_ext f (fun b _ => b) b h).trans (List.foldl_fixed l)

theorem predTrap_of_noneWrites {cyc : Nat} (hn : ∀ w ∈ st.vpend, ∀ p ∈ w.preds, p.reg ≠ n) : st.predTrap cyc n = st.pbad[n.toNat] := by
  refine foldl_eq_self (fun b w hw => ?_) _
  split
  · exact foldl_eq_self (fun b p hp => if_neg (hn w hw p hp)) b
  · rfl

/-- R102: what a predicate branch does, of a predicate that no V word in flight writes. -/
theorem predBranch (h : issuer s .s r true [] = some st) (hn : ∀ w ∈ st.vpend, ∀ p ∈ w.preds, p.reg ≠ n) (all : Bool) :
    let m := activeMask st.vshape
    let p := st.p[n.toNat]
    let s1 := { s with free := s.free + 1 }
    let taken : Prop := (if all then p &&& m == m else p &&& m != 0) = true
    let poisoned : Prop := ∃ k ≤ (st.vshape.extractLsb' 0 4).toNat, (st.pbad[n.toNat]).getLsbD k = true
    (poisoned → predWord r n o all s = .next (trapped s .s st .poison 0)) ∧
    (¬ poisoned → taken →
      predWord r n o all s = .next (moved s1 .s st (s.word? st .s) (.jump (BitVec.ofInt 64 (st.pc.s.toNat + 4 * o.toInt)) false) 1)) ∧
    (¬ poisoned → ¬ taken → predWord r n o all s = .next (moved s1 .s st (s.word? st .s) .seq 1)) := by
  intro m p s1 taken poisoned
  have hbad : (List.range (shapeRows st.vshape)).any (st.pbad[n.toNat]).getLsbD = true ↔ poisoned := by
    simp only [poisoned, List.any_eq_true, List.mem_range, shapeRows, Nat.lt_succ_iff]
  rw [predWord, ← target_eq st.pc.s o (by decide)]
  refine ⟨fun hp => issue_trap h ?_, fun hp ht => issue_update (s1 := s1) h rfl ?_, fun hp ht => issue_update (s1 := s1) h rfl ?_⟩
  · exact if_pos (by rw [predTrap_of_noneWrites hn]; exact hbad.mpr hp)
  · exact (if_neg (by rw [predTrap_of_noneWrites hn]; exact mt hbad.mp hp)).trans (if_pos (by rw [predMask_of_noneWrites hn]; exact ht))
  · exact (if_neg (by rw [predTrap_of_noneWrites hn]; exact mt hbad.mp hp)).trans (if_neg (by rw [predMask_of_noneWrites hn]; exact ht))

end Predicate

theorem predicateBranches : Claims.PredicateBranches := by
  intro s r n o st h hn bit act s1 goes
  have hact : ∀ i, act i ↔ i < 1024 ∧ activeIn st.vshape i = true := fun i => and_congr_right fun _ => (activeIn_iff _ i).symm
  have hany : (∃ i, act i ∧ bit i = true) ↔ (st.p[n.toNat] &&& activeMask st.vshape != 0) = true := by
    simp only [hact, any_active, bit]
  have hall : (∀ i, act i → bit i = true) ↔ (st.p[n.toNat] &&& activeMask st.vshape == activeMask st.vshape) = true := by
    simp only [hact, all_active, bit]
  obtain ⟨ptrap, pgo, pon⟩ := predBranch h hn (o := o) false
  obtain ⟨atrap, ago, aon⟩ := predBranch h hn (o := o) true
  rw [exec_bpany, exec_bpall]
  refine ⟨fun hclean => ?_, fun hp => ⟨ptrap hp, atrap hp⟩⟩
  have hp : ¬ ∃ k ≤ (st.vshape.extractLsb' 0 4).toNat, (st.pbad[n.toNat]).getLsbD k = true := by
    simpa using hclean
  exact ⟨⟨fun ht => pgo hp (hany.mp ht), fun ht => pon hp (mt hany.mpr ht)⟩, ⟨fun ht => ago hp (hall.mp ht), fun ht => aon hp (mt hall.mpr ht)⟩⟩

/-! ## Jumps and links -/

theorem jumpsAndLinks : Claims.JumpsAndLinks := by
  simp only [Claims.JumpsAndLinks, ← link_eq]
  intro s r st
  refine ⟨fun o h => ?_, fun o h ho => ?_, fun d a i h ho ha => ?_, fun d a i h ho ha => ?_⟩
  · rw [exec_jmp, execJmp, ← target_eq st.pc.s o (by decide)]
    exact issue_same h rfl
  · rw [exec_call, execCall, ← target_eq st.pc.s o (by decide)]
    exact issue_st h (by rw [setSt_cyc, ho]; rfl)
  · rw [exec_jr, execJr, ← target_eq (st.xv a) i (by decide)]
    exact issue_st h (by rw [setSt_cyc, ho, ha]; rfl)
  · rw [exec_jr, execJr]
    exact issue_trap h (by simp [ho, ha])

/-- Settles O4: a compare branch by its condition, a predicate branch by the masked predicate, a jump by its target. -/
theorem branchesAndJumps : Obligations.BranchesAndJumps := ⟨compareBranches, predicateBranches, jumpsAndLinks⟩

end Sys2Proof.Proofs
end

section
/-! PROOF. Loads and stores of the own cluster's yard (R95, R96, R106 to R108, R119, R221), and the facts about S accesses that the words
of scalar memory share. -/

namespace Sys2Proof.Proofs

open Sys2Proof Sys2Proof.Machine Sys2Proof.Safety Sys2Proof.Laws

/-! ## Values -/

/-- R7, R22: the signed value of `w` bits. -/
theorem signedOf_eq_toInt (w x : Nat) : signedOf w x = (BitVec.ofNat w x).toInt := by
  rw [BitVec.toInt_eq_toNat_cond, BitVec.toNat_ofNat, signedOf]
  cases w with
  | zero => simp [Nat.mod_one]
  | succ w =>
    have hhalf : x % 2 ^ (w + 1) < 2 ^ (w + 1 - 1) ↔ 2 * (x % 2 ^ (w + 1)) < 2 ^ (w + 1) := by
      rw [Nat.add_sub_cancel, Nat.pow_succ]
      omega
    simp only [hhalf]
    push_cast
    rfl

theorem ofInt_signedOf (w x : Nat) : BitVec.ofInt 64 (signedOf w x) = (BitVec.ofNat w x).signExtend 64 := by
  rw [signedOf_eq_toInt]
  rfl

theorem reads_length (m : Mem) (key a n : Nat) : (m.reads key a n).length = n := by simp [Mem.reads]

/-- The value of `n` bytes has 8n bits. -/
theorem ofNat_leNat {n : Nat} {bs : List Byte} (h : bs.length = n) : BitVec.ofNat 64 (leNat bs) = (BitVec.ofNat (8 * n) (leNat bs)).zeroExtend 64 := by
  subst h
  apply BitVec.eq_of_toNat_eq
  simp [Nat.mod_eq_of_lt (leNat_lt bs)]

/-- R7: the bytes of a value, one by one. -/
theorem leBytes_getElem? : ∀ (n v i : Nat), (leBytes n v)[i]? = if i < n then some (BitVec.ofNat 8 (v / 256 ^ i)) else none
  | 0, v, i => by simp [leBytes]
  | n + 1, v, 0 => by simp [leBytes]
  | n + 1, v, i + 1 => by
    simp only [leBytes, List.getElem?_cons_succ, leBytes_getElem? n, Nat.add_lt_add_iff_right, Nat.div_div_eq_div_mul, Nat.pow_succ']

/-- R96, R106: what a load of a unit takes. -/
theorem loadValue_poisoned {m : Mem} {tag a n : Nat} {sg : Bool} (h : m.bad (a / 64) = true) : loadValue m tag a n sg false = (0, true) := by
  simp [loadValue, lineOf, h]

theorem loadValue_signed {m : Mem} {tag a n : Nat} (h : m.bad (a / 64) = false) :
    loadValue m tag a n true false = ((BitVec.ofNat (8 * n) (leNat (m.reads tag a n))).signExtend 64, false) := by
  simp [loadValue, lineOf, h, ofInt_signedOf]

theorem loadValue_unsigned {m : Mem} {tag a n : Nat} (h : m.bad (a / 64) = false) :
    loadValue m tag a n false false = ((BitVec.ofNat (8 * n) (leNat (m.reads tag a n))).zeroExtend 64, false) := by
  rw [← ofNat_leNat (reads_length m tag a n)]
  simp [loadValue, lineOf, h]

/-! ## Addresses and places -/

/-- R106: the address of a MEM word is its register and its offset in units. -/
theorem memAddr_eq (st : Strand) (a : BitVec 5) (z : BitVec 2) (o : BitVec 10) :
    memAddr st a z o = BitVec.ofInt 64 ((st.xv a).toNat + (2 ^ z.toNat : Nat) * o.toInt) := by
  have ho : o.signExtend 64 <<< z.toNat = BitVec.ofInt 64 ((2 ^ z.toNat : Nat) * o.toInt) := by
    rw [shiftLeft_eq_ofNat, BitVec.ofNat_mul, BitVec.ofInt_mul, BitVec.mul_comm]
    simp only [BitVec.ofNat_toNat, BitVec.setWidth_eq, BitVec.ofInt_natCast]
    rfl
  rw [memAddr, ho, BitVec.ofInt_add]
  simp

@[simp] theorem setSt_sPlace (s : State) (c : Fin 192) (st st' : Strand) (sp : BitVec 3) (a : W64) (need : Perm) :
    (s.setSt c st).sPlace c st' sp a need = s.sPlace c st' sp a need := rfl

@[simp] theorem setSt_sStalls (s : State) (c : Fin 192) (st st' : Strand) (pl : SPlace) (n : Nat) :
    (s.setSt c st).sStalls c st' pl n = s.sStalls c st' pl n := by
  simp only [State.sStalls, setSt_core]
  rfl

/-- R107: what an S access of the own cluster's yard reaches. -/
def yardPlace (s : State) (c : Fin 192) (e : W64) : SPlace :=
  { addr := yardAddr (s.yardOfCore c) e.toNat, tag := 0, gated := false, disc := false, so := false, konst := false, slot := none, ownYard := true }

theorem sPlace_yard {s : State} {c : Fin 192} {st : Strand} {e : W64} {need : Perm} (h : e.toNat < 25165824) :
    s.sPlace c st 1 e need = .ok (yardPlace s c e) := if_pos h

theorem sPlace_yard_beyond {s : State} {c : Fin 192} {st : Strand} {e : W64} {need : Perm} (h : 25165824 ≤ e.toNat) :
    s.sPlace c st 1 e need = .error .fieldMiss := if_neg (Nat.not_lt.mpr h)

theorem sPlace_noSpace {s : State} {c : Fin 192} {st : Strand} {p : BitVec 3} {e : W64} {need : Perm} (h : 2 ≤ p.toNat) :
    s.sPlace c st p e need = .error .fieldPerm := by
  unfold State.sPlace
  split
  case h_3 => rfl
  all_goals omega

theorem meets_iff (w : SAcc) (a n : Nat) : w.meets a n = true ↔ w.addr < a + n ∧ a < w.addr + w.size := by simp [SAcc.meets]

/-- R221: an access of the own yard stalls for the earlier accesses to its bytes alone. -/
theorem sStalls_yard (s : State) (c : Fin 192) (st : Strand) (e : W64) (n : Nat) : s.sStalls c st (yardPlace s c e) n = true ↔
    ∃ w ∈ st.accs, w.addr < yardAddr (s.yardOfCore c) e.toNat + n ∧ yardAddr (s.yardOfCore c) e.toNat < w.addr + w.size := by
  have hbm : isHbm (yardAddr (s.yardOfCore c) e.toNat) = false := decide_eq_false (by unfold yardAddr; omega)
  simp only [State.sStalls, yardPlace, hbm, meets_iff, Bool.false_and, Bool.false_or, Bool.true_and, List.any_eq_true]

/-! ## Loads -/

section Loads

variable {s : State} {r : Bool} {d a : BitVec 5} {z : BitVec 2} {p : BitVec 3} {o : BitVec 10} {st : Strand} {e : W64}

theorem load_poison (h : issuer s .s r false [d, a] = some st) (ho : st.owns false d = true) (ha : st.xp a = true) (sg : Bool) :
    issue .s r false [d, a] (loadBody sg d a z p o) s = .next (trapped s .s st .poison 0) :=
  issue_trap h (by simp [loadBody, ho, ha])

theorem load_misaligned (h : issuer s .s r false [d, a] = some st) (ho : st.owns false d = true) (ha : st.xp a = false)
    (he : memAddr st a z o = e) (hal : e.toNat % 2 ^ z.toNat ≠ 0) (sg : Bool) :
    issue .s r false [d, a] (loadBody sg d a z p o) s = .next (trapped s .s st .misalign e) :=
  issue_trap h (by simp [loadBody, ho, ha, szBytes, he, hal])

theorem load_noPlace (h : issuer s .s r false [d, a] = some st) (ho : st.owns false d = true) (ha : st.xp a = false)
    (he : memAddr st a z o = e) (hal : e.toNat % 2 ^ z.toNat = 0) {x : Cause} (hx : s.sPlace s.cur.core st p e .r = .error x) (sg : Bool) :
    issue .s r false [d, a] (loadBody sg d a z p o) s = .next (trapped s .s st x e) :=
  issue_trap h (by simp [loadBody, ho, ha, szBytes, he, hal, hx])

/-- R106 to R109: what a load does that has a place. -/
theorem load_placed (h : issuer s .s r false [d, a] = some st) (ho : st.owns false d = true) (ha : st.xp a = false)
    (he : memAddr st a z o = e) (hal : e.toNat % 2 ^ z.toNat = 0) {pl : SPlace} (hp : s.sPlace s.cur.core st p e .r = .ok pl) (sg : Bool) :
    let c := s.cur.core
    let s1 := s.setSt c st
    let v := loadValue s.mem 0 pl.addr (2 ^ z.toNat) sg false
    issue .s r false [d, a] (loadBody sg d a z p o) s = .next (s1.conclude c st .s (s.word? st .s)
      (if pl.gated then .trap .remoteGated e
      else if pl.disc then .ok (s1.setSt c (st.xlater (s.cyc c + 24) d 0 false true)) .seq 1
      else if s.sStalls c st pl (2 ^ z.toNat) then .stall s1
      else if pl.ownYard then .ok (s1.setSt c (st.xlater (s.cyc c + 24) d v.1 v.2 true)) .seq 1
      else .ok (s1.sStart c st (.load d sg) e pl (2 ^ z.toNat) (s.remoteYard c pl)) .seq 1)) := by
  intro c s1 v
  rw [issue_body h]
  congr 2
  simp only [loadBody, ho, ha, szBytes, he, hal, hp, setSt_sPlace, setSt_sStalls, setSt_cyc]
  rfl

/-- R95, R221: a load of the own yard stalls for an earlier access to its bytes, or reads its unit at the issue. -/
theorem load_yard (h : issuer s .s r false [d, a] = some st) (ho : st.owns false d = true) (ha : st.xp a = false)
    (he : memAddr st a z o = e) (hal : e.toNat % 2 ^ z.toNat = 0) (hl : e.toNat < 25165824) (sg : Bool) :
    let q := yardAddr (s.yardOfCore s.cur.core) e.toNat
    let v := loadValue s.mem 0 q (2 ^ z.toNat) sg false
    let awaited : Prop := ∃ w ∈ st.accs, w.addr < q + 2 ^ z.toNat ∧ q < w.addr + w.size
    (awaited → issue .s r false [d, a] (loadBody sg d a z 1 o) s = .next (s.setSt s.cur.core st)) ∧
    (¬ awaited → issue .s r false [d, a] (loadBody sg d a z 1 o) s = .next (wroteX s .s st 24 d v.1 v.2)) := by
  intro q v awaited
  have hst := sStalls_yard s s.cur.core st e (2 ^ z.toNat)
  rw [load_placed h ho ha he hal (sPlace_yard hl)]
  refine ⟨fun hw => ?_, fun hw => ?_⟩
  · rw [hst.mpr hw]; rfl
  · rw [Bool.eq_false_iff.mpr (mt hst.mp hw)]
    show Host.Outcome.next (State.finish _ _ _ _ _ _) = _
    rw [setSt_setSt, finish_setSt]
    rfl

end Loads

theorem yardLoads : Claims.YardLoads := by
  intro s r d a z o st h ho n e q gives both awaited
  have he : memAddr st a z o = e := memAddr_eq st a z o
  have both_of {c : Cause} {p : BitVec 3} {x : W64} (hx : ∀ sg, issue .s r false [d, a] (loadBody sg d a z p o) s = .next (trapped s .s st c x)) :
      both c p x := ⟨hx true, hx false⟩
  refine ⟨fun ha p => both_of (load_poison h ho ha), fun ha hal p => both_of (load_misaligned h ho ha he hal), fun ha hal =>
    ⟨fun p hp => both_of (load_noPlace h ho ha he hal (sPlace_noSpace hp)),
      fun hl => both_of (load_noPlace h ho ha he hal (sPlace_yard_beyond hl)), fun hl hw => ?_, fun hl hw => ⟨fun hb => ?_, fun hb => ?_⟩⟩⟩
  · exact ⟨(load_yard h ho ha he hal hl true).1 hw, (load_yard h ho ha he hal hl false).1 hw⟩
  · have hs := (load_yard h ho ha he hal hl true).2 hw
    have hu := (load_yard h ho ha he hal hl false).2 hw
    rw [loadValue_signed hb] at hs
    rw [loadValue_unsigned hb] at hu
    exact ⟨hs, hu⟩
  · have hs := (load_yard h ho ha he hal hl true).2 hw
    have hu := (load_yard h ho ha he hal hl false).2 hw
    rw [loadValue_poisoned hb] at hs hu
    exact ⟨hs, hu⟩

/-! ## Stores -/

/-- A store's write is that of its place, or marks its line. -/
theorem storeWrite_clean (pl : SPlace) (n : Nat) (v : W64) : storeWrite pl n v false = MWrite.plain pl.addr pl.tag (leBytes n v.toNat) := rfl

theorem storeWrite_poisoned (pl : SPlace) (n : Nat) (v : W64) : storeWrite pl n v true = MWrite.mark [pl.addr / 64] := rfl

/-- A unit that is aligned lies in one line. -/
theorem linesFrom_unit {q k : Nat} (hk : k ≤ 3) (hq : q % 2 ^ k = 0) : linesFrom q (2 ^ k) = [q / 64] := by
  have hone : (q + 2 ^ k - 1) / 64 + 1 - q / 64 = 1 := by
    interval_cases k <;> omega
  rw [linesFrom, if_neg (by positivity), hone]
  rfl

/-- R119: a store is seen at the line of its unit. -/
theorem touched_storeWrite {pl : SPlace} {k : Nat} (hk : k ≤ 3) (hq : pl.addr % 2 ^ k = 0) (v : W64) (bad : Bool) :
    (storeWrite pl (2 ^ k) v bad).touched = [pl.addr / 64] := by
  cases bad with
  | true => simp [storeWrite_poisoned, MWrite.touched, MWrite.mark, MWrite.lines, linesFrom]
  | false =>
    have hpos := Nat.two_pow_pos k
    obtain ⟨i, hi⟩ : ∃ i, 2 ^ k = i + 1 := ⟨2 ^ k - 1, by omega⟩
    obtain ⟨j, hj⟩ : ∃ j, 64 - (pl.addr - pl.addr / 64 * 64) = j + 1 := ⟨63 - (pl.addr - pl.addr / 64 * 64), by omega⟩
    have hdrop : pl.addr / 64 * 64 - pl.addr = 0 := by omega
    have hlines : linesFrom pl.addr (i + 1) = [pl.addr / 64] := hi ▸ linesFrom_unit hk hq
    simp [storeWrite_clean, MWrite.touched, MWrite.plain, MWrite.lines, hlines, hi, hj, hdrop, leBytes]

/-- R108: a line that is marked holds the bytes that it held. -/
theorem apply_mark {m : Mem} (hm : m.wf = true) (line : Nat) :
    let m' := m.apply (MWrite.mark [line])
    (∀ b, m'.byte b = m.byte b) ∧ (∀ b, m'.key b = m.key b) ∧ ∀ l, m'.bad l = (m.bad l || l == line) := by
  have hnone : ∀ x, stores 0 [] x = false := fun x => by simp [stores]
  refine ⟨fun b => byte_apply_out hm _ (.inr (Nat.zero_le b)), fun b => ?_, fun l => ?_⟩
  · rw [key_apply hm, key_putAll hm]
    show (if stores 0 [] b then _ else if decide (0 < 2 ^ 52) && (_ && storesBlock 0 [] b) then _ else _) = _
    rw [hnone, storesBlock_false fun x _ _ => hnone x]
    simp
  · rw [bad_apply hm]
    by_cases hl : l = line <;> simp [MWrite.mark, MWrite.lines, linesFrom, hl]

/-- A write of fewer than 64 bytes covers no line. -/
theorem not_covers_plain {a tag : Nat} {bs : List Byte} (h : bs.length < 64) (l : Nat) : (MWrite.plain a tag bs).covers l = false := by
  have hlen : ((((bs.map some).drop (l * 64 - a)).take 64).length == 64) = false := by
    simp only [List.length_take, List.length_drop, List.length_map, beq_eq_false_iff_ne]
    omega
  simp only [MWrite.covers, MWrite.plain, hlen, Bool.and_false, Bool.false_and]

/-- A plain write stores exactly its bytes. -/
theorem stores_plain {a b : Nat} {bs : List Byte} : stores a (bs.map some) b = true ↔ a ≤ b ∧ b < a + bs.length := by
  simp only [stores, List.getElem?_map, Bool.and_eq_true, decide_eq_true_eq]
  refine and_congr_right fun hab => ?_
  cases hb : bs[b - a]? with
  | none => have := List.getElem?_eq_none_iff.mp hb; simp; omega
  | some x => have := (List.getElem?_eq_some_iff.mp hb).1; simp; omega

/-- R245: memory after a plain write of a few bytes; outside encrypted storage no byte of their blocks but they changes its key. -/
theorem apply_plain {m : Mem} (hm : m.wf = true) {a tag : Nat} {bs : List Byte} (hl : bs.length < 64) :
    let m' := m.apply (MWrite.plain a tag bs)
    (∀ b, m'.byte b = if a ≤ b then bs[b - a]?.getD (m.byte b) else m.byte b) ∧
      (2 ^ 52 ≤ a → ∀ b, m'.key b = if a ≤ b ∧ b < a + bs.length then tag else m.key b) ∧ ∀ l, m'.bad l = m.bad l := by
  refine ⟨fun b => ?_, fun ha b => ?_, fun l => ?_⟩
  · rw [byte_apply hm]
    show (if a ≤ b then (bs.map some)[b - a]?.join.getD _ else _) = _
    rw [List.getElem?_map]
    cases bs[b - a]? <;> rfl
  · rw [key_apply hm, key_putAll hm]
    show (if stores a (bs.map some) b then tag else if decide (a < 2 ^ 52) && _ then _ else _) = _
    rw [decide_eq_false (Nat.not_lt.mpr ha), Bool.false_and, if_neg Bool.false_ne_true]
    exact if_congr stores_plain rfl rfl
  · rw [bad_apply hm, not_covers_plain hl]
    simp [MWrite.plain]

/-- R108: memory after a store of a unit of a yard. -/
theorem apply_storeWrite {m : Mem} (hm : m.wf = true) {pl : SPlace} {k : Nat} (hk : k ≤ 3) (ht : pl.tag = 0) (hy : 2 ^ 72 ≤ pl.addr) (v : W64) (bad : Bool) :
    let q := pl.addr
    let m' := m.apply (storeWrite pl (2 ^ k) v bad)
    (∀ b, m'.byte b = if bad = false ∧ q ≤ b ∧ b < q + 2 ^ k then BitVec.ofNat 8 (v.toNat / 256 ^ (b - q)) else m.byte b) ∧
      (∀ b, m'.key b = if bad = false ∧ q ≤ b ∧ b < q + 2 ^ k then 0 else m.key b) ∧
      (∀ l, m'.bad l = (m.bad l || (bad && l == q / 64))) := by
  cases bad with
  | true => simpa [storeWrite_poisoned] using apply_mark hm (pl.addr / 64)
  | false =>
    have h8 : 2 ^ k < 64 := lt_of_le_of_lt (Nat.pow_le_pow_right (by decide) hk) (by decide)
    obtain ⟨hbyte, hkey, hbad⟩ := apply_plain hm (a := pl.addr) (tag := pl.tag) (bs := leBytes (2 ^ k) v.toNat) (by rwa [leBytes_length])
    refine ⟨fun b => ?_, fun b => ?_, fun l => ?_⟩
    · rw [storeWrite_clean, hbyte, leBytes_getElem?]
      by_cases hb : pl.addr ≤ b
      · by_cases hn : b < pl.addr + 2 ^ k
        · simp [hb, hn, show b - pl.addr < 2 ^ k by omega]
        · simp [hb, hn, show ¬ b - pl.addr < 2 ^ k by omega]
      · simp [hb]
    · rw [storeWrite_clean, hkey (by omega), leBytes_length, ht]
      simp
    · rw [storeWrite_clean, hbad]
      simp

/-- R221: a store of the own yard is one of the writes of the cycle. -/
theorem mem_landIn (l o : Landed) : ∀ ls : List Landed, o ∈ landIn l ls ↔ o ∈ ls ∨ o = l
  | [] => by simp [landIn]
  | x :: ls => by
    unfold landIn
    split
    · simp [mem_landIn l o ls, or_assoc]
    · simp [or_comm]

section Stores

variable {s : State} {r : Bool} {x a : BitVec 5} {z : BitVec 2} {p : BitVec 3} {o : BitVec 10} {st : Strand} {e : W64}

theorem store_poison (h : issuer s .s r false [x, a] = some st) (ha : st.xp a = true) :
    exec (.st r x a z p o) s = .next (trapped s .s st .poison 0) := by
  rw [exec_st, execSt]
  exact issue_trap h (by simp [ha])

theorem store_misaligned (h : issuer s .s r false [x, a] = some st) (ha : st.xp a = false) (he : memAddr st a z o = e)
    (hal : e.toNat % 2 ^ z.toNat ≠ 0) : exec (.st r x a z p o) s = .next (trapped s .s st .misalign e) := by
  rw [exec_st, execSt]
  exact issue_trap h (by simp [ha, szBytes, he, hal])

theorem store_noPlace (h : issuer s .s r false [x, a] = some st) (ha : st.xp a = false) (he : memAddr st a z o = e)
    (hal : e.toNat % 2 ^ z.toNat = 0) {y : Cause} (hy : s.sPlace s.cur.core st p e .w = .error y) :
    exec (.st r x a z p o) s = .next (trapped s .s st y e) := by
  rw [exec_st, execSt]
  exact issue_trap h (by simp [ha, szBytes, he, hal, hy])

/-- R106 to R109: what a store does that has a place. -/
theorem store_placed (h : issuer s .s r false [x, a] = some st) (ha : st.xp a = false) (he : memAddr st a z o = e)
    (hal : e.toNat % 2 ^ z.toNat = 0) {pl : SPlace} (hp : s.sPlace s.cur.core st p e .w = .ok pl) :
    let c := s.cur.core
    let s1 := s.setSt c st
    let w := storeWrite pl (2 ^ z.toNat) (st.xv x) (st.xp x)
    exec (.st r x a z p o) s = .next (s1.conclude c st .s (s.word? st .s)
      (if pl.gated then .trap .remoteGated e
      else if pl.disc then .trap .discarded e
      else if st.xp x && !st.pmark then .trap .poison 0
      else if s.sStalls c st pl (2 ^ z.toNat) then .stall s1
      else if pl.ownYard then .ok (s1.land c 0 w) .seq 1
      else .ok (s1.sStart c st (.store w) e pl (2 ^ z.toNat) (s.remoteYard c pl)) .seq 1)) := by
  intro c s1 w
  rw [exec_st, execSt, issue_body h]
  congr 2
  simp only [ha, szBytes, he, hal, hp, setSt_sPlace, setSt_sStalls]
  rfl

/-- R108: under policy TRAP a poisoned register traps; otherwise a store of the own yard stalls for an earlier access to its bytes, or lands. -/
theorem store_yard (h : issuer s .s r false [x, a] = some st) (ha : st.xp a = false) (he : memAddr st a z o = e)
    (hal : e.toNat % 2 ^ z.toNat = 0) (hl : e.toNat < 25165824) :
    let q := yardAddr (s.yardOfCore s.cur.core) e.toNat
    let w := storeWrite (yardPlace s s.cur.core e) (2 ^ z.toNat) (st.xv x) (st.xp x)
    let awaited : Prop := ∃ w ∈ st.accs, w.addr < q + 2 ^ z.toNat ∧ q < w.addr + w.size
    (st.xp x = true → st.pmark = false → exec (.st r x a z 1 o) s = .next (trapped s .s st .poison 0)) ∧
    ((st.xp x = true → st.pmark = true) → awaited → exec (.st r x a z 1 o) s = .next (s.setSt s.cur.core st)) ∧
    ((st.xp x = true → st.pmark = true) → ¬ awaited →
      exec (.st r x a z 1 o) s = .next (((s.setSt s.cur.core st).land s.cur.core 0 w).finish s.cur.core .s (s.word? st .s) .seq 1)) := by
  intro q w awaited
  have hst := sStalls_yard s s.cur.core st e (2 ^ z.toNat)
  have hpol : (st.xp x = true → st.pmark = true) → (st.xp x && !st.pmark) = false := by
    cases st.xp x <;> simp
  rw [store_placed h ha he hal (sPlace_yard hl)]
  refine ⟨fun hx hm => ?_, fun hx hw => ?_, fun hx hw => ?_⟩
  · rw [hx, hm]; rfl
  · rw [hpol hx, hst.mpr hw]; rfl
  · rw [hpol hx, Bool.eq_false_iff.mpr (mt hst.mp hw)]; rfl

/-- R223: an address of the yard of a core's cluster is at home. -/
theorem atHome_yardAddr {c : Fin 192} {y off : Nat} (hy : (s.clusters[clusterOf c]).yard = some y) (ho : off < 2 ^ 25) :
    s.atHome c (yardAddr y off) = true := by
  have hdiv : (yardAddr y off - 2 ^ 72) / 2 ^ 25 = y := by unfold yardAddr; omega
  have hge : 2 ^ 72 ≤ yardAddr y off := by unfold yardAddr; omega
  rw [State.atHome, hdiv, hy, decide_eq_true hge]
  simp

theorem at_mark (line : Nat) : (MWrite.mark [line]).at_ = 64 * line := rfl

theorem at_plain {a tag : Nat} {bs : List Byte} (h : bs ≠ []) : (MWrite.plain a tag bs).at_ = a := if_neg (by simpa [MWrite.plain] using h)

theorem yardOfCore_of_some {c : Fin 192} {y : Nat} (hy : (s.clusters[clusterOf c]).yard = some y) : s.yardOfCore c = y := by
  rw [State.yardOfCore, hy]; rfl

theorem atHome_storeWrite {c : Fin 192} {y : Nat} (hy : (s.clusters[clusterOf c]).yard = some y) (hl : e.toNat < 25165824) (k : Nat) (v : W64)
    (bad : Bool) : s.atHome c (storeWrite (yardPlace s c e) (2 ^ k) v bad).at_ = true := by
  have hq : (yardPlace s c e).addr = yardAddr y e.toNat := by rw [yardPlace, yardOfCore_of_some hy]
  cases bad with
  | true =>
    have hline : 64 * (yardAddr y e.toNat / 64) = yardAddr y (64 * (e.toNat / 64)) := by unfold yardAddr; omega
    rw [storeWrite_poisoned, hq, at_mark, hline]
    exact atHome_yardAddr hy (by omega)
  | false =>
    have hne : leBytes (2 ^ k) v.toNat ≠ [] := List.length_pos_iff.mp (by simp)
    rw [storeWrite_clean, at_plain hne, hq]
    exact atHome_yardAddr hy (by omega)

end Stores

/-- R119: a monitor sees a write of one line. -/
theorem see_line (m : Monitor) (line : Nat) : m.see [line] = if m.line = some line then { m with hit := true } else m := by
  unfold Monitor.see
  cases hm : m.line with
  | none => simp
  | some l => by_cases hl : l = line <;> simp [hl]

theorem yardStores : Claims.YardStores := by
  intro s r x a z o st y h hm hyard n e q rank k awaited traps
  have he : memAddr st a z o = e := memAddr_eq st a z o
  have hq : yardAddr (s.yardOfCore s.cur.core) e.toNat = q := by rw [yardOfCore_of_some hyard]
  refine ⟨fun ha p => store_poison h ha, fun ha hal p => store_misaligned h ha he hal, fun ha hal => ⟨fun p hp => store_noPlace h ha he hal (sPlace_noSpace hp),
    fun hl => store_noPlace h ha he hal (sPlace_yard_beyond hl), fun hl => ?_, fun hl hx hw => ?_, fun hl hx hw => ?_⟩⟩
  · exact (store_yard h ha he hal hl).1
  · exact (store_yard h ha he hal hl).2.1 hx (by rwa [hq])
  · have hgo := (store_yard h ha he hal hl).2.2 hx (by rwa [hq])
    have hz : z.toNat ≤ 3 := by have := z.isLt; omega
    have haddr : (yardPlace s s.cur.core e).addr = q := hq
    have halq : q % 2 ^ z.toNat = 0 := by
      rw [Nat.dvd_iff_mod_eq_zero.symm]
      exact Nat.dvd_add (Nat.dvd_add (pow_dvd_pow 2 (by omega)) ((pow_dvd_pow 2 (by omega)).mul_left y)) (Nat.dvd_of_mod_eq_zero hal)
    obtain ⟨hbyte, hkey, hbad⟩ := apply_storeWrite hm hz (pl := yardPlace s s.cur.core e) rfl (by rw [haddr]; simp only [q, yardAddr]; omega) (st.xv x) (st.xp x)
    have hseen := touched_storeWrite hz (pl := yardPlace s s.cur.core e) (by rwa [haddr]) (st.xv x) (st.xp x)
    rw [haddr] at hbyte hkey hbad hseen
    refine ⟨_, s.mons.map (Monitor.see [q / 64]), _, landIn { rank := rank, w := storeWrite (yardPlace s s.cur.core e) n (st.xv x) (st.xp x) } k.recent,
      hgo.trans (congrArg Host.Outcome.next ?_), rfl, fun l => mem_landIn _ l _, wf_apply hm _, hbyte, hkey, hbad, fun c => ?_⟩
    · have hhome : (s.setSt s.cur.core st).atHome s.cur.core (storeWrite (yardPlace s s.cur.core e) n (st.xv x) (st.xp x)).at_ = true :=
        atHome_storeWrite hyard hl z.toNat _ _
      rw [State.land, if_pos hhome, ← hseen]
      exact finish_moved rfl rfl
    · simp [see_line]

/-- Settles O6: a load of the own yard takes `loadValue` of its unit, a store is the write of `storeWrite`, in its place in the cycle. -/
theorem yardAccesses : Obligations.YardAccesses := ⟨yardLoads, yardStores⟩

end Sys2Proof.Proofs
end

section
/-! PROOF. Accesses of the device space and atomics issue, or trap (R97, R107, R109 to R114, R230, R389). -/

namespace Sys2Proof.Proofs

open Sys2Proof Sys2Proof.Machine Sys2Proof.Safety Sys2Proof.Laws

/-! ## Requests and what an issued access leaves -/

section Requests

variable (s : State) (c : Fin 192) (stack addr len : Nat) (who : ReqWho)

/-- R76: counting a request touches the performance counters alone. -/
theorem count_eq (k : Core) : k.count c stack = { k with pmlocal := (k.count c stack).pmlocal, pmremote := (k.count c stack).pmremote } := by
  unfold Core.count
  split <;> rfl

theorem charged_unless (p : Fin 64) (free : Bool) (launch a n : Nat) :
    ∃ m, Charged p m s (if free then s else s.countBytes p launch a n) := by
  cases free with
  | true => exact ⟨0, .of_bookkept (.refl s)⟩
  | false => exact ⟨_, charged_countBytes ..⟩

/-- R230: a request joins those of the core; the rest of the state changes by its cost alone. -/
theorem request_spec : ∃ (b : Option Nat) (n : Nat), Charged (s.partOn c) n
    (s.setCore c { s.cores[c].count c stack with reqs := s.cores[c].reqs ++
      [{ stack := stack, addr := addr, len := len, who := who, bound := b, reach := (s.clusters[clusterOf c]).cyc + 12 }] })
    (s.request c stack addr len who) := by
  have hreqs : (s.cores[c].count c stack).reqs = s.cores[c].reqs := by rw [count_eq]
  rw [← hreqs]
  obtain ⟨n, h⟩ := charged_unless _ (s.partOn c) (who == .slab) (s.launchOn c) addr len
  exact ⟨_, n, h⟩

end Requests

/-- What a word leaves of a state in which a strand stands on the core. -/
theorem finish_of_strand {t : State} {c : Fin 192} {u : Strand} (h : t.strand? c = some u) (sl : Slot) (w : Option W32) (n : Next) (busy : Nat) :
    t.finish c sl w n busy = t.setCore c { t.cores[c] with strand := some (u.advance sl (t.cyc c) w n busy), issued := t.cyc c + 1 } := by
  rw [State.finish, h]

theorem setCore_core (s : State) (c : Fin 192) (k : Core) : (s.setCore c k).cores[c] = k := by simp [State.setCore]

theorem setCore_cyc (s : State) (c : Fin 192) {k : Core} (h : k.lag = s.cores[c].lag) : (s.setCore c k).cyc c = s.cyc c := by
  simp [State.cyc, State.setCore, h]

/-- R230: a request leaves the core's strand, its cycle and what the core and the state hold besides. -/
theorem request_keeps (s : State) (c : Fin 192) (stack addr len : Nat) (who : ReqWho) :
    let t := s.request c stack addr len who
    (∃ req : Req, t.cores[c].reqs = s.cores[c].reqs ++ [req] ∧ req.stack = stack ∧ req.addr = addr ∧ req.len = len ∧ req.who = who) ∧
      t.cores[c].strand = s.cores[c].strand ∧ t.cyc c = s.cyc c ∧ t.mem = s.mem ∧ t.hbm = s.hbm ∧ t.cores[c].kcache = s.cores[c].kcache ∧
      t.cores[c].kfills = s.cores[c].kfills := by
  intro t
  obtain ⟨b, n, h⟩ := request_spec s c stack addr len who
  have hclusters : t.clusters = s.clusters := (congrArg State.clusters h.same :)
  have hhbm : t.hbm = s.hbm := (congrArg State.hbm h.same :)
  have hk : t.cores[c] = { s.cores[c].count c stack with reqs := s.cores[c].reqs ++
      [{ stack := stack, addr := addr, len := len, who := who, bound := b, reach := (s.clusters[clusterOf c]).cyc + 12 }] } := by
    simp [t, h.cores, State.setCore]
  rw [count_eq] at hk
  refine ⟨⟨_, (congrArg Core.reqs hk :), rfl, rfl, rfl, rfl⟩, (congrArg Core.strand hk :), ?_, h.mem, hhbm, (congrArg Core.kcache hk :),
    (congrArg Core.kfills hk :)⟩
  rw [State.cyc, State.cyc, hclusters, (congrArg Core.lag hk :)]

/-! ## What an issued access leaves -/

/-- R109, R230: an S access is recorded; HBM storage is asked for by a request to its stack. -/
theorem finish_sStart (s : State) (st : Strand) (op : SOp) (dev : W64) (pl : SPlace) (size : Nat) (blocks : Bool) (w : Option W32) :
    let c := s.cur.core
    let st' := st.addAcc op dev pl size blocks
    let t := ((s.setSt c st).sStart c st op dev pl size blocks).finish c .s w .seq 1
    (2 ^ 40 ≤ pl.addr → t = moved s .s st' w .seq 1) ∧
    (pl.addr < 2 ^ 40 → ∃ req : Req, t.strand? c = some (st'.advance .s (now s) w .seq 1) ∧ t.mem = s.mem ∧ t.hbm = s.hbm ∧
      t.cores[c].reqs = s.cores[c].reqs ++ [req] ∧ req.stack = pl.addr / 2 ^ 36 ∧ req.addr = pl.addr ∧ req.len = size ∧
      req.who = .acc st.sid st.nextAid) := by
  intro c st' t
  refine ⟨fun ha => ?_, fun ha => ?_⟩
  · have hbm : isHbm pl.addr = false := decide_eq_false (Nat.not_lt.mpr ha)
    have hs : (s.setSt c st).sStart c st op dev pl size blocks = s.setSt c st' := by
      rw [State.sStart, hbm, setSt_setSt]; rfl
    exact finish_moved rfl hs
  · have hbm : isHbm pl.addr = true := decide_eq_true ha
    have hs : (s.setSt c st).sStart c st op dev pl size blocks = (s.setSt c st').request c (stackOf pl.addr) pl.addr size (.acc st.sid st.nextAid) := by
      rw [State.sStart, hbm, setSt_setSt]; rfl
    obtain ⟨⟨req, hreqs, hstack, haddr, hlen, hwho⟩, hstrand, hcyc, hmem, hhbm, -, -⟩ :=
      request_keeps (s.setSt c st') c (stackOf pl.addr) pl.addr size (.acc st.sid st.nextAid)
    rw [setSt_core] at hreqs hstrand
    have ht : t = _ := (congrArg (State.finish · c .s w .seq 1) hs).trans (finish_of_strand hstrand .s w .seq 1)
    rw [setSt_cyc] at hcyc
    clear_value t
    subst ht
    refine ⟨req, ?_, hmem, hhbm, ?_, hstack, haddr, hlen, hwho⟩
    · rw [hcyc, State.strand?, setCore_core]; rfl
    · rw [setCore_core]; exact hreqs

/-! ## Places -/

/-- R225: a device address has no place in the own yard. -/
theorem sPlace_dev {s : State} {c : Fin 192} {st : Strand} {e : W64} {need : Perm} {pl : SPlace} (h : s.sPlace c st 0 e need = .ok pl) :
    pl.ownYard = false := by
  cases hl : s.launch? st.launch with
  | none => simp [State.sPlace, hl] at h
  | some l =>
    cases ht : s.translate l e need with
    | error x => simp [State.sPlace, hl, ht] at h
    | ok t =>
      simp only [State.sPlace, hl, ht] at h
      exact (congrArg SPlace.ownYard (Except.ok.inj h) :).symm

/-- R109: a device address reaches the yard of another cluster where it lies in a yard object other than the core's. -/
theorem remoteYard_eq {s : State} {c : Fin 192} {pl : SPlace} (h : pl.ownYard = false) : s.remoteYard c pl =
    (decide (2 ^ 72 ≤ pl.addr) && decide (pl.addr < 2 ^ 96) && decide ((pl.addr - 2 ^ 72) / 2 ^ 25 ≠ s.yardOfCore c)) := by
  simp only [State.remoteYard, h, isYard, Bool.not_false, Bool.true_and]
  rw [Bool.eq_iff_iff]
  simp only [Bool.and_eq_true, Bool.not_eq_true', Bool.and_eq_false_iff, decide_eq_true_eq, decide_eq_false_iff_not]
  unfold yardAddr
  omega

/-! ## Atomics -/

section Atomics

variable {s : State} {r : Bool} {fn : W64 → AmoFn} {cas : Bool} {d a b : BitVec 5} {l z p : BitVec 1} {st : Strand}

theorem amo_poison (h : issuer s .s r false [d, a, b] = some st) (ho : st.owns false d = true)
    (hp : st.xp a = true ∨ st.xp b = true ∨ (cas = true ∧ st.xp d = true)) :
    amoWord r fn cas d a b l z p s = .next (trapped s .s st .poison 0) :=
  issue_trap h (by
    have hp' : (st.xp a || st.xp b || (cas && st.xp d)) = true := by simpa [or_assoc] using hp
    simp only [ho, hp']
    rfl)

theorem amo_misaligned (h : issuer s .s r false [d, a, b] = some st) (ho : st.owns false d = true)
    (hp : (st.xp a || st.xp b || (cas && st.xp d)) = false) (hal : (st.xv a).toNat % (if z = 0 then 4 else 8) ≠ 0) :
    amoWord r fn cas d a b l z p s = .next (trapped s .s st .misalign (st.xv a)) :=
  issue_trap h (by simp only [ho, hp, bne_iff_ne.mpr hal]; rfl)

theorem amo_noPlace (h : issuer s .s r false [d, a, b] = some st) (ho : st.owns false d = true)
    (hp : (st.xp a || st.xp b || (cas && st.xp d)) = false) (hal : (st.xv a).toNat % (if z = 0 then 4 else 8) = 0)
    {x : Cause} (hx : s.sPlace s.cur.core st (p.zeroExtend 3) (st.xv a) .rw = .error x) :
    amoWord r fn cas d a b l z p s = .next (trapped s .s st x (st.xv a)) :=
  issue_trap h (by simp only [ho, hp, hal, setSt_sPlace, hx]; rfl)

/-- R113, R114: what an atomic does that has a place. -/
theorem amo_placed (h : issuer s .s r false [d, a, b] = some st) (ho : st.owns false d = true)
    (hp : (st.xp a || st.xp b || (cas && st.xp d)) = false) (hal : (st.xv a).toNat % (if z = 0 then 4 else 8) = 0)
    {pl : SPlace} (hpl : s.sPlace s.cur.core st (p.zeroExtend 3) (st.xv a) .rw = .ok pl) :
    let c := s.cur.core
    let s1 := s.setSt c st
    let m := if z = 0 then 4 else 8
    amoWord r fn cas d a b l z p s = .next (s1.conclude c st .s (s.word? st .s)
      (if pl.disc then .trap .discarded (st.xv a)
      else if l = 1 && !st.accs.isEmpty then .stall s1
      else if s.sStalls c st pl m then .stall s1
      else .ok (s1.sStart c st (.amo (fn (st.xv d)) d (st.xv b)) (st.xv a) pl m true) .seq 1)) := by
  intro c s1 m
  rw [amoWord, issue_body h]
  congr 2
  simp only [ho, hp, hal, hpl, setSt_sPlace, setSt_sStalls]
  rfl

end Atomics

/-! ## Constant loads -/

section ConstantLoads

variable {s : State} {r : Bool} {d a : BitVec 5} {z : BitVec 2} {o : BitVec 10} {st : Strand} {e : W64} {pl : SPlace}

theorem ldk_noPlace (h : issuer s .s r false [d, a] = some st) (ho : st.owns false d = true) (ha : st.xp a = false)
    (he : memAddr st a z o = e) (hal : e.toNat % 2 ^ z.toNat = 0) {x : Cause} (hx : s.sPlace s.cur.core st 0 e .r = .error x) :
    exec (.ldk r d a z o) s = .next (trapped s .s st x e) := by
  rw [exec_ldk, execLdk]
  exact issue_trap h (by simp only [ho, ha, szBytes, he, hal, setSt_sPlace, hx]; rfl)

theorem ldk_notConst (h : issuer s .s r false [d, a] = some st) (ho : st.owns false d = true) (ha : st.xp a = false)
    (he : memAddr st a z o = e) (hal : e.toNat % 2 ^ z.toNat = 0) (hp : s.sPlace s.cur.core st 0 e .r = .ok pl) (hk : pl.konst = false) :
    exec (.ldk r d a z o) s = .next (trapped s .s st .fieldPerm e) := by
  rw [exec_ldk, execLdk]
  exact issue_trap h (by simp only [ho, ha, szBytes, he, hal, setSt_sPlace, hp, hk]; rfl)

/-- R95, R110: an LDK of a line that the constant cache holds. -/
theorem ldk_hit (h : issuer s .s r false [d, a] = some st) (ho : st.owns false d = true) (ha : st.xp a = false)
    (he : memAddr st a z o = e) (hal : e.toNat % 2 ^ z.toNat = 0) (hp : s.sPlace s.cur.core st 0 e .r = .ok pl) (hk : pl.konst = true)
    (hso : pl.so = false) {l : KLine} (hl : s.cores[s.cur.core].kline? (pl.addr / 64) = some l) :
    let v := klineValue l pl.addr (2 ^ z.toNat)
    exec (.ldk r d a z o) s = .next (wroteX s .s st 6 d v.1 v.2) := by
  intro v
  have hline : ((s.setSt s.cur.core st).cores[s.cur.core]).kline? (lineOf pl.addr) = some l := by rw [setSt_core]; exact hl
  rw [exec_ldk, execLdk]
  refine issue_st h ?_
  simp only [ho, ha, szBytes, he, hal, setSt_sPlace, hp, hk, hso, hline, setSt_cyc, Bool.false_eq_true, if_false]
  rfl

/-- R110, R238: an LDK of a line that it may not take from the constant cache. -/
theorem ldk_miss (h : issuer s .s r false [d, a] = some st) (ho : st.owns false d = true) (ha : st.xp a = false)
    (he : memAddr st a z o = e) (hal : e.toNat % 2 ^ z.toNat = 0) (hp : s.sPlace s.cur.core st 0 e .r = .ok pl) (hk : pl.konst = true)
    (hl : pl.so = true ∨ s.cores[s.cur.core].kline? (pl.addr / 64) = none) :
    let c := s.cur.core
    let s1 := s.setSt c st
    exec (.ldk r d a z o) s = .next (s1.conclude c st .s (s.word? st .s)
      (if pl.gated then .trap .remoteGated e
      else if s.sStalls c st pl (2 ^ z.toNat) then .stall s1
      else .ok (((s1.setCore c (if pl.so then (s1.cores[c]).dropLine (pl.addr / 64) st.nextAid else s1.cores[c])).setSt c
        (st.addAcc (.ldk d) e pl (2 ^ z.toNat) false)).askLine c (pl.addr / 64) pl.tag pl.disc !pl.so) .seq 1)) := by
  intro c s1
  have hline : (if pl.so then none else (s.setSt s.cur.core st).cores[s.cur.core].kline? (lineOf pl.addr)) = none := by
    rcases hl with hso | hl
    · rw [if_pos hso]
    · rw [ite_eq_left_iff]
      intro _
      rw [setSt_core]
      exact hl
  rw [exec_ldk, execLdk, issue_body h]
  congr 2
  simp only [ho, ha, szBytes, he, hal, setSt_sPlace, setSt_sStalls, hp, hk, hline]
  rfl

end ConstantLoads

/-! ## The obligation -/

/-- R109: an atomic, a load and a store that pass their checks are recorded alike. -/
theorem started_of {i : Instr} {s : State} {st : Strand} {op : SOp} {dev : W64} {pl : SPlace} {size : Nat} {blocks : Bool}
    (h : exec i s = .next (((s.setSt s.cur.core st).sStart s.cur.core st op dev pl size blocks).finish s.cur.core .s (s.word? st .s) .seq 1)) :
    let st' := st.addAcc op dev pl size blocks
    (2 ^ 40 ≤ pl.addr → exec i s = .next (moved s .s st' (s.word? st .s) .seq 1)) ∧
    (pl.addr < 2 ^ 40 → ∃ t req, exec i s = .next t ∧ t.strand? s.cur.core = some (st'.advance .s (now s) (s.word? st .s) .seq 1) ∧
      t.mem = s.mem ∧ t.hbm = s.hbm ∧ t.cores[s.cur.core].reqs = s.cores[s.cur.core].reqs ++ [req] ∧ req.stack = pl.addr / 2 ^ 36 ∧
      req.addr = pl.addr ∧ req.len = size ∧ req.who = .acc st.sid st.nextAid) := by
  intro st'
  obtain ⟨hout, hin⟩ := finish_sStart s st op dev pl size blocks (s.word? st .s)
  refine ⟨fun ha => by rw [h, hout ha], fun ha => ?_⟩
  obtain ⟨req, ht⟩ := hin ha
  exact ⟨_, req, h, ht⟩

/-- R107, R109, R111, R230: loads, stores and atomics that pass their checks are recorded. -/
theorem accessesAreRecorded : Claims.AccessesIssue := by
  intro s r d a b z o st pl c started other n e hdisc ha
  refine ⟨fun h hal hg hst => ⟨fun ho hp => ?_, fun hp => ⟨fun hx => ?_, fun hx hm => ?_⟩⟩, ?_⟩
  · have load (sg : Bool) : issue .s r false [d, a] (loadBody sg d a z 0 o) s =
        .next (((s.setSt c st).sStart c st (.load d sg) e pl n other).finish c .s (s.word? st .s) .seq 1) := by
      rw [load_placed h ho ha (memAddr_eq ..) hal hp sg, remoteYard_eq (sPlace_dev hp), sPlace_dev hp, hg, hdisc, hst]
      rfl
    exact ⟨started_of (load true), started_of (load false)⟩
  · refine started_of ?_
    rw [store_placed h ha (memAddr_eq ..) hal hp, remoteYard_eq (sPlace_dev hp), sPlace_dev hp, hg, hdisc, hst, hx]
    rfl
  · refine started_of ?_
    rw [store_placed h ha (memAddr_eq ..) hal hp, remoteYard_eq (sPlace_dev hp), sPlace_dev hp, hg, hdisc, hst, hx, hm]
    rfl
  · intro q l y p k h ho hb hl m hal hp hst amo
    have started {i : Instr} (fn : W64 → AmoFn) (cas : Bool) (hc : (cas && st.xp d) = false) (hi : exec i s = amoWord r fn cas d a b l y p s) :
        amo i (fn (st.xv d)) := by
      refine started_of ?_
      have hl' : (decide (l = 1) && !st.accs.isEmpty) = false := by
        rw [Bool.and_eq_false_imp]
        intro h1
        simp [hl (of_decide_eq_true h1)]
      rw [hi, amo_placed h ho (by simp [ha, hb, hc]) hal hp]
      simp only [hdisc, hl', show s.sStalls s.cur.core st pl (if y = 0 then 4 else 8) = false from hst]
      rfl
    exact ⟨started (fun _ => .add) false rfl rfl, started (fun _ => .and) false rfl rfl, started (fun _ => .or) false rfl rfl,
      started (fun _ => .xor) false rfl rfl, started (fun _ => .min) false rfl rfl, started (fun _ => .max) false rfl rfl,
      started (fun _ => .minu) false rfl rfl, started (fun _ => .maxu) false rfl rfl, started (fun _ => .swap) false rfl rfl,
      fun hd => started .cas true hd rfl⟩

/-- R111, R112: the ten atomics are one word with their function; of them CAS alone reads its register. -/
theorem exec_amo (s : State) (r : Bool) (d a b : BitVec 5) (q l y p : BitVec 1) (k : BitVec 2) :
    ∀ i ∈ [Instr.amoadd r d a b q l k y p, .amoand r d a b q l k y p, .amoor r d a b q l k y p, .amoxor r d a b q l k y p, .amomin r d a b q l k y p,
      .amomax r d a b q l k y p, .amominu r d a b q l k y p, .amomaxu r d a b q l k y p, .amoswap r d a b q l k y p, .cas r d a b q l k y p],
      ∃ fn cas, exec i s = amoWord r fn cas d a b l y p s := by
  simp only [List.forall_mem_cons]
  exact ⟨⟨_, _, exec_amoadd ..⟩, ⟨_, _, exec_amoand ..⟩, ⟨_, _, exec_amoor ..⟩, ⟨_, _, exec_amoxor ..⟩, ⟨_, _, exec_amomin ..⟩,
    ⟨_, _, exec_amomax ..⟩, ⟨_, _, exec_amominu ..⟩, ⟨_, _, exec_amomaxu ..⟩, ⟨_, _, exec_amoswap ..⟩, ⟨_, _, exec_cas ..⟩, nofun⟩

/-- R97, R107, R109, R110, R114, R389: the traps of loads, stores, constant loads and atomics. -/
theorem accessesTrap : Claims.AccessesTrap := by
  intro s r d a b z o st c n e
  have he : memAddr st a z o = e := memAddr_eq ..
  refine ⟨fun h ho ha hal => ?_, fun q l y p k h ho => ?_⟩
  · intro traps
    refine ⟨fun x hx => ⟨load_noPlace h ho ha he hal hx true, load_noPlace h ho ha he hal hx false, ldk_noPlace h ho ha he hal hx⟩,
      fun pl hp hg => ?_, fun pl hp hk => ldk_notConst h ho ha he hal hp hk, fun pl hp hk hg hl => ?_, fun pl hp hg hdisc => ?_,
      fun x hx => store_noPlace h ha he hal hx, fun pl hp => ⟨fun hg => ?_, fun hg hdisc => ?_⟩⟩
    · have load (sg : Bool) : issue .s r false [d, a] (loadBody sg d a z 0 o) s = .next (trapped s .s st .remoteGated e) := by
        rw [load_placed h ho ha he hal hp sg, if_pos hg]
        rfl
      exact ⟨load true, load false⟩
    · have hl' : pl.so = true ∨ s.cores[c].kline? (pl.addr / 64) = none :=
        hl.imp_right fun hl => List.find?_eq_none.mpr fun l hm => by simpa using hl l hm
      show exec _ s = _
      rw [ldk_miss h ho ha he hal hp hk hl', if_pos hg]
      rfl
    · have load (sg : Bool) : issue .s r false [d, a] (loadBody sg d a z 0 o) s = .next (wroteX s .s st 24 d 0 false) := by
        rw [load_placed h ho ha he hal hp sg, hg, hdisc]
        exact congrArg Host.Outcome.next (finish_moved rfl (setSt_setSt ..))
      exact ⟨load true, load false⟩
    · show exec _ s = _
      rw [store_placed h ha he hal hp, if_pos hg]
      rfl
    · show exec _ s = _
      rw [store_placed h ha he hal hp, hg, hdisc]
      rfl
  · intro traps
    have each {x : Cause} {t : W64} (hx : ∀ fn cas, amoWord r fn cas d a b l y p s = .next (trapped s .s st x t)) : traps x t := by
      intro i hi
      obtain ⟨fn, cas, he⟩ := exec_amo s r d a b q l y p k i hi
      rw [he, hx]
    refine ⟨fun hp => each fun fn cas => amo_poison h ho (hp.imp_right .inl), fun ha hb => ⟨fun hd => ?_, fun hd hal => ?_, fun hd hal => ?_⟩⟩
    · exact amo_poison (fn := .cas) (cas := true) h ho (.inr (.inr ⟨rfl, hd⟩))
    · exact each fun fn cas => amo_misaligned h ho (by simp [ha, hb, hd]) hal
    · have clean (cas : Bool) : (st.xp a || st.xp b || (cas && st.xp d)) = false := by simp [ha, hb, hd]
      refine ⟨fun x hx => each fun fn cas => amo_noPlace h ho (clean cas) hal hx, fun pl hp hdisc => each fun fn cas => ?_⟩
      rw [amo_placed h ho (clean cas) hal hp, if_pos hdisc]
      rfl

/-- Settles O7: every access is brought to one state that records it (`started_of`), and every trap to the word's checks in their order. -/
theorem accessesIssue : Obligations.AccessesIssue := ⟨accessesAreRecorded, accessesTrap⟩

end Sys2Proof.Proofs
end

section
/-! PROOF. The constant path: hits, misses, fills and its discard (R95, R110, R118, R156, R238, R243). -/

namespace Sys2Proof.Proofs

open Sys2Proof Sys2Proof.Machine Sys2Proof.Safety Sys2Proof.Laws

/-! ## Constant loads -/

/-- R110: the value of a unit of a constant line. -/
theorem klineValue_eq (l : KLine) (a n : Nat) : klineValue l a n =
    (if l.bad then 0 else (BitVec.ofNat (8 * n) (leNat ((l.data.drop (a % 64)).take n))).signExtend 64, l.bad) := by
  rw [klineValue, ofInt_signedOf]
  cases l.bad <;> rfl

/-- R156, R230: a line is asked for once; the strand, memory, the core's cycle and what the cache holds stay. -/
theorem askLine_spec {s : State} {c : Fin 192} {u : Strand} (hu : s.cores[c].strand = some u) (line tag : Nat) (disc keep : Bool) :
    let t := s.askLine c line tag disc keep
    let ask : KFill := { id := s.cores[c].nextFill, line := line, tag := tag, disc := disc, data := none, upto := none, sid := u.sid, since := u.nextAid,
                         keep := keep }
    t.cores[c].strand = some u ∧ t.cyc c = s.cyc c ∧ t.mem = s.mem ∧ t.cores[c].kcache = s.cores[c].kcache ∧
      t.cores[c].kfills = if s.cores[c].kfills.any (fun f => f.line == line && f.upto.isNone) then s.cores[c].kfills else s.cores[c].kfills ++ [ask] := by
  intro t ask
  have hasker : ((s.strand? c).map fun st => (st.sid, st.nextAid)).getD (0, 0) = (u.sid, u.nextAid) := by rw [State.strand?, hu]; rfl
  cases hany : s.cores[c].kfills.any (fun f => f.line == line && f.upto.isNone) with
  | true =>
    have ht : t = s := by simp only [t, State.askLine, hany]; rfl
    rw [ht]
    exact ⟨hu, rfl, rfl, rfl, rfl⟩
  | false =>
    let s1 := s.setCore c { s.cores[c] with kfills := s.cores[c].kfills ++ [ask], nextFill := s.cores[c].nextFill + 1 }
    have ht : t = if isHbm (64 * line) && !disc then s1.request c (stackOf (64 * line)) (64 * line) 64 (.fill s.cores[c].nextFill) else s1 := by
      simp only [t, State.askLine, hany, hasker]
      rfl
    have hcyc : s1.cyc c = s.cyc c := setCore_cyc s c rfl
    have hcore : s1.cores[c] = _ := setCore_core s c _
    rw [ht]
    split
    · obtain ⟨-, hstrand, hcyc', hmem, -, hcache, hfills⟩ := request_keeps s1 c (stackOf (64 * line)) (64 * line) 64 (.fill s.cores[c].nextFill)
      rw [hcore] at hstrand hcache hfills
      exact ⟨hstrand.trans hu, hcyc'.trans hcyc, hmem, hcache, hfills⟩
    · rw [hcore]
      exact ⟨hu, hcyc, rfl, rfl, rfl⟩

/-- R230, R238: an access outside the own yard stalls for its stack's queue, or, in an SO field, for an earlier access to one. -/
theorem sStalls_window {s : State} {c : Fin 192} {st : Strand} {pl : SPlace} {n : Nat} (h : pl.ownYard = false) : s.sStalls c st pl n = true ↔
    (pl.addr < 2 ^ 40 ∧ s.cores[c].reqStalls (pl.addr / 2 ^ 36) = true) ∨ (pl.so = true ∧ ∃ q ∈ st.accs, q.so = true) := by
  simp [State.sStalls, h, isHbm, stackOf]

/-- R238: no fill of a line that has been dropped is one that a later LDK may wait for. -/
theorem dropLine_serves_none (k : Core) (line n : Nat) : ((k.dropLine line n).kfills.any fun f => f.line == line && f.upto.isNone) = false := by
  rw [List.any_eq_false]
  intro f hf
  obtain ⟨g, -, rfl⟩ := List.mem_map.mp hf
  split <;> simp_all

theorem constantLoads : Claims.ConstantLoads := by
  intro s r d a z o st pl c n e h ho ha hal hp hk
  have he : memAddr st a z o = e := memAddr_eq ..
  refine ⟨fun l hso hl => ?_, ?_⟩
  · have hit := ldk_hit h ho ha he hal hp hk hso hl
    rw [klineValue_eq] at hit
    exact hit
  · intro asks stalls
    refine ⟨fun hasks hst hy => ?_, fun hasks hst hy => ?_⟩
    · rw [ldk_miss h ho ha he hal hp hk hasks.2, hasks.1, (sStalls_window hy).mpr hst]
      rfl
    · intro acc st'
      let k' := if pl.so then (s.setSt c st).cores[c].dropLine (pl.addr / 64) st.nextAid else (s.setSt c st).cores[c]
      let x := ((s.setSt c st).setCore c k').setSt c st'
      have hx : x.cores[c] = { k' with strand := some st' } := by rw [setSt_core, setCore_core]
      have hcyc : x.cyc c = now s := by
        rw [setSt_cyc, setCore_cyc _ _ (by simp only [k']; split <;> rfl), setSt_cyc]
        rfl
      obtain ⟨hstrand, hcyc', hmem, hcache, hfills⟩ := askLine_spec (congrArg Core.strand hx :) (pl.addr / 64) pl.tag pl.disc !pl.so
      rw [hx] at hcache hfills
      have hexec : exec (.ldk r d a z o) s = .next ((x.askLine c (pl.addr / 64) pl.tag pl.disc !pl.so).finish c .s (s.word? st .s) .seq 1) := by
        rw [ldk_miss h ho ha he hal hp hk hasks.2, hasks.1, Bool.eq_false_iff.mpr (mt (sStalls_window hy).mp hst)]
        rfl
      rw [finish_of_strand hstrand] at hexec
      refine ⟨_, hexec, ?_, hmem, ?_, ?_⟩
      · rw [State.strand?, setCore_core, hcyc', hcyc]
      · rw [setCore_core]
        refine hcache.trans ?_
        simp only [k', setSt_core]
        split <;> rfl
      · rw [setCore_core]
        refine hfills.trans ?_
        cases hso : pl.so with
        | false =>
          simp only [k', hso, setSt_core]
          rfl
        | true =>
          simp only [k', hso, if_true, dropLine_serves_none, setSt_core]
          rfl

/-! ## The discard -/

theorem constantPathDiscarded : Claims.ConstantPathDiscarded := by
  intro s c st n hst hfk st1 s1 issued
  have hissued (f : KFill) : issued f = ((s1.findSid f.sid).map Strand.nextAid).getD 0 := by
    simp only [issued]
    cases s1.findSid f.sid <;> rfl
  have hfills : s1.cores[c].kfills = s.cores[c].kfills := by rw [setSt_core]
  have hevent : exec (.constantPathDiscard c) s = .next (s1.discardK c) := by
    rw [exec_constantPathDiscard, execConstantPathDiscard, strandEvent, hst]
    simp only [hfk]
    rfl
  rw [hevent, State.discardK]
  simp only [hissued, hfills]
  simp [s1, State.setCore, State.setSt]

/-! ## A strand's record replaced, and a response -/

section PutStrand

variable (s : State) (u : Strand)

theorem commitAll_stands (ws : List MWrite) (s : State) : (s.commitAll ws).cores = s.cores ∧ (s.commitAll ws).halted = s.halted := by
  unfold State.commitAll
  induction ws generalizing s with
  | nil => exact ⟨rfl, rfl⟩
  | cons w ws ih => exact ih (s.commit w)

theorem reimage_stands (h : Halted) : (s.reimage h).cores = s.cores ∧ (s.reimage h).halted = s.halted := by
  unfold State.reimage
  cases h.place with
  | save a => exact commitAll_stands ..
  | silo a => exact commitAll_stands ..
  | core k => exact ⟨rfl, rfl⟩
  | granary q k => exact ⟨rfl, rfl⟩

/-- R324: the record replaced, on its core or in its image. -/
theorem putStrand_stands :
    (s.putStrand u).cores = s.cores.map (fun k => { k with strand := k.strand.map fun o => if o.sid = u.sid then u else o }) ∧
      (s.putStrand u).halted = s.halted.map fun h => if h.st.sid = u.sid then { h with st := u } else h := by
  unfold State.putStrand
  dsimp only
  split
  · exact reimage_stands ..
  · exact ⟨rfl, rfl⟩

theorem putStrand_at {k : Fin 192} {o : Strand} (h : s.cores[k].strand = some o) (ho : o.sid = u.sid) :
    (s.putStrand u).cores[k] = { s.cores[k] with strand := some u } := by
  rw [Fin.getElem_fin] at h
  simp [(putStrand_stands s u).1, h, ho]

theorem putStrand_image {h : Halted} (hm : h ∈ s.halted) (hs : h.st.sid = u.sid) : { h with st := u } ∈ (s.putStrand u).halted := by
  rw [(putStrand_stands s u).2]
  exact List.mem_map.mpr ⟨h, hm, if_pos hs⟩

/-- R324: the record of a strand that is not halted is in no memory. -/
theorem putStrand_standing (h : s.isHalted u.sid = false) :
    s.putStrand u = { s with cores := s.cores.map fun k => { k with strand := k.strand.map fun o => if o.sid = u.sid then u else o } } := by
  have hne : ∀ h ∈ s.halted, h.st.sid ≠ u.sid := by simpa [State.isHalted] using h
  have hmap : (s.halted.map fun h => if h.st.sid = u.sid then { h with st := u } else h) = s.halted :=
    (List.map_congr_left fun h hm => if_neg (hne h hm)).trans (List.map_id _)
  have hfind : s.halted.find? (fun h => h.st.sid == u.sid) = none := List.find?_eq_none.mpr fun h hm => by simpa using hne h hm
  simp only [State.putStrand, hmap, hfind]

end PutStrand

/-- R76: the count of bytes from other dies touches nothing else. -/
theorem countXdie_keeps (s : State) (c : Fin 192) (die : Option Nat) (n : Nat) :
    let t := s.countXdie c die n
    t.mem = s.mem ∧ t.halted = s.halted ∧ ∀ k : Fin 192, ∃ x, t.cores[k] = { s.cores[k] with pmxdie := x } := by
  intro t
  simp only [t, State.countXdie]
  split
  · exact ⟨rfl, rfl, fun k => ⟨_, rfl⟩⟩
  · refine ⟨rfl, rfl, fun k => ?_⟩
    by_cases hk : k = c
    · subst hk; exact ⟨_, setCore_core ..⟩
    · refine ⟨s.cores[k].pmxdie, ?_⟩
      simp [State.setCore, Vector.getElem_set_ne, Fin.val_ne_of_ne (Ne.symm hk)]


theorem xlater_sid (st : Strand) (due : Nat) (r : BitVec 5) (v : W64) (bad byS : Bool) : (st.xlater due r v bad byS).sid = st.sid := by
  unfold Strand.xlater
  split <;> rfl

theorem xput_sid (st : Strand) (r : BitVec 5) (v : W64) (bad : Bool) : (st.xput r v bad).sid = st.sid := by
  unfold Strand.xput
  split <;> rfl

/-- The strand without an access that has been answered. -/
def answered (st : Strand) (a : SAcc) : Strand := { st with accs := st.accs.filter fun o => o.id != a.id }

/-- R63: the register of a load takes its value for the next cycle. -/
theorem accDone_standing {s : State} {c : Fin 192} {st : Strand} {a : SAcc} {d : BitVec 5} (hd : a.dest = some d) (hs : s.isHalted st.sid = false)
    (v : W64) (bad : Bool) : s.accDone c st a v bad = s.putStrand ((answered st a).xlater (s.cyc c + 1) d v bad true) := by
  rw [State.accDone, hd]
  dsimp only
  rw [hs]
  rfl

/-! ## Lines are filled -/

/-- R110, R156: the line that a fill may take now. -/
def fillLine (s : State) (f : KFill) : Option (List Byte × Bool) :=
  match f.data with
  | some x => some x
  | none =>
    if f.disc then some (List.replicate 64 0, false)
    else if 2 ^ 40 ≤ 64 * f.line && !s.peerCut (64 * f.line) && !s.fillBehind f then
      some (s.mem.reads f.tag (64 * f.line) 64, s.mem.bad f.line)
    else none

/-- The constant path of a core once a fill has its line. -/
def lineTaken (s : State) (c : Fin 192) (f : KFill) (l : KLine) : State :=
  s.setCore c { s.cores[c] with
    kfills := s.cores[c].kfills.filter fun o => o.id != f.id,
    kcache := if f.upto.isNone && f.keep then s.cores[c].holdLine l else s.cores[c].kcache }

/-- What a fill with its line leaves. -/
def filled (s : State) (c : Fin 192) (f : KFill) (l : KLine) : State :=
  if isHbm (64 * f.line) then (lineTaken s c f l).serveLdk c f l
  else (((lineTaken s c f l).serveLdk c f l).countBytes (s.partOn c) (s.launchOn c) (64 * f.line) 64).countXdie c (s.dieOf c (64 * f.line)) 64

theorem constFill_eq {s : State} {c : Fin 192} {i : Nat} {f : KFill} (h : s.cores[c].kfills[i]? = some f) : exec (.constFill c i) s =
    if s.cores[c].fillWaits f then .next s
    else match fillLine s f with
      | none => .next s
      | some b => .next (filled s c f { line := f.line, data := b.1, bad := b.2 }) := by
  rw [exec_constFill, execConstFill, h]
  dsimp only
  refine if_congr Iff.rfl rfl ?_
  unfold fillLine
  cases f.data with
  | some b => rfl
  | none =>
    cases f.disc with
    | true => rfl
    | false =>
      have hfree : (decide (2 ^ 40 ≤ 64 * f.line) && !s.peerCut (64 * f.line) && !s.fillBehind f) =
          !(isHbm (64 * f.line) || s.peerCut (64 * f.line) || s.fillBehind f) := by
        rw [Bool.not_or, Bool.not_or, isHbm, ← decide_not, decide_eq_decide.mpr not_lt]
      rw [hfree]
      cases isHbm (64 * f.line) || s.peerCut (64 * f.line) || s.fillBehind f <;> rfl

/-- R243: a fill waits for the older fills of its line and of lines outside HBM storage. -/
theorem fillWaits_iff (k : Core) (f : KFill) : k.fillWaits f = true ↔
    ∃ o ∈ k.kfills, o.id < f.id ∧ (o.line = f.line ∨ (o.data = none ∧ o.disc = false ∧ 2 ^ 40 ≤ 64 * o.line)) := by
  simp [Core.fillWaits, isHbm, and_assoc]

section OneAccess

variable {s : State} {c : Fin 192} {f : KFill} {st : Strand} {a : SAcc} {d : BitVec 5}

theorem accStrands_alone (hst : s.cores[c].strand = some st) (hh : ∀ h ∈ s.halted, h.core ≠ c) : s.accStrands c = [st] := by
  have hnone : s.halted.filter (fun h => h.core == c) = [] := List.filter_eq_nil_iff.mpr fun h hm => by simpa using hh h hm
  rw [State.accStrands, hst, hnone]
  rfl

/-- R110, R118: the one LDK outstanding takes its unit where the line is its own and it issued before the discard that overtook the fill. -/
theorem serveLdk_one (hst : s.cores[c].strand = some st) (hh : ∀ h ∈ s.halted, h.core ≠ c) (haccs : st.accs = [a]) (hop : a.op = .ldk d)
    (hsid : st.sid = f.sid) (l : KLine) : s.serveLdk c f l =
      if a.addr / 64 = l.line ∧ ∀ n, f.upto = some n → a.id < n then
        s.accDone c st a (klineValue l a.addr a.size).1 (klineValue l a.addr a.size).2
      else s := by
  have halone := accStrands_alone hst hh
  have haccsOf : s.accsOf c = [(st, a)] := by rw [State.accsOf, halone]; simp [haccs]
  have hfind : [st].find? (fun o => o.sid == st.sid) = some st := by simp
  rw [State.serveLdk, haccsOf]
  simp only [List.foldl_cons, List.foldl_nil, hop, halone, hfind]
  refine if_congr ?_ rfl rfl
  change _ ↔ lineOf a.addr = l.line ∧ _
  rw [hsid]
  cases f.upto <;> simp

end OneAccess

/-- R76, R156: a fill leaves of memory and of its core what the LDK served leave, but for what is counted. -/
theorem filled_keeps (s : State) (c : Fin 192) (f : KFill) (l : KLine) :
    let t := filled s c f l
    let v := (lineTaken s c f l).serveLdk c f l
    t.mem = v.mem ∧ ∃ x, t.cores[c] = { v.cores[c] with pmxdie := x } := by
  intro t v
  simp only [t, filled]
  split
  · exact ⟨rfl, _, rfl⟩
  · have hc := charged_countBytes v (s.partOn c) (s.launchOn c) (64 * f.line) 64
    obtain ⟨hmem, -, hcore⟩ := countXdie_keeps (v.countBytes (s.partOn c) (s.launchOn c) (64 * f.line) 64) c (s.dieOf c (64 * f.line)) 64
    refine ⟨hmem.trans hc.mem, ?_⟩
    rw [← hc.cores]
    exact hcore c

/-- R110, R118: the core of a fill whose one LDK outstanding it serves or passes by. -/
theorem filled_one {s : State} {c : Fin 192} {f : KFill} {st : Strand} {a : SAcc} {d : BitVec 5} (hst : s.cores[c].strand = some st)
    (haccs : st.accs = [a]) (hop : a.op = .ldk d) (hsid : st.sid = f.sid) (hh : ∀ h ∈ s.halted, h.core ≠ c) (hstands : s.isHalted st.sid = false)
    (l : KLine) :
    let t := filled s c f l
    let v := klineValue l a.addr a.size
    t.mem = s.mem ∧ ∃ x, t.cores[c] = { (lineTaken s c f l).cores[c] with
      pmxdie := x
      strand := some (if a.addr / 64 = l.line ∧ ∀ n, f.upto = some n → a.id < n then
        { st with accs := [] }.xlater (s.cyc c + 1) d v.1 v.2 true else st) } := by
  intro t v
  let x := lineTaken s c f l
  have hx : x.cores[c] = _ := setCore_core s c _
  have hstx : x.cores[c].strand = some st := by rw [hx]; exact hst
  have hserve := serveLdk_one hstx (s := x) hh haccs hop hsid l
  obtain ⟨hmem, y, hcore⟩ := filled_keeps s c f l
  rw [hserve] at hmem hcore
  by_cases hs : a.addr / 64 = l.line ∧ ∀ n, f.upto = some n → a.id < n
  · have hgone : answered st a = { st with accs := [] } := by simp [answered, haccs]
    let u := (answered st a).xlater (x.cyc c + 1) d v.1 v.2 true
    have hu : u.sid = st.sid := xlater_sid ..
    have hdone : x.accDone c st a v.1 v.2 = x.putStrand u := accDone_standing (s := x) (by rw [SAcc.dest, hop]) hstands v.1 v.2
    have hput : (x.putStrand u).cores[c] = { x.cores[c] with strand := some u } := putStrand_at x u hstx hu.symm
    have hcyc : x.cyc c = s.cyc c := setCore_cyc s c rfl
    rw [if_pos hs, hdone] at hmem hcore
    rw [putStrand_standing x u (by rw [hu]; exact hstands)] at hmem
    refine ⟨hmem, y, ?_⟩
    rw [if_pos hs, hcore, hput, ← hgone, ← hcyc]
  · rw [if_neg hs] at hmem hcore
    refine ⟨hmem, y, ?_⟩
    rw [if_neg hs, ← hst, hcore, hx]

theorem constantLinesFill : Claims.ConstantLinesFill := by
  intro s c i f st a d hf hst haccs hop hsid hh hstands waits line
  have hline : line = fillLine s f := rfl
  have hwaits : s.cores[c].fillWaits f = true ↔ waits := fillWaits_iff ..
  rw [constFill_eq hf]
  refine ⟨fun h => ?_, fun bs bad hw hl => ?_⟩
  · rcases h with h | h
    · rw [if_pos (hwaits.mpr h)]
    · rw [← hline, h, ite_self]
  · rw [if_neg (mt hwaits.mp hw), ← hline, hl]
    obtain ⟨hmem, x, hcore⟩ := filled_one hst haccs hop hsid hh hstands { line := f.line, data := bs, bad := bad }
    rw [lineTaken, setCore_core, klineValue_eq] at hcore
    have hcache := (congrArg Core.kcache hcore :)
    have hstrand := (congrArg Core.strand hcore :)
    refine ⟨_, rfl, hmem, (congrArg Core.kfills hcore :), fun hu hk => ?_, fun hu => ?_, fun ha hid => ?_, fun ha => ?_⟩
    · rw [hcache, hu, hk]
      rfl
    · refine hcache.trans (if_neg ?_)
      simpa [Option.isNone_iff_eq_none, imp_iff_not_or] using hu
    · intro v _ _
      exact hstrand.trans (congrArg some (if_pos ⟨ha, hid⟩))
    · exact hstrand.trans (congrArg some (if_neg fun h => ha h.1))

/-- Settles O9: of a core's constant path, the word (`ldk_hit`, `ldk_miss`), the discard, and the fill (`constFill_eq`, `filled_one`). -/
theorem constantPath : Obligations.ConstantPath := ⟨constantLoads, constantPathDiscarded, constantLinesFill⟩

end Sys2Proof.Proofs
end

section
/-! PROOF. S accesses performed at their targets: atomics, loads and stores outside HBM storage (R63, R106, R109, R111, R112, R114, R221, R240, R324). -/

namespace Sys2Proof.Proofs

open Sys2Proof Sys2Proof.Machine Sys2Proof.Safety Sys2Proof.Laws

/-! ## The functions of the atomics -/

/-- R111, R112: what an atomic stores in a unit of `w` bits, as a value, is what its function gives. -/
theorem amo_apply (fn : AmoFn) {w o : Nat} (ho : o < 2 ^ w) (b : W64) :
    amoNew fn (BitVec.ofNat w o) (b.setWidth w) = (if (fn.apply w o b.toNat).2 then some (BitVec.ofNat w (fn.apply w o b.toNat).1) else none) ∧
      (fn.apply w o b.toNat).1 < 2 ^ w := by
  have hold : (BitVec.ofNat w o).toNat = o := by rw [BitVec.toNat_ofNat, Nat.mod_eq_of_lt ho]
  have hy : (b.setWidth w).toNat = b.toNat % 2 ^ w := by simp
  have hsigned : signedOf w b.toNat = (b.setWidth w).toInt := by rw [signedOf_eq_toInt, BitVec.ofNat_toNat]
  have hstored {v : Nat} {x : BitVec w} (hx : x.toNat = v) : some x = some (BitVec.ofNat w v) ∧ v < 2 ^ w :=
    ⟨congrArg some (by rw [← hx, BitVec.ofNat_toNat, BitVec.setWidth_eq]), hx ▸ x.isLt⟩
  -- of equal operands either is the lesser and the greater
  have hsame (h : (BitVec.ofNat w o).toInt = (b.setWidth w).toInt) : o = b.toNat % 2 ^ w := by
    rw [← hold, ← hy, BitVec.eq_of_toInt_eq h]
  cases fn with
  | add => exact hstored (by rw [BitVec.toNat_add, hold, hy, Nat.add_mod_mod]; rfl)
  | and => exact hstored (by rw [BitVec.toNat_and, hold, hy]; rfl)
  | or => exact hstored (by rw [BitVec.toNat_or, hold, hy]; rfl)
  | xor => exact hstored (by rw [BitVec.toNat_xor, hold, hy]; rfl)
  | min =>
    refine hstored ?_
    show _ = if signedOf w o < signedOf w b.toNat then o else b.toNat % 2 ^ w
    rw [hsigned, signedOf_eq_toInt, apply_ite BitVec.toNat, hold, hy]
    split <;> split <;> omega
  | max =>
    refine hstored ?_
    show _ = if signedOf w o < signedOf w b.toNat then b.toNat % 2 ^ w else o
    rw [hsigned, signedOf_eq_toInt, apply_ite BitVec.toNat, hold, hy]
    split <;> split <;> omega
  | minu =>
    refine hstored ?_
    show _ = if o < b.toNat % 2 ^ w then o else b.toNat % 2 ^ w
    rw [apply_ite BitVec.toNat, hold, hy]
    split <;> split <;> omega
  | maxu =>
    refine hstored ?_
    show _ = if o < b.toNat % 2 ^ w then b.toNat % 2 ^ w else o
    rw [apply_ite BitVec.toNat, hold, hy]
    split <;> split <;> omega
  | swap => exact hstored hy
  | cas e =>
    have heq : BitVec.ofNat w o = e.setWidth w ↔ (o == e.toNat % 2 ^ w) = true := by
      rw [beq_iff_eq, ← BitVec.toNat_inj, hold]
      simp
    refine ⟨?_, (hstored hy).2⟩
    rw [amoNew, if_congr heq (hstored hy).1 rfl]
    rfl

/-! ## Writes at their targets -/

/-- A core's cycle is that of its cluster's clock, whatever else of a cluster changes. -/
theorem cyc_cluster {s t : State} {q : Fin 48} {k : Cluster} (hcores : t.cores = s.cores) (ht : t.clusters = s.clusters.set q k)
    (hk : k.cyc = s.clusters[q].cyc) (c : Fin 192) : t.cyc c = s.cyc c := by
  rw [State.cyc, State.cyc, hcores, ht]
  by_cases hq : clusterOf c = q
  · subst hq
    simp [hk]
  · simp [Vector.getElem_set_ne, Fin.val_ne_of_ne (Ne.symm hq)]

/-- R221, R240: an atomic's write reaches memory; no strand and no cycle changes. -/
theorem landAtomic_keeps (s : State) (w : MWrite) :
    let t := s.landAtomic w
    t.mem = s.mem.apply w ∧ t.cores = s.cores ∧ t.halted = s.halted ∧ ∀ c, t.cyc c = s.cyc c := by
  intro t
  simp only [t, State.landAtomic]
  split
  · exact ⟨rfl, rfl, rfl, cyc_cluster rfl rfl rfl⟩
  · exact ⟨rfl, rfl, rfl, fun _ => rfl⟩

/-- R109, R221: a store's write reaches memory and is seen by the monitors; no strand and no cycle changes. -/
theorem landFar_keeps (s : State) (w : MWrite) :
    let t := s.landFar w
    t.mem = s.mem.apply w ∧ t.mons = s.mons.map (Monitor.see w.touched) ∧ t.cores = s.cores ∧ t.halted = s.halted ∧ ∀ c, t.cyc c = s.cyc c := by
  intro t
  simp only [t, State.landFar]
  split
  · exact ⟨rfl, rfl, rfl, rfl, cyc_cluster rfl rfl rfl⟩
  · exact ⟨rfl, rfl, rfl, rfl, fun _ => rfl⟩

/-- R316: what counting bytes leaves of memory, the strands and the cycles. -/
theorem countBytes_keeps (s : State) (p : Fin 64) (launch a n : Nat) :
    let t := s.countBytes p launch a n
    t.mem = s.mem ∧ t.mons = s.mons ∧ t.cores = s.cores ∧ t.halted = s.halted ∧ ∀ c, t.cyc c = s.cyc c := by
  intro t
  have h := charged_countBytes s p launch a n
  refine ⟨h.mem, (congrArg State.mons h.same :), h.cores, (congrArg State.halted h.same :), fun c => ?_⟩
  rw [State.cyc, State.cyc, h.cores, (congrArg State.clusters h.same :)]

/-- R63, R324: a strand's record replaced where it stands or in its image, and the bytes from another die counted. -/
theorem putStrand_counted {s s1 : State} (hc : s1.cores = s.cores) (hh : s1.halted = s.halted) (u : Strand) (c : Fin 192) (die : Option Nat) (n : Nat) :
    let t := (s1.putStrand u).countXdie c die n
    (s.isHalted u.sid = false → t.mem = s1.mem ∧
      ∀ (k : Fin 192) (o : Strand), s.cores[k].strand = some o → o.sid = u.sid → t.cores[k].strand = some u) ∧
      ∀ h ∈ s.halted, h.st.sid = u.sid → { h with st := u } ∈ t.halted := by
  intro t
  obtain ⟨hmem, hhalted, hcores⟩ := countXdie_keeps (s1.putStrand u) c die n
  refine ⟨fun hs => ⟨hmem.trans ?_, fun k o ho hsid => ?_⟩, fun h hm hsid => ?_⟩
  · rw [putStrand_standing s1 u (by rw [State.isHalted, hh]; exact hs)]
  · obtain ⟨x, hk⟩ := hcores k
    rw [hk, putStrand_at s1 u (by rw [hc]; exact ho) hsid]
  · rw [hhalted]
    exact putStrand_image s1 u (by rw [hh]; exact hm) hsid

/-- A strand whose access has been answered with a value: its register takes it for the next cycle, in an image at once. -/
def answeredWith (s : State) (c : Fin 192) (st : Strand) (a : SAcc) (d : BitVec 5) (v : W64) (bad : Bool) : Strand :=
  if s.isHalted st.sid then (answered st a).xput d v bad else (answered st a).xlater (s.cyc c + 1) d v bad true

theorem answeredWith_sid (s : State) (c : Fin 192) (st : Strand) (a : SAcc) (d : BitVec 5) (v : W64) (bad : Bool) :
    (answeredWith s c st a d v bad).sid = st.sid := by
  unfold answeredWith
  split
  · exact xput_sid ..
  · exact xlater_sid ..

/-- R63, R324: an access answered, the bytes counted, on a state whose strands and cycles are those of `s`. -/
theorem answer_spec {s s1 : State} {c : Fin 192} {st : Strand} {a : SAcc} {d : BitVec 5} (hd : a.dest = some d) (hc : s1.cores = s.cores)
    (hh : s1.halted = s.halted) (hcyc : s1.cyc c = s.cyc c) (v : W64) (bad : Bool) (p : Fin 64) (launch n : Nat) (die : Option Nat) :
    let t := ((s1.countBytes p launch a.addr n).accDone c st a v bad).countXdie c die n
    (s.isHalted st.sid = false → t.mem = s1.mem ∧ ∀ (k : Fin 192) (o : Strand), s.cores[k].strand = some o → o.sid = st.sid →
      t.cores[k].strand = some ((answered st a).xlater (s.cyc c + 1) d v bad true)) ∧
      ∀ h ∈ s.halted, h.st.sid = st.sid → { h with st := (answered st a).xput d v bad } ∈ t.halted := by
  intro t
  obtain ⟨hmem2, -, hc2, hh2, hcyc2⟩ := countBytes_keeps s1 p launch a.addr n
  have hdone : (s1.countBytes p launch a.addr n).accDone c st a v bad =
      (s1.countBytes p launch a.addr n).putStrand (answeredWith s c st a d v bad) := by
    rw [State.accDone, hd, answeredWith, hcyc2 c, hcyc, State.isHalted, State.isHalted, hh2, hh]
    rfl
  have ht : t = _ := congrArg (State.countXdie · c die n) hdone
  obtain ⟨hstands, himage⟩ := putStrand_counted (hc2.trans hc) (hh2.trans hh) (answeredWith s c st a d v bad) c die n
  rw [answeredWith_sid] at hstands himage
  rw [ht]
  refine ⟨fun hs => ?_, fun h hm hsid => ?_⟩
  · obtain ⟨hmem, hcores⟩ := hstands hs
    refine ⟨hmem.trans hmem2, fun k o ho hsid => (hcores k o ho hsid).trans ?_⟩
    rw [answeredWith, hs]
    rfl
  · have hs : s.isHalted st.sid = true := List.any_eq_true.mpr ⟨h, hm, beq_iff_eq.mpr hsid⟩
    have hu : answeredWith s c st a d v bad = (answered st a).xput d v bad := if_pos hs
    rw [← hu]
    exact himage h hm hsid

/-! ## Atomics -/

/-- The atomic that a core has outstanding: S waits for it, so there is no second. -/
def atomicOf (s : State) (c : Fin 192) : Option (Strand × SAcc) :=
  (s.accsOf c).find? fun p => match p.2.op with | .amo _ _ _ => true | _ => false

/-- What the outcome of an atomic at its target leaves: its answer or its trap (R111, R114). -/
def amoOutcome (s : State) (c : Fin 192) (st : Strand) (a : SAcc) (r : State × W64 × Option Nat) : State :=
  match r.2.2 with
  | some e => r.1.accTrap c st a (if e = 8 then .poison else .remoteGated)
  | none => ((r.1.countBytes st.part st.launch a.addr a.size).accDone c st a r.2.1 false).countXdie c (s.dieOf c a.addr) a.size

section Atomics

variable {s : State} {c : Fin 192} {st : Strand} {a : SAcc} {fn : AmoFn} {d : BitVec 5} {b : W64}

/-- R111, R240: the response of an atomic outside HBM storage that waits for no older access. -/
theorem atomicResponse_eq (hf : atomicOf s c = some (st, a)) (hop : a.op = .amo fn d b) (hp : a.performed = false) (ha : 2 ^ 40 ≤ a.addr)
    (hold : st.olderMeets a = false) : exec (.atomicResponse c) s =
      .next (if s.unitBusy a.addr a.size then s else amoOutcome s c st a (s.perform st.sid a fn b (s.accGated st a))) := by
  have hhbm : isHbm a.addr = false := decide_eq_false (Nat.not_lt.mpr ha)
  rw [exec_atomicResponse, execAtomicResponse]
  split
  · next h => exact absurd (h.symm.trans hf) nofun
  · next x y h =>
    obtain ⟨rfl, rfl⟩ := Prod.mk.inj (Option.some.inj (h.symm.trans hf))
    simp only [hop, hhbm, hp, hold]
    cases s.unitBusy y.addr y.size with
    | true => rfl
    | false => obtain ⟨s1, v, _ | e⟩ := s.perform x.sid y fn b (s.accGated x y) <;> rfl

/-- R111: memory with a unit stored. -/
theorem unitBecomes_apply {m : Mem} (hm : m.wf = true) {a tag n v : Nat} (hn : n < 64) (hv : v < 2 ^ (8 * n)) :
    UnitBecomes m (m.apply (MWrite.plain a tag (leBytes n v))) a n (some (BitVec.ofNat (8 * n) v)) := by
  obtain ⟨hbyte, -, hbad⟩ := apply_plain hm (a := a) (tag := tag) (bs := leBytes n v) (by rwa [leBytes_length])
  refine ⟨nofun, fun x hx => ⟨fun q => ?_, hbad⟩⟩
  have hxv : x.toNat = v := by rw [← Option.some.inj hx, BitVec.toNat_ofNat, Nat.mod_eq_of_lt hv]
  rw [hbyte, leBytes_getElem?, hxv]
  by_cases hq : a ≤ q
  · by_cases hl : q < a + n
    · simp [hq, hl, show q - a < n by omega]
    · simp [hq, hl, show ¬ q - a < n by omega]
  · simp [hq]

/-- R111: an atomic at a target that is neither gated nor poisoned: the old value, and memory with the new one. -/
theorem perform_spec (hm : s.mem.wf = true) (hs : a.size = 4 ∨ a.size = 8) (hbad : (s.view st.sid 0).bad (a.addr / 64) = false) :
    let w := 8 * a.size
    let old : BitVec w := BitVec.ofNat w (leNat ((s.view st.sid 0).reads a.tag a.addr a.size))
    let r := s.perform st.sid a fn b false
    r.2 = (old.signExtend 64, none) ∧ UnitBecomes s.mem r.1.mem a.addr a.size (amoNew fn old (b.setWidth w)) ∧
      r.1.cores = s.cores ∧ r.1.halted = s.halted ∧ ∀ c, r.1.cyc c = s.cyc c := by
  intro w old r
  have hlt : leNat ((s.view st.sid 0).reads a.tag a.addr a.size) < 2 ^ w := by
    have h := leNat_lt ((s.view st.sid 0).reads a.tag a.addr a.size)
    rwa [reads_length] at h
  obtain ⟨hnew, hv⟩ := amo_apply fn hlt b
  have hr1 : r.1 = if (fn.apply w (leNat ((s.view st.sid 0).reads a.tag a.addr a.size)) b.toNat).2 then
      (s.supersede st.sid a.addr a.size).landAtomic (MWrite.plain a.addr a.tag
        (leBytes a.size (fn.apply w (leNat ((s.view st.sid 0).reads a.tag a.addr a.size)) b.toNat).1)) else s := by
    simp only [r, State.perform, lineOf, hbad]
    rfl
  have hr2 : r.2 = (old.signExtend 64, none) := by
    simp only [r, State.perform, lineOf, hbad, ofInt_signedOf]
    rfl
  refine ⟨hr2, ?_⟩
  rw [hr1, hnew]
  split
  · obtain ⟨hmem, hcores, hhalted, hcyc⟩ := landAtomic_keeps (s.supersede st.sid a.addr a.size) (MWrite.plain a.addr a.tag
      (leBytes a.size (fn.apply w (leNat ((s.view st.sid 0).reads a.tag a.addr a.size)) b.toNat).1))
    refine ⟨?_, hcores, hhalted, hcyc⟩
    rw [hmem]
    exact unitBecomes_apply hm (by omega) hv
  · exact ⟨⟨fun _ => rfl, nofun⟩, rfl, rfl, fun _ => rfl⟩

end Atomics

theorem atomicsPerform : Claims.AtomicsPerform := by
  intro s c st a fn d b hf hop hp ha hg hbad hsize _ hold hm
  refine ⟨fun hb => ?_, fun hb => ?_⟩
  · rw [atomicResponse_eq hf hop hp ha hold, hb]
    rfl
  · intro w old y new gone
    obtain ⟨hr, hunit, hcores, hhalted, hcyc⟩ := perform_spec (fn := fn) (b := b) hm hsize hbad
    obtain ⟨hstands, himage⟩ := answer_spec (by rw [SAcc.dest, hop]) hcores hhalted (hcyc c) (old.signExtend 64) false st.part st.launch a.size
      (s.dieOf c a.addr)
    refine ⟨_, ?_, fun hs => ?_, himage⟩
    · rw [atomicResponse_eq hf hop hp ha hold, hb, hg]
      simp only [amoOutcome, hr]
      rfl
    · obtain ⟨hmem, hstrand⟩ := hstands hs
      exact ⟨by rw [hmem]; exact hunit, hstrand⟩

/-- R114, R324: S stands again at an access that cannot be performed, and takes the trap. -/
theorem accTrap_standing {s : State} {c : Fin 192} {st : Strand} {a : SAcc} (hs : s.isHalted st.sid = false) (ht : st.trapAt = none)
    (hh : st.handler = a.inHandler) (cause : Cause) : s.accTrap c st a cause =
      s.raiseTrap c { answered st a with pc := { st.pc with s := a.pc }, loops := a.loops, lbS := a.lbuf } .s cause a.dev := by
  have hrewind : (answered st a).rewind a = { answered st a with pc := { st.pc with s := a.pc }, loops := a.loops, lbS := a.lbuf } :=
    if_neg (show ¬(st.handler && !a.inHandler) = true by rw [hh, Bool.and_not_self]; exact Bool.false_ne_true)
  have hmeets : ¬(s.isHalted st.sid || st.trapAt.isSome || st.handler != a.inHandler) = true := by simp [hs, ht, hh]
  exact (if_neg hmeets).trans (congrArg (s.raiseTrap c · .s cause a.dev) hrewind)

theorem atomicsFault : Claims.AtomicsFault := by
  intro s c st a fn d b hf hop hp ha hold hb hs ht hh back
  refine ⟨fun hg => ?_, fun hg hbad => ?_⟩
  · rw [atomicResponse_eq hf hop hp ha hold, hb, hg]
    simp only [amoOutcome, State.perform]
    exact congrArg _ (accTrap_standing hs ht hh _)
  · rw [atomicResponse_eq hf hop hp ha hold, hb, hg]
    simp only [amoOutcome, State.perform, lineOf, hbad]
    exact congrArg _ (accTrap_standing hs ht hh _)

/-! ## Loads and stores -/

section Responses

variable {s : State} {c : Fin 192} {i : Nat} {st : Strand} {a : SAcc}

theorem not_accWaits (ha : 2 ^ 40 ≤ a.addr) (hold : st.olderMeets a = false) (hcut : s.peerCut a.addr = false) : ¬s.accWaits st a = true := by
  have hhbm : isHbm a.addr = false := decide_eq_false (Nat.not_lt.mpr ha)
  simp [State.accWaits, hhbm, hold, hcut]

/-- R109: a load or store waits for an older access to its bytes, and for a port. -/
theorem accessResponse_waits (hf : (s.accsOf c)[i]? = some (st, a)) (h : st.olderMeets a = true ∨ s.peerCut a.addr = true) :
    exec (.accessResponse c i) s = .next s := by
  have hw : s.accWaits st a = true := by rcases h with h | h <;> simp [State.accWaits, h]
  rw [exec_accessResponse, execAccessResponse, hf]
  exact if_pos hw

theorem accessResponse_load (hf : (s.accsOf c)[i]? = some (st, a)) (ha : 2 ^ 40 ≤ a.addr) (hold : st.olderMeets a = false)
    (hcut : s.peerCut a.addr = false) {d : BitVec 5} {sg : Bool} (hop : a.op = .load d sg) :
    let v := loadValue s.mem a.tag a.addr a.size sg false
    exec (.accessResponse c i) s = .next (if a.blocking && s.accGated st a then s.accTrap c st a .remoteGated
      else ((s.countBytes st.part st.launch a.addr a.size).accDone c st a v.1 v.2).countXdie c (s.dieOf c a.addr) a.size) := by
  intro v
  have hw := not_accWaits ha hold hcut
  have hsg : a.signed = sg := by rw [SAcc.signed, hop]
  rw [exec_accessResponse, execAccessResponse, hf]
  refine (if_neg hw).trans ?_
  simp only [hop, hsg]
  exact (apply_ite Host.Outcome.next _ _ _).symm

theorem accessResponse_store (hf : (s.accsOf c)[i]? = some (st, a)) (ha : 2 ^ 40 ≤ a.addr) (hold : st.olderMeets a = false)
    (hcut : s.peerCut a.addr = false) {w : MWrite} (hop : a.op = .store w) :
    exec (.accessResponse c i) s = .next (if a.blocking && s.accGated st a then s.accTrap c st a .remoteGated
      else ((s.countBytes st.part st.launch a.addr a.size).landFar w).putStrand (answered st a)) := by
  have hw := not_accWaits ha hold hcut
  have hdest : a.dest = none := by rw [SAcc.dest, hop]
  rw [exec_accessResponse, execAccessResponse, hf]
  refine (if_neg hw).trans ?_
  simp only [hop, State.accDone, hdest]
  exact (apply_ite Host.Outcome.next _ _ _).symm

end Responses

/-- R96, R106: what a load of a unit takes, signed or not. -/
theorem loadValue_eq (m : Mem) (tag a n : Nat) (sg : Bool) :
    let v := BitVec.ofNat (8 * n) (leNat (m.reads tag a n))
    loadValue m tag a n sg false = (if m.bad (a / 64) then 0 else if sg then v.signExtend 64 else v.zeroExtend 64, m.bad (a / 64)) := by
  intro v
  cases hb : m.bad (a / 64) with
  | true => exact loadValue_poisoned hb
  | false =>
    cases sg with
    | true => exact loadValue_signed hb
    | false => exact loadValue_unsigned hb

theorem accessesAnswered : Claims.AccessesAnswered := by
  intro s c i st a hf ha gone
  refine ⟨accessResponse_waits hf, fun hold hcut => ⟨fun d sg hop hg => ?_, fun w hop hg => ?_, fun hop hb hg hs ht hh => ?_⟩⟩
  · intro v bad x
    have hgate : ¬(a.blocking && s.accGated st a) = true := by rcases hg with h | h <;> simp [h]
    obtain ⟨hstands, himage⟩ := answer_spec (s := s) (c := c) (by rw [SAcc.dest, hop]) rfl rfl rfl x bad st.part st.launch a.size (s.dieOf c a.addr)
    refine ⟨_, ?_, hstands, himage⟩
    rw [accessResponse_load hf ha hold hcut hop, if_neg hgate, loadValue_eq]
  · have hgate : ¬(a.blocking && s.accGated st a) = true := by rcases hg with h | h <;> simp [h]
    obtain ⟨hmem, hmons, hcores, hhalted, -⟩ := countBytes_keeps s st.part st.launch a.addr a.size
    obtain ⟨hmem', hmons', hcores', hhalted', -⟩ := landFar_keeps (s.countBytes st.part st.launch a.addr a.size) w
    refine ⟨_, (accessResponse_store hf ha hold hcut hop).trans (congrArg _ (if_neg hgate)), fun hs => ⟨?_, fun k => ?_, fun k o ho hsid => ?_⟩,
      fun h hm hsid => ?_⟩
    · rw [putStrand_standing _ _ (by rw [State.isHalted, hhalted', hhalted]; exact hs)]
      exact hmem'.trans (by rw [hmem])
    · rw [putStrand_standing _ _ (by rw [State.isHalted, hhalted', hhalted]; exact hs)]
      show (State.mons _)[k] = _
      rw [hmons', hmons]
      exact Vector.getElem_map ..
    · rw [putStrand_at _ (answered st a) (by rw [hcores', hcores]; exact ho) hsid]
      rfl
    · exact putStrand_image _ (answered st a) (by rw [hhalted', hhalted]; exact hm) hsid
  · have hgate : (a.blocking && s.accGated st a) = true := by rw [hb, hg]; rfl
    rcases hop with ⟨d, sg, hop⟩ | ⟨w, hop⟩
    · rw [accessResponse_load hf ha hold hcut hop, if_pos hgate, accTrap_standing hs ht hh]
      rfl
    · rw [accessResponse_store hf ha hold hcut hop, if_pos hgate, accTrap_standing hs ht hh]
      rfl

/-- Settles O10: an atomic's outcome at its target (`perform_spec`), the answer of an access (`answer_spec`), and its trap (`accTrap_standing`). -/
theorem accessesArePerformed : Obligations.AccessesArePerformed := ⟨atomicsPerform, atomicsFault, accessesAnswered⟩

end Sys2Proof.Proofs
end

section
/-! PROOF. Traps, handlers and strand faults (R55, R88, R129, R130, R199, R338 to R342). -/

namespace Sys2Proof.Proofs

open Sys2Proof Sys2Proof.Machine Sys2Proof.Safety Sys2Proof.Laws

/-! ## A trap that is recorded, or gives way -/

section Record

variable {s : State} {c : Fin 192} {st : Strand} {sl : Slot} {cause : Cause} {addr : W64} {eng : Option Nat}

/-- R55: of a strand, a spoilt rendezvous changes nothing else. -/
theorem spoilRv_eq (st : Strand) (sl : Slot) (cyc : Nat) : st.spoilRv sl cyc = { st with rvGo := (st.spoilRv sl cyc).rvGo } := by
  unfold Strand.spoilRv
  split <;> rfl

/-- R88: an earlier slot has trapped in the cycle. -/
def givesWay (st : Strand) (sl : Slot) (cyc : Nat) : Prop := ∃ u, st.trapAt = some u ∧ u.cyc = cyc ∧ u.slot.num < sl.num

theorem raiseFor_recorded (hh : st.handler = false) (hb : ¬ givesWay st sl (s.cyc c)) : s.raiseFor c st sl cause addr eng =
    s.setSt c { (st.spoilRv sl (s.cyc c)).unraised (s.cyc c) with
      trapcause := cause.code, trapslot := BitVec.ofNat 64 sl.num, trappc := st.pc.get sl, trapaddr := addr,
      trapAt := some { cyc := s.cyc c, slot := sl, fatal := decide (st.trapvec = 0), eng := eng },
      sleep := if sl == .s then st.sleep else none } := by
  rw [State.raiseFor, spoilRv_eq]
  dsimp only
  rw [hh, if_neg Bool.false_ne_true]
  refine if_neg ?_
  cases ht : st.trapAt with
  | none => exact Bool.false_ne_true
  | some u => simpa [givesWay, ht] using hb

theorem raiseFor_givesWay (hh : st.handler = false) (hb : givesWay st sl (s.cyc c)) : s.raiseFor c st sl cause addr eng =
    s.setSt c (st.spoilRv sl (s.cyc c)) := by
  obtain ⟨u, hu, hcyc, hnum⟩ := hb
  rw [State.raiseFor, spoilRv_eq]
  simp [hh, hu, hcyc, hnum]

theorem raiseFor_handler (hh : st.handler = true) : s.raiseFor c st sl cause addr eng =
    ((s.setSt c (st.spoilRv sl (s.cyc c))).logFault (st.spoilRv sl (s.cyc c)) cause.code.toNat).endLaunch st.launch 3 := by
  rw [State.raiseFor, spoilRv_eq]
  dsimp only
  rw [if_pos hh]

end Record

/-! ## A strand fault -/

/-- R341: the strands of a launch that ends die. -/
theorem endLaunch_strand (s : State) (id status : Nat) (k : Fin 192) : (s.endLaunch id status).strand? k =
    (s.strand? k).map fun o => if o.launch = id then { o with phase := .dying } else o := by
  simp only [State.strand?, State.endLaunch, Fin.getElem_fin, Vector.getElem_map]
  cases h : s.cores[k.val].strand with
  | none => simp [h]
  | some o =>
    simp only [Option.map_some]
    split
    · rfl
    · exact h

/-- R341: a live launch that ends is ending with its status. -/
theorem endLaunch_launch {s : State} {id : Nat} {l : Launch} (h : s.launch? id = some l) (hl : l.ending = .live) (status : Nat) :
    (s.endLaunch id status).launch? id = some { l with ending := .ending status } := by
  have hid : (l.id == id) = true := List.find?_some (p := fun l : Launch => l.id == id) h
  have hsame : (fun l : Launch => l.id == id) ∘ (fun l => if l.id == id && l.ending == .live then { l with ending := .ending status } else l) =
      fun l => l.id == id := by
    funext l
    simp only [Function.comp]
    split <;> rfl
  rw [State.launch?, State.endLaunch, List.find?_map, hsame, ← State.launch?, h]
  exact congrArg some (if_pos (by rw [hid, hl]; rfl))

theorem setSt_strand_ne (s : State) {c k : Fin 192} (h : k ≠ c) (u : Strand) : (s.setSt c u).strand? k = s.strand? k := by
  simp [State.strand?, Vector.getElem_set_ne, Fin.val_ne_of_ne h.symm]

/-- R341: what a strand fault of strand `u` of launch `id` leaves: the strands of the launch die, it is ending with status 3, and the event is
logged. -/
def Faulted (s t : State) (c : Fin 192) (u : Strand) (id : Nat) (p : Fin 64) : Prop :=
  t.strand? c = some { u with phase := .dying } ∧ t.mem = s.mem ∧
    (∀ k : Fin 192, k ≠ c → ∀ o, s.cores[k].strand = some o → o.launch = id → t.strand? k = some { o with phase := .dying }) ∧
    (∀ l, s.launch? id = some l → l.ending = .live → ∃ l', t.launch? id = some l' ∧ l'.ending = .ending 3) ∧
    (t.funcs[p]).events.length = (s.funcs[p]).events.length + 1

theorem faulted_of (s : State) (c : Fin 192) {u v : Strand} {id : Nat} {p : Fin 64} (hid : u.launch = id) (hp : v.part = p) (n : Nat) :
    Faulted s (((s.setSt c u).logFault v n).endLaunch id 3) c u id p := by
  have hstrand (k : Fin 192) : ((s.setSt c u).logFault v n).strand? k = (s.setSt c u).strand? k := by simp [State.strand?, State.logFault]
  refine ⟨?_, rfl, fun k hk o ho hl => ?_, fun l hl hlive => ⟨_, endLaunch_launch hl hlive 3, rfl⟩, ?_⟩
  · rw [endLaunch_strand, hstrand, State.strand?, setSt_core]
    simp [hid]
  · rw [endLaunch_strand, hstrand, setSt_strand_ne _ hk, State.strand?, ho]
    simp [hl]
  · subst hp
    show (State.logEvent _ _ _ _).funcs[v.part].events.length = _
    rw [logEvent_events, List.length_append]
    rfl

/-! ## The obligation -/

/-- A trap of the current core's strand, in the terms of the shared operation. -/
theorem trapped_eq (s : State) (sl : Slot) (st : Strand) (cause : Cause) (addr : W64) :
    trapped s sl st cause addr = (s.setSt s.cur.core st).raiseFor s.cur.core st sl cause addr none := rfl

theorem trapsAreTaken : Claims.TrapsAreTaken := by
  intro s sl st cause addr c t st1 st2 blocked
  have hcyc : (s.setSt c st).cyc c = now s := setSt_cyc ..
  have hst1 : st.spoilRv sl (now s) = st1 := by simp [st1, Strand.spoilRv]
  have hst2 : (st.spoilRv sl (now s)).unraised (now s) = st2 := by
    have htrap : st1.trapAt = st.trapAt := by rw [← hst1, spoilRv_eq]
    rw [hst1]
    rcases ht : st.trapAt with _ | ⟨n, sl', fatal, eng, _ | ⟨i, k, a⟩⟩ <;> simp only [st2, ht, Strand.unraised, htrap.trans ht]
  refine ⟨fun hh hb => ?_, fun hh hb => ?_, fun hh => ?_⟩
  · rw [show t = _ from trapped_eq .., raiseFor_recorded hh (by rw [hcyc]; exact hb), hcyc, hst2, setSt_setSt]
    simp only [beq_iff_eq]
    rfl
  · rw [show t = _ from trapped_eq .., raiseFor_givesWay hh (by rw [hcyc]; exact hb), hcyc, hst1, setSt_setSt]
  · rw [show t = _ from trapped_eq .., raiseFor_handler hh, hcyc, hst1, setSt_setSt]
    exact faulted_of s c (by rw [← hst1, spoilRv_eq]) (by rw [← hst1, spoilRv_eq]) _

theorem moved_invalid {b : LBuf} (h : b.valid = false) (pc : W64) : b.moved pc = (b, pc) := by
  simp [LBuf.moved, h]

/-- R134: V, M and H go on after TRET no sooner than their last words let them. -/
theorem returnFromTrap_next (st : Strand) (cyc : Nat) {sl : Slot} (h : sl ≠ .s) : (st.returnFromTrap cyc).next.get sl = max (st.next.get sl) (cyc + 1) := by
  have hnext : (st.returnFromTrap cyc).next = ⟨cyc + 1, max st.next.v (cyc + 1), max st.next.m (cyc + 1), max st.next.h (cyc + 1)⟩ := by
    unfold Strand.returnFromTrap
    dsimp only
    split <;> rfl
  rw [hnext]
  cases sl with
  | s => exact absurd rfl h
  | v => rfl
  | m => rfl
  | h => rfl

theorem returnFromTrap_keeps (st : Strand) (cyc : Nat) :
    let t := st.returnFromTrap cyc
    t.handler = false ∧ t.x = st.x ∧ t.f = st.f := by
  intro t
  unfold t Strand.returnFromTrap
  dsimp only
  split <;> exact ⟨rfl, rfl, rfl⟩

/-- R104: the loop levels and S's loop buffer stand where S was not the trapping slot. -/
theorem returnFromTrap_loops {st : Strand} (h : st.trapslot ≠ 0) (cyc : Nat) :
    (st.returnFromTrap cyc).loops = st.loops ∧ (st.returnFromTrap cyc).lbS = st.lbS := by
  unfold Strand.returnFromTrap
  dsimp only
  split
  · next h0 => exact absurd (BitVec.eq_of_toNat_eq h0) h
  all_goals exact ⟨rfl, rfl⟩

theorem trapAndReturn : Claims.TrapAndReturn := by
  intro s r st h
  refine ⟨fun i => ?_, fun hh => ?_, fun hh => ?_⟩
  · rw [exec_trap, execTrap]
    exact issue_trap h rfl
  · rw [exec_tret, execTret]
    exact issue_trap h (by rw [hh]; rfl)
  · obtain ⟨hhandler, hx, hf⟩ := returnFromTrap_keeps st (now s)
    refine ⟨st.returnFromTrap (now s), ?_, hhandler, hx, hf, fun h0 hb => ?_, fun h1 hb => ?_, fun h2 => ?_, fun h3 hb => ?_,
      fun h0 => returnFromTrap_loops h0 _, fun sl hsl => returnFromTrap_next st (now s) hsl, fun h0 => ?_, fun h1 => ?_, fun h2 => ?_, fun h3 => ?_⟩
    · rw [exec_tret, execTret]
      refine issue_update (s1 := s) h rfl ?_
      rw [if_pos hh, setSt_setSt, setSt_cyc]
      rfl
    all_goals simp only [Strand.returnFromTrap]
    · simp [h0, moved_invalid hb]
    · simp [h1, moved_invalid hb]
    · simp [h2]
    · simp [h3, moved_invalid hb]
    · simp [h0, Strand.keepRv, PerSlot.set]
    · simp [h1, Strand.keepRv, PerSlot.set]
    · simp [h2, Strand.keepRv, PerSlot.set]
    · simp [h3, Strand.keepRv, PerSlot.set]

/-- R338: TRAPVEC's bits 1:0 are ignored. -/
theorem and_not_three (x : W64) : x &&& ~~~3#64 = BitVec.ofNat 64 (x.toNat / 4 * 4) := by
  have hthree (i : Nat) : (3 : Nat).testBit i = decide (i < 2) := Nat.testBit_two_pow_sub_one 2 i
  have hquad : x.toNat / 4 * 4 = x.toNat >>> 2 <<< 2 := by rw [Nat.shiftLeft_eq, Nat.shiftRight_eq_div_pow]
  apply BitVec.eq_of_getLsbD_eq
  intro i hi
  rw [hquad]
  simp only [BitVec.getLsbD_and, BitVec.getLsbD_not, BitVec.getLsbD_ofNat, hthree, Nat.testBit_shiftLeft, Nat.testBit_shiftRight, hi, decide_true,
    Bool.true_and]
  by_cases h2 : i < 2
  · simp [h2, show ¬ 2 ≤ i by omega]
  · simp [h2, show 2 ≤ i by omega, show 2 + (i - 2) = i by omega, BitVec.getLsbD]

/-- R342: a failure that is no longer to be raised leaves the rest of the strand. -/
theorem served_eq (st : Strand) (eng : Option Nat) : st.served eng = { st with efaultAddr := (st.served eng).efaultAddr, efault := (st.served eng).efault } := by
  cases eng <;> rfl

theorem handlerBegins : Claims.HandlerBegins := by
  intro s c st0 t hst st ht
  have hevent : exec (.handlerEntry c) s = .next (if s.cyc c < t.due then s
      else if t.fatal then ((s.setSt c { st with trapAt := none }).logFault st 0).endLaunch st.launch 3
      else s.setSt c ((st.served t.eng).enterHandler t.slot (s.cyc c))) := by
    rw [exec_handlerEntry, execHandlerEntry, strandEvent, hst]
    simp only [show (st0.settle (s.cyc c)).trapAt = some t from ht]
    rfl
  rw [hevent]
  refine ⟨fun h => congrArg _ (if_pos h), fun hf h => ?_, fun k hk => by rw [hk]; rfl, fun hn => by rw [hn]; rfl, fun hf h => ?_⟩
  · have hdue : ¬ s.cyc c < t.due := by rw [TrapPend.due, hf]; exact Nat.not_lt.mpr h
    rw [if_neg hdue, if_pos hf]
    exact ⟨_, rfl, faulted_of s c (u := { st with trapAt := none }) rfl rfl 0⟩
  · have hdue : ¬ s.cyc c < t.due := by rw [TrapPend.due, hf]; exact Nat.not_lt.mpr h
    rw [if_neg hdue, hf, Strand.enterHandler, and_not_three, served_eq]
    simp only [beq_iff_eq]
    rfl

/-- Settles O16: the trap (`raiseFor_recorded`, `raiseFor_givesWay`, `faulted_of`), the return (`returnFromTrap`), and the handler's entry. -/
theorem trapsAndHandlers : Obligations.TrapsAndHandlers := ⟨trapsAreTaken, trapAndReturn, handlerBegins⟩

end Sys2Proof.Proofs
end

section
/-! PROOF. Fences, and the monitor with its WATCH and WAITA (R115 to R120, R199, R299). -/

namespace Sys2Proof.Proofs

open Sys2Proof Sys2Proof.Machine Sys2Proof.Safety Sys2Proof.Laws

/-! ## A COND that is raised -/

section Conditions

variable {s : State} {st : Strand}

theorem named_all (i : Fin 8) : (0xFF : BitVec 8).getLsbD i.val = true := by revert i; decide

/-- R199: no token has a COND. -/
theorem condToken_none (h : ∀ i : Fin 8, (st.tok[i]).cond = 0) (mask : BitVec 8) : st.condToken mask = none := by
  rw [Strand.condToken, List.find?_eq_none]
  intro i _
  have hi := h i
  rw [Fin.getElem_fin] at hi
  simp [hi]

/-- R199: the lowest token that has a COND. -/
theorem condToken_lowest {i : Fin 8} (hi : (st.tok[i]).cond ≠ 0) (hlow : ∀ j : Fin 8, j < i → (st.tok[j]).cond = 0) :
    st.condToken 0xFF = some i := by
  rw [Strand.condToken, List.find?_eq_some_iff_getElem]
  refine ⟨by rw [named_all, Bool.true_and]; exact bne_iff_ne.mpr hi, i.val, by simp, by simp, fun j hj => ?_⟩
  have hcond := hlow ⟨j, by omega⟩ hj
  rw [Fin.getElem_fin] at hcond
  simp [hcond]

/-- R199: with no trap due, the COND is raised as one. -/
theorem raiseCond_raises {s1 : State} (hcyc : s1.cyc s.cur.core = now s) (sl : Slot) (i : Fin 8) (hh : st.handler = false) (ht : st.trapAt = none) :
    RaisesCond s sl st i (s1.raiseCond s.cur.core st sl i) := by
  have hfree : ¬ givesWay st sl (s1.cyc s.cur.core) := fun ⟨u, hu, _⟩ => by rw [ht] at hu; cases hu
  have hstands (n : Nat) : (st.spoilRv sl n).unraised n = { st with rvGo := (st.spoilRv sl n).rvGo } := by
    rw [spoilRv_eq, Strand.unraised]
    simp only [ht]
  have htrap := raiseFor_recorded (cause := condCause (st.tok[i]).cond) (addr := (st.tok[i]).caddr) (eng := none) hh hfree
  rw [hcyc, hstands] at htrap
  rw [State.raiseCond, State.raiseTrap, htrap]
  simp only [setSt_strand?, if_true]
  exact ⟨_, _, setSt_strand? .., rfl, rfl, rfl, congrArg _ rfl, rfl, rfl, rfl, rfl⟩

end Conditions

/-! ## Fences -/

/-- R117: the scopes that a FENCEX's paths need. -/
theorem fencexLegal_eq (b a : BitVec 7) (k : BitVec 2) : fencexLegal b a k =
    !((((b ||| a).getLsbD 4 || (b ||| a).getLsbD 5) && decide (k.toNat < 2)) || ((b ||| a).getLsbD 6 && k != 3)) := by
  have hk : (k.toNat != 3) = (k != 3) := by revert k; decide
  rw [fencexLegal, hk, Bool.not_or]

/-- R235: an M word in progress makes no access exactly where it loads a plane. -/
theorem accesses_false (e : MEff) : e.accesses = false ↔ (∃ p, e = .loadW p) ∨ ∃ p, e = .loadS p := by
  cases e <;> simp [MEff.accesses]

/-- R116: the accesses before a FENCEX are performed. -/
theorem fenceDone_iff (st : Strand) (f : FenceX) : st.fenceDone f = true ↔
    (f.before.getLsbD 0 = true → ∀ q ∈ st.accs, f.aid ≤ q.id) ∧
    (f.before.getLsbD 1 = true → ∀ w ∈ st.vpend, w.seq < f.vseq → w.writes = []) ∧
    (f.before.getLsbD 2 = true → ∀ w ∈ st.mpend, w.seq < f.mseq → (∃ p, w.eff = .loadW p) ∨ ∃ p, w.eff = .loadS p) ∧
    (f.before.getLsbD 3 = true → ∀ q ∈ st.copies, q.cid < f.cid → q.kind = 6) := by
  have himp {p q : Bool} : (!p || q) = true ↔ (p = true → q = true) := by cases p <;> simp
  simp only [Strand.fenceDone, Bool.and_eq_true, himp, and_assoc, ← accesses_false]
  refine and_congr ?_ (and_congr ?_ (and_congr ?_ ?_)) <;> simp

/-- R116, R117, R199: what a FENCEX does whose scope serves its paths and whose masks are not empty. -/
theorem fencex_body {s : State} {r : Bool} {st : Strand} (h : issuer s .s r false [] = some st) {b a : BitVec 7} {k : BitVec 2}
    (hlegal : fencexLegal b a k = true) (hb : b ≠ 0) (ha : a ≠ 0) :
    let c := s.cur.core
    let f := st.fx.getD { before := b, after := a, vseq := st.vseq, mseq := st.mseq, cid := st.nextCid, aid := st.nextAid }
    (st.fenceDone f = false → exec (.fencex r b a k) s = .next (s.setSt c { st with fx := some f })) ∧
    (st.fenceDone f = true → (if b.getLsbD 3 then st.condToken 0xFF else none) = none →
      exec (.fencex r b a k) s = .next (moved s .s { st with fx := none } (s.word? st .s) .seq 1)) ∧
    ∀ i, st.fenceDone f = true → (if b.getLsbD 3 then st.condToken 0xFF else none) = some i →
      exec (.fencex r b a k) s = .next ((s.setSt c st).raiseCond c { st with fx := none } .s i) := by
  intro c f
  have hillegal : ¬(!fencexLegal b a k) = true := by rw [hlegal]; exact Bool.false_ne_true
  have hempty : ¬(decide (b = 0) || decide (a = 0)) = true := by
    rw [decide_eq_false hb, decide_eq_false ha]
    exact Bool.false_ne_true
  rw [exec_fencex, execFencex]
  refine ⟨fun hd => ?_, fun hd hc => ?_, fun i hd hc => ?_⟩
  · rw [← setSt_setSt s c st]
    refine issue_stall h ((if_neg hillegal).trans ((if_neg hempty).trans ?_))
    exact if_neg (by rw [hd]; exact Bool.false_ne_true)
  · refine issue_st h ((if_neg hillegal).trans ((if_neg hempty).trans ((if_pos hd).trans ?_)))
    have hc' : (if b.getLsbD 3 then Strand.condToken { st with fx := none } 0xFF else none) = none := hc
    simp only [hc']
  · refine issue_stall h ((if_neg hillegal).trans ((if_neg hempty).trans ((if_pos hd).trans ?_)))
    have hc' : (if b.getLsbD 3 then Strand.condToken { st with fx := none } 0xFF else none) = some i := hc
    simp only [hc']
    rfl

theorem fences : Claims.Fences := by
  intro s r st h c goes waits
  refine ⟨fun k => ⟨fun ha => ?_, fun ha => ?_⟩, fun b a k => ?_, fun hk => ?_, fun n hk => ?_, fun hk => ?_⟩
  · show exec _ s = _
    rw [exec_fence, execFence]
    exact issue_same h (by rw [ha]; rfl)
  · show exec _ s = _
    rw [exec_fence, execFence]
    exact issue_stall h (by rw [List.isEmpty_eq_false_iff.mpr ha]; rfl)
  · intro names narrow
    have hnarrow : fencexLegal b a k = !narrow := fencexLegal_eq b a k
    refine ⟨fun hn => ?_, fun hn he => ?_, fun hn hb ha => ?_⟩
    · rw [exec_fencex, execFencex]
      exact issue_trap h (if_pos (by rw [hnarrow, hn]; rfl))
    · show exec _ s = _
      rw [exec_fencex, execFencex]
      refine issue_same h ((if_neg ?_).trans (if_pos ?_))
      · rw [hnarrow, hn]
        exact Bool.false_ne_true
      · rcases he with rfl | rfl
        · rfl
        · exact Bool.or_true _
    · intro f done
      have hf : f = st.fx.getD { before := b, after := a, vseq := st.vseq, mseq := st.mseq, cid := st.nextCid, aid := st.nextAid } := by
        simp only [f]
        cases st.fx <;> rfl
      have hdone : st.fenceDone f = true ↔ done := fenceDone_iff st f
      obtain ⟨hwaits, hgoes, hraises⟩ := fencex_body h (by rw [hnarrow, hn]; rfl) hb ha
      rw [← hf] at hwaits hgoes hraises
      refine ⟨fun hd hc => hgoes (hdone.mpr hd) ?_, fun hd h3 hh ht i hi hlow => ⟨_, hraises i (hdone.mpr hd) ?_, ?_⟩, fun hd => ?_⟩
      · split
        · exact condToken_none (hc ‹_›) _
        · rfl
      · rw [if_pos h3]
        exact condToken_lowest hi hlow
      · exact raiseCond_raises (st := { st with fx := none }) (setSt_cyc ..) .s i hh ht
      · exact hwaits (Bool.eq_false_iff.mpr (mt hdone.mp hd))
  · show exec _ s = _
    rw [exec_fencek, execFencek, ← setSt_setSt s c st]
    exact issue_stall h (by simp only [hk, setSt_cyc]; rfl)
  · show exec _ s = _
    rw [exec_fencek, execFencek]
    exact issue_stall h (by simp only [hk]; rfl)
  · show exec _ s = _
    rw [exec_fencek, execFencek]
    exact issue_st h (by simp only [hk])

/-! ## The monitor -/

section Watch

variable {s : State} {r : Bool} {a : BitVec 5} {st : Strand}

/-- R119: WATCH, checked like a load of one byte. -/
theorem watch_spec (h : issuer s .s r false [a] = some st) :
    (st.xp a = true → exec (.watch r a) s = .next (trapped s .s st .poison 0)) ∧
    (st.xp a = false → (∀ x, s.sPlace s.cur.core st 0 (st.xv a) .r = .error x → exec (.watch r a) s = .next (trapped s .s st x (st.xv a))) ∧
      ∀ pl, s.sPlace s.cur.core st 0 (st.xv a) .r = .ok pl →
        (pl.gated = true → exec (.watch r a) s = .next (trapped s .s st .remoteGated (st.xv a))) ∧
        (pl.gated = false → exec (.watch r a) s =
          .next (moved { s with mons := s.mons.set s.cur.core { line := some (pl.addr / 64), hit := false } } .s { st with mlost := false }
            (s.word? st .s) .seq 1))) := by
  rw [exec_watch, execWatch]
  refine ⟨fun ha => issue_trap h (if_pos ha), fun ha => ⟨fun x hx => ?_, fun pl hp => ⟨fun hg => ?_, fun hg => ?_⟩⟩⟩
  · exact issue_trap h (by simp only [ha, setSt_sPlace, hx]; rfl)
  · exact issue_trap h (by simp only [ha, setSt_sPlace, hp, hg]; rfl)
  · refine issue_update (s1 := { s with mons := s.mons.set s.cur.core { line := some (pl.addr / 64), hit := false } }) h rfl ?_
    simp only [ha, setSt_sPlace, setSt_setSt, hp, hg]
    rfl

end Watch

/-- R120: the state in which a WAITA ends, its strand aside. -/
theorem wakeWith_eq (s : State) (c : Fin 192) (st st' : Strand) (d : BitVec 5) (code : W64) : (s.setSt c st').wakeWith c st d code =
    State.setSt { s with mons := s.mons.set c { line := none, hit := false } } c
      ({ st with sleep := none, mlost := false }.xlater (s.cyc c + 1) d code false true) := by
  rw [State.wakeWith, setSt_setSt, setSt_cyc]
  rfl

section Waita

variable {s : State} {r : Bool} {d a : BitVec 5} {st : Strand} (h : issuer s .s r false [d, a] = some st)
include h

/-- R120: a WAITA whose body wakes the strand ends with the event's code. -/
theorem waita_ends {code : W64} {body : State → Fin 192 → Strand → Res}
    (hb : body (s.setSt s.cur.core st) s.cur.core st = .ok ((s.setSt s.cur.core st).wakeWith s.cur.core st d code) .seq 1) :
    issue .s r false [d, a] body s = .next (moved { s with mons := s.mons.set s.cur.core { line := none, hit := false } } .s
      ({ st with sleep := none, mlost := false }.xlater (now s + 1) d code false true) (s.word? st .s) .seq 1) :=
  issue_update (s1 := { s with mons := s.mons.set s.cur.core { line := none, hit := false } }) h rfl (by rw [hb, wakeWith_eq]; rfl)

/-- R120: a WAITA that is met anew. -/
theorem waita_awake (hs : st.sleep = none) (ho : st.owns false d = true) (ha : st.xp a = false) :
    let m := s.mons[s.cur.core]
    let ends (code : W64) : Prop := exec (.waita r d a) s =
      .next (moved { s with mons := s.mons.set s.cur.core { line := none, hit := false } } .s
        ({ st with sleep := none, mlost := false }.xlater (now s + 1) d code false true) (s.word? st .s) .seq 1)
    (st.mlost = true → ends 2) ∧
    (st.mlost = false → m.line = none → ends 3) ∧
    (st.mlost = false → m.line ≠ none → m.hit = true → ends 0) ∧
    (st.mlost = false → m.line ≠ none → m.hit = false → st.xv a = 0 → ends 1) ∧
    (st.mlost = false → m.line ≠ none → m.hit = false → st.xv a ≠ 0 →
      exec (.waita r d a) s = .next (s.setSt s.cur.core { st with
        sleep := some { word := (s.word? st .s).getD 0, xd := d, since := dtime s.tick,
                        ends := if st.xv a = BitVec.allOnes 64 then none else some (dtime s.tick + (st.xv a).toNat) } })) := by
  intro m ends
  have hm : (s.setSt s.cur.core st).mons[s.cur.core] = m := rfl
  have hends (code : W64) : ends code = (execWaita r d a s = _) := congrArg (· = _) (exec_waita ..)
  simp only [hends, exec_waita, execWaita]
  refine ⟨fun hl => ?_, fun hl hn => ?_, fun hl hn hh => ?_, fun hl hn hh hz => ?_, fun hl hn hh hz => ?_⟩
  · refine waita_ends h ?_
    simp only [hs, ho, ha, hl]
    rfl
  · refine waita_ends h ?_
    simp only [hs, ho, ha, hl, hm, hn]
    rfl
  · refine waita_ends h ?_
    simp only [hs, ho, ha, hl, hm, Option.isNone_eq_false_iff.mpr (Option.isSome_iff_ne_none.mpr hn), hh]
    rfl
  · refine waita_ends h ?_
    simp only [hs, ho, ha, hl, hm, Option.isNone_eq_false_iff.mpr (Option.isSome_iff_ne_none.mpr hn), hh, hz]
    rfl
  · rw [← setSt_setSt s s.cur.core st]
    refine issue_stall h ?_
    simp only [hs, ho, ha, hl, hm, Option.isNone_eq_false_iff.mpr (Option.isSome_iff_ne_none.mpr hn), hh, hz]
    rfl

/-- R120: one that sleeps is not checked again. -/
theorem waita_asleep (hs : st.sleep ≠ none) :
    let m := s.mons[s.cur.core]
    (m.hit = true → exec (.waita r d a) s = .next (moved { s with mons := s.mons.set s.cur.core { line := none, hit := false } } .s
        ({ st with sleep := none, mlost := false }.xlater (now s + 1) d 0 false true) (s.word? st .s) .seq 1)) ∧
    (m.hit = false → exec (.waita r d a) s = .next (s.setSt s.cur.core st)) := by
  intro m
  have hm : (s.setSt s.cur.core st).mons[s.cur.core] = m := rfl
  rw [exec_waita, execWaita]
  refine ⟨fun hh => waita_ends h ?_, fun hh => issue_stall h ?_⟩
  · simp only [hm, Option.isSome_iff_ne_none.mpr hs, hh]
    rfl
  · simp only [hm, Option.isSome_iff_ne_none.mpr hs, hh]
    rfl

theorem waita_poison (hs : st.sleep = none) (ho : st.owns false d = true) (ha : st.xp a = true) :
    exec (.waita r d a) s = .next (trapped s .s st .poison 0) := by
  rw [exec_waita, execWaita]
  exact issue_trap h (by simp only [hs, ho, ha]; rfl)

end Waita

theorem monitors : Claims.Monitors := by
  intro s r d a st c
  exact ⟨watch_spec, fun h => ⟨waita_poison h, waita_awake h, waita_asleep h⟩⟩

theorem sleepTimesOut : Claims.SleepTimesOut := by
  intro s c st0 z e hst st hz hends
  let st1 : Strand := { st with slept := st.slept + (dtime s.tick - z.since) }
  let s1 := (s.wakeWith c st1 z.xd 1).finish c .s (s.word? st .s) .seq 1
  have hevent : exec (.waitaTimeout c) s = .next (if dtime s.tick < e || s.mons[c].hit || s.held c then s
      else if st1.slept ≤ 20000 then s1 else match s1.strand? c with | some t => s1.yieldCheck c t | none => s1) := by
    rw [exec_waitaTimeout, execWaitaTimeout, strandEvent, hst]
    simp only [show (st0.settle (s.cyc c)).sleep = some z from hz, hends]
    rfl
  rw [hevent]
  refine ⟨fun hheld => ?_, fun hheld he hh hslept => ?_⟩
  · rw [hheld, Bool.or_true, if_pos rfl]
  · intro st'
    rw [decide_eq_false (Nat.not_lt.mpr he), hh, hheld, if_neg (by exact Bool.false_ne_true), if_pos hslept]
    let s2 : State := { s with mons := s.mons.set c { line := none, hit := false } }
    have hwake : s.wakeWith c st1 z.xd 1 = s2.setSt c st' := rfl
    have hcyc : (s2.setSt c st').cyc c = s.cyc c := setSt_cyc ..
    rw [show s1 = _ from congrArg (State.finish · c .s (s.word? st .s) .seq 1) hwake, finish_of_strand (setSt_strand? ..), hcyc]
    simp [State.setCore, s2]

/-- Settles O11: the fences wait for what `fenceDone_iff` says, and WATCH, WAITA and the timeout are met case by case. -/
theorem fencesAndMonitors : Obligations.FencesAndMonitors := ⟨fences, monitors, sleepTimesOut⟩

end Sys2Proof.Proofs
end

section
/-! PROOF. DONE and YIELD (R127, R128, R199, R269, R279, R285, R321, R339). -/

namespace Sys2Proof.Proofs

open Sys2Proof Sys2Proof.Machine Sys2Proof.Safety Sys2Proof.Laws

/-! ## A cluster released -/

/-- The strands, monitors and memory stay, and so does every launch with what it counts as live. -/
structure Stays (s t : State) : Prop where
  cores : t.cores = s.cores
  mons : t.mons = s.mons
  mem : t.mem = s.mem
  launches : ∀ id l, s.launch? id = some l → ∃ l', t.launch? id = some l' ∧ l'.live = l.live

namespace Stays

variable {s t u : State}

theorem refl (s : State) : Stays s s := ⟨rfl, rfl, rfl, fun _ l h => ⟨l, h, rfl⟩⟩

theorem trans (h : Stays s t) (h' : Stays t u) : Stays s u where
  cores := h'.cores.trans h.cores
  mons := h'.mons.trans h.mons
  mem := h'.mem.trans h.mem
  launches id l hl := by
    obtain ⟨l1, hl1, he⟩ := h.launches id l hl
    obtain ⟨l2, hl2, he2⟩ := h'.launches id l1 hl1
    exact ⟨l2, hl2, he2.trans he⟩

/-- A change of nothing but what the launches, cores, monitors and memory are not. -/
theorem of_same (hc : t.cores = s.cores) (hmon : t.mons = s.mons) (hmem : t.mem = s.mem) (hl : t.launches = s.launches) : Stays s t :=
  ⟨hc, hmon, hmem, fun id l h => ⟨l, by rw [State.launch?, hl]; exact h, rfl⟩⟩

end Stays

theorem launch_id {s : State} {id : Nat} {l : Launch} (h : s.launch? id = some l) : l.id = id :=
  beq_iff_eq.mp (List.find?_some (p := fun l : Launch => l.id == id) h)

/-- A launch looked up once a record has been replaced. -/
theorem launch?_setLaunch {s : State} {id : Nat} {m : Launch} (h : s.launch? id = some m) (l : Launch) :
    (s.setLaunch l).launch? id = some (if m.id = l.id then l else m) := by
  have hsame : (fun x : Launch => x.id == id) ∘ (fun m => if m.id == l.id then l else m) = fun x => x.id == id := by
    funext m
    simp only [Function.comp]
    split
    · next he => rw [beq_iff_eq.mp he]
    · rfl
  rw [State.launch?, State.setLaunch, List.find?_map, hsame, ← State.launch?, h]
  simp

theorem stays_setLaunch {s : State} {id : Nat} {l m : Launch} (h : s.launch? id = some l) (hid : m.id = l.id) (hlive : m.live = l.live) :
    Stays s (s.setLaunch m) where
  cores := rfl
  mons := rfl
  mem := rfl
  launches id' k hk := by
    refine ⟨_, launch?_setLaunch hk m, ?_⟩
    split
    · next he =>
      have hsame : id' = id := by rw [← launch_id hk, ← launch_id h, he, hid]
      subst hsame
      rw [hlive, Option.some.inj (h.symm.trans hk)]
    · rfl

theorem stays_setCluster (s : State) (q : Nat) (x : Cluster) : Stays s (s.setCluster q x) := by
  unfold State.setCluster
  split
  · exact .of_same rfl rfl rfl rfl
  · exact .refl s

/-- R329: a place taken in the save area. -/
theorem savePlace_keeps {s t : State} {p : Fin 64} {size sid launch slot o : Nat} (h : s.savePlace p size sid launch slot = some (t, o)) :
    Stays s t ∧ t.launches = s.launches := by
  unfold State.savePlace at h
  split at h
  · obtain ⟨rfl, -⟩ := Prod.mk.inj (Option.some.inj h)
    exact ⟨.of_same rfl rfl rfl rfl, rfl⟩
  · obtain ⟨x, -, hx⟩ := Option.map_eq_some_iff.mp h
    obtain ⟨rfl, -⟩ := Prod.mk.inj hx
    exact ⟨.of_same rfl rfl rfl rfl, rfl⟩

theorem savedOr_keeps (s : State) (place : Option (State × Nat)) (h : ∀ t o, place = some (t, o) → Stays s t ∧ t.launches = s.launches) :
    Stays s ((place.map Prod.fst).getD s) ∧ ((place.map Prod.fst).getD s).launches = s.launches := by
  cases place with
  | none => exact ⟨.refl s, rfl⟩
  | some x => exact h x.1 x.2 rfl

theorem stays_unplace (s : State) (q : Nat) : Stays s (s.unplace q) := by
  unfold State.unplace
  split
  · exact .refl s
  · split
    · exact .refl s
    · next l hl =>
      obtain ⟨hs, hlaunches⟩ := savedOr_keeps s (if l.ending == .live then s.savePlace l.part imageSlot 0 _ _ else none) fun t o h => by
        split at h
        · exact savePlace_keeps h
        · cases h
      exact hs.trans (stays_setLaunch (l := l) (by rw [State.launch?, hlaunches]; exact hl) rfl rfl)

theorem stays_release (s : State) (q : Nat) : Stays s (s.release q) := by
  unfold State.release
  split
  · exact .refl s
  · split
    · exact .refl s
    · split
      · exact .refl s
      · dsimp only
        split
        · split
          · exact (stays_unplace s q).trans (stays_setCluster _ q _)
          · exact stays_unplace s q
        · exact .refl s

/-! ## DONE -/

/-- R127: what DONE waits for. -/
theorem doneReady_iff (st : Strand) : st.doneReady = true ↔ (st.handler = true ∨ (st.ended.v = true ∧ st.ended.m = true ∧ st.ended.h = true)) ∧
    (∀ i : Fin 8, (st.tok[i]).pend = 0) ∧ st.accs = [] ∧ st.vpend = [] ∧ st.mpend = [] ∧ st.copies = [] := by
  simp [Strand.doneReady, and_assoc]

/-- R279: the last strand of an index that ends takes one from what the launch counts as live. -/
theorem strandEnded_live {l : Launch} {index n : Nat} (h : l.perIndex.find? (fun e => e.1 == index) = some (index, n)) :
    (l.strandEnded index).id = l.id ∧ (l.strandEnded index).live = if n ≤ 1 then l.live - 1 else l.live := by
  rw [Launch.strandEnded, h]
  dsimp only
  split <;> exact ⟨rfl, rfl⟩

theorem keepTb_eq (l : Launch) (c : Fin 192) (tb : Option TBuf) : l.keepTb c tb = { l with slots := (l.keepTb c tb).slots } := by
  unfold Launch.keepTb
  split <;> rfl

/-- R127: the end of a strand that leaves no failed chain behind. -/
theorem endStrand_spec (s : State) (c : Fin 192) (st : Strand) (he : st.efaultAddr = []) :
    let t := s.endStrand c st
    t.strand? c = none ∧ t.mons[c] = { line := none, hit := false } ∧ t.mem = s.mem ∧ (∀ k, k ≠ c → t.cores[k] = s.cores[k]) ∧
      ∀ l n, s.launch? st.launch = some l → l.perIndex.find? (fun e => e.1 == st.index) = some (st.index, n) →
        ∃ l', t.launch? st.launch = some l' ∧ l'.live = if n ≤ 1 then l.live - 1 else l.live := by
  intro t
  let s1 := (s.setCore c (s.cores[c].vacated s.clusters[clusterOf c].cyc)).setMon c { line := none, hit := false }
  have hdrop : s.dropEfaults st = s := by rw [State.dropEfaults, he]; rfl
  have hnone : s1.strand? c = none := congrArg Core.strand (setCore_core ..)
  have hmon : s1.mons[c] = { line := none, hit := false } := by simp [s1, State.setMon]
  have hother (k : Fin 192) (hk : k ≠ c) : s1.cores[k] = s.cores[k] := by
    simp [s1, State.setMon, Vector.getElem_set_ne, Fin.val_ne_of_ne hk.symm]
  cases hl : s.launch? st.launch with
  | none =>
    have ht : t = s1 := by
      simp only [t, State.endStrand, hdrop]
      split
      · rfl
      · next h => exact absurd (h.symm.trans hl) nofun
    rw [ht]
    exact ⟨hnone, hmon, rfl, hother, nofun⟩
  | some l =>
    let l1 := (l.keepTb c (some st.tb)).strandEnded st.index
    have ht : t = (s1.setLaunch l1).release (c.val / 4) := by
      simp only [t, State.endStrand, hdrop]
      split
      · next h => exact absurd (h.symm.trans hl) nofun
      · next h =>
        obtain rfl := Option.some.inj (h.symm.trans hl)
        rfl
    have hstays := stays_release (s1.setLaunch l1) (c.val / 4)
    rw [← ht] at hstays
    refine ⟨?_, ?_, hstays.mem, fun k hk => ?_, fun m n hm hn => ?_⟩
    · rw [State.strand?, hstays.cores]
      exact hnone
    · rw [hstays.mons]
      exact hmon
    · rw [hstays.cores]
      exact hother k hk
    · obtain rfl := Option.some.inj hm
      have hkeep : (l.keepTb c (some st.tb)).id = l.id ∧ (l.keepTb c (some st.tb)).live = l.live ∧ (l.keepTb c (some st.tb)).perIndex = l.perIndex := by
        rw [keepTb_eq]
        exact ⟨rfl, rfl, rfl⟩
      obtain ⟨hid, hlive⟩ := strandEnded_live (l := l.keepTb c (some st.tb)) (by rw [hkeep.2.2]; exact hn)
      obtain ⟨l2, hl2, he2⟩ := hstays.launches st.launch _ (launch?_setLaunch (s := s1) hl l1)
      refine ⟨l2, hl2, he2.trans ?_⟩
      rw [if_pos (hid.trans hkeep.1).symm, hlive, hkeep.2.1]

theorem doneEndsTheStrand : Claims.DoneEndsTheStrand := by
  intro s r st h c ready
  have hready : st.doneReady = true ↔ ready := doneReady_iff st
  rw [exec_done, execDone]
  refine ⟨fun hn => ?_, fun hr hc he => ?_, fun hr hh ht i hi hlow => ?_⟩
  · refine issue_stall h (if_pos ?_)
    rw [Bool.eq_false_iff.mpr (mt hready.mp hn)]
    rfl
  · have hend := endStrand_spec (s.setSt c st) c st he
    obtain ⟨hnone, hmon, hmem, hother, hlive⟩ := hend
    refine ⟨(s.setSt c st).endStrand c st, ?_, hnone, hmon, hmem, fun k hk => ?_, hlive⟩
    · rw [issue_ok (s' := (s.setSt c st).endStrand c st) (n := .stay) (busy := 1) h]
      · rw [State.finish, hnone]
      · simp only [hready.mpr hr, condToken_none hc]
        rfl
    · rw [hother k hk]
      simp [Vector.getElem_set_ne, Fin.val_ne_of_ne hk.symm]
  · refine ⟨_, issue_stall h ?_, raiseCond_raises (s1 := s.setSt c st) (setSt_cyc ..) .s i hh ht⟩
    simp only [hready.mpr hr, condToken_lowest hi hlow]
    rfl

/-! ## YIELD -/

/-- R285: a pre-emption is requested of every running strand of the gang, or was. -/
theorem preemptGang_requests {s : State} {k : Fin 192} {o : Strand} {gang : Nat} (ho : s.cores[k].strand = some o) (hg : o.gang = gang)
    (hr : o.phase = .running) (yielded : Bool) : ∃ q ∈ (s.preemptGang gang yielded).preqs, q.sid = o.sid := by
  by_cases hany : ∃ q ∈ s.preqs, q.sid = o.sid
  · obtain ⟨q, hq, hs⟩ := hany
    exact ⟨q, List.mem_append_left _ hq, hs⟩
  · refine ⟨{ sid := o.sid, yielded := yielded }, List.mem_append_right _ (List.mem_map.mpr ⟨o, ?_, rfl⟩), rfl⟩
    have hnone : (s.preqs.any fun r => r.sid == o.sid) = false := by simpa using hany
    refine List.mem_filter.mpr ⟨List.mem_filterMap.mpr ⟨s.cores[k], ?_, ho⟩, by simp [hg, hr, hnone]⟩
    exact Vector.mem_toList_iff.mpr (Vector.getElem_mem _)

/-- R128: a request that YIELD makes stops S of its own strand. -/
theorem yield_requests {s : State} {st o : Strand} {k : Fin 192} (ho : s.cores[k].strand = some o) (hg : o.gang = st.gang) (hr : o.phase = .running) :
    ∃ q ∈ (s.yield st).preqs, q.sid = o.sid ∧ (o.sid = st.sid → q.stops = true) := by
  obtain ⟨q, hq, hs⟩ := preemptGang_requests ho hg hr true
  refine ⟨if q.sid == st.sid then { q with stops := true } else q, List.mem_map.mpr ⟨q, hq, rfl⟩, ?_, fun he => ?_⟩
  · split <;> exact hs
  · rw [if_pos (by rw [hs, he, beq_self_eq_true])]

theorem yieldWords : Claims.YieldWords := by
  intro s r st h s1 outranked
  have hout : (s1.cands.any fun u => !keyLt (s1.strandKey st) (s1.candKey u)) = true ↔ outranked := by simp [outranked]
  rw [exec_yield, execYield]
  refine ⟨fun hn => ?_, fun hh ho => ?_⟩
  · refine issue_same h (if_neg ?_)
    rw [Bool.and_eq_true, Bool.not_eq_true', hout]
    rintro ⟨hh, ho⟩
    exact hn.elim (fun hy => by rw [hh] at hy; cases hy) (· ho)
  · refine ⟨_, issue_update (s1 := { s with preqs := (s1.yield st).preqs }) h rfl (if_pos ?_), rfl, rfl, fun k o hk hg hr => yield_requests hk hg hr⟩
    rw [hh, Bool.not_false, Bool.true_and, hout]
    exact ho

/-- Settles O15: DONE ends the strand (`endStrand_spec`), and YIELD requests the pre-emption of its gang (`preemptGang_requests`). -/
theorem doneAndYield : Obligations.DoneAndYield := ⟨doneEndsTheStrand, yieldWords⟩

end Sys2Proof.Proofs
end

section
/-! PROOF. SOW and JOIN: the record, the queues, stalls and traps (R97, R125, R126, R230, R280 to R284, R396). -/

namespace Sys2Proof.Proofs

open Sys2Proof Sys2Proof.Machine Sys2Proof.Safety Sys2Proof.Laws

/-! ## The record in memory -/

/-- R355: what a byte reads as depends on the bytes and keys of its 16-byte block. -/
theorem read_congr {m m' : Mem} {key a : Nat} (hb : ∀ x, x / 16 = a / 16 → m'.byte x = m.byte x) (hk : ∀ x, x / 16 = a / 16 → m'.key x = m.key x) :
    m'.read key a = m.read key a := by
  have hbytes : (List.range 16).map (fun i => m'.byte (a / 16 * 16 + i)) = (List.range 16).map fun i => m.byte (a / 16 * 16 + i) :=
    List.map_congr_left fun i hi => hb _ (by have := List.mem_range.mp hi; omega)
  have hkeys : (List.range 16).map (fun i => m'.key (a / 16 * 16 + i)) = (List.range 16).map fun i => m.key (a / 16 * 16 + i) :=
    List.map_congr_left fun i hi => hk _ (by have := List.mem_range.mp hi; omega)
  simp only [Mem.read, hk a rfl, hb a rfl, hbytes, hkeys]

section Written

variable {m : Mem} (hm : m.wf = true) {a tag : Nat} {bs : List Byte}
include hm

/-- R355: a byte of a plain write reads under the write's key as it was written. -/
theorem read_written {i : Nat} (hi : i < bs.length) : (m.apply (MWrite.plain a tag bs)).read tag (a + i) = bs[i] := by
  have hs : stores a (bs.map some) (a + i) = true := stores_plain.mpr ⟨by omega, by omega⟩
  have hkey : (m.apply (MWrite.plain a tag bs)).key (a + i) = tag := by
    rw [key_apply hm, key_putAll hm]
    exact if_pos hs
  rw [Mem.read, if_pos hkey, byte_apply hm]
  show (if a ≤ a + i then (bs.map some)[a + i - a]?.join.getD _ else _) = _
  simp [hi]

/-- R355: a block that a plain write does not touch reads as before. -/
theorem read_beside {x key : Nat} (h : ∀ y, y / 16 = x / 16 → ¬(a ≤ y ∧ y < a + bs.length)) :
    (m.apply (MWrite.plain a tag bs)).read key x = m.read key x := by
  refine read_congr (fun y hy => byte_apply_out hm _ ?_) fun y hy => ?_
  · have hlen : (MWrite.plain a tag bs).data.length = bs.length := by simp [MWrite.plain]
    have := h y hy
    show y < a ∨ a + (MWrite.plain a tag bs).data.length ≤ y
    omega
  · have hnone : ∀ z, z / 16 = x / 16 → stores a (bs.map some) z = false := fun z hz =>
      Bool.eq_false_iff.mpr fun hs => h z hz (stores_plain.mp hs)
    rw [key_apply hm, key_putAll hm]
    show (if stores a (bs.map some) y then tag else if decide (a < 2 ^ 52) && (_ && storesBlock a (bs.map some) y) then _ else _) = _
    rw [hnone y hy, storesBlock_false fun z h1 h2 => hnone z (by omega)]
    simp

end Written

/-- R282: a record after its bytes 31:16 have been written. -/
theorem reads_written {m : Mem} (hm : m.wf = true) {addr tag : Nat} (ha : addr % 32 = 0) {bs : List Byte} (hlen : bs.length = 16) :
    (m.apply (MWrite.plain (addr + 16) tag bs)).reads tag addr 32 = m.reads tag addr 16 ++ bs := by
  refine List.ext_getElem (by simp [reads_length, hlen]) fun i h1 h2 => ?_
  rw [reads_length] at h1
  by_cases hi : i < 16
  · rw [List.getElem_append_left (by rwa [reads_length])]
    simp only [Mem.reads, List.getElem_map, List.getElem_range]
    exact read_beside hm fun y hy => by omega
  · rw [List.getElem_append_right (by rw [reads_length]; omega)]
    simp only [Mem.reads, List.getElem_map, List.getElem_range, List.length_map, List.length_range]
    rw [← read_written hm (a := addr + 16) (tag := tag) (i := i - 16) (by omega), show addr + 16 + (i - 16) = addr + i by omega]

theorem reads_record (m : Mem) (tag addr : Nat) : m.reads tag addr 32 = m.reads tag addr 16 ++ m.reads tag (addr + 16) 16 := by
  rw [Mem.reads, show (32 : Nat) = 16 + 16 from rfl, List.range_add, List.map_append, List.map_map]
  simp only [Mem.reads, Function.comp_def, Nat.add_assoc]

/-- R280: a 64-bit field of a record. -/
theorem word64_leBytes (v : W64) (rest : List Byte) : word64 (leBytes 8 v.toNat ++ rest) 0 = v := by
  apply BitVec.eq_of_toNat_eq
  rw [word64, Nat.mul_zero, List.drop_zero, List.take_left' (leBytes_length 8 _), leNat_leBytes, BitVec.toNat_ofNat,
    Nat.mod_eq_of_lt (show v.toNat % 2 ^ (8 * 8) < 2 ^ 64 from Nat.mod_lt _ (by decide))]
  exact Nat.mod_eq_of_lt v.isLt

theorem word64_append {xs : List Byte} {n i : Nat} (hx : xs.length = 8 * n) (ys : List Byte) : word64 (xs ++ ys) (n + i) = word64 ys i := by
  rw [word64, word64, List.drop_append, List.drop_eq_nil_of_le (by omega), List.nil_append, show 8 * (n + i) - xs.length = 8 * i by omega]

theorem word64_left {xs : List Byte} {i : Nat} (hx : 8 * i + 8 ≤ xs.length) (ys : List Byte) : word64 (xs ++ ys) i = word64 xs i := by
  rw [word64, word64, List.drop_append_of_le_length (by omega), List.take_append_of_le_length (by simp; omega)]

/-- R280: the fields of the words that a record is written as. -/
theorem unit_fields (r : SeedRec) : r.unit.extractLsb' 0 32 = r.join ∧ r.unit.extractLsb' 32 32 = r.flags :=
  ⟨BitVec.extractLsb'_append_eq_right, BitVec.extractLsb'_append_eq_left⟩

theorem tail_fields (r : SeedRec) : r.tail.extractLsb' 0 32 = r.index ∧ r.tail.extractLsb' 32 16 = r.launch ∧ r.tail.extractLsb' 48 16 = r.place :=
  ⟨BitVec.extractLsb'_append_eq_right,
    (BitVec.extractLsb'_append_eq_of_le (xhi := r.place ++ r.launch) (xlo := r.index) (by decide)).trans BitVec.extractLsb'_append_eq_right,
    (BitVec.extractLsb'_append_eq_of_le (xhi := r.place ++ r.launch) (xlo := r.index) (by decide)).trans BitVec.extractLsb'_append_eq_left⟩

/-- R280, R282: the record read back is the one written, its first half as it stands in memory. -/
theorem ofBytes_written {m : Mem} (hm : m.wf = true) {addr tag : Nat} (ha : addr % 32 = 0) {r : SeedRec}
    (hentry : r.entry = (SeedRec.ofBytes (m.reads tag addr 32)).entry) (hframe : r.frame = (SeedRec.ofBytes (m.reads tag addr 32)).frame) :
    SeedRec.ofBytes ((m.apply (r.write addr tag)).reads tag addr 32) = r := by
  have hlen : (m.reads tag addr 16).length = 8 * 2 := reads_length ..
  have hlen' : (m.reads tag addr 16 ++ leBytes 8 r.unit.toNat).length = 8 * 3 := by simp [reads_length]
  have hunit (ys : List Byte) : word64 (m.reads tag addr 16 ++ (leBytes 8 r.unit.toNat ++ ys)) 2 = r.unit := by
    rw [show (2 : Nat) = 2 + 0 from rfl, word64_append hlen, word64_leBytes]
  have htail : word64 (m.reads tag addr 16 ++ (leBytes 8 r.unit.toNat ++ leBytes 8 r.tail.toNat)) 3 = r.tail := by
    rw [← List.append_assoc, show (3 : Nat) = 3 + 0 from rfl, word64_append hlen', ← List.append_nil (leBytes 8 r.tail.toNat), word64_leBytes]
  rw [reads_record] at hentry hframe
  rw [SeedRec.write, reads_written hm ha (by simp), SeedRec.ofBytes, hunit, htail, word64_left (by omega), word64_left (by omega)]
  have hfirst : word64 (m.reads tag addr 16) 0 = r.entry := (word64_left (by omega) _).symm.trans hentry.symm
  have hsecond : word64 (m.reads tag addr 16) 1 = r.frame := (word64_left (by omega) _).symm.trans hframe.symm
  obtain ⟨hjoin, hflags⟩ := unit_fields r
  obtain ⟨hindex, hlaunch, hplace⟩ := tail_fields r
  rw [hfirst, hsecond, hjoin, hflags, hindex, hlaunch, hplace]

/-- R282: no byte but 31:16 of the record is written. -/
theorem byte_beside_record {m : Mem} (hm : m.wf = true) (r : SeedRec) {addr tag b : Nat} (h : b < addr + 16 ∨ addr + 32 ≤ b) :
    (m.apply (r.write addr tag)).byte b = m.byte b := by
  refine byte_apply_out hm _ ?_
  have hlen : (r.write addr tag).data.length = 16 := by simp [SeedRec.write, MWrite.plain]
  show b < addr + 16 ∨ addr + 16 + (r.write addr tag).data.length ≤ b
  omega

/-! ## The record's address and its request -/

section RecordPlace

variable {s : State} {c : Fin 192} {st : Strand} {a : BitVec 5}

theorem setSt_recordPlace (s : State) (c : Fin 192) (st st' : Strand) (a : BitVec 5) : (s.setSt c st).recordPlace c st' a = s.recordPlace c st' a := by
  simp only [State.recordPlace, setSt_sPlace]

theorem recordPlace_poison (ha : st.xp a = true) : s.recordPlace c st a = .error .poison := if_pos ha

theorem recordPlace_misaligned (ha : st.xp a = false) (hal : (st.xv a).toNat % 32 ≠ 0) : s.recordPlace c st a = .error .misalign := by
  simp [State.recordPlace, ha, hal]

theorem recordPlace_noPlace (ha : st.xp a = false) (hal : (st.xv a).toNat % 32 = 0) {x : Cause} (hx : s.sPlace c st 0 (st.xv a) .rw = .error x) :
    s.recordPlace c st a = .error x := by
  simp only [State.recordPlace, ha, hal, hx]
  rfl

/-- R125, R126: the checks of a record that has a place. -/
theorem recordPlace_placed (ha : st.xp a = false) (hal : (st.xv a).toNat % 32 = 0) {pl : SPlace} (hp : s.sPlace c st 0 (st.xv a) .rw = .ok pl) :
    s.recordPlace c st a = if pl.gated then .error .remoteGated else if pl.disc then .error .discarded else .ok pl := by
  simp only [State.recordPlace, ha, hal, hp]
  rfl

/-- R125, R230: a record whose request has served, or that takes none, is asked for no more. -/
theorem recordAsk_met {pl : SPlace} (h : RecordMet st pl) : s.recordAsk c st pl = none := by
  unfold State.recordAsk
  by_cases hbm : pl.addr < 2 ^ 40
  · obtain ⟨n, hn⟩ := h hbm
    rw [hn]
    simp
  · have hb : isHbm pl.addr = false := decide_eq_false hbm
    simp [hb]

/-- R230: a word awaits its request's slot, or room in the queue of its stack. -/
theorem recordAsk_waits {pl : SPlace} (hbm : pl.addr < 2 ^ 40)
    (h : (∃ n, st.recReq = some (n, false)) ∨ (st.recReq = none ∧ s.cores[c].reqStalls (pl.addr / 2 ^ 36) = true)) : s.recordAsk c st pl = some s := by
  have hb : isHbm pl.addr = true := decide_eq_true hbm
  unfold State.recordAsk
  rcases h with ⟨n, hn⟩ | ⟨hn, hk⟩
  · simp [hb, hn]
  · simp only [hb, hn, stackOf, hk]
    rfl

theorem recordAsk_asks {pl : SPlace} (hbm : pl.addr < 2 ^ 40) (hn : st.recReq = none) (hk : s.cores[c].reqStalls (pl.addr / 2 ^ 36) = false) :
    s.recordAsk c st pl = some ((s.setSt c { st with recReq := some (st.nextAid, false), nextAid := st.nextAid + 1 }).request c (pl.addr / 2 ^ 36)
      pl.addr 32 (.acc st.sid st.nextAid)) := by
  have hb : isHbm pl.addr = true := decide_eq_true hbm
  unfold State.recordAsk
  simp only [hb, hn, stackOf, hk]
  rfl

end RecordPlace

/-! ## What SOW and JOIN do once their record is at hand -/

/-- R125, R126, R396: a word that meets its record, and what it does there. -/
def recordWord (s : State) (c : Fin 192) (st : Strand) (a : BitVec 5) (pl : SPlace) (act : Res) : Res :=
  match s.recordAsk c st pl with
  | some s1 => .stall s1
  | none => if s.mem.bad (lineOf pl.addr) then (s.countRecord st pl).poisonTrap c st .s pl.addr (st.xv a) else act

/-- R125, R126: a word that has changed its record issues, or waits for room in the queue. -/
def recordDone (s : State) (c : Fin 192) (st : Strand) (pl : SPlace) : Option State → Res
  | none => .stall s
  | some s1 => .ok (s1.recordMet c st pl) .seq 1

/-- R125, R281: the checks of what a record holds. -/
def sowChecked (s : State) (c : Fin 192) (st : Strand) (a : BitVec 5) (p : BitVec 3) (pl : SPlace) (l : Launch) : Res :=
  let q := SeedRec.ofBytes (s.mem.reads pl.tag pl.addr 32)
  if q.reservedBad then .trap .reservedNonzero (st.xv a)
  else if q.gangTooBig l || q.overService s || decide (2 ^ 32 - 1 ≤ l.nextIndex) then .trap .privilege 0
  else recordDone s c st pl (s.sowAt l p (st.xv a) pl.addr pl.tag)

section Words

variable {s : State} {r : Bool} {a : BitVec 5} {p : BitVec 3} {st : Strand} {pl : SPlace} {l : Launch} (h : issuer s .s r false [a] = some st)
include h

theorem sow_trapped {x : Cause} (hr : s.recordPlace s.cur.core st a = .error x) : exec (.sow r a p) s = .next (trapped s .s st x (recordAddr st a)) := by
  rw [exec_sow, execSow]
  exact issue_trap h (by simp only [setSt_recordPlace, hr])

theorem join_trapped {x : Cause} (hr : s.recordPlace s.cur.core st a = .error x) : exec (.join r a) s = .next (trapped s .s st x (recordAddr st a)) := by
  rw [exec_join, execJoin]
  exact issue_trap h (by simp only [setSt_recordPlace, hr])

theorem sow_spec (hr : s.recordPlace s.cur.core st a = .ok pl) (hl : s.launch? st.launch = some l) : exec (.sow r a p) s =
    .next ((s.setSt s.cur.core st).conclude s.cur.core st .s (s.word? st .s)
      (if l.prioceil.toNat < p.toNat then .trap .privilege 0
      else if !st.accs.isEmpty then .stall (s.setSt s.cur.core st)
      else recordWord (s.setSt s.cur.core st) s.cur.core st a pl (sowChecked (s.setSt s.cur.core st) s.cur.core st a p pl l))) := by
  have hl' : (s.setSt s.cur.core st).launch? st.launch = some l := hl
  rw [exec_sow, execSow, issue_body h]
  simp only [setSt_recordPlace, hr, hl', recordWord, sowChecked]
  cases (s.setSt s.cur.core st).recordAsk s.cur.core st pl with
  | some s1 => rfl
  | none => cases (s.setSt s.cur.core st).sowAt l p (st.xv a) pl.addr pl.tag <;> rfl

theorem join_spec (hr : s.recordPlace s.cur.core st a = .ok pl) : exec (.join r a) s =
    .next ((s.setSt s.cur.core st).conclude s.cur.core st .s (s.word? st .s)
      (if !st.accs.isEmpty then .stall (s.setSt s.cur.core st)
      else recordWord (s.setSt s.cur.core st) s.cur.core st a pl
        (recordDone (s.setSt s.cur.core st) s.cur.core st pl ((s.setSt s.cur.core st).joinAt st.part (st.xv a) pl.addr pl.tag)))) := by
  rw [exec_join, execJoin, issue_body h]
  simp only [setSt_recordPlace, hr, recordWord]
  cases (s.setSt s.cur.core st).recordAsk s.cur.core st pl with
  | some s1 => rfl
  | none => cases (s.setSt s.cur.core st).joinAt st.part (st.xv a) pl.addr pl.tag <;> rfl

end Words

/-! ## Stalls and traps -/

section Outcomes

variable {s : State} {c : Fin 192} {st : Strand} {a : BitVec 5} {pl : SPlace} {act : Res}

theorem recordWord_met (hm : RecordMet st pl) (hb : s.mem.bad (pl.addr / 64) = false) : recordWord s c st a pl act = act := by
  have hb' : s.mem.bad (lineOf pl.addr) = false := hb
  rw [recordWord, recordAsk_met hm, hb']
  rfl

/-- R396: a poisoned record is counted on its die, and traps. -/
theorem recordWord_poisoned (hm : RecordMet st pl) (hb : s.mem.bad (pl.addr / 64) = true) : recordWord s c st a pl act =
    .stall (((if pl.addr < 2 ^ 40 then s else s.countBytes st.part st.launch pl.addr 32).countPoison pl.addr).raiseTrap c st .s .poison (st.xv a)) := by
  have hb' : s.mem.bad (lineOf pl.addr) = true := hb
  have hcount : s.countRecord st pl = if pl.addr < 2 ^ 40 then s else s.countBytes st.part st.launch pl.addr 32 :=
    if_congr decide_eq_true_iff rfl rfl
  rw [recordWord, recordAsk_met hm, hb', hcount]
  rfl

/-- R230: a record in HBM storage takes one request, whose slot the word awaits. -/
theorem record_asked (s : State) (c : Fin 192) (st : Strand) (pl : SPlace) :
    let t := ((s.setSt c st).setSt c { st with recReq := some (st.nextAid, false), nextAid := st.nextAid + 1 }).request c (pl.addr / 2 ^ 36) pl.addr 32
      (.acc st.sid st.nextAid)
    ∃ q : Req, t.mem = s.mem ∧ t.strand? c = some { st with recReq := some (st.nextAid, false), nextAid := st.nextAid + 1 } ∧
      t.cores[c].reqs = s.cores[c].reqs ++ [q] ∧ q.stack = pl.addr / 2 ^ 36 ∧ q.addr = pl.addr ∧ q.len = 32 ∧ q.who = .acc st.sid st.nextAid := by
  intro t
  obtain ⟨⟨q, hreqs, hstack, haddr, hlen, hwho⟩, hstrand, -, hmem, -, -, -⟩ :=
    request_keeps ((s.setSt c st).setSt c { st with recReq := some (st.nextAid, false), nextAid := st.nextAid + 1 }) c (pl.addr / 2 ^ 36) pl.addr 32
      (.acc st.sid st.nextAid)
  refine ⟨q, hmem, ?_, ?_, hstack, haddr, hlen, hwho⟩
  · rw [State.strand?, hstrand, setSt_core]
  · rw [hreqs, setSt_setSt, setSt_core]

section SowChecked

variable {l : Launch} {p : BitVec 3} (s : State) (c : Fin 192) (st : Strand) (a : BitVec 5) (pl : SPlace)

theorem sowChecked_reserved (hbad : (SeedRec.ofBytes (s.mem.reads pl.tag pl.addr 32)).reservedBad = true) :
    sowChecked s c st a p pl l = .trap .reservedNonzero (st.xv a) := if_pos hbad

theorem sowChecked_privilege (hbad : (SeedRec.ofBytes (s.mem.reads pl.tag pl.addr 32)).reservedBad = false)
    (hbig : (SeedRec.ofBytes (s.mem.reads pl.tag pl.addr 32)).gangTooBig l = true ∨
      (SeedRec.ofBytes (s.mem.reads pl.tag pl.addr 32)).overService s = true) : sowChecked s c st a p pl l = .trap .privilege 0 := by
  refine (if_neg (by rw [hbad]; exact Bool.false_ne_true)).trans (if_pos ?_)
  rcases hbig with hbig | hbig
  · rw [hbig, Bool.true_or, Bool.true_or]
  · rw [hbig, Bool.or_true, Bool.true_or]

theorem sowChecked_done (hbad : (SeedRec.ofBytes (s.mem.reads pl.tag pl.addr 32)).reservedBad = false)
    (hbig : (SeedRec.ofBytes (s.mem.reads pl.tag pl.addr 32)).gangTooBig l = false)
    (hover : (SeedRec.ofBytes (s.mem.reads pl.tag pl.addr 32)).overService s = false) (hnext : l.nextIndex < 2 ^ 32 - 1) :
    sowChecked s c st a p pl l = recordDone s c st pl (s.sowAt l p (st.xv a) pl.addr pl.tag) := by
  refine (if_neg (by rw [hbad]; exact Bool.false_ne_true)).trans (if_neg ?_)
  rw [hbig, hover, decide_eq_false (Nat.not_le.mpr hnext)]
  exact Bool.false_ne_true

end SowChecked

end Outcomes

section Met

variable {s : State} {r : Bool} {a : BitVec 5} {p : BitVec 3} {st : Strand} {pl : SPlace} {l : Launch} (h : issuer s .s r false [a] = some st)
  (hr : s.recordPlace s.cur.core st a = .ok pl) (hacc : st.accs = []) (hm : RecordMet st pl)
include h hr hacc hm

theorem sow_met (hl : s.launch? st.launch = some l) (hpr : p.toNat ≤ l.prioceil.toNat) (hb : s.mem.bad (pl.addr / 64) = false) : exec (.sow r a p) s =
    .next ((s.setSt s.cur.core st).conclude s.cur.core st .s (s.word? st .s) (sowChecked (s.setSt s.cur.core st) s.cur.core st a p pl l)) := by
  rw [sow_spec h hr hl, if_neg (Nat.not_lt.mpr hpr), hacc, recordWord_met (s := s.setSt s.cur.core st) hm hb, List.isEmpty_nil, Bool.not_true,
    if_neg Bool.false_ne_true]

theorem join_met (hb : s.mem.bad (pl.addr / 64) = false) : exec (.join r a) s =
    .next ((s.setSt s.cur.core st).conclude s.cur.core st .s (s.word? st .s)
      (recordDone (s.setSt s.cur.core st) s.cur.core st pl ((s.setSt s.cur.core st).joinAt st.part (st.xv a) pl.addr pl.tag))) := by
  rw [join_spec h hr, hacc, recordWord_met (s := s.setSt s.cur.core st) hm hb, List.isEmpty_nil, Bool.not_true, if_neg Bool.false_ne_true]

end Met

theorem seedWordsTrap : Claims.SeedWordsTrap := by
  intro s r a p st h c x both
  have both_of {e : Cause} (hr : s.recordPlace c st a = .error e) : both e (recordAddr st a) := ⟨sow_trapped h hr, join_trapped h hr⟩
  refine ⟨fun ha => ?_, fun ha hal => ?_, fun ha hal => ?_⟩
  · have haddr : recordAddr st a = 0 := if_pos ha
    exact haddr ▸ both_of (recordPlace_poison ha)
  · have haddr : recordAddr st a = x := by simp [recordAddr, ha, x]
    exact haddr ▸ both_of (recordPlace_misaligned ha hal)
  · have haddr : recordAddr st a = x := by simp [recordAddr, ha, x]
    rw [haddr] at both_of
    refine ⟨fun e he => both_of (recordPlace_noPlace ha hal he), fun pl hp => ⟨fun hg => ?_, fun hg hd => ?_, fun hg hd l hl => ?_⟩⟩
    · exact both_of (by rw [recordPlace_placed ha hal hp, if_pos hg])
    · exact both_of (by rw [recordPlace_placed ha hal hp, hg, hd]; rfl)
    · have hr : s.recordPlace c st a = .ok pl := by rw [recordPlace_placed ha hal hp, hg, hd]; rfl
      intro q s0 poisoned k
      have hjoin := join_spec h hr
      have hsow := sow_spec (p := p) h hr hl
      refine ⟨fun hacc hbm i hi => ?_, fun hpr => ?_, fun hacc => ⟨fun hpr => ?_, ?_⟩, fun hacc hm hb => ⟨fun hpr => ?_, ?_⟩,
        fun hacc hm hb hpr => ⟨fun hbad => ?_, fun hbad hbig => ?_⟩⟩
      · have hword : ∃ act, exec i s = .next ((s.setSt c st).conclude c st .s (s.word? st .s) (recordWord (s.setSt c st) c st a pl act)) := by
          rcases hi with ⟨rfl, hpr⟩ | rfl
          · exact ⟨_, by rw [hsow, if_neg (Nat.not_lt.mpr hpr), hacc]; rfl⟩
          · exact ⟨_, by rw [hjoin, hacc]; rfl⟩
        obtain ⟨act, hword⟩ := hword
        have hk : (s.setSt c st).cores[c].reqStalls k = s.cores[c].reqStalls k := by rw [setSt_core]; rfl
        refine ⟨fun hw => ?_, fun hn hs => ?_⟩
        · rw [hword, recordWord, recordAsk_waits hbm (by rw [hk]; exact hw)]
          rfl
        · obtain ⟨q, ht⟩ := record_asked s c st pl
          refine ⟨_, q, ?_, ht⟩
          rw [hword, recordWord, recordAsk_asks hbm hn (by rw [hk]; exact hs)]
          rfl
      · rw [hsow, if_pos hpr]
        rfl
      · rw [hsow, if_neg (Nat.not_lt.mpr hpr), List.isEmpty_eq_false_iff.mpr hacc]
        rfl
      · rw [hjoin, List.isEmpty_eq_false_iff.mpr hacc]
        rfl
      · rw [hsow, if_neg (Nat.not_lt.mpr hpr), hacc, recordWord_poisoned (s := s.setSt s.cur.core st) hm hb]
        rfl
      · rw [hjoin, hacc, recordWord_poisoned (s := s.setSt s.cur.core st) hm hb]
        rfl
      · rw [sow_met h hr hacc hm hl hpr hb, sowChecked_reserved (s.setSt s.cur.core st) _ _ _ _ hbad]
        rfl
      · rw [sow_met h hr hacc hm hl hpr hb, sowChecked_privilege (s.setSt s.cur.core st) _ _ _ _ hbad hbig]
        rfl

/-! ## What an issued SOW or JOIN leaves -/

/-- R292, R319: counting a record's bytes leaves all but the partitions' traffic. -/
theorem countRecord_eq (s : State) (st : Strand) (pl : SPlace) :
    ∃ ps, s.countRecord st pl = { s with parts := ps } ∧ ∀ k : Fin 64, (ps[k]).queues = (s.parts[k]).queues := by
  have hcount : s.countRecord st pl = s ∨ s.countRecord st pl = s.addTraffic st.part 32 := by
    unfold State.countRecord State.countBytes
    split
    · exact .inl rfl
    · split
      · exact .inl rfl
      · exact .inr rfl
  rcases hcount with h | h
  · exact ⟨s.parts, h, fun _ => rfl⟩
  · refine ⟨_, h, fun k => ?_⟩
    by_cases hk : k = st.part
    · subst hk
      simp
    · simp [Vector.getElem_set_ne, Fin.val_ne_of_ne (Ne.symm hk)]

theorem recordMet_left {s s1 : State} {c : Fin 192} {st : Strand} (hcores : s1.cores = (s.setSt c st).cores) (hclusters : s1.clusters = s.clusters)
    (pl : SPlace) (w : Option W32) :
    let t := (s1.recordMet c st pl).finish c .s w .seq 1
    t.strand? c = some ({ st with recReq := none }.advance .s (s.cyc c) w .seq 1) ∧ t.mem = s1.mem ∧ t.launches = s1.launches ∧
      ∀ k : Fin 64, (t.parts[k]).queues = (s1.parts[k]).queues := by
  obtain ⟨ps, hcount, hqueues⟩ := countRecord_eq s1 st pl
  have hcyc : (State.setSt { s1 with parts := ps } c { st with recReq := none }).cyc c = s.cyc c := by
    rw [setSt_cyc, ← setSt_cyc s c c st]
    simp only [State.cyc, hcores, hclusters]
    rfl
  rw [State.recordMet, hcount, finish_of_strand (setSt_strand? ..), hcyc]
  exact ⟨congrArg Core.strand (setCore_core ..), rfl, rfl, hqueues⟩

/-- A partition with one seed more in a queue. -/
def queued (q : Partition) (prio : BitVec 3) (sd : Seed) : Partition :=
  { q with queues := q.queues.set prio.toNat (q.queues[prio.toNat] ++ [sd]) }

theorem queued_same (q : Partition) (prio : BitVec 3) (sd : Seed) : (queued q prio sd).queues[prio.toNat] = q.queues[prio.toNat] ++ [sd] := by
  simp [queued]

theorem queued_other (q : Partition) {prio : BitVec 3} (sd : Seed) {i : Fin 8} (h : i.val ≠ prio.toNat) : (queued q prio sd).queues[i] = q.queues[i] := by
  simp [queued, Vector.getElem_set_ne, h.symm]

/-- R284: a seed joins its queue; the seed's own entry in memory, where it has storage, is all else that changes. -/
theorem placeSeed_spec (s : State) (p : Fin 64) (prio : BitVec 3) (sd : Seed) :
    let t := s.placeSeed p prio sd
    t.cores = s.cores ∧ t.clusters = s.clusters ∧ t.launches = s.launches ∧
      ∃ a, t.parts = s.parts.set p (queued s.parts[p] prio { sd with phys := a }) := by
  intro t
  simp only [t, State.placeSeed]
  split
  · exact ⟨rfl, rfl, rfl, _, rfl⟩
  · exact ⟨rfl, rfl, rfl, _, rfl⟩

/-- R282: the record as SOW leaves it, its counter above zero or zero. -/
theorem sow_waiting {q : SeedRec} (h : q.join ≠ 0) (l : Launch) (prio : BitVec 3) : q.sow l prio =
    ({ q with flags := ((q.flags &&& ~~~7#32) ||| prio.zeroExtend 32) ||| 0x80#32, index := BitVec.ofNat 32 l.nextIndex,
              launch := BitVec.ofNat 16 l.id }, false) := by
  rw [SeedRec.sow, if_neg h]

theorem sow_ready {q : SeedRec} (h : q.join = 0) (l : Launch) (prio : BitVec 3) : q.sow l prio =
    ({ q with flags := (q.flags &&& ~~~7#32) ||| prio.zeroExtend 32, index := BitVec.ofNat 32 l.nextIndex,
              launch := BitVec.ofNat 16 l.id }, true) := by
  rw [SeedRec.sow, if_pos h]

section SowAt

variable {s : State} {l : Launch} {prio : BitVec 3} {dev : W64} {addr tag : Nat}

/-- R282: a record with a counter above zero waits in memory. -/
theorem sowAt_waits {q : SeedRec} (hq : SeedRec.ofBytes (s.mem.reads tag addr 32) = q) (hs : q.sown = false) (hj : q.join ≠ 0) :
    s.sowAt l prio dev addr tag = some ((s.commit (((q.sow l prio).1).write addr tag)).setLaunch
      { l with nextIndex := l.nextIndex + 1, live := l.live + 1, sown := (addr, dev) :: l.sown }) := by
  rw [State.sowAt, hq, hs, sow_waiting hj]
  rfl

/-- R282, R284: a seed with a counter of zero is placed at once, where its queue has a free entry. -/
theorem sowAt_placed {q : SeedRec} (hq : SeedRec.ofBytes (s.mem.reads tag addr 32) = q) (hs : q.sown = false) (hj : q.join = 0) :
    s.sowAt l prio dev addr tag = if s.hasRoom l.part prio then
      some (((s.commit (((q.sow l prio).1).write addr tag)).setLaunch
        { l with nextIndex := l.nextIndex + 1, live := l.live + 1 }).placeSeed l.part prio (((q.sow l prio).1).seed dev))
    else none := by
  rw [State.sowAt, hq, hs, sow_ready hj]
  cases s.hasRoom l.part prio <;> rfl

end SowAt

section JoinAt

variable {s : State} {p : Fin 64} {dev : W64} {addr tag : Nat} {q : SeedRec} (hq : SeedRec.ofBytes (s.mem.reads tag addr 32) = q)
include hq

theorem joinAt_zero (hj : q.join = 0) : s.joinAt p dev addr tag = some s := by
  rw [State.joinAt, hq]
  exact if_pos hj

/-- R282: a counter that falls, and places nothing. -/
theorem joinAt_counts (hj : q.join ≠ 0) (h : q.join ≠ 1 ∨ q.sown = false) :
    s.joinAt p dev addr tag = some (s.commit (SeedRec.write { q with join := q.join - 1 } addr tag)) := by
  have hone : ¬(q.join - 1 == 0 && q.sown) = true := by
    rcases h with h | h
    · have hne : q.join - 1 ≠ 0 := fun h0 => h (by rw [← BitVec.sub_add_cancel q.join 1, h0]; rfl)
      rw [beq_eq_false_iff_ne.mpr hne, Bool.false_and]
      exact Bool.false_ne_true
    · rw [h, Bool.and_false]
      exact Bool.false_ne_true
  rw [State.joinAt, hq]
  exact (if_neg hj).trans (if_neg hone)

/-- R282, R286: a counter that falls to zero places the sown record, where its queue has a free entry. -/
theorem joinAt_places (hj : q.join = 1) (hs : q.sown = true) (hr : q.resume = false) :
    let q' : SeedRec := { q with join := q.join - 1, flags := q.flags &&& ~~~0x80#32 }
    let x := (s.commit (q'.write addr tag)).sownAt q.launch.toNat addr dev
    s.joinAt p dev addr tag = if s.hasRoom p q.prio then some (x.1.placeSeed p q.prio (q'.seed x.2)) else none := by
  intro q' x
  have hne : ¬q.join = 0 := by rw [hj]; decide
  have hone : (q.join - 1 == 0 && q.sown) = true := by rw [hj, hs]; rfl
  have hresume : ¬q.resume = true := by rw [hr]; exact Bool.false_ne_true
  rw [State.joinAt, hq]
  exact (if_neg hne).trans ((if_pos hone).trans (if_neg hresume))

end JoinAt

/-- R286: of the launch alone the list of its waiting records changes. -/
theorem sownAt_keeps (s : State) (launch addr : Nat) (dev : W64) :
    let t := (s.sownAt launch addr dev).1
    t.cores = s.cores ∧ t.clusters = s.clusters ∧ t.parts = s.parts := by
  intro t
  unfold t State.sownAt
  split
  · exact ⟨rfl, rfl, rfl⟩
  · split <;> exact ⟨rfl, rfl, rfl⟩

/-- R284: what a word leaves that has placed a seed. -/
theorem placed_left {s s2 : State} {c : Fin 192} {st : Strand} (hcores : s2.cores = (s.setSt c st).cores) (hclusters : s2.clusters = s.clusters)
    (p : Fin 64) (prio : BitVec 3) (sd : Seed) (pl : SPlace) (w : Option W32) :
    let t := ((s2.placeSeed p prio sd).recordMet c st pl).finish c .s w .seq 1
    t.strand? c = some ({ st with recReq := none }.advance .s (s.cyc c) w .seq 1) ∧ t.launches = s2.launches ∧
      ∃ a, (t.parts[p]).queues[prio.toNat] = (s2.parts[p]).queues[prio.toNat] ++ [{ sd with phys := a }] ∧
        ∀ i : Fin 8, i.val ≠ prio.toNat → (t.parts[p]).queues[i] = (s2.parts[p]).queues[i] := by
  intro t
  obtain ⟨hco, hcl, hla, a, hparts⟩ := placeSeed_spec s2 p prio sd
  obtain ⟨hstrand, -, hlaunches, hqueues⟩ := recordMet_left (hco.trans hcores) (hcl.trans hclusters) pl w
  have hp : (s2.placeSeed p prio sd).parts[p] = queued s2.parts[p] prio { sd with phys := a } := by rw [hparts]; simp
  refine ⟨hstrand, hlaunches.trans hla, a, ?_, fun i hi => ?_⟩
  · rw [hqueues p, hp, queued_same]
  · rw [hqueues p, hp, queued_other _ _ hi]

/-- R292, R319: a strand put back does not change what is counted. -/
theorem setSt_countRecord (s : State) (c : Fin 192) (st st' : Strand) (pl : SPlace) :
    (s.setSt c st).countRecord st' pl = (s.countRecord st' pl).setSt c st := by
  unfold State.countRecord
  split
  · rfl
  · next hbm =>
    unfold State.countBytes
    split
    · rfl
    · rfl

theorem recordDone_issues (s s1 : State) (c : Fin 192) (st : Strand) (pl : SPlace) (w : Option W32) :
    s.conclude c st .s w (recordDone s c st pl (some s1)) = (s1.recordMet c st pl).finish c .s w .seq 1 := rfl

theorem recordDone_stalls (s : State) (c : Fin 192) (st : Strand) (pl : SPlace) (w : Option W32) :
    s.conclude c st .s w (recordDone s c st pl none) = s := rfl

/-! ## The obligation -/

theorem sowWords : Claims.SowWords := by
  intro s r a p st pl l h c ha hal hp hg hd hb hl q hpr hbad hbig hover hnext hacc hs hm haddr hmet flags left
  have hr : s.recordPlace c st a = .ok pl := by rw [recordPlace_placed ha hal hp, hg, hd]; rfl
  have hexec := sow_met h hr hacc hmet hl hpr hb
  rw [sowChecked_done (s.setSt s.cur.core st) _ _ _ _ hbad hbig hover hnext] at hexec
  have hq : SeedRec.ofBytes ((s.setSt s.cur.core st).mem.reads pl.tag pl.addr 32) = q := rfl
  have hlaunch {t : State} {m : Launch} {w : MWrite} (ht : t.launches = (((s.setSt s.cur.core st).commit w).setLaunch m).launches)
      (hid : m.id = l.id) : t.launch? l.id = some m := by
    have hl' : ((s.setSt s.cur.core st).commit w).launch? l.id = some l := launch_id hl ▸ hl
    rw [State.launch?, ht, ← State.launch?, launch?_setLaunch hl', if_pos hid.symm]
  refine ⟨fun hj => ?_, fun hj hroom => ?_, fun hj hroom => ?_⟩
  · rw [sowAt_waits hq hs hj, sow_waiting hj, recordDone_issues] at hexec
    obtain ⟨hstrand, hmem, hlaunches, hqueues⟩ := recordMet_left (s := s) (c := s.cur.core) (st := st)
      (s1 := ((s.setSt s.cur.core st).commit (((q.sow l p).1).write pl.addr pl.tag)).setLaunch
        { l with nextIndex := l.nextIndex + 1, live := l.live + 1, sown := (pl.addr, st.xv a) :: l.sown }) rfl rfl pl (s.word? st .s)
    rw [sow_waiting hj] at hstrand hmem hlaunches hqueues
    refine ⟨_, hexec, hstrand, hqueues, ?_, fun b hb => ?_, hlaunch hlaunches rfl⟩
    · rw [hmem]
      exact ofBytes_written hm haddr rfl rfl
    · rw [hmem]
      exact byte_beside_record hm _ hb
  · have hroom' : (s.setSt s.cur.core st).hasRoom l.part p = true := hroom
    rw [sowAt_placed hq hs hj, if_pos hroom', sow_ready hj, recordDone_issues] at hexec
    obtain ⟨hstrand, hlaunches, phys, hsame, hother⟩ := placed_left (s := s) (c := s.cur.core) (st := st)
      (s2 := ((s.setSt s.cur.core st).commit (((q.sow l p).1).write pl.addr pl.tag)).setLaunch
        { l with nextIndex := l.nextIndex + 1, live := l.live + 1 }) rfl rfl l.part p (((q.sow l p).1).seed (st.xv a)) pl (s.word? st .s)
    rw [sow_ready hj] at hstrand hlaunches hsame hother
    obtain ⟨-, hflags⟩ := unit_fields (q.sow l p).1
    obtain ⟨hindex, hnumber, hplace⟩ := tail_fields (q.sow l p).1
    rw [sow_ready hj] at hflags hindex hnumber hplace
    exact ⟨_, _, hexec, hstrand, hsame, hother, rfl, rfl, rfl, hflags, hplace, hnumber, hindex, hlaunch hlaunches rfl⟩
  · have hroom' : (s.setSt s.cur.core st).hasRoom l.part p = false := hroom
    rw [sowAt_placed hq hs hj, hroom', if_neg Bool.false_ne_true, recordDone_stalls] at hexec
    exact hexec

theorem joinWords : Claims.JoinWords := by
  intro s r a st pl h c ha hal hp hg hd hb hacc hm haddr hmet q left
  have hr : s.recordPlace c st a = .ok pl := by rw [recordPlace_placed ha hal hp, hg, hd]; rfl
  have hexec := join_met h hr hacc hmet hb
  have hq : SeedRec.ofBytes ((s.setSt s.cur.core st).mem.reads pl.tag pl.addr 32) = q := rfl
  refine ⟨fun hj => ?_, fun hj hn => ?_, fun hj hs hres hroom => ?_, fun hj hs hres hroom => ?_⟩
  · rw [joinAt_zero hq hj, recordDone_issues] at hexec
    obtain ⟨ps, hcount, -⟩ := countRecord_eq s st pl
    have hcounted : s.countRecord st pl = if pl.addr < 2 ^ 40 then s else s.countBytes st.part st.launch pl.addr 32 :=
      if_congr decide_eq_true_iff rfl rfl
    rw [hexec, ← hcounted]
    refine congrArg Host.Outcome.next (finish_moved (by rw [hcount]) ?_)
    rw [State.recordMet, setSt_countRecord, setSt_setSt]
  · rw [joinAt_counts hq hj hn, recordDone_issues] at hexec
    obtain ⟨hstrand, hmem, hlaunches, hqueues⟩ := recordMet_left (s := s) (c := s.cur.core) (st := st)
      (s1 := (s.setSt s.cur.core st).commit (SeedRec.write { q with join := q.join - 1 } pl.addr pl.tag)) rfl rfl pl (s.word? st .s)
    refine ⟨_, hexec, hstrand, hqueues, hlaunches, ?_, fun b hb => ?_⟩
    · rw [hmem]
      exact ofBytes_written hm haddr rfl rfl
    · rw [hmem]
      exact byte_beside_record hm _ hb
  · have hroom' : (s.setSt s.cur.core st).hasRoom st.part q.prio = true := hroom
    rw [joinAt_places hq hj hs hres, if_pos hroom', recordDone_issues] at hexec
    obtain ⟨hcores, hclusters, hparts⟩ := sownAt_keeps ((s.setSt s.cur.core st).commit
      (SeedRec.write { q with join := q.join - 1, flags := q.flags &&& ~~~0x80#32 } pl.addr pl.tag)) q.launch.toNat pl.addr (st.xv a)
    obtain ⟨hstrand, -, phys, hsame, -⟩ := placed_left (s := s) hcores hclusters st.part q.prio
      (SeedRec.seed { q with join := q.join - 1, flags := q.flags &&& ~~~0x80#32 } _) pl (s.word? st .s)
    rw [hparts] at hsame
    exact ⟨_, _, hexec, hstrand, hsame, rfl, rfl⟩
  · have hroom' : (s.setSt s.cur.core st).hasRoom st.part q.prio = false := hroom
    rw [joinAt_places hq hj hs hres, hroom', if_neg Bool.false_ne_true, recordDone_stalls] at hexec
    exact hexec

/-- Settles O14: both words meet their record alike (`sow_met`, `join_met`); `sowAt_waits`, `sowAt_placed`, `joinAt_counts` and `joinAt_places` say
what becomes of it, and `ofBytes_written` that the record reads back as it was written. -/
theorem seedWords : Obligations.SeedWords := ⟨sowWords, joinWords, seedWordsTrap⟩

end Sys2Proof.Proofs
end
